-- ==== Sys2Proof/Word.lean ====
section
/-!
DEFINITION. Word.lean: the word types of the block.
Registers are 32 bits wide (20 R477), doorbells and status words 64 (03 R62, R85), memory is addressed by the byte (20 R474).
-/

namespace Sys2Proof

/-- One byte of memory or of a message. -/
abbrev Byte := BitVec 8
/-- One register (20 R477). -/
abbrev Word32 := BitVec 32
/-- One doorbell, status word or pair of registers. -/
abbrev Word64 := BitVec 64
/-- One vector register of a Wick, 256 bytes (05 R134). -/
abbrev VWord := BitVec 2048

end Sys2Proof
end

