-- ==== Sys2Proof/Config.lean ====
section
/-!
DEFINITION. Config.lean: the signed configuration as data (19 R461; its records have no byte layout in the spec beyond
their head, log entry 8), and the values the spec leaves open, as constants without a body (log entry 7).
-/

namespace Sys2Proof.Machine

open Sys2Proof

/-! ## Partitions (02 R43) -/

/-- A DDR-4 region (02 Table 6): one owner, further partitions that may read it or write it. -/
structure DdrRegion where
  base : Nat
  size : Nat
  owner : Nat
  readers : BitVec 8
  writers : BitVec 8
  deriving DecidableEq, Repr

/-- A partition's resources (02 Table 6). Criticality is 3 to 0 for C3 to C0, none for P0 and P3; banks are (Lantern,
bank) pairs; pins are ranges (first queue, count) of pinned contexts (03 R59). -/
structure PartCfg where
  crit : Option Nat
  wicks : BitVec 512
  banks : List (Nat × Nat)
  qbase : Nat
  qcount : Nat
  tagMin : Nat
  tagMax : Nat
  pins : List (Nat × Nat)
  minSvn : Nat
  deriving DecidableEq, Repr

/-- The masters that carry a requester identifier in Cormer mode (02 R55): a Wick with its DMA engine, the engines of a
Sconce, a Chimney engine, a PCIe function. -/
inductive Master where
  | wick (w : Nat)
  | sconce (k : Nat)
  | chimney (n : Nat)
  | dma (w : Nat)
  | pcie (h f : Nat)
  deriving DecidableEq, Repr

/-- A Cormer firewall window (02 Table 8). -/
structure FwWin where
  base : Nat
  rid : BitVec 12
  ridMask : BitVec 12
  rd : Bool
  wr : Bool
  limit : Nat
  part : Nat
  rsvd : Bool
  deriving DecidableEq, Repr

/-- A window of a group's schedule (02 Table 4). -/
structure WinCfg where
  group : Nat
  k : Nat
  start : Nat
  len : Nat
  part : Nat
  kind : Nat
  deriving DecidableEq, Repr

/-- The frame record (19 Table 5, TYPE 0x03). -/
structure FrameCfg where
  tickSrc : Bool
  tickEdge : Bool
  ftickOutEn : Bool
  pubUs : Nat
  planUs : Nat
  maintStart : Nat
  maintLen : Nat
  periodUs : Nat
  phaseUs : Nat
  groupMap : Nat
  wins : List WinCfg
  deriving DecidableEq, Repr

/-- A guarantee entry (13 R336): bandwidth in 100 MB/s, window in 10 µs. -/
structure GuarCfg where
  part : Nat
  tc : Nat
  bw : Nat
  win : Nat
  deriving DecidableEq, Repr

/-- The Regulator record (19 Table 5, TYPE 0x05). -/
structure RglCfg where
  pclass : BitVec 64
  slots : List (Nat × Nat × Nat)
  tc0port : BitVec 32
  derate : Nat
  urg : List (Nat × Nat × Nat × Nat)
  guars : List GuarCfg
  deriving DecidableEq, Repr

/-- A Snuffer table (11 Table 2). Times in µs but HOLD_HZN and HB_TMO in ms; `m1` is the FP32 pattern. -/
structure SnTable where
  chanA : Nat
  chanB : Nat
  subA : Nat
  subB : Nat
  pubUs : Nat
  periodUs : Nat
  watch : Nat
  poll : Nat
  guard_ : Nat
  m1 : Word32
  agreeMin : Nat
  critR : Nat
  minCmp : Nat
  holdHzn : Nat
  hbEn : Bool
  hbTmo : Nat
  tickTol : Nat
  gatePort : Nat
  gateQ : Nat
  hdr : List Byte
  streams : BitVec 16
  sig : List Word32
  action : List Nat
  tblVer : Word32
  deriving DecidableEq, Repr

/-- The header of a signed object (19 Table 4) and how its checks that rest on cryptography go: the hash of the key in
its trailer, whether the signature verifies, and its digest (19 R455, R456). -/
structure ObjHead where
  magic : Nat
  ver : Nat
  kind : Nat
  keyslot : Nat
  arbCommit : Bool
  serial : Nat
  svn : Nat
  target : Nat
  bodyLen : Nat
  bind : Nat
  zerosOk : Bool
  keyHash : Nat
  sigOk : Bool
  digest : Nat
  deriving DecidableEq, Repr

/-- A Snuffer table as a signed object of KIND 5. -/
structure SnObj where
  head : ObjHead
  table : SnTable
  deriving DecidableEq, Repr

/-! ## Sensors, Ethernet, guest (16, 15) -/

/-- One pyramid level of a camera stream entry (16 Table 2). -/
structure LevelCfg where
  factor : Nat
  fmt : Nat
  halo : Nat
  h0 : Nat
  h1 : Nat
  deriving DecidableEq, Repr

/-- A stream's pipeline record (16 R395, Table 4): knee points, black levels, gains (U8.8), colour matrix and offset as
FP32 patterns, tone table. -/
structure PipeCfg where
  knees : List (Nat × Nat)
  black : List Nat
  gains : List Nat
  colour : List Word32
  tone : List Nat
  deriving DecidableEq, Repr

/-- A camera stream entry (16 Table 2). DT is the bits of the RAW type. -/
structure CamCfg where
  en : Bool
  rx : Nat
  vc : Nat
  dt : Nat
  cfa : Nat
  width : Nat
  height : Nat
  fcsrc : Nat
  fcoff : Nat
  close : Nat
  part0 : Nat
  part1 : Nat
  dual : Bool
  lvls : List LevelCfg
  pipe : PipeCfg
  deriving DecidableEq, Repr

/-- An Ethernet stream entry (16 R402). -/
structure EthStream where
  t : Nat
  part : Nat
  handle : Nat
  slot : Nat
  nslot : Nat
  nlate : Nat
  close : Nat
  deriving DecidableEq, Repr

/-- What a classification rule does with a frame (16 R401). -/
inductive EthAction where
  | drop
  | stream (t : Nat)
  | hostq (q : Nat)
  deriving DecidableEq, Repr

/-- A classification rule (16 R401); `none` is a field that is not enabled. -/
structure EthRule where
  ports : BitVec 8
  etype : Option Nat
  vlan : Option Nat
  ipver : Option Nat
  src : Nat
  srcMask : Nat
  dport : Option Nat
  sport : Option Nat
  act : EthAction
  deriving DecidableEq, Repr

/-- A ring of a transmit queue or host receive queue (16 R403, R404): `tx` with 8 × port + queue, or the host receive
queue's number. -/
structure EtqCfg where
  tx : Bool
  idx : Nat
  part : Nat
  handle : Nat
  log2n : Nat
  tc : Nat
  vec : Nat
  deriving DecidableEq, Repr

/-- The Ethernet record (19 Table 5, TYPE 0x09). -/
structure EthCfg where
  streams : List EthStream
  rules : List EthRule
  rings : List EtqCfg
  maxlen : List Nat
  servoPort : Nat
  gm : Bool
  deriving DecidableEq, Repr

/-- The guest record (19 Table 5, TYPE 0x0A): qualified dies (vendor, part, revision) and GST_CFG. -/
structure GuestCfg where
  quals : List (Nat × Nat × Nat)
  part : Nat
  rateMax : Nat
  x32 : Bool
  deriving DecidableEq, Repr

/-- A register preset (19 R462); `rsvd` says whether bytes 12 to 15 are nonzero. -/
structure Preset where
  page : Nat
  off : Nat
  mask : Word32
  val : Word32
  rsvd : Bool
  deriving DecidableEq, Repr

/-- A signed configuration (19 R461). `types` lists the record types in the body, in order; `cormer`, `windows` and
`rids` are Cormer mode's (02 R54, R55). -/
structure Cfg where
  types : List Nat
  cormer : Bool
  tickLog : Nat
  guardBase : Nat
  ctxBase : Nat
  psBase : Nat
  psSize : Nat
  parts : List PartCfg
  regions : List DdrRegion
  windows : List FwWin
  rids : List (Master × Nat)
  frame : FrameCfg
  rgl : RglCfg
  snA : SnObj
  snB : SnObj
  cams : List CamCfg
  eth : EthCfg
  guest : Option GuestCfg
  mapOwner : Nat
  mapReaders : BitVec 8
  segown : List (Nat × Word32)
  stKinds : Nat
  lnkThr : Option (Nat × Nat)
  presets : List Preset
  deriving DecidableEq, Repr

/-- A frame record with the reset values of the frame registers (02 Table 2, 17 Table 1). -/
def FrameCfg.empty : FrameCfg :=
  { tickSrc := false, tickEdge := false, ftickOutEn := false, pubUs := 45000, planUs := 40000, maintStart := 46000
    maintLen := 200, periodUs := 50000, phaseUs := 0, groupMap := 0, wins := [] }

/-- A partition without resources. -/
def PartCfg.empty : PartCfg :=
  { crit := none, wicks := 0, banks := [], qbase := 0, qcount := 0, tagMin := 0, tagMax := 0, pins := [], minSvn := 0 }

/-- A signed-object header of zeros. -/
def ObjHead.empty : ObjHead :=
  { magic := 0, ver := 0, kind := 0, keyslot := 0, arbCommit := false, serial := 0, svn := 0, target := 0, bodyLen := 0
    bind := 0, zerosOk := true, keyHash := 0, sigOk := false, digest := 0 }

/-- A Snuffer table of zeros. -/
def SnTable.empty : SnTable :=
  { chanA := 0, chanB := 0, subA := 0, subB := 0, pubUs := 0, periodUs := 0, watch := 0, poll := 0, guard_ := 0, m1 := 0
    agreeMin := 0, critR := 0, minCmp := 0, holdHzn := 0, hbEn := false, hbTmo := 0, tickTol := 0, gatePort := 0
    gateQ := 0, hdr := [], streams := 0, sig := [], action := [], tblVer := 0 }

/-- The configuration before boot step 6 has loaded one: nothing in it. -/
def Cfg.empty : Cfg :=
  { types := [], cormer := false, tickLog := 0, guardBase := 0, ctxBase := 0, psBase := 0, psSize := 0, parts := []
    regions := [], windows := [], rids := [], frame := FrameCfg.empty
    rgl := { pclass := 0, slots := [], tc0port := 0, derate := 0xB852, urg := [], guars := [] }
    snA := { head := ObjHead.empty, table := SnTable.empty }, snB := { head := ObjHead.empty, table := SnTable.empty }
    cams := [], eth := { streams := [], rules := [], rings := [], maxlen := [], servoPort := 0, gm := false }
    guest := none, mapOwner := 0, mapReaders := 0, segown := [], stKinds := 0, lnkThr := none, presets := [] }

/-- MIN and MAX of a partition for which the configuration gives no allowance (03 Table 12). -/
def defaultTags (p : Nat) : Nat × Nat :=
  match p with
  | 0 => (1024, 4096)
  | 1 => (16384, 32768)
  | 2 => (8192, 16384)
  | 3 => (2048, 4096)
  | _ => (1024, 8192)

/-- The resources of partition `p`; one that the configuration does not list has none but the default tag allowance. -/
def Cfg.part (c : Cfg) (p : Nat) : PartCfg :=
  c.parts.getD p { PartCfg.empty with tagMin := (defaultTags p).1, tagMax := (defaultTags p).2 }

/-- A configuration update (19 R464): frame records and guarantee entries. -/
structure Update where
  types : List Nat
  frame : Option FrameCfg
  guars : List GuarCfg
  deriving DecidableEq, Repr

/-- A section of a model package (19 R465). -/
inductive PkgSec where
  | program (idx : Nat) (bytes : List Byte)
  | data (handle off : Nat) (bytes : List Byte)
  deriving DecidableEq, Repr

/-- The board record of a firmware image (14 R348 to R352): density in Gb, x16 or x8, rank arrangement (1, 2, 3 for one,
two, one and a spare), grade in MT/s, tRC and turnaround in ns, refresh mode, the eight address masks. -/
structure BoardRec where
  dens : Nat
  x16 : Bool
  ranks : Nat
  grade : Nat
  trc : Nat
  turn : Nat
  ref2x : Bool
  masks : List Nat
  deriving DecidableEq, Repr

/-- The body of a signed object (19 R455). -/
inductive ObjBody where
  | empty
  | image (board : BoardRec)
  | config (c : Cfg)
  | update (u : Update)
  | package (secs : List PkgSec)
  | table (t : SnTable)
  deriving DecidableEq, Repr

/-- A signed object (19 R455). -/
structure SignedObj where
  head : ObjHead
  body : ObjBody
  deriving DecidableEq, Repr

/-! ## Free values (log entry 7)

Each stands for a value the spec does not state. None has a body, so nothing can be proved about which value it is;
`n` is the number of the draw. -/

/-- How many units in the last place, and in which direction, an approximate function is off for an input: a function
of the operation and of the input's bits (06 R166, R174). -/
opaque Config.approx : Nat → Nat → Int
/-- Whether an approximate function whose result underflows becomes zero for an input (06 R166). -/
opaque Config.flush : Nat → Nat → Bool
/-- The sign of an exact zero sum of terms of opposite sign, by the rounding selected (06 R163 names none). -/
opaque Config.zeroSign : Nat → Bool
/-- A free 32-bit value. -/
opaque Config.freeWord : Nat → Word32
/-- A free byte: position `i` of draw `n`. -/
opaque Config.freeByte : Nat → Nat → Byte
/-- A free natural number. -/
opaque Config.freeNat : Nat → Nat
/-- Where in a scratchpad the built-in attention program keeps its ring of 4 pages (08 R210 gives no address). -/
opaque Config.apwRing : Nat
/-- The number of a unit's port on its die, by Regulator port (15 Table 2 gives the field and no numbering). -/
opaque Config.nodePort : Nat → Nat
/-- The LC module, 0 or 1, that carries the traffic of a port of a Lantern (15 R381 gives each module a fixed half). -/
opaque Config.lcHalf : Nat → Nat
/-- The Chimney's part number, revision and adapter latencies in its DCD (15 Table 5). -/
opaque Config.chimneyId : Nat → Nat
/-- Unpack of 16 Table 4: the 20-bit value of pixel `x` of a line of packed RAW bytes, for RAW of a number of bits. The spec
gives neither the packing nor where the bits of a narrower type lie. -/
opaque Config.rawSample : Nat → List Byte → Nat → BitVec 20
/-- Whether a division of the pixel stages that leaves a remainder rounds up, of dividend and divisor (16 Table 4 names no
rounding for the piecewise-linear expansion, the gains and the 2 × 2 average). -/
opaque Config.pixelUp : Nat → Nat → Bool
/-- Demosaic of 16 Table 4, whose gradient-directed weights the spec does not give: of the colour filter, the rows of site values
processed so far, and the row, column and plane. -/
opaque Config.demosaic : Nat → List (List Nat) → Nat → Nat → Nat → Nat
/-- Tone of 16 Table 4, whose indexing by log₂ and interpolation the spec does not give bit for bit: of the table and the
FP32 value. -/
opaque Config.tone : List Nat → Word32 → BitVec 16
/-- The CRC-32C of a stream's test lines (11 R296, whose pattern the spec does not give): a function of the stream entry,
its number and F mod 16. -/
opaque Config.guardCrc : CamCfg → Nat → Nat → Word32
/-- Whether the parity of 12 R301 makes the number of ones odd, which the spec does not say. -/
opaque Config.parityOdd : Bool
/-- Waidon's JEP106 manufacturer code (21 R495), which the spec does not give. -/
opaque Config.jep106 : BitVec 11
/-- Byte `i` of the device key's signature over a message (19 R471): the key comes from DEVSECRET, which the spec does not
give. -/
opaque Config.deviceSign : List Byte → Nat → Byte
/-- The VDD_Ln voltage in mV of a Lantern for a grant step of 25 MHz, from the fuse trim (22 R498, whose values the spec does not
give). -/
opaque Config.vddTrim : Nat → Nat → Nat
/-- PL_n of 18 R438 in mW: the leakage of Lantern `n` at a temperature code, from the fuse trim. -/
opaque Config.leakage : Nat → Nat → Nat

end Sys2Proof.Machine
end

