-- ==== Sys2Proof/Syntax.lean ====
section
/-!
DEFINITION. Syntax.lean: the commands of the block, one constructor of Instr per row of the opcode table, and the
plain data their operands are made of.
The table gives its rows no operands; the operands are the model's (log entry 1): what the environment must say for
the step to be determined. `e` is the number of TCLK edges (4 ns each) that pass before the event.
-/

namespace Sys2Proof

open Sys2Proof.Machine

/-- Who reads or writes a register, a doorbell or an aperture (16 R408, 20 R482, R483): a host function of a PCIe
port (function 0 is PF0, function n + 1 is the VF of Pn), Flint's firmware, or JTAG. -/
inductive Writer where
  | host (port fn : Nat)
  | flint
  | jtag
  deriving DecidableEq, Repr

/-- What the lines of one read come back as (12 R303): every one as it was written; one whose first read fails its check and whose
repeat passes, at the address given; one whose repeat fails too, a stored error at the address given; or the line at an address
with the errors given, a byte value for each of its 64 bytes and of its 8 check bytes, on the first read and on the repeat: then the
code of that memory decides (12 R301, 14 R354). -/
inductive ReadCheck where
  | ok
  | reread (addr : Nat)
  | stored (addr : Nat)
  | flips (addr : Nat) (first again : List Nat)
  deriving DecidableEq, Repr

/-- The Chimney engines that keep one input queue per traffic class (03 R81). -/
inductive Engine where
  | copy | ccu | pru | xcu
  deriving DecidableEq, Repr

/-- The Snuffers (11 R276). -/
inductive Sn where
  | a | b
  deriving DecidableEq, Repr

/-- The faults that end a unit (05 Table 17), and in Cormer mode an access the firewall denies (02 R55). -/
inductive UnitErr where
  | dataError | poisoned | misaligned | lengthExceeds | countExceeds | partition | deadline | firewall
  deriving DecidableEq, Repr

/-- A scoreboard entry: a private entry of a Wick, or a shared entry of a job on a Lantern (04 R102). -/
inductive SbEntry where
  | priv (wick idx : Nat)
  | shared (tag lantern idx : Nat)
  deriving DecidableEq, Repr

/-- LOOP (05 Table 10). -/
structure LoopF where
  l : BitVec 2
  csrc : Bool
  sc : BitVec 5
  cnt : BitVec 16
  body : BitVec 13
  deriving DecidableEq, Repr

/-- WAIT (05 Table 10). -/
structure WaitF where
  tok : BitVec 9
  n : BitVec 16
  deriving DecidableEq, Repr

/-- ARRIVE (05 Table 10). -/
structure ArriveF where
  tok : BitVec 9
  peer : Bool
  su : BitVec 5
  deriving DecidableEq, Repr

/-- FENCE (05 Table 10). -/
structure FenceF where
  dma : Bool
  eng : Bool
  st : Bool
  deriving DecidableEq, Repr

/-- Format S (05 Table 9). -/
structure SFields where
  sd : BitVec 5
  sa : BitVec 5
  sb : BitVec 5
  i : Bool
  ln : BitVec 2
  imm : BitVec 32
  deriving DecidableEq, Repr

/-- Format V (05 Table 9). -/
structure VFields where
  vd : BitVec 6
  va : BitVec 6
  vb : BitVec 6
  vc : BitVec 6
  pg : BitVec 3
  pn : Bool
  ty : BitVec 2
  rnd : BitVec 2
  sat : Bool
  bs : Bool
  pd : BitVec 3
  cc : BitVec 3
  fc : BitVec 8
  deriving DecidableEq, Repr

/-- Format M (05 Table 9). -/
structure MFields where
  v : BitVec 6
  sa : BitVec 5
  post : Bool
  imm : BitVec 20
  pg : BitVec 3
  pn : Bool
  t : BitVec 2
  col : BitVec 5
  cl : BitVec 2
  cle : Bool
  deriving DecidableEq, Repr

/-- The companion of an MMA (05 Table 15). -/
inductive Companion where
  | none
  | trd (v : BitVec 6) (t : BitVec 2) (col : BitVec 5) (cl : BitVec 2) (cle : Bool)
  | vst (v : BitVec 6) (s : BitVec 5)
  | saddi (s : BitVec 5) (imm : BitVec 10)
  | arrive (tok : BitVec 6)
  deriving DecidableEq, Repr

/-- Format T (05 Table 9). -/
structure TFields where
  tile : BitVec 2
  zero : Bool
  fmt : BitVec 4
  sa : BitVec 5
  sb : BitVec 5
  inca : Bool
  incb : Bool
  ssc : BitVec 5
  comp : Companion
  deriving DecidableEq, Repr

/-- Format D (05 Table 9). -/
structure DFields where
  dir : Bool
  ch : BitVec 2
  sr : BitVec 5
  sl : BitVec 5
  shape : BitVec 6
  ref : BitVec 5
  tok : BitVec 9
  su : BitVec 5
  deriving DecidableEq, Repr

/-- CMB (05 Table 16). -/
structure CmbF where
  grp : BitVec 6
  sr : BitVec 5
  sd : BitVec 5
  tok : BitVec 9
  deriving DecidableEq, Repr

/-- SORTI (05 Table 16). -/
structure SortiF where
  sr : BitVec 5
  sd : BitVec 5
  sn : BitVec 5
  sk : BitVec 5
  keyfmt : BitVec 2
  order : Bool
  tok : BitVec 9
  deriving DecidableEq, Repr

/-- A message of the cross-link (11 R276, R290): the other Snuffer's verdict, or its SAFE-state message. -/
inductive XMsg where
  | verdict
  | safeState
  deriving DecidableEq, Repr
/-- How a Snuffer's start tests end (11 R299): all pass, or the step and line that fail. -/
inductive StartRes where
  | pass
  | fail (step line : Nat)
  deriving DecidableEq, Repr
/-- A memory request at a Regulator port (13 R324 to R327): port, class, partition, the master it comes from, address, the
bytes it writes or none for a read, and its length. -/
structure MemReq where
  port : Nat
  tc : Nat
  part : Nat
  master : Master
  addr : Nat
  data : Option (List Byte)
  len : Nat
  deriving DecidableEq, Repr
/-- How the loopback test of a Reservoir bank's bonds ends (15 R368). -/
inductive BondRes where
  | pass
  | bank
  | shared
  deriving DecidableEq, Repr
/-- A die link (15 R370): module m of Lantern n to the Chimney, the ring link from Lantern n to Lantern n + 1, the guest
port. -/
inductive LinkMod where
  | lc (n m : Nat)
  | ring (n : Nat)
  | guest
  deriving DecidableEq, Repr

/-- One direction of a link: `up` from a Lantern or the guest to the Chimney, on the ring from Lantern n to n + 1. -/
structure Link where
  mod : LinkMod
  up : Bool
  deriving DecidableEq, Repr
/-- What a guest die sends (15 R387): a read or write request with its class, partition, address and bytes, or an
INTERRUPT message. -/
inductive GuestReq where
  | access (tc part addr len : Nat) (data : Option (List Byte))
  | interrupt (vec : Nat)
  deriving DecidableEq, Repr
/-- A PCIe request that arrives in Ember (16 R408; 18 R431): a read of a register of a page or of anything else, or a posted
write to a register, a doorbell or an aperture, by a function. -/
inductive PcieReq where
  | readReg (fn page off size : Nat)
  | readOther (size : Nat)
  | writeReg (fn page off size : Nat) (v : Word64)
  | bell (fn qid : Nat) (v : Word64)
  | aperture (fn ap off : Nat) (data : List Byte)
  deriving DecidableEq, Repr
/-- One sample of the Trimmer (18 R436): per Lantern the hottest of its sensors, coded °C + 64, and its power in mW; the
package power in mW; the sensors at or above TJ.CRIT and the rails out of tolerance, by numbers of the environment's; per
channel the PHY temperature; per Lantern the busy fraction of the last completed frame, in millionths (18 R439). -/
structure TrimIn where
  temps : List Nat
  powers : List Nat
  pkg : Nat
  crit : List Nat
  rails : List Nat
  phys : List Nat
  busy : List Nat
  deriving DecidableEq, Repr
/-- What the Chimney takes from a guest die's DCD at link-up (15 R384): vendor, part, revision, features, widest width, rates,
window, vectors. -/
structure GuestBoot where
  vendor : Nat
  partId : Nat
  rev : Nat
  feat : Nat
  maxw : Nat
  rates : Nat
  gwin : Nat
  gvec : Nat
  deriving DecidableEq, Repr
/-- How a boot goes (19 Table 1), as far as the environment decides it: the TCLK edges from power good to the end of step 6 or
to the step that fails; whether every fuse field passes its check; how many reads of the image slot and of the
configuration fail; the records of the lifetime log that fail their CRC-32C, by place, the counters' after the events'; the (channel, rank) pairs that fail training and the PHY temperatures at training; the (link, lane)
pairs that fail and the links that do not train, by link key; the Wicks that fail their self-test; the DCDs, of 256 bytes, that
the Lanterns and the guest die answer with (15 R384). -/
structure BootIn where
  edges : Nat
  fuseOk : Bool
  imgBad : Nat
  cfgBad : Nat
  logBad : List Nat
  ranks : List (Nat × Nat)
  temps : List Nat
  lanes : List (Nat × Nat)
  links : List Nat
  wicks : List Nat
  dcds : List (List Byte)
  guest : Option (List Byte)
  deriving DecidableEq, Repr



/-- The commands: one constructor per row of the opcode table. -/
inductive Instr where
  /-- TBU_TICK (R422). -/
  | tbuTick (e : Nat)
  /-- FTICK_IN_EDGE (R34). -/
  | ftickInEdge (e : Nat) (rising : Bool)
  /-- SUBSTITUTE_TICK (R34). -/
  | substituteTick (e : Nat)
  /-- FRAME_ENABLE_WRITE (R35). -/
  | frameEnableWrite (w : Writer) (v : Word32)
  /-- REGISTER_WRITE (R17). -/
  | registerWrite (w : Writer) (page : Nat) (off : Nat) (size : Nat) (v : Word64)
  /-- LOCK_WRITE (R484). -/
  | lockWrite (w : Writer) (page : Nat) (v : Word32)
  /-- INT_STATUS_CLEAR (R485). -/
  | intStatusClear (w : Writer) (page : Nat) (v : Word32)
  /-- INT_FORCE_WRITE (R482). -/
  | intForceWrite (w : Writer) (page : Nat) (v : Word32)
  /-- COUNTER_LO_READ (R119). -/
  | counterLoRead (w : Writer) (page : Nat) (off : Nat) (size : Nat)
  /-- QUEUE_ENABLE (R61). -/
  | queueEnable (w : Writer) (p : Nat)
  /-- QUEUE_DISABLE (R61). -/
  | queueDisable (w : Writer) (p : Nat)
  /-- QUEUE_RESUME (R61). -/
  | queueResume (w : Writer) (p : Nat)
  /-- QUEUE_SKIP (R61). -/
  | queueSkip (w : Writer) (p : Nat)
  /-- DOORBELL (R62); `bad`: the context held on chip fails its check (R306). -/
  | doorbell (w : Writer) (qid : Nat) (v : Word64) (bad : Bool)
  /-- CONTEXT_FETCH_DONE (R59). -/
  | contextFetchDone (qid : Nat) (chk : ReadCheck)
  /-- DEQUEUE (R80); `bad`: the context held on chip fails its check (R306). -/
  | dequeue (bad : Bool)
  /-- DESCRIPTOR_ARRIVAL (R69). -/
  | descriptorArrival (qid : Nat) (chk : ReadCheck)
  /-- BUFFER_ENTRY_READ_DONE (R74). -/
  | bufferEntryReadDone (qid : Nat) (chk : ReadCheck)
  /-- JOB_START (R77). -/
  | jobStart (tag : Nat)
  /-- SELECTOR_READ_DONE (R125). -/
  | selectorReadDone (tag : Nat) (chk : ReadCheck)
  /-- JOB_COMPLETE (R129). -/
  | jobComplete (tag : Nat)
  /-- JOB_RETIRE (R79). -/
  | jobRetire (qid : Nat)
  /-- HOST_READ_TIMEOUT (R87). -/
  | hostReadTimeout (w : Writer) (page : Nat) (size : Nat)
  /-- DESCRIPTOR_NOP (R67). -/
  | descriptorNop (tag : Nat)
  /-- BARRIER (R68). -/
  | barrier (tag : Nat)
  /-- COPY (R76). -/
  | copy (tag : Nat)
  /-- COPY_UNIT_DONE (R76). -/
  | copyUnitDone (place : Nat) (chk : ReadCheck)
  /-- ENGINE_JOB_START (R81). -/
  | engineJobStart (eng : Engine) (place : Nat)
  /-- TILE_RUN (R120). -/
  | tileRun (tag : Nat)
  /-- UNIT_PLACE (R126); `chk` is how the read of the image or of the query rows goes (R303). -/
  | unitPlace (tag : Nat) (unit : Nat) (wicks : (List Nat)) (chk : ReadCheck)
  /-- UNIT_COMPLETE (R129). -/
  | unitComplete (wick : Nat)
  /-- UNIT_FAULT (R151). -/
  | unitFault (wick : Nat) (cause : UnitErr) (own : Bool)
  /-- UNIT_DUR_EXPIRED (R128). -/
  | unitDurExpired (wick : Nat)
  /-- UNIT_REEXECUTE (R307); `chk` as for UNIT_PLACE. -/
  | unitReexecute (tag : Nat) (unit : Nat) (wicks : (List Nat)) (chk : ReadCheck)
  /-- WICK_STOP_DONE (R106). -/
  | wickStopDone (wick : Nat)
  /-- SCOREBOARD_ARRIVAL (R103). -/
  | scoreboardArrival (ent : SbEntry) (chk : Bool)
  /-- WAIT_RELEASE (R140); `chk`: the scoreboard entry passes its check (R306). -/
  | waitRelease (wick : Nat) (chk : Bool)
  /-- STORE_DRAIN (R144). -/
  | storeDrain (wick : Nat)
  /-- NOP (R137). -/
  | tileNop (wick : Nat)
  /-- END (R137). -/
  | tileEnd (wick : Nat)
  /-- LOOP (R139). -/
  | tileLoop (wick : Nat) (f : LoopF)
  /-- WAIT (R140); `chk`: the scoreboard entry passes its check (R306). -/
  | tileWait (wick : Nat) (f : WaitF) (chk : Bool)
  /-- ARRIVE (R138). -/
  | tileArrive (wick : Nat) (f : ArriveF)
  /-- FENCE (R137). -/
  | tileFence (wick : Nat) (f : FenceF)
  /-- SADD (R141). -/
  | sadd (wick : Nat) (f : SFields)
  /-- SSUB (R141). -/
  | ssub (wick : Nat) (f : SFields)
  /-- SMUL (R141). -/
  | smul (wick : Nat) (f : SFields)
  /-- SAND (R141). -/
  | sand (wick : Nat) (f : SFields)
  /-- SOR (R141). -/
  | sor (wick : Nat) (f : SFields)
  /-- SXOR (R141). -/
  | sxor (wick : Nat) (f : SFields)
  /-- SSHL (R141). -/
  | sshl (wick : Nat) (f : SFields)
  /-- SSHR (R141). -/
  | sshr (wick : Nat) (f : SFields)
  /-- SMINU (R141). -/
  | sminu (wick : Nat) (f : SFields)
  /-- SMAXU (R141). -/
  | smaxu (wick : Nat) (f : SFields)
  /-- SLIX (R141). -/
  | slix (wick : Nat) (f : SFields)
  /-- VADD (R163). -/
  | vadd (wick : Nat) (f : VFields)
  /-- VSUB (R163). -/
  | vsub (wick : Nat) (f : VFields)
  /-- VMUL (R163). -/
  | vmul (wick : Nat) (f : VFields)
  /-- VFMA (R163). -/
  | vfma (wick : Nat) (f : VFields)
  /-- VMIN (R165). -/
  | vmin (wick : Nat) (f : VFields)
  /-- VMAX (R165). -/
  | vmax (wick : Nat) (f : VFields)
  /-- VAND (R143). -/
  | vand (wick : Nat) (f : VFields)
  /-- VOR (R143). -/
  | vor (wick : Nat) (f : VFields)
  /-- VXOR (R143). -/
  | vxor (wick : Nat) (f : VFields)
  /-- VSHL (R143). -/
  | vshl (wick : Nat) (f : VFields)
  /-- VSHR (R143). -/
  | vshr (wick : Nat) (f : VFields)
  /-- VCMP (R165). -/
  | vcmp (wick : Nat) (f : VFields)
  /-- VSEL (R143). -/
  | vsel (wick : Nat) (f : VFields)
  /-- VCVT (R167). -/
  | vcvt (wick : Nat) (f : VFields)
  /-- VEXP2 (R166). -/
  | vexp2 (wick : Nat) (f : VFields)
  /-- VLOG2 (R166). -/
  | vlog2 (wick : Nat) (f : VFields)
  /-- VRCP (R166). -/
  | vrcp (wick : Nat) (f : VFields)
  /-- VRSQ (R166). -/
  | vrsq (wick : Nat) (f : VFields)
  /-- VMOV (R141). -/
  | vmov (wick : Nat) (f : VFields)
  /-- VROT (R141). -/
  | vrot (wick : Nat) (f : VFields)
  /-- PSET (R141). -/
  | pset (wick : Nat) (f : VFields)
  /-- PLOG (R141). -/
  | plog (wick : Nat) (f : VFields)
  /-- VLD (R144). -/
  | vld (wick : Nat) (f : MFields) (chk : ReadCheck)
  /-- VST (R144). -/
  | vst (wick : Nat) (f : MFields)
  /-- TRD (R144). -/
  | trd (wick : Nat) (f : MFields)
  /-- TWR (R144). -/
  | twr (wick : Nat) (f : MFields)
  /-- MMA (R145). -/
  | mma (wick : Nat) (f : TFields) (chk : ReadCheck)
  /-- DMA (R147). -/
  | dma (wick : Nat) (f : DFields)
  /-- DMAG (R147). -/
  | dmag (wick : Nat) (f : DFields) (chk : ReadCheck)
  /-- DMA_COMMAND_COMPLETE (R101). -/
  | dmaCommandComplete (wick : Nat) (ch : Nat) (chk : ReadCheck)
  /-- CMB (R148). -/
  | cmb (wick : Nat) (f : CmbF)
  /-- COMBINE_FOLD (R114). -/
  | combineFold (tag : Nat) (grp : Nat) (unit : Nat) (chk : ReadCheck)
  /-- COMBINE_RESULT_WRITTEN (R114). -/
  | combineResultWritten (tag : Nat) (grp : Nat) (unit : Nat)
  /-- SORTI (R149). -/
  | sorti (wick : Nat) (f : SortiF)
  /-- SORT (R117). -/
  | sort (tag : Nat)
  /-- SORTER_JOB_DONE (R116). -/
  | sorterJobDone (scn : Nat) (chk : ReadCheck)
  /-- REGROUP (R183). -/
  | regroup (tag : Nat)
  /-- REGROUP_ROW_DONE (R185). -/
  | regroupRowDone (scn : Nat) (chk : ReadCheck)
  /-- CROP_RESIZE (R186). -/
  | cropResize (tag : Nat)
  /-- CROP_BOX_DONE (R187). -/
  | cropBoxDone (scn : Nat) (chk : ReadCheck)
  /-- ATTEND_PAGED (R203). -/
  | attendPaged (tag : Nat)
  /-- SEQ_DESCRIPTOR_CAPTURE (R197). -/
  | seqDescriptorCapture (tag : Nat) (seq : Nat) (chk : ReadCheck)
  /-- COARSE_SELECTION_DONE (R213). -/
  | coarseSelectionDone (tag : Nat) (seq : Nat) (rg : Nat) (chk : ReadCheck)
  /-- APW_PAGE_ARRIVE (R210). -/
  | apwPageArrive (wick : Nat) (chk : ReadCheck)
  /-- APW_TABLE_REREAD_DONE (R201). -/
  | apwTableRereadDone (tag : Nat) (seq : Nat) (chk : ReadCheck)
  /-- PAGE_SCORE (R214). -/
  | pageScore (tag : Nat)
  /-- XCU_VOTE (R235). -/
  | xcuVote (tag : Nat)
  /-- XCU_VOTE_DONE (R238). -/
  | xcuVoteDone (chk : ReadCheck) (e : Nat)
  /-- MAP_PUBLISH (R248). -/
  | mapPublish (tag : Nat) (chk : ReadCheck)
  /-- PUBLISH_COMPLETE (R245). -/
  | publishComplete
  /-- CCU_CHECK (R259). -/
  | ccuCheck (tag : Nat) (chk : ReadCheck)
  /-- PIPE_CHECK_START (R260). -/
  | pipeCheckStart (pipe : Nat)
  /-- PIPE_CHECK_DONE (R263). -/
  | pipeCheckDone (pipe : Nat) (chk : ReadCheck)
  /-- CHECK_CAP_EXPIRED (R260). -/
  | checkCapExpired (pipe : Nat)
  /-- PLANNING_DEADLINE (R264). -/
  | planningDeadline (e : Nat)
  /-- PROFILE (R265). -/
  | profile (tag : Nat) (chk : ReadCheck)
  /-- PROFILE_ALTERNATE_DONE (R267). -/
  | profileAlternateDone (chk : ReadCheck)
  /-- FINAL_CHECK_START (R270). -/
  | finalCheckStart (e : Nat)
  /-- FINAL_ALTERNATE_NAMED (R270). -/
  | finalAlternateNamed (e : Nat)
  /-- SELFTEST (R318). -/
  | selftest (tag : Nat)
  /-- SELFTEST_CHUNK_DONE (R320). -/
  | selftestChunkDone (tag : Nat) (tgt : Nat) (chunk : Nat) (sig : Word32) (same : Bool)
  /-- SNUFFER_POLL (R280). -/
  | snufferPoll (sn : Sn) (e : Nat) (chkA : ReadCheck) (chkB : ReadCheck)
  /-- SNUFFER_CUTOFF (R280). -/
  | snufferCutoff (sn : Sn) (e : Nat)
  /-- GATE_LOAD (R281). -/
  | gateLoad (chk : ReadCheck)
  /-- SNUFFER_COMPARE_DONE (R283). -/
  | snufferCompareDone (sn : Sn)
  /-- CROSSLINK_MESSAGE (R290). -/
  | crosslinkMessage (sn : Sn) (msg : XMsg) (crcOk : Bool)
  /-- VERDICT_TIMEOUT (R290). -/
  | verdictTimeout (e : Nat)
  /-- GATE_DECISION (R284). -/
  | gateDecision (e : Nat)
  /-- SAFE_TOGGLE (R292). -/
  | safeToggle (sn : Sn) (e : Nat)
  /-- HEARTBEAT_EDGE (R293). -/
  | heartbeatEdge (sn : Sn) (e : Nat) (width : Nat)
  /-- HEARTBEAT_TIMEOUT (R293). -/
  | heartbeatTimeout (sn : Sn) (e : Nat)
  /-- AGGREGATOR_PULSE (R295). -/
  | aggregatorPulse (sn : Sn) (line : Nat)
  /-- SNUFFER_RESET (R298). -/
  | snufferReset (sn : Sn)
  /-- SNUFFER_START_TESTS_DONE (R299). -/
  | snufferStartTestsDone (sn : Sn) (res : StartRes) (time10us : Nat)
  /-- MEMORY_REQUEST_ISSUE (R327). -/
  | memoryRequestIssue (req : MemReq)
  /-- MEMORY_RESPONSE (R327). -/
  | memoryResponse (id : Nat) (chk : ReadCheck) (e : Nat)
  /-- WRITE_BUFFER_DRAIN (R332). -/
  | writeBufferDrain (ch : Nat) (chk : ReadCheck)
  /-- REFRESH_DUE (R333). -/
  | refreshDue (ch : Nat) (rank : Nat)
  /-- GUARANTEE_WINDOW_END (R343). -/
  | guaranteeWindowEnd (p : Nat) (tc : Nat) (e : Nat)
  /-- GENTRY_WRITE (R339). -/
  | gentryWrite (w : Writer) (v : Word32)
  /-- SLOTS_WRITE (R328). -/
  | slotsWrite (w : Writer) (v : Word32)
  /-- MIGRATION_ROW_DONE (R362). -/
  | migrationRowDone (ch : Nat) (bad : (List Nat))
  /-- DDR_ALERT (R357). -/
  | ddrAlert (ch : Nat) (e : Nat)
  /-- DDR_ALERT_DEASSERT (R357). -/
  | ddrAlertDeassert (ch : Nat) (wcrc : Bool) (ranks : (List Nat))
  /-- MAINT_WINDOW_OPEN (R42). -/
  | maintWindowOpen (e : Nat)
  /-- RETRAIN_DONE (R360). -/
  | retrainDone (ch : Nat) (e : Nat) (temp : Nat) (good : Bool)
  /-- RETRAIN_OVERDUE (R360). -/
  | retrainOverdue (ch : Nat) (e : Nat)
  /-- RESERVOIR_BOND_TEST_DONE (R368). -/
  | reservoirBondTestDone (lantern : Nat) (bank : Nat) (res : BondRes)
  /-- FLIT_RECEIVE (R375). -/
  | flitReceive (link : Link) (flit : (List Byte)) (e : Nat)
  /-- LCTL_NAK (R375). -/
  | lctlNak (link : Link) (lseq : Nat)
  /-- LCTL_WIDTH (R379). -/
  | lctlWidth (link : Link) (st : Nat) (grp : Nat)
  /-- LCTL_LANETEST (R378). -/
  | lctlLanetest (link : Link)
  /-- LCTL_TESTRES (R378). -/
  | lctlTestres (link : Link) (mask : Word64)
  /-- LCTL_CREDIT (R375). -/
  | lctlCredit (link : Link) (credits : (List Nat))
  /-- LANE_WINDOW_EXPIRE (R378). -/
  | laneWindowExpire (e : Nat)
  /-- LANE_TEST_DONE (R378). -/
  | laneTestDone (link : Link) (mask : Word64) (fails : Bool)
  /-- WIDTH_STEP_DONE (R379). -/
  | widthStepDone (link : Link)
  /-- GUEST_REQUEST (R387). -/
  | guestRequest (req : GuestReq)
  /-- GUEST_REQUEST_TIMEOUT (R387). -/
  | guestRequestTimeout (id : Nat) (e : Nat)
  /-- CSI2_PACKET (R391). -/
  | csi2Packet (rx : Nat) (vc : Nat) (dt : Nat) (eccOk : Bool) (crcOk : Bool) (payload : (List Byte))
  /-- CSI2_FRAME_START (R216). -/
  | csi2FrameStart (rx : Nat) (vc : Nat) (num : Nat) (eccOk : Bool) (e : Nat)
  /-- CSI2_FRAME_END (R393). -/
  | csi2FrameEnd (rx : Nat) (vc : Nat) (eccOk : Bool) (e : Nat)
  /-- PXE_SLICE (R397). -/
  | pxeSlice (e : Nat)
  /-- INPUT_VERSION_CLOSE (R221). -/
  | inputVersionClose (kind : Nat) (stream : Nat) (e : Nat)
  /-- ETH_RX_FRAME (R401). -/
  | ethRxFrame (port : Nat) (bytes : (List Byte)) (fcsOk : Bool) (e : Nat) (dur : Nat)
  /-- ETQ_SW_WRITE (R404). -/
  | etqSwWrite (w : Writer) (page : Nat) (v : Word32)
  /-- ETH_TX_START (R405). -/
  | ethTxStart (port : Nat) (e : Nat)
  /-- ETH_TX_DONE (R404). -/
  | ethTxDone (port : Nat) (good : Bool) (e : Nat)
  /-- ETH_TX_LATE (R405). -/
  | ethTxLate (port : Nat) (q : Nat) (e : Nat)
  /-- ETH_LINK_DOWN (R406). -/
  | ethLinkDown (port : Nat)
  /-- APERTURE_ACCESS (R409). -/
  | apertureAccess (w : Writer) (ap : Nat) (off : Nat) (data : (Option (List Byte))) (len : Nat) (chk : ReadCheck)
  /-- APERTURE_READ_TIMEOUT (R411). -/
  | apertureReadTimeout (w : Writer) (ap : Nat) (len : Nat) (e : Nat)
  /-- PCH_AP_LO_WRITE (R409). -/
  | pchApLoWrite (w : Writer) (page : Nat) (v : Word32)
  /-- FUNCTION_LEVEL_RESET (R412). -/
  | functionLevelReset (port : Nat) (fn : Nat)
  /-- PCIE_LINK_DOWN (R412). -/
  | pcieLinkDown (port : Nat)
  /-- TBU_NOW_READ (R416). -/
  | tbuNowRead (w : Writer)
  /-- INCR_FRAC_WRITE (R415). -/
  | incrFracWrite (w : Writer) (v : Word32)
  /-- INCR_INT_WRITE (R415). -/
  | incrIntWrite (w : Writer) (v : Word32)
  /-- ADJ_NS_WRITE (R420). -/
  | adjNsWrite (w : Writer) (v : Word32)
  /-- SLEW_DONE (R420). -/
  | slewDone (e : Nat)
  /-- PTP_SYNC (R420). -/
  | ptpSync (e : Nat) (logInt : Int)
  /-- PTP_ANNOUNCE (R419). -/
  | ptpAnnounce (gm : Word64)
  /-- SYNC_TIMEOUT (R419). -/
  | syncTimeout (e : Nat)
  /-- ALARM_FIRE (R424). -/
  | alarmFire (e : Nat)
  /-- GLOW_ENTRY (R427). -/
  | glowEntry (e : Nat)
  /-- EMBER_ENTRY (R430). -/
  | emberEntry (e : Nat)
  /-- DARK_ENTRY (R433). -/
  | darkEntry (e : Nat)
  /-- WAKE (R434). -/
  | wake (pend : Nat) (e : Nat)
  /-- EMBER_EXIT_DONE (R432). -/
  | emberExitDone (e : Nat) (temps : (List (Nat × Nat))) (low : (List Nat))
  /-- EMBER_PCIE_REQUEST (R431). -/
  | emberPcieRequest (port : Nat) (req : PcieReq)
  /-- TRIMMER_SAMPLE (R436). -/
  | trimmerSample (e : Nat) (t : TrimIn)
  /-- TRIMMER_PERIOD (R437). -/
  | trimmerPeriod (e : Nat)
  /-- COOL_ALERT (R445). -/
  | coolAlert
  /-- CYCLE_SAMPLE (R446). -/
  | cycleSample (e : Nat)
  /-- LIFETIME_LOG_SAVE (R448). -/
  | lifetimeLogSave (e : Nat)
  /-- POWER_GOOD (R450). -/
  | powerGood (b : BootIn)
  /-- POWER_FAIL_RESET (R500). -/
  | powerFailReset
  /-- SNUFFER_SUPPLY_FAIL (R500). -/
  | snufferSupplyFail (sn : Sn)
  /-- AON_SUPPLY_LOSS (R500). -/
  | aonSupplyLoss
  /-- LOAD_PACKAGE (R466). -/
  | loadPackage (w : Writer) (o : SignedObj)
  /-- APPLY_UPDATE (R464). -/
  | applyUpdate (w : Writer) (o : SignedObj)
  /-- WRITE_CONFIG (R460). -/
  | writeConfig (w : Writer) (o : SignedObj)
  /-- WRITE_IMAGE (R459). -/
  | writeImage (w : Writer) (o : SignedObj)
  /-- REVOKE (R457). -/
  | revoke (w : Writer) (o : SignedObj) (fail : (Option Nat))
  /-- ATTEST (R471). -/
  | attest (w : Writer)
  /-- GET_CERT (R469). -/
  | getCert (w : Writer)
  /-- DEBUG_NONCE (R472). -/
  | debugNonce (w : Writer)
  /-- DEBUG_UNLOCK (R472). -/
  | debugUnlock (w : Writer) (o : SignedObj)
  /-- MAILBOX_COMMAND_DONE (R468). -/
  | mailboxCommandDone
  /-- KEY_DERIVATION_DONE (R469). -/
  | keyDerivationDone (e : Nat)
  /-- FREEZE_REQUEST (R487). -/
  | freezeRequest
  /-- DBG_FREEZE_WRITE (R487). -/
  | dbgFreezeWrite (w : Writer) (v : Word32)
  /-- FREEZE_COMPLETE (R488). -/
  | freezeComplete (lat : Nat)
  /-- DBG_SCAN_WRITE (R493). -/
  | dbgScanWrite (w : Writer) (v : Word32)
  /-- FREEZE_RELEASE (R494). -/
  | freezeRelease
  /-- EXTEST (R495). -/
  | extest
  /-- IDCODE (R495). -/
  | idcode
  /-- SAMPLE_PRELOAD (R495). -/
  | samplePreload (pins : (Option (List Bool)))
  /-- CLAMP (R495). -/
  | clamp
  /-- DBG_REG (R495). -/
  | dbgReg (addr : Nat) (rw : Nat) (data : Word32)
  /-- DBG_MEM (R492). -/
  | dbgMem (addr : Nat)
  /-- BYPASS (R495). -/
  | bypass (code : Nat)
  /-- EMBER_ENTRY_DONE (R430). -/
  | emberEntryDone (e : Nat)
  /-- SNUFFER_SUPPLY_RETURN (R500). -/
  | snufferSupplyReturn (sn : Sn)
  /-- ETH_LINK_UP (R399). -/
  | ethLinkUp (port : Nat) (rate : Nat)
  /-- PCIE_LINK_UP (R412). -/
  | pcieLinkUp (port : Nat)
  /-- COOL_ALERT_DEASSERT (R445). -/
  | coolAlertDeassert
  /-- MISALIGNED_REGISTER_READ (R477). -/
  | misalignedRegisterRead (w : Writer) (page : Nat) (off : Nat) (size : Nat)
  deriving DecidableEq, Repr

end Sys2Proof
end

