-- ==== Sys2Proof/WellFormed.lean ====
section
/-!
DEFINITION. WellFormed.lean: which commands are well formed: those whose operands lie in the ranges the spec gives. `exec` is
defined on every command; an operand that names nothing leaves the state as it is.
-/

namespace Sys2Proof

/-- A writer that exists: port 0 or 1, function 0 to 8 (16 R408). -/
def writerOk : Writer → Bool
  | .host p f => decide (p < 2) && decide (f < 9)
  | .flint => true
  | .jtag => true

/-- An error pattern: a byte value for each of 64 bytes and 8 check bytes (14 R348, R354). -/
def flipsOk (es : List Nat) : Bool := es.length == 72 && es.all fun b => decide (b < 256)

/-- The address of a read check lies in the address space (20 R474), and its errors are patterns of a line. -/
def chkOk : ReadCheck → Bool
  | .ok => true
  | .reread a => decide (a < 2 ^ 48)
  | .stored a => decide (a < 2 ^ 48)
  | .flips a e1 e2 => decide (a < 2 ^ 48) && flipsOk e1 && flipsOk e2

/-- An access size of the PCIe bus. -/
def sizeOk (n : Nat) : Bool := n == 1 || n == 2 || n == 4 || n == 8

/-- A link that a part of 8 Lanterns has (15 R370). -/
def linkOk (l : Link) : Bool :=
  match l.mod with
  | .lc n m => decide (n < 8) && decide (m < 2)
  | .ring n => decide (n < 8)
  | .guest => true

/-- Wick numbers (00 R7). -/
def wicksOk (ws : List Nat) : Bool := ws.all fun w => decide (w < 512)

/-- A memory request's port, class and partition (13 R324, R326). -/
def memReqOk (r : MemReq) : Bool := decide (r.port < 32) && decide (r.tc < 8) && decide (r.part < 8)

/-- A guest request's class and partition (15 R387). -/
def guestReqOk : GuestReq → Bool
  | .access tc part _ _ _ => decide (tc < 8) && decide (part < 8)
  | .interrupt _ => true

/-- A command whose operands lie in the ranges the spec gives. -/
def Instr.wellFormed (i : Instr) : Bool :=
  match i with
  | .tbuTick _ => true
  | .ftickInEdge _ _ => true
  | .substituteTick _ => true
  | .frameEnableWrite w _ => writerOk w
  | .registerWrite w page off size _ => writerOk w && decide (page < 4105) && decide (off < 4096) && sizeOk size
  | .lockWrite w page _ => writerOk w && decide (page < 4096)
  | .intStatusClear w page _ => writerOk w && decide (page < 4096)
  | .intForceWrite w page _ => writerOk w && decide (page < 4096)
  | .counterLoRead w page off size => writerOk w && decide (page < 4105) && decide (off < 4096) && sizeOk size
  | .queueEnable w p => writerOk w && decide (p < 8)
  | .queueDisable w p => writerOk w && decide (p < 8)
  | .queueResume w p => writerOk w && decide (p < 8)
  | .queueSkip w p => writerOk w && decide (p < 8)
  | .doorbell w qid _ _ => writerOk w && decide (qid < 2 ^ 18)
  | .contextFetchDone qid chk => decide (qid < 2 ^ 18) && chkOk chk
  | .dequeue _ => true
  | .descriptorArrival qid chk => decide (qid < 2 ^ 18) && chkOk chk
  | .bufferEntryReadDone qid chk => decide (qid < 2 ^ 18) && chkOk chk
  | .jobStart tag => decide (tag < 65536)
  | .selectorReadDone tag chk => decide (tag < 65536) && chkOk chk
  | .jobComplete tag => decide (tag < 65536)
  | .jobRetire qid => decide (qid < 2 ^ 18)
  | .hostReadTimeout w page size => writerOk w && decide (page < 4096) && sizeOk size
  | .descriptorNop tag => decide (tag < 65536)
  | .barrier tag => decide (tag < 65536)
  | .copy tag => decide (tag < 65536)
  | .copyUnitDone _ chk => chkOk chk
  | .engineJobStart _ _ => true
  | .tileRun tag => decide (tag < 65536)
  | .unitPlace tag unit wicks chk => decide (tag < 65536) && decide (unit < 65536) && wicksOk wicks && chkOk chk
  | .unitComplete wick => decide (wick < 512)
  | .unitFault wick _ _ => decide (wick < 512)
  | .unitDurExpired wick => decide (wick < 512)
  | .unitReexecute tag unit wicks chk => decide (tag < 65536) && decide (unit < 65536) && wicksOk wicks && chkOk chk
  | .wickStopDone wick => decide (wick < 512)
  | .scoreboardArrival _ _ => true
  | .waitRelease wick _ => decide (wick < 512)
  | .storeDrain wick => decide (wick < 512)
  | .tileNop wick => decide (wick < 512)
  | .tileEnd wick => decide (wick < 512)
  | .tileLoop wick _ => decide (wick < 512)
  | .tileWait wick _ _ => decide (wick < 512)
  | .tileArrive wick _ => decide (wick < 512)
  | .tileFence wick _ => decide (wick < 512)
  | .sadd wick _ => decide (wick < 512)
  | .ssub wick _ => decide (wick < 512)
  | .smul wick _ => decide (wick < 512)
  | .sand wick _ => decide (wick < 512)
  | .sor wick _ => decide (wick < 512)
  | .sxor wick _ => decide (wick < 512)
  | .sshl wick _ => decide (wick < 512)
  | .sshr wick _ => decide (wick < 512)
  | .sminu wick _ => decide (wick < 512)
  | .smaxu wick _ => decide (wick < 512)
  | .slix wick _ => decide (wick < 512)
  | .vadd wick _ => decide (wick < 512)
  | .vsub wick _ => decide (wick < 512)
  | .vmul wick _ => decide (wick < 512)
  | .vfma wick _ => decide (wick < 512)
  | .vmin wick _ => decide (wick < 512)
  | .vmax wick _ => decide (wick < 512)
  | .vand wick _ => decide (wick < 512)
  | .vor wick _ => decide (wick < 512)
  | .vxor wick _ => decide (wick < 512)
  | .vshl wick _ => decide (wick < 512)
  | .vshr wick _ => decide (wick < 512)
  | .vcmp wick _ => decide (wick < 512)
  | .vsel wick _ => decide (wick < 512)
  | .vcvt wick _ => decide (wick < 512)
  | .vexp2 wick _ => decide (wick < 512)
  | .vlog2 wick _ => decide (wick < 512)
  | .vrcp wick _ => decide (wick < 512)
  | .vrsq wick _ => decide (wick < 512)
  | .vmov wick _ => decide (wick < 512)
  | .vrot wick _ => decide (wick < 512)
  | .pset wick _ => decide (wick < 512)
  | .plog wick _ => decide (wick < 512)
  | .vld wick _ chk => decide (wick < 512) && chkOk chk
  | .vst wick _ => decide (wick < 512)
  | .trd wick _ => decide (wick < 512)
  | .twr wick _ => decide (wick < 512)
  | .mma wick _ chk => decide (wick < 512) && chkOk chk
  | .dma wick _ => decide (wick < 512)
  | .dmag wick _ chk => decide (wick < 512) && chkOk chk
  | .dmaCommandComplete wick ch chk => decide (wick < 512) && decide (ch < 4) && chkOk chk
  | .cmb wick _ => decide (wick < 512)
  | .combineFold tag grp unit chk => decide (tag < 65536) && decide (grp < 64) && decide (unit < 65536) && chkOk chk
  | .combineResultWritten tag grp unit => decide (tag < 65536) && decide (grp < 64) && decide (unit < 65536)
  | .sorti wick _ => decide (wick < 512)
  | .sort tag => decide (tag < 65536)
  | .sorterJobDone scn chk => decide (scn < 64) && chkOk chk
  | .regroup tag => decide (tag < 65536)
  | .regroupRowDone scn chk => decide (scn < 64) && chkOk chk
  | .cropResize tag => decide (tag < 65536)
  | .cropBoxDone scn chk => decide (scn < 64) && chkOk chk
  | .attendPaged tag => decide (tag < 65536)
  | .seqDescriptorCapture tag _ chk => decide (tag < 65536) && chkOk chk
  | .coarseSelectionDone tag _ _ chk => decide (tag < 65536) && chkOk chk
  | .apwPageArrive wick chk => decide (wick < 512) && chkOk chk
  | .apwTableRereadDone tag _ chk => decide (tag < 65536) && chkOk chk
  | .pageScore tag => decide (tag < 65536)
  | .xcuVote tag => decide (tag < 65536)
  | .xcuVoteDone chk _ => chkOk chk
  | .mapPublish tag chk => decide (tag < 65536) && chkOk chk
  | .publishComplete => true
  | .ccuCheck tag chk => decide (tag < 65536) && chkOk chk
  | .pipeCheckStart pipe => decide (pipe < 64)
  | .pipeCheckDone pipe chk => decide (pipe < 64) && chkOk chk
  | .checkCapExpired pipe => decide (pipe < 64)
  | .planningDeadline _ => true
  | .profile tag chk => decide (tag < 65536) && chkOk chk
  | .profileAlternateDone chk => chkOk chk
  | .finalCheckStart _ => true
  | .finalAlternateNamed _ => true
  | .selftest tag => decide (tag < 65536)
  | .selftestChunkDone tag _ _ _ _ => decide (tag < 65536)
  | .snufferPoll _ _ chkA chkB => chkOk chkA && chkOk chkB
  | .snufferCutoff _ _ => true
  | .gateLoad chk => chkOk chk
  | .snufferCompareDone _ => true
  | .crosslinkMessage _ _ _ => true
  | .verdictTimeout _ => true
  | .gateDecision _ => true
  | .safeToggle _ _ => true
  | .heartbeatEdge _ _ _ => true
  | .heartbeatTimeout _ _ => true
  | .aggregatorPulse _ line => decide (line < 512)
  | .snufferReset _ => true
  | .snufferStartTestsDone _ _ time10us => decide (time10us < 65536)
  | .memoryRequestIssue req => memReqOk req
  | .memoryResponse _ chk _ => chkOk chk
  | .writeBufferDrain ch chk => decide (ch < 16) && chkOk chk
  | .refreshDue ch rank => decide (ch < 16) && decide (rank < 2)
  | .guaranteeWindowEnd p tc _ => decide (p < 8) && decide (tc < 8)
  | .gentryWrite w _ => writerOk w
  | .slotsWrite w _ => writerOk w
  | .migrationRowDone ch _ => decide (ch < 16)
  | .ddrAlert ch _ => decide (ch < 16)
  | .ddrAlertDeassert ch _ ranks => decide (ch < 16) && (ranks.all fun r => decide (r < 2))
  | .maintWindowOpen _ => true
  | .retrainDone ch _ temp _ => decide (ch < 16) && decide (temp < 256)
  | .retrainOverdue ch _ => decide (ch < 16)
  | .reservoirBondTestDone lantern bank _ => decide (lantern < 8) && decide (bank < 64)
  | .flitReceive link flit _ => linkOk link && decide (flit.length = 80)
  | .lctlNak link lseq => linkOk link && decide (lseq < 256)
  | .lctlWidth link st grp => linkOk link && decide (st < 8) && decide (grp < 4)
  | .lctlLanetest link => linkOk link
  | .lctlTestres link _ => linkOk link
  | .lctlCredit link credits => linkOk link && decide (credits.length = 8)
  | .laneWindowExpire _ => true
  | .laneTestDone link _ _ => linkOk link
  | .widthStepDone link => linkOk link
  | .guestRequest req => guestReqOk req
  | .guestRequestTimeout _ _ => true
  | .csi2Packet rx vc dt _ _ _ => decide (rx < 16) && decide (vc < 16) && decide (dt < 64)
  | .csi2FrameStart rx vc num _ _ => decide (rx < 16) && decide (vc < 16) && decide (num < 65536)
  | .csi2FrameEnd rx vc _ _ => decide (rx < 16) && decide (vc < 16)
  | .pxeSlice _ => true
  | .inputVersionClose kind _ _ => decide (kind < 2)
  | .ethRxFrame port _ _ _ _ => decide (port < 8)
  | .etqSwWrite w page _ => writerOk w && decide (page < 4096)
  | .ethTxStart port _ => decide (port < 8)
  | .ethTxDone port _ _ => decide (port < 8)
  | .ethTxLate port q _ => decide (port < 8) && decide (q < 8)
  | .ethLinkDown port => decide (port < 8)
  | .apertureAccess w ap off _ _ chk => writerOk w && decide (ap < 64) && decide (off < 2 ^ 30) && chkOk chk
  | .apertureReadTimeout w ap _ _ => writerOk w && decide (ap < 64)
  | .pchApLoWrite w page _ => writerOk w && decide (page < 4096)
  | .functionLevelReset port fn => decide (port < 2) && decide (fn < 9)
  | .pcieLinkDown port => decide (port < 2)
  | .tbuNowRead w => writerOk w
  | .incrFracWrite w _ => writerOk w
  | .incrIntWrite w _ => writerOk w
  | .adjNsWrite w _ => writerOk w
  | .slewDone _ => true
  | .ptpSync _ _ => true
  | .ptpAnnounce _ => true
  | .syncTimeout _ => true
  | .alarmFire _ => true
  | .glowEntry _ => true
  | .emberEntry _ => true
  | .darkEntry _ => true
  | .wake pend _ => decide (pend < 2048)
  | .emberExitDone _ temps low => (temps.all fun x => decide (x.1 < 16) && decide (x.2 < 256)) && low.all fun c => decide (c < 16)
  | .emberPcieRequest port _ => decide (port < 2)
  | .trimmerSample _ _ => true
  | .trimmerPeriod _ => true
  | .coolAlert => true
  | .cycleSample _ => true
  | .lifetimeLogSave _ => true
  | .powerGood b => (b.temps.all fun t => decide (t < 256)) && (b.dcds.all fun d => d.length == 256) && b.guest.all fun d => d.length == 256
  | .powerFailReset => true
  | .snufferSupplyFail _ => true
  | .aonSupplyLoss => true
  | .loadPackage w _ => writerOk w
  | .applyUpdate w _ => writerOk w
  | .writeConfig w _ => writerOk w
  | .writeImage w _ => writerOk w
  | .revoke w _ _ => writerOk w
  | .attest w => writerOk w
  | .getCert w => writerOk w
  | .debugNonce w => writerOk w
  | .debugUnlock w _ => writerOk w
  | .mailboxCommandDone => true
  | .keyDerivationDone _ => true
  | .freezeRequest => true
  | .dbgFreezeWrite w _ => writerOk w
  | .freezeComplete lat => decide (lat < 65536)
  | .dbgScanWrite w _ => writerOk w
  | .freezeRelease => true
  | .extest => true
  | .idcode => true
  | .samplePreload _ => true
  | .clamp => true
  | .dbgReg addr rw _ => decide (addr < 2 ^ 48) && decide (rw < 4)
  | .dbgMem addr => decide (addr < 2 ^ 48)
  | .bypass code => decide (code < 256)
  | .emberEntryDone _ => true
  | .snufferSupplyReturn _ => true
  | .ethLinkUp port rate => decide (port < 8) && decide (rate < 8)
  | .pcieLinkUp port => decide (port < 2)
  | .coolAlertDeassert => true
  | .misalignedRegisterRead w page off size => writerOk w && decide (page < 4096) && decide (off < 4096) && sizeOk size

end Sys2Proof
end

