-- ==== Sys2Proof/Decode.lean ====
section
/-!
DEFINITION. Decode.lean: the opcode table gives no row any bits, so no word spells a command (log entry 5).
-/

namespace Sys2Proof

/-- The command a word of the table's bits spells: none, since no row of the table has bits. -/
def decodeTableWord (_nbits _w : Nat) : Option Instr := none

end Sys2Proof
end

