-- ==== Sys2Proof/Machine/Types.lean ====
section
/-!
DEFINITION. Types.lean: the plain data that State is made of: registers, versions, queues, jobs, Wicks, Sconces,
Snuffers and the verdict gate.
-/

namespace Sys2Proof.Machine

open Sys2Proof

/-! ## Registers and error codes -/

/-- The access codes of register fields (00 Table 5). -/
inductive Acc where
  | ro | rw | w1c | wo | rwl | rs
  deriving DecidableEq, Repr

/-- A register field: offset in its page, highest bit, lowest bit. -/
structure Fld where
  off : Nat
  hi : Nat
  lo : Nat
  deriving DecidableEq, Repr

/-- One row of a register table: field, access code and reset value (00 R14, R15). -/
structure FieldSpec where
  off : Nat
  hi : Nat
  lo : Nat
  acc : Acc
  rst : Nat
  deriving DecidableEq, Repr

/-- The blocks that own register pages (20 Table 2). -/
inductive Block where
  | fus | flt | pwr | trm | tbu | sna | snb | dbg | lmpFrame | lmpSched | lmpQueue | rgl | rglPort | dmc | dmcCh
  | ccu | pru | xcu | pxe | eth | etqTx | etqRx | pch | lnkC | gst | wck | scn | apw | lnk | rsv
  deriving DecidableEq, Repr

/-- The shared error codes (12 Table 2). -/
inductive Err where
  | ok | lengthExceedsExtent | misaligned | partitionViolation | firewallViolation | dataErrorDetected
  | recomputeExhausted | poisonedRead | pageTableMutated | staleMapEpoch | guaranteeRejected | guaranteeMissed
  | linkDegraded | linkFailed | signatureInvalid | deadlineMissed | cancelledByEpoch | unsupportedOpcode
  | queueHalted | testCoverageLapse | comparatorDispute | thermalLimit | unitQuarantined | timebaseHoldover
  | reservedNonzero | countExceedsLimit | rankRetired
  deriving DecidableEq, Repr

/-! ## Buffers and versions -/

/-- A captured buffer-table entry (03 Table 8). -/
structure BufEntry where
  base0 : Nat
  r : Bool
  w : Bool
  versioned : Bool
  host : Bool
  base1 : Nat
  size : Nat
  rsvd : Bool
  deriving DecidableEq, Repr

/-- A captured buffer reference of a job: its fields (03 Table 9), the captured entry, the directions it counts for,
and, once it is resolved at the job's start, the slot, the version and the write generation it read. -/
structure CRef where
  handle : Nat
  vsel : Nat
  off : Nat
  ent : BufEntry
  rd : Bool
  wr : Bool
  slot : Nat
  vid : Nat
  gen : Nat
  deriving DecidableEq, Repr

/-- The frame tag of a slot of a versioned buffer (02 R48): no version, older than every frame, or a frame. -/
inductive VTag where
  | none
  | initial
  | frame (f : Word32)
  deriving DecidableEq, Repr

/-- One slot of a versioned buffer: its tag, its write generation, and a number that changes whenever the slot comes
to hold another version or loses it (so that a reader can tell, 02 R50, R51). -/
structure VSlot where
  tag : VTag
  gen : Nat
  vid : Nat
  deriving DecidableEq, Repr

/-- A versioned buffer (02 R48): its two slots and the slot that holds the current committed version, none after that
slot has been retagged and until the next commit (02 R53). -/
structure VBuf where
  part : Nat
  handle : Nat
  slot0 : VSlot
  slot1 : VSlot
  committed : Option Nat
  deriving DecidableEq, Repr

/-- An open input version of a camera or Ethernet stream (09 R221, 16 R394): its frame, the slot it is written to in each
of its buffers as (partition, handle, slot), the stamp of the complete image a camera version holds, and the slots used,
late slots used and packets dropped of a point buffer. `key` is the stream's number, Ethernet streams from 64. -/
structure InVer where
  key : Nat
  frame : Word32
  bufs : List (Nat × Nat × Nat)
  image : Option Nat
  used : Nat
  lateUsed : Nat
  drops : Nat
  deriving DecidableEq, Repr

/-- A camera frame on its way (16 R390 to R398): its frame, stamp in ns and embedded counter; whether the counter has been
taken; its active lines received and how many of them are processed; whether further lines are discarded for want of room;
whether the frame has ended and whether its test lines have run. -/
structure CamFrame where
  frame : Word32
  stamp : Nat
  ctr : Nat
  ctrSeen : Bool
  lines : List (List Byte)
  done : Nat
  drop : Bool
  ended : Bool
  tested : Bool
  deriving DecidableEq, Repr

/-- An Ethernet packet of a stream that waits for its slot (16 R394): its stream, frame, stamp in ns, sequence number,
port, source address and payload. -/
structure EthPkt where
  t : Nat
  frame : Word32
  stamp : Nat
  seq : Nat
  port : Nat
  src : Nat
  payload : List Byte
  deriving DecidableEq, Repr

/-- The ingest engines (16; 09 R216 to R224): per stream the newest closed frame, the open versions, the camera frames on
their way, the time from which the Pixel Engine is free, the Ethernet packets that wait, the packets received per Ethernet
stream, the latest ticks as (epoch, ns), and the epoch of the last stepped tick. -/
structure Ingest where
  closed : List (Nat × Word32)
  vers : List InVer
  cams : List (Nat × List CamFrame)
  freeAt : Nat
  waiting : List EthPkt
  seqs : List (Nat × Nat)
  ticks : List (Word32 × Nat)
  stepped : Option Word32
  deriving DecidableEq, Repr

/-- The ingest engines with nothing received. -/
def Ingest.zero : Ingest :=
  { closed := [], vers := [], cams := [], freeAt := 0, waiting := [], seqs := [], ticks := [], stepped := none }

/-- A frame a MAC transmits (16 R404, R405): the gate's, or that of a queue; its bytes; its start on the counter in ns and
its end on TCLK. -/
structure EthTx where
  queue : Option Nat
  bytes : List Byte
  startNs : Nat
  endAt : Nat
  deriving DecidableEq, Repr

/-! ## Thermal control, power, fuses and flash (18, 19) -/

/-- The search for reversals of a Lantern's temperature (18 R446): direction (0 none yet, 1 up, 2 down), the lowest and
highest sample since the last reversal, and the temperature of that reversal. -/
structure CycSt where
  dir : Nat
  lo : Nat
  hi : Nat
  rev : Option Nat
  deriving DecidableEq, Repr

/-- The Trimmer (18 R436 to R448): the times of the last sample, cycle sample, period, save and fall of the duty; the
Lantern temperatures of the last second with their times, newest first; the last 10 package powers, newest first; the sums
of Lantern powers since the last tick and their number, and those of the frame before it; the busy fractions; per sensor at TJ.CRIT, and per rail out of
tolerance, the samples in a row; the cycle search and the counts per Lantern and bin, by 8 × Lantern + bin; the seconds in
Flame or Glow; whether the device has tripped; per Lantern the grant step whose voltage its supply is set to, 0 while the rail is
off (22 R498). -/
structure Trm where
  sampleAt : Nat
  cycAt : Nat
  perAt : Nat
  saveAt : Nat
  dutyAt : Nat
  hist : List (Nat × List Nat)
  pkg : List Nat
  pnSum : List Nat
  pnCnt : Nat
  pnLast : List Nat
  pnLastCnt : Nat
  busy : List Nat
  crit : List (Nat × Nat)
  rails : List (Nat × Nat)
  cyc : List (Nat × CycSt)
  counts : List (Nat × Nat)
  opSec : Nat
  tripped : Bool
  vset : List (Nat × Nat)
  deriving DecidableEq, Repr

/-- The Trimmer before its first sample. -/
def Trm.zero : Trm :=
  { sampleAt := 0, cycAt := 0, perAt := 0, saveAt := 0, dutyAt := 0, hist := [], pkg := [], pnSum := [], pnCnt := 0, pnLast := []
    pnLastCnt := 0, busy := [], crit := [], rails := [], cyc := [], counts := [], opSec := 0, tripped := false, vset := [] }

/-- The power machinery (18 R426 to R435): the last moment an activity of R427 was seen to begin or end, the entry into the
present state, the start of an entry sequence or of an exit from Ember in progress, whether the device is in Dark, and the
posted writes held in the wake buffers, oldest first, each with its port. -/
structure Pwr where
  lastAct : Nat
  since : Nat
  entering : Option Nat
  exiting : Option Nat
  dark : Bool
  held : List (Nat × PcieReq)
  deriving DecidableEq, Repr

/-- The power machinery at reset: the device waits for power good. -/
def Pwr.zero : Pwr := { lastAct := 0, since := 0, entering := none, exiting := none, dark := false, held := [] }

/-- The fuse array (19 Table 3): OPTIONS as FUS_CAPS shows it, SERIAL, the key hashes and their revocations, the two
anti-rollback counts, BONDSPARE per Reservoir, LANTERN_OK, and of TRIM each Lantern's PD in mW. -/
structure Fuses where
  options : Nat
  serial : Nat
  okh : List Nat
  okrev : Nat
  arbFw : Nat
  arbCfg : Nat
  bondSpare : List Nat
  lanternOk : Nat
  pd : List Nat
  deriving DecidableEq, Repr

/-- The fuses of a WRL-880-G0-A with one owner key (log entry 3). -/
def Fuses.initial : Fuses :=
  { options := 0x08, serial := 1, okh := [1, 0, 0, 0], okrev := 0, arbFw := 0, arbCfg := 0, bondSpare := List.replicate 8 0
    lanternOk := 0xFF, pd := List.replicate 8 36000 }

/-- The lifetime counters as the lifetime log holds them (18 R446 to R448): seconds in Flame or Glow, the counts per Lantern
and bin, and the two bits of TRM_LIFE_STATUS. -/
structure LifeRec where
  opSec : Nat
  counts : List (Nat × Nat)
  status : Nat
  deriving DecidableEq, Repr

/-- The flash (19 Table 2): the image slot, the configuration area, the events of the lifetime log, its counters, and the
certificate of the identity area. -/
structure Flash where
  image : Option SignedObj
  config : Option SignedObj
  events : List (Nat × Nat)
  life : LifeRec
  cert : List Byte
  deriving DecidableEq, Repr

/-- A flash with nothing programmed (log entry 3). -/
def Flash.blank : Flash :=
  { image := none, config := none, events := [], life := { opSec := 0, counts := [], status := 0 }, cert := [] }

/-! ## Debug and Flint (19, 21) -/

/-- A word of the SRAM read-out (21 R492): data, byte parity, address parity, POISONED, VALID. -/
structure DbgWord where
  data : List Byte
  parity : Nat
  apar : Bool
  poisoned : Bool
  valid : Bool
  deriving DecidableEq, Repr

/-- A read-out word that is not valid. -/
def DbgWord.invalid : DbgWord :=
  { data := List.replicate 64 0, parity := 0, apar := false, poisoned := false, valid := false }

/-- Freeze and JTAG (21 R487 to R495): the time of a freeze request whose domains have not all stopped; whether EXTEST or CLAMP
holds the device; the instruction register; the boundary outputs as preloaded; the word the last read-out scan fetched; and the
model's own count of the real time, in periods of 4 ns, that has passed while the device was frozen, and of the part of it in
which the Snuffers ran. -/
structure Dbg where
  asked : Option Nat
  hold : Bool
  ir : Nat
  bsr : List Bool
  word : DbgWord
  frz : Nat
  frzSn : Nat
  deriving DecidableEq, Repr

/-- JTAG after its reset: IDCODE is selected (IEEE 1149.1). -/
def Dbg.zero : Dbg := { asked := none, hold := false, ir := 1, bsr := [], word := DbgWord.invalid, frz := 0, frzSn := 0 }

/-- An entry of the measurement list (19 R470): kind, partition, SVN, TBU seconds of acceptance, digest. -/
structure Meas where
  kind : Nat
  part : Nat
  svn : Nat
  sec : Nat
  digest : Nat
  deriving DecidableEq, Repr

/-- A mailbox command in progress (19 R468): its number, the object IN refers to, its two references, and the die at which a
burn's read-back fails, if one does. -/
structure MbRun where
  cmd : Nat
  obj : Option SignedObj
  inRef : Word64
  outRef : Word64
  fail : Option Nat
  deriving DecidableEq, Repr

/-- Flint (19 R450 to R472): the time of power good and how the boot goes from there; the headers of the image and of the
configuration that run; the mailbox command in progress; the time READY was first set, whether the device key is
derived; the nonce for a debug token; the measurement list and the entries dropped from it. -/
structure Flt where
  goodAt : Nat
  boot : Option BootIn
  image : ObjHead
  mb : Option MbRun
  readyAt : Option Nat
  keyReady : Bool
  nonce : Option Nat
  meas : List Meas
  dropped : Nat
  deriving DecidableEq, Repr

/-- Flint before power good. -/
def Flt.zero : Flt :=
  { goodAt := 0, boot := none, image := ObjHead.empty, mb := none, readyAt := none, keyReady := false, nonce := none
    meas := [], dropped := 0 }

/-! ## Queues and jobs -/

/-- The terminal and running states that status words and histories use (03 Table 11). -/
inductive JState where
  | empty | queued | running | partialDone | done | failed | cancelled | halted
  deriving DecidableEq, Repr

/-- What a queue's descriptor fetch is waiting for: the context, the descriptor, or the entries and the argument block
of check 6, the block among them read already or not. -/
inductive FetchStage where
  | context
  | descriptor
  | entries (argsRead : Bool)
  deriving DecidableEq, Repr

/-- A dequeue in progress: the tag taken, the stage, whether the read in progress has been repeated, and the descriptor
once it has arrived. -/
structure Fetch where
  tag : Nat
  stage : FetchStage
  retried : Bool
  desc : Nat
  deriving DecidableEq, Repr

/-- A queue context (03 Table 1) with the status word of its last retired job, the cause of a halt, the doorbells
whose descriptors are not yet dequeued (tail and epoch, oldest first), a dequeue in progress, the ERR of the last 16
retired jobs (newest first) and the PCIe port of the last ENABLE (16 R410). -/
structure QCtx where
  base : Nat
  log2size : Nat
  prio : Nat
  order : Bool
  ftc : Nat
  vec : Nat
  en : Bool
  halt : Bool
  haltDoorbell : Bool
  haltErr : Err
  tail : Word32
  head : Word32
  ret : Word32
  dbEpoch : Word32
  dbTail : Word32
  dbEpochOld : Word32
  dbTailOld : Word32
  bells : List (Word32 × Word32)
  hist : Word32
  last : Word64
  fetch : Option Fetch
  errs : List Err
  port : Nat
  deriving DecidableEq, Repr

/-- A queue context before its first ENABLE: everything zero (03 R59 gives no reset values; log entry 4). -/
def QCtx.zero : QCtx :=
  { base := 0, log2size := 0, prio := 0, order := false, ftc := 0, vec := 0, en := false, halt := false
    haltDoorbell := false, haltErr := .ok, tail := 0, head := 0, ret := 0, dbEpoch := 0, dbTail := 0
    dbEpochOld := 0, dbTailOld := 0, bells := [], hist := 0, last := 0, fetch := none
    errs := [], port := 0 }

/-- What Table 4 of chapter 03 makes of a doorbell: outside the writer's partition, to a disabled queue, one that halts the
queue with a code, or one that sets TAIL. -/
inductive BellRes where
  | foreign
  | disabled
  | halts (e : Err)
  | rings
  deriving DecidableEq, Repr

/-- A doorbell that waits for its queue's context (03 R59): queue, partition of the writer, value, epoch, and what Table 4
made of it at its recording edge (03 R63). -/
structure BellWait where
  qid : Nat
  part : Nat
  v : Word64
  epoch : Word32
  res : BellRes
  deriving DecidableEq, Repr

/-- The opcodes (03 Table 6). -/
inductive Opc where
  | nop | barrier | copy | tileRun | cropResize | regroup | sort | attendPaged | pageScore | ccuCheck | mapPublish
  | profile | xcuVote | selftest
  deriving DecidableEq, Repr

/-- A shape entry of a program image (05 Table 5); strides are signed. -/
structure Shape where
  n0 : Nat
  n1 : Nat
  n2 : Nat
  rstr1 : Int
  rstr2 : Int
  lstr1 : Int
  lstr2 : Int
  deriving DecidableEq, Repr

/-- A group entry of a program image (05 Table 6). -/
structure Group where
  kind : Nat
  ty : Nat
  npart : Nat
  baseu : Nat
  ustride : Nat
  rootu : Nat
  rows : Nat
  dim : Nat
  shape : Nat
  delta : Int
  rtok : Nat
  deriving DecidableEq, Repr

/-- A program image (05 R130), parsed. -/
structure TileImage where
  gang : Bool
  dur : Nat
  nshared : Nat
  nref : Nat
  nscal : Nat
  shapes : List Shape
  groups : List Group
  insns : List Word64
  size : Nat
  deriving DecidableEq, Repr

/-- An entry of a partition's program directory (05 R121). -/
structure DirEntry where
  part : Nat
  idx : Nat
  addr : Nat
  size : Nat
  gen : Nat
  deriving DecidableEq, Repr

/-- Where a work unit stands: not started, running on its Wick, complete, waiting for re-execution, or ended by an
error that is not re-executed. -/
inductive UnitPhase where
  | fresh | running | done | retry | failed
  deriving DecidableEq, Repr

/-- One work unit of a job on Wicks (05 R120): its phase, the Wick it runs or last ran on, re-executions used, and
whether the error that ended it was attributed to that Wick (12 R308, R309). -/
structure WUnit where
  idx : Nat
  phase : UnitPhase
  wick : Nat
  attempt : Nat
  own : Bool
  deriving DecidableEq, Repr

/-- The self-test coverage interval (12 R321, R322): its frames NF, the epoch that opened it, the chunks completed in it as
(kind, target, chunk), and whether a lapse has been raised in it or the round has completed. -/
structure Cov where
  nf : Nat
  start : Option Word32
  done : List (Nat × Nat × Nat)
  lapsed : Bool
  complete : Bool
  deriving DecidableEq, Repr

/-- A chunk target of a SELFTEST job (12 R318): its number, the chunks still to run, whether the first of them runs, and
the epoch at its start. -/
structure StTarget where
  tgt : Nat
  left : List Nat
  running : Bool
  epoch : Word32
  deriving DecidableEq, Repr

/-- How far a job has come: dequeued; its start conditions held and it waits for its engine, selector or Wicks; taken
by an engine but not begun; running; ended and waiting to retire. -/
inductive JPhase where
  | waiting | placed | taken | running | ended
  deriving DecidableEq, Repr

/-- How far a sequence of an attention job has come: to be captured, captured, its table checked, or mismatched and to be
captured afresh (08 R197, R201). -/
inductive SeqSt where
  | open_ | held | passed | again
  deriving DecidableEq, Repr

/-- A sequence of an attention job (08 R195, R197, R201): its captured descriptor, the table entries its units have read as
(Lantern, entry, word) in the order they were read, and whether its units have been run again. -/
structure SeqCap where
  seq : Nat
  st : SeqSt
  tbase : Nat
  sbase : Nat
  len : Nat
  ver : Word32
  ents : List (Nat × Nat × Nat)
  rerun : Bool
  deriving DecidableEq, Repr

/-- The coarse selection of one row group (08 R213): the attended pages in ascending order. -/
structure PageSel where
  seq : Nat
  rg : Nat
  pages : List Nat
  deriving DecidableEq, Repr

/-- A job in flight (03 R82): its identity and descriptor (as one number); its captured references, the argument
references and scalars of a TILE_RUN; the epoch D of its doorbell and its frame F; whether it is a frame job and runs
ahead; its progress; the number of its placement; the place or Sconce that runs it; units done of units in all; the
re-executions of the unit in progress; the error that ends it; and what single opcodes keep: the program chosen, its
image and units, the Lanterns whose shared entries it holds, self-test targets, captured sequences, page selections; the TCLK edge at
which an engine began it. -/
structure Job where
  tag : Nat
  qid : Nat
  num : Word32
  opc : Opc
  part : Nat
  tc : Nat
  irq : Bool
  retry : Nat
  desc : Nat
  refs : List CRef
  args : List CRef
  scal : List Nat
  d : Word32
  f : Word32
  frameJob : Bool
  runAhead : Bool
  phase : JPhase
  st : JState
  err : Err
  attempts : Nat
  progress : Nat
  seqNo : Nat
  place : Nat
  step : Nat
  total : Nat
  tries : Nat
  fail : Option Err
  prog : Nat
  progGen : Nat
  cands : List DirEntry
  image : Option TileImage
  units : List WUnit
  lanterns : List Nat
  sts : List StTarget
  seqs : List SeqCap
  sels : List PageSel
  aux : List Nat
  since : Nat
  deriving DecidableEq, Repr

/-! ## Wicks -/

/-- The states of a Wick (04 Table 7, WCK_STATE). -/
inductive WickSt where
  | idle | running | stopping | clearing | quarantined | testing
  deriving DecidableEq, Repr

/-- A loop in progress (05 R139): counter, iterations still to run after this one, first and last instruction of the
body. -/
structure LoopFrame where
  l : Nat
  left : Nat
  first : Nat
  last : Nat
  deriving DecidableEq, Repr

/-- What holds a Wick's issue: nothing, a WAIT (entry, count), a FENCE (its three selections). -/
inductive Hold where
  | none
  | wait (tok : Nat) (n : Nat)
  | fence (dma eng st : Bool)
  deriving DecidableEq, Repr

/-- One entry of the store buffer (05 R144): scratchpad address, data, byte mask. -/
structure StoreEnt where
  addr : Nat
  data : VWord
  mask : BitVec 256
  deriving DecidableEq, Repr

/-- A DMA command queued on a channel (05 R147): direction, the remote side's address, remote and local offset, its shape, or the offset list of
a gather or scatter, the token of its arrival, the argument reference it uses, and the class of its requests (04 R99). -/
structure DmaCmd where
  toPad : Bool
  base : Nat
  remote : Nat
  loc : Nat
  shape : Shape
  gather : Option (List Nat)
  tok : Nat
  cref : Option Nat
  tc : Nat
  deriving DecidableEq, Repr

/-- What a built-in attention program keeps on its Wick (08 R206, R209): the query rows as BF16 patterns, the first of them
within its sequence, the pages still to come, and the partial of each row. -/
structure ApwUnit where
  row0 : Nat
  rows : List (List Nat)
  left : List Nat
  part : List (List Word32)
  deriving DecidableEq, Repr

/-- A Wick (04 Table 1, 05 Table 8): its state and what it runs; the sequencer, with the TCLK edge at which the
clearing ends (R107), and the fault of its unit, whether it lies in the Wick's own storage, and else the Wick in whose
scratchpad it lies (12 R309); the registers, tile columns and private
scoreboard entries that have been written; the store buffer and DMA channels, oldest first; the engine requests it waits
for, its contributions to each group; per tile the position in the K block and the scale record held; and the unit of a
built-in attention program. -/
structure Wick where
  st : WickSt
  used : Bool
  part : Nat
  tag : Nat
  unit : Nat
  attempt : Nat
  prog : Nat
  progGen : Nat
  progPart : Nat
  image : Option TileImage
  pc : Nat
  lastPc : Nat
  ended : Bool
  endBy : Nat
  clearTo : Nat
  loops : List LoopFrame
  hold : Hold
  fault : Option UnitErr
  faultOwn : Bool
  faultPeer : Option Nat
  sregs : List (Nat × Word32)
  vregs : List (Nat × VWord)
  pregs : List (Nat × BitVec 128)
  lcnt : List (Nat × Nat)
  tiles : List (Nat × VWord)
  toks : List (Nat × Nat)
  sbuf : List StoreEnt
  dma0 : List DmaCmd
  dma1 : List DmaCmd
  dma2 : List DmaCmd
  dma3 : List DmaCmd
  engOut : Nat
  cmbNo : List (Nat × Nat)
  kpos : List (Nat × Nat)
  scales : List (Nat × VWord)
  apw : Option ApwUnit
  deriving DecidableEq, Repr

/-- A Wick after reset: idle, its storage empty (12 R312; the storage's content is not given: log entry 4). -/
def Wick.zero : Wick :=
  { st := .idle, used := false, part := 0, tag := 0, unit := 0, attempt := 0, prog := 0, progGen := 0, progPart := 0
    image := none, pc := 0, lastPc := 0, ended := false, endBy := 0, clearTo := 0, loops := [], hold := .none
    fault := none, faultOwn := false, faultPeer := none, sregs := [], vregs := [], pregs := [], lcnt := [], tiles := [], toks := []
    sbuf := [], dma0 := [], dma1 := [], dma2 := [], dma3 := [], engOut := 0, cmbNo := [], kpos := [], scales := []
    apw := none }

/-! ## Sconces -/

/-- A request at a Sorter (04 R116, 05 R149): a SORT job by its tag, or a tile program's request. -/
structure SortReq where
  tag : Nat
  wick : Option Nat
  src : Nat
  dst : Nat
  n : Nat
  k : Nat
  keyfmt : Nat
  order : Bool
  tok : Nat
  deriving DecidableEq, Repr

/-- A contribution to a combine group: unit, its scratchpad offsets of source and result, its token. -/
structure CmbPart where
  unit : Nat
  src : Nat
  dst : Nat
  tok : Nat
  deriving DecidableEq, Repr

/-- One instance of a combine group or halo pattern in progress (04 R112, R114; 05 R148): the job and group, its number,
the contributions that wait to be folded, those folded, the Sconces with what each has folded so far, in the order of
their first fold, and the root's result. -/
structure CmbInst where
  tag : Nat
  grp : Nat
  no : Nat
  waiting : List CmbPart
  folded : List CmbPart
  parts : List (Nat × List Word32)
  acc : List Word32
  merged : List Nat
  deriving DecidableEq, Repr

/-- A Sconce's engines: the Sorter's requests, oldest first and the first one in progress; the Sampler's jobs (tags),
likewise. -/
structure Sconce where
  sorter : List SortReq
  sampler : List Nat
  deriving DecidableEq, Repr

/-! ## The map, the checker and the final check (10) -/

/-- Where a registered candidate stands: its first check to come, in a pipe, with a verdict, or to be checked again. -/
inductive CandSt where
  | first | busy | has | recheck
  deriving DecidableEq, Repr

/-- The result of a check (10 Table 5). -/
structure ChkRes where
  verdict : Nat
  overflow : Bool
  touch : List Nat
  clr : Nat
  nsamp : Nat
  cycles : Nat
  deriving DecidableEq, Repr

/-- A candidate of the frame's registry (10 R261): its job and index, the KEY of its verdict, the epoch of it, whether it
was checked again, and its last result. -/
structure Cand where
  tag : Nat
  idx : Nat
  st : CandSt
  got : Bool
  rechecked : Bool
  mepoch : Word32
  key : Nat
  res : ChkRes
  deriving DecidableEq, Repr

/-- The work of a probe pipe (10 R260): a candidate, or one run of an alternate of the final check; the epoch it holds,
whether the check is repeated after a detected error, and whether it is a recheck. -/
inductive PipeWork where
  | cand (tag idx : Nat) (epoch : Word32) (again re : Bool)
  | fin (alt run : Nat) (again : Bool)
  deriving DecidableEq, Repr

/-- A publication in progress (10 R245): its job and the record that wins for each block it names, as (block, record). -/
structure PubWork where
  tag : Nat
  recs : List (Nat × Nat)
  deriving DecidableEq, Repr

/-- The registration for the final check (10 R270): its frame, its job's tag, REQ, UNK, the footprint's boxes as words, and per alternate
its STATUS and its 64 output points as (X, Y, YAW, Z) patterns. -/
structure FinReg where
  frame : Word32
  tag : Nat
  req : Nat
  unk : Bool
  boxes : List (List Nat)
  alts : List (Nat × List (Nat × Nat × Nat × Nat))
  deriving DecidableEq, Repr

/-- A final check in progress (10 R270): the epoch held, the runs still to be taken, the runs finished with their
clearance, the alternates that have failed, and whether the outcome has been named. -/
structure FinCheck where
  frame : Word32
  epoch : Word32
  reg : Option FinReg
  todo : List (Nat × Nat)
  done : List (Nat × Nat × Int)
  bad : List Nat
  named : Bool
  deriving DecidableEq, Repr

/-- The Collision Checking Unit (10 R242 to R247, R261, R270): the newest block-index table and the one of the previous
epoch, listing the entries that differ from an unallocated unknown block; the slots' images and the
lines of them that are poisoned; the origin; the changed-block masks of the last 8 publications, newest first; the
publication in progress; the registry; the pipes; whether the frame's planning deadline has passed; the registration of the
present frame, that of the next one by a job that runs ahead, and the final check. -/
structure Ccu where
  newTab : List (Nat × Nat)
  oldTab : Option (List (Nat × Nat))
  sram : List Host.Cell
  bad : List Nat
  orgX : Word32
  orgY : Word32
  orgZ : Word32
  masks : List (Word32 × Nat)
  pub : Option PubWork
  cands : List Cand
  pipes : List (Nat × PipeWork)
  deadline : Bool
  finReg : Option FinReg
  finNext : Option FinReg
  fin : Option FinCheck
  deriving DecidableEq, Repr

/-- The CCU at release (10 R242): map epoch 0, every block unallocated and unknown. -/
def Ccu.zero : Ccu :=
  { newTab := [], oldTab := none, sram := [], bad := [], orgX := 0, orgY := 0, orgZ := 0, masks := [], pub := none, cands := []
    pipes := [], deadline := false, finReg := none, finNext := none, fin := none }

/-! ## Snuffers and the gate -/

/-- The states of a Snuffer (11 R298). -/
inductive SnState where
  | reset | testing | armed | running | stopped | failed
  deriving DecidableEq, Repr

/-- A Snuffer's verdict on a frame (11 R283) with what its comparison counted. -/
structure Verdict where
  frame : Word32
  agreed : Bool
  mask : Nat
  fail : Nat
  agree : Nat
  compared : Nat
  deriving DecidableEq, Repr

/-- One Snuffer (11 R276 to R300): its state, supply and key-revocation fuses; the arrived copies of the two blocks, the
polls made and whether the cutoff has passed; its verdict, the other's as received; its history, and whether a COUNT line
was sampled in this window; the frame a stop was commanded in; the level and last edge of SAFE; the filtered level of HB_IN, the heartbeat watch and
its last edge; the last tick; pulses not yet sampled; per stream the embedded counter last seen; when its tests began. -/
structure Snuffer where
  st : SnState
  supply : Bool
  okrev : Nat
  copyA : Option (List Byte)
  copyB : Option (List Byte)
  polls : Nat
  cut : Bool
  verdict : Option Verdict
  other : Option Verdict
  hist : Word32
  counted : Bool
  stopFrame : Option Word32
  safe : Bool
  safeAt : Nat
  hbIn : Bool
  hbStarted : Bool
  hbLast : Nat
  tickLast : Option Nat
  lines : List Nat
  frames : List (Nat × Nat)
  startedAt : Nat
  deriving DecidableEq, Repr

/-- The verdict gate (11 R281, R284 to R286): the launch buffer with its CRCs (an empty record is one whose read failed);
whether this frame is decided; the alternate the CCU named, with its frame; the hold record with its frame, deadline and
alternate; what the hold record becomes if the TRAJ frame decided on launches; the stop profile with its frame and deadline, once one is held; the number of frames launched; the frame that
waits for its deadline. -/
structure Gate where
  recs : List (List Byte)
  crcs : List Word32
  loaded : Bool
  decided : Bool
  named : Option Nat
  namedFrame : Word32
  holdRec : Option (List Byte)
  holdFrame : Word32
  holdP : Nat
  holdAlt : Nat
  trajNext : Option (List Byte × Word32 × Nat × Nat)
  stopRec : Option (List Byte)
  stopFrame : Word32
  stopP : Nat
  stopped : Bool
  seq : Nat
  out : Option (Nat × List Byte)
  deriving DecidableEq, Repr

/-- A Snuffer in reset (11 R298, R300), its supply within tolerance. -/
def Snuffer.zero : Snuffer :=
  { st := .reset, supply := true, okrev := 0, copyA := none, copyB := none, polls := 0, cut := false, verdict := none
    other := none, hist := 0, counted := false
    stopFrame := none, safe := false, safeAt := 0, hbIn := false, hbStarted := false, hbLast := 0
    tickLast := none, lines := [], frames := [], startedAt := 0 }

/-- The gate before any frame: nothing loaded, no hold record, no stop. -/
def Gate.zero : Gate :=
  { recs := [], crcs := [], loaded := false, decided := false, named := none, namedFrame := 0, holdRec := none
    holdFrame := 0, holdP := 0, holdAlt := 0, trajNext := none, stopRec := none, stopFrame := 0, stopP := 0, stopped := false, seq := 0, out := none }

end Sys2Proof.Machine
end

