-- ==== Sys2Proof/Machine/State.lean ====
section
/-!
DEFINITION. State.lean: the state of the block as plain data, the reasons a step can stop, and the state after reset.
INVENTORY.md lists every piece of state with the rule of the spec that names it.
-/

namespace Sys2Proof.Machine

open Sys2Proof

/-- What leaves the block, newest first: the model's own record, so that statements can speak of it (log entry 1). -/
inductive OutEvent where
  | msix (port fn vec : Nat)
  | ftickOut
  | answer (size value : Nat)
  | data (bs : List Byte)
  | memErr (code : Nat)
  | response (port tc part : Nat)
  | dbgWord (w : DbgWord)
  | gateFrame (port q : Nat) (at_ : Nat) (bs : List Byte)
  | ethFrame (port : Nat) (bs : List Byte)
  | flit (bs : List Byte)
  | pmbus (lantern mv : Nat)
  deriving DecidableEq, Repr

/-- The counter and the servo of the time base (17 R414 to R424). `ctr` is the counter in units of 2⁻³² ns; `slew` is
the offset still to be applied, in the same unit; `stepped` says whether a step has been applied since cold boot. -/
structure Tbu where
  ctr : Nat
  incr : Nat
  incrNext : Option Nat
  fracStage : Nat
  slew : Int
  step : Option Int
  next : Nat
  stamp : Nat
  gm : Option Word64
  lastSync : Option Nat
  syncEdges : Nat
  nowSec : Nat
  nowFrac : Nat
  stepped : Bool
  deriving DecidableEq, Repr

/-- The frame machinery (02 R33 to R42): the values in force, the pending write of ENABLE, the last tick, and whether this
frame's maintenance window has opened. -/
structure Frames where
  tickSrc : Bool
  tickEdge : Bool
  ftickOutEn : Bool
  pubUs : Nat
  planUs : Nat
  maintStart : Nat
  maintLen : Nat
  periodUs : Nat
  phaseUs : Nat
  groupMap : Nat
  scheds : List (Nat × List (Nat × Nat × Nat × Nat))
  stopPending : Bool
  enabledAt : Nat
  firstPending : Bool
  tickAt : Option Nat
  maintSeen : Bool
  deriving DecidableEq, Repr

/-- The Lamplighter's own state (03 R59, R62, R74, R80; 05 R121): contexts held unpinned in the cache and buffer-table
entries on chip (most recently used first), doorbells that wait for a context, the number of dequeue slots passed, the
last queue served of each (partition, PRIO), the last partition served out of rank, the number of the next job, and the
program directories. -/
structure Lmp where
  ctxCache : List Nat
  bells : List BellWait
  bufCache : List (Nat × Nat)
  slotNo : Nat
  rr : List (Nat × Nat)
  rrPart : Nat
  nextSeq : Nat
  dirs : List DirEntry
  deriving DecidableEq, Repr

/-- The Lamplighter with nothing held (log entry 4). -/
def Lmp.zero : Lmp :=
  { ctxCache := [], bells := [], bufCache := [], slotNo := 0, rr := [], rrPart := 7, nextSeq := 0, dirs := [] }

/-- A memory request at a Regulator port (13 R327): its number, port, class, partition, master, address and length, the
bytes it writes, whether it has left its port and holds a slot, whether that slot is a reserved one, the class it is served
in at DDR-4, whether its channel has taken it, and the times of its arrival at the port and of its leaving it; its transaction tag
(15 Table 2), for a request of the guest with its source node from bit 10 on. -/
structure Req where
  id : Nat
  port : Nat
  tc : Nat
  part : Nat
  master : Master
  addr : Nat
  len : Nat
  data : Option (List Byte)
  out : Bool
  reserved : Bool
  servedTc : Nat
  started : Bool
  at_ : Nat
  outAt : Nat
  tag : Nat
  deriving DecidableEq, Repr

/-- The Regulator (13 R327, R336, R339, R343): guarantee entries admitted but not yet in force; each entry's credit in
tenths of a byte and the time of its last update; the bytes each entry received in its window; the start of its window
on the counter of TCLK edges; the requests at the ports, oldest first, and the number of the next; per (port, class) the
time its last request left, and the fifths of an NCLK cycle its stall counter has not counted yet; the migration credit; the
edges of its window in which each entry had a request waiting; the pending entries that a signed update brought. -/
structure Rgl where
  guarNext : List (Nat × Word32)
  credits : List (Nat × Nat)
  creditAt : Nat
  served : List (Nat × Nat)
  winAt : List (Nat × Nat)
  reqs : List Req
  nextId : Nat
  leftAt : List (Nat × Nat)
  stallRem : List (Nat × Nat)
  migCredit : Nat
  waited : List (Nat × Nat)
  guarUpd : List Nat
  deriving DecidableEq, Repr

/-- A DDR-4 channel (14 R332, R333, R357 to R362): the lines in its write buffer, oldest first, each with the class of the
write and whether it was partial; per rank the postponed refreshes and the next due time; whether ALERT_N is low; the times of the
replays of the present series; when a retraining in progress started; the time of the last training, the PHY temperature
now, and whether the channel has been reported overdue. -/
structure DmcCh where
  wbuf : List (Nat × Nat × Bool)
  postponed : List (Nat × Nat)
  refAt : List (Nat × Nat)
  alert : Bool
  alerts : List Nat
  training : Option Nat
  trainedAt : Nat
  temp : Nat
  dueSince : Option Nat
  overdue : Bool
  deriving DecidableEq, Repr

/-- A channel with nothing pending. -/
def DmcCh.zero : DmcCh :=
  { wbuf := [], postponed := [], refAt := [], alert := false, alerts := [], training := none, trainedAt := 0, temp := 0
    dueSince := none, overdue := false }

/-- One direction of a die link (15 R375, R378): the LSEQ its receiver expects, the oldest flit not acknowledged, the LSEQ the
transmitter gives its next flit, whether a NAK is out and whether the transmitter has gone back on it; the flits of the replay
buffer, each with its LSEQ, that the transmitter has been given by a router or that have arrived intact (of one whose copies have
all failed so far nothing is known), and those that wait to be sent; the failed copies of the expected flit, how many replays of
it have failed, and the transmitter's credits of each class. -/
structure LinkDir where
  expect : Nat
  acked : Nat
  next : Nat
  nak : Bool
  rewound : Bool
  replay : List (Nat × List Byte)
  queue : List (List Byte)
  raws : List (List Byte)
  fails : Nat
  credits : List Nat
  deriving DecidableEq, Repr

/-- A direction after training. -/
def LinkDir.zero : LinkDir :=
  { expect := 0, acked := 0, next := 0, nak := false, rewound := false, replay := [], queue := [], raws := [], fails := 0
    credits := List.replicate 8 32 }

/-- A link's module (15 R370 to R379): its lanes and negotiated features, its lane group and retired lanes, its two
directions, a width step in progress (state, group, whether agreed), a lane test (none, asked for, running), and the
attributions of its lanes in the window. State, spares and counters stand in its registers. -/
structure LinkSt where
  lanes : Nat
  feat : Nat
  group : Nat
  retired : List Nat
  up : LinkDir
  down : LinkDir
  step : Option (Nat × Nat × Bool)
  test : Option Bool
  wcnt : List (Nat × Nat)
  deriving DecidableEq, Repr

/-- A link before training. -/
def LinkSt.zero : LinkSt :=
  { lanes := 64, feat := 0, group := 0, retired := [], up := LinkDir.zero, down := LinkDir.zero, step := none, test := none
    wcnt := [] }

/-- Why the block stops. No rule of the spec stops the block, so no constructor is raised; it stands for closedness. -/
inductive Fault where
  /-- Raised by no command; safe: no step ends in it. -/
  | none
  deriving DecidableEq, Repr

/-- Why a command has no meaning here. -/
inductive Refusal where
  /-- Raised by an arm of exec whose command is not modelled yet; safe: nothing follows from it. -/
  | notModelled (mnemonic : String)
  deriving DecidableEq, Repr

/-- The state of the block and the queue of waiting commands. `keys` are the partitions' key pairs, and `lineKeys` the DDR-4 lines that
stand under another pair than P0's in Cormer mode, each with the partition whose pair it is (02 R55, 14 R358): `mem` holds every line
as its pair decrypts it. `msixTab` holds the MSI-X tables' words that differ from their reset values, and `msixPend` the vectors whose
pending bit is set (16 Table 9, R412; 20 R480). -/
structure State where
  pending : List Instr
  now : Nat
  regs : List (Nat × Word32)
  mem : List Host.Cell
  poison : List Nat
  out : List OutEvent
  draws : Nat
  tbu : Tbu
  frm : Frames
  queues : List (Nat × QCtx)
  jobs : List Job
  vbufs : List VBuf
  ing : Ingest
  ethTx : List (Nat × EthTx)
  aps : List (Nat × BufEntry)
  wicks : List (Nat × Wick)
  hUp0 : Bool
  hUp1 : Bool
  snA : Snuffer
  snB : Snuffer
  gate : Gate
  powered : Bool
  cfg : Cfg
  lmp : Lmp
  rgl : Rgl
  dmc : List (Nat × DmcCh)
  bonds : List (Nat × Nat)
  released : Bool
  shToks : List (Nat × Nat)
  arrivals : List SbEntry
  cmbs : List CmbInst
  sconces : List (Nat × Sconce)
  flog : List (Nat × Nat)
  ccu : Ccu
  cov : Cov
  links : List (Nat × LinkSt)
  lnkWin : Nat
  guestDie : Option GuestBoot
  dies : List (List Byte)
  updFrame : Option FrameCfg
  trm : Trm
  pwr : Pwr
  fuses : Fuses
  flash : Flash
  dbg : Dbg
  flt : Flt
  keys : List (Nat × Nat)
  lineKeys : List (Nat × Nat)
  msixTab : List (Nat × Word32)
  msixPend : List Nat
  deriving DecidableEq, Repr

/-- The block right after the always-on supply comes up, PWRGD_IN still low (19 R450; log entries 3 and 4). -/
def State.reset : State :=
  { pending := [], now := 0, regs := [], mem := [], poison := [], out := [], draws := 0
    tbu := { ctr := 0, incr := 4 * 2 ^ 32, incrNext := none, fracStage := 0, slew := 0, step := none, next := 0, stamp := 0
             gm := none, lastSync := none, syncEdges := 0, nowSec := 0, nowFrac := 0, stepped := false }
    frm := { tickSrc := false, tickEdge := false, ftickOutEn := false, pubUs := 45000, planUs := 40000, maintStart := 46000
             maintLen := 200, periodUs := 50000, phaseUs := 0, groupMap := 0x240000, scheds := [], stopPending := false
             enabledAt := 0, firstPending := false, tickAt := none, maintSeen := false }
    queues := [], jobs := [], vbufs := [], ing := Ingest.zero, ethTx := [], aps := [], wicks := []
    hUp0 := true, hUp1 := true, snA := Snuffer.zero, snB := Snuffer.zero, gate := Gate.zero, powered := false, cfg := Cfg.empty, lmp := Lmp.zero
    rgl := { guarNext := [], credits := [], creditAt := 0, served := [], winAt := [], reqs := [], nextId := 0, leftAt := [], stallRem := [],
             migCredit := 0, waited := [], guarUpd := [] }
    dmc := [], bonds := [], released := false, shToks := [], arrivals := [], cmbs := [], sconces := [], flog := [], ccu := Ccu.zero
    cov := { nf := 1, start := none, done := [], lapsed := false, complete := false }
    links := [], lnkWin := 0, guestDie := none, dies := [], updFrame := none, trm := Trm.zero, pwr := Pwr.zero, fuses := Fuses.initial, flash := Flash.blank
    dbg := Dbg.zero, flt := Flt.zero, keys := [], lineKeys := [], msixTab := [], msixPend := [] }

end Sys2Proof.Machine
end

