-- ==== Sys2Proof/Machine/Assoc.lean ====
section
/-!
DEFINITION. Assoc.lean: lists of (key, value) pairs in rising order of the key: the register file, the queue contexts
and the Wicks are held so. A key that is not listed reads as the default the caller names.
-/

namespace Sys2Proof.Machine

open Sys2Proof

/-- The value at key `k`, `d` where it is not listed. -/
def aget {α : Type} (d : α) : List (Nat × α) → Nat → α
  | [], _ => d
  | (k', v) :: rest, k => if k' = k then v else aget d rest k

/-- The list with `v` at key `k`. -/
def aset {α : Type} : List (Nat × α) → Nat → α → List (Nat × α)
  | [], k, v => [(k, v)]
  | (k', v') :: rest, k, v =>
    if k' = k then (k, v) :: rest
    else if k < k' then (k, v) :: (k', v') :: rest
    else (k', v') :: aset rest k v

theorem aget_aset_same {α : Type} (d : α) (l : List (Nat × α)) (k : Nat) (v : α) :
    aget d (aset l k v) k = v := by
  induction l with
  | nil => simp [aset, aget]
  | cons p l ih =>
    obtain ⟨k', v'⟩ := p
    unfold aset
    split
    · simp [aget]
    · split
      · simp [aget]
      · simp_all [aget]

theorem aget_aset_other {α : Type} (d : α) (l : List (Nat × α)) (k j : Nat) (v : α) (h : k ≠ j) :
    aget d (aset l k v) j = aget d l j := by
  induction l with
  | nil => simp [aset, aget, h]
  | cons p l ih =>
    obtain ⟨k', v'⟩ := p
    unfold aset
    split
    · next e => subst e; simp [aget, h]
    · split
      · simp [aget, h]
      · simp [aget, ih]

/-- Element `n` of a list, `d` past its end. -/
def nthD {α : Type} (d : α) (l : List α) (n : Nat) : α := (l[n]?).getD d

end Sys2Proof.Machine
end

