-- ==== Sys2Proof/Machine/RegMap.lean ====
section
/-!
DEFINITION. The register map: which block a page belongs to, every field of every register with its access code
and reset value, taken from the register tables of the spec (20 R478, R479; 02 R35, R39; 03 R60; 04 R119; 05 R152;
07 R192; 08 R215; 09 R239; 10 R273; 11 R300; 12 R323; 13 R346, R347; 14 R365; 15 R388; 16 R413; 17 R425; 18 R449;
19 R473; 21 R496). A reset the table names by a source (fuse, configuration, board record) stands as 0 here; the
operation that loads it writes it.
-/

namespace Sys2Proof.Machine

/-! The fields of the page head (20 R479). -/

def Reg.BLOCK_ID_BLOCK : Fld := ⟨0x000, 7, 0⟩
def Reg.BLOCK_VER_MAJOR : Fld := ⟨0x004, 15, 8⟩
def Reg.STATUS_INSVC : Fld := ⟨0x014, 0, 0⟩
def Reg.STATUS_PEND : Fld := ⟨0x014, 1, 1⟩
def Reg.INT_STATUS_ERR : Fld := ⟨0x018, 0, 0⟩
def Reg.INT_STATUS_EVT : Fld := ⟨0x018, 1, 1⟩
def Reg.INT_ENABLE_MASK : Fld := ⟨0x01c, 1, 0⟩
def Reg.INT_FORCE_LINE : Fld := ⟨0x020, 15, 0⟩
def Reg.ERR_CODE_CODE : Fld := ⟨0x024, 7, 0⟩
def Reg.ERR_ADDR_LO_ADDR : Fld := ⟨0x028, 31, 0⟩
def Reg.ERR_ADDR_HI_ADDR : Fld := ⟨0x02c, 15, 0⟩
def Reg.LOCK_OWNER : Fld := ⟨0x030, 2, 0⟩
def Reg.LOCK_LOCKED : Fld := ⟨0x030, 31, 31⟩
def Reg.INT_ROUTE_VEC : Fld := ⟨0x034, 10, 0⟩
def Reg.INT_ROUTE_PORT : Fld := ⟨0x034, 11, 11⟩

/-! Named fields of the fus page. -/

def Reg.FUS_CAPS_LANTERNS : Fld := ⟨0x008, 3, 0⟩
def Reg.FUS_CAPS_GUEST : Fld := ⟨0x008, 4, 4⟩
def Reg.FUS_CAPS_GRADE : Fld := ⟨0x008, 5, 5⟩
def Reg.FUS_SERIAL_LO_SERIAL : Fld := ⟨0x040, 31, 0⟩
def Reg.FUS_SERIAL_HI_SERIAL : Fld := ⟨0x044, 31, 0⟩
def Reg.FUS_KEYS_SET : Fld := ⟨0x048, 3, 0⟩
def Reg.FUS_KEYS_REV : Fld := ⟨0x048, 7, 4⟩
def Reg.FUS_ARB_FW : Fld := ⟨0x04c, 6, 0⟩
def Reg.FUS_ARB_CFG : Fld := ⟨0x04c, 14, 8⟩
def Reg.FUS_OKHSEL_WORD : Fld := ⟨0x050, 4, 0⟩
def Reg.FUS_OKH_BITS : Fld := ⟨0x054, 31, 0⟩

/-! Named fields of the lmpFrame page. -/

def Reg.LMP_FRAME_CTRL_ENABLE : Fld := ⟨0x040, 0, 0⟩
def Reg.LMP_FRAME_CTRL_TICK_SRC : Fld := ⟨0x040, 1, 1⟩
def Reg.LMP_FRAME_CTRL_FTICK_EDGE : Fld := ⟨0x040, 2, 2⟩
def Reg.LMP_FRAME_CTRL_FTICK_OUT_EN : Fld := ⟨0x040, 3, 3⟩
def Reg.LMP_EPOCH_EPOCH : Fld := ⟨0x044, 31, 0⟩
def Reg.LMP_PUB_OFFSET_OFFSET : Fld := ⟨0x048, 17, 0⟩
def Reg.LMP_PLAN_OFFSET_OFFSET : Fld := ⟨0x04c, 17, 0⟩
def Reg.LMP_TICK_EARLY_COUNT : Fld := ⟨0x050, 31, 0⟩
def Reg.LMP_TICK_SUBST_COUNT : Fld := ⟨0x054, 31, 0⟩
def Reg.LMP_MAINT_WIN_START : Fld := ⟨0x05c, 17, 0⟩
def Reg.LMP_MAINT_WIN_LEN : Fld := ⟨0x05c, 27, 18⟩
def Reg.LMP_ST_CFG_KINDS : Fld := ⟨0x060, 3, 0⟩
def Reg.LMP_ST_OPEN_COUNT : Fld := ⟨0x064, 15, 0⟩
def Reg.LMP_ST_LAPSE_COUNT : Fld := ⟨0x068, 31, 0⟩
def Reg.LMP_ST_ROUNDS_COUNT : Fld := ⟨0x06c, 31, 0⟩

/-! Named fields of the lmpQueue page. -/

def Reg.LMP_QSEL_QID : Fld := ⟨0x040, 17, 0⟩
def Reg.LMP_QCFG_LOG2SIZE : Fld := ⟨0x044, 4, 0⟩
def Reg.LMP_QCFG_PRIO : Fld := ⟨0x044, 6, 5⟩
def Reg.LMP_QCFG_ORDER : Fld := ⟨0x044, 7, 7⟩
def Reg.LMP_QCFG_FTC : Fld := ⟨0x044, 10, 8⟩
def Reg.LMP_QCFG_VEC : Fld := ⟨0x044, 21, 11⟩
def Reg.LMP_QBASE_LO_BASE : Fld := ⟨0x048, 31, 12⟩
def Reg.LMP_QBASE_HI_BASE : Fld := ⟨0x04c, 15, 0⟩
def Reg.LMP_QSTART_JOB : Fld := ⟨0x050, 31, 0⟩
def Reg.LMP_QCMD_CMD : Fld := ⟨0x054, 2, 0⟩
def Reg.LMP_TAG_CFG_MIN : Fld := ⟨0x058, 15, 0⟩
def Reg.LMP_TAG_CFG_MAX : Fld := ⟨0x058, 31, 16⟩
def Reg.LMP_TAG_INUSE_COUNT : Fld := ⟨0x05c, 16, 0⟩
def Reg.LMP_TAG_STALL_LO_COUNT : Fld := ⟨0x060, 31, 0⟩
def Reg.LMP_TAG_STALL_HI_COUNT : Fld := ⟨0x064, 31, 0⟩
def Reg.LMP_BUFTAB_LO_BASE : Fld := ⟨0x068, 31, 6⟩
def Reg.LMP_BUFTAB_HI_BASE : Fld := ⟨0x06c, 15, 0⟩

/-! Named fields of the wck page. -/

def Reg.WCK_STATE_STATE : Fld := ⟨0x040, 2, 0⟩
def Reg.WCK_STATE_TAG : Fld := ⟨0x040, 31, 16⟩
def Reg.WCK_PART_PART : Fld := ⟨0x044, 2, 0⟩
def Reg.WCK_BUSY_LO_COUNT : Fld := ⟨0x048, 31, 0⟩
def Reg.WCK_BUSY_HI_COUNT : Fld := ⟨0x04c, 31, 0⟩
def Reg.WCK_BANK_STALL_COUNT : Fld := ⟨0x050, 31, 0⟩
def Reg.WCK_TOKEN_STALL_COUNT : Fld := ⟨0x054, 31, 0⟩
def Reg.WCK_PC_PC : Fld := ⟨0x058, 12, 0⟩
def Reg.WCK_PROG_INDEX : Fld := ⟨0x05c, 11, 0⟩
def Reg.WCK_PROG_GEN : Fld := ⟨0x05c, 31, 16⟩
def Reg.WCK_UNIT_INDEX : Fld := ⟨0x060, 16, 0⟩
def Reg.WCK_DET_COUNT : Fld := ⟨0x064, 31, 0⟩
def Reg.WCK_FAILS_COUNT : Fld := ⟨0x068, 15, 0⟩
def Reg.WCK_FAIL_E1_EPOCH : Fld := ⟨0x06c, 31, 0⟩
def Reg.WCK_FAIL_E2_EPOCH : Fld := ⟨0x070, 31, 0⟩

/-! Named fields of the scn page. -/

def Reg.SCN_BANK_STALL_COUNT : Fld := ⟨0x044, 31, 0⟩
def Reg.SCN_SORT_COUNT_COUNT : Fld := ⟨0x048, 31, 0⟩
def Reg.SCN_CMB_GROUPS_COUNT : Fld := ⟨0x04c, 3, 0⟩
def Reg.SCN_SMP_BADBOX_COUNT : Fld := ⟨0x050, 31, 0⟩
def Reg.SCN_SMP_JOBS_COUNT : Fld := ⟨0x054, 31, 0⟩
def Reg.SCN_SMP_BUSY_COUNT : Fld := ⟨0x058, 31, 0⟩
def Reg.SCN_DET_COUNT : Fld := ⟨0x05c, 31, 0⟩

/-! Named fields of the apw page. -/

def Reg.APW_PAGES_COUNT : Fld := ⟨0x040, 31, 0⟩
def Reg.APW_HOLES_COUNT : Fld := ⟨0x044, 31, 0⟩
def Reg.APW_MUTATED_COUNT : Fld := ⟨0x048, 31, 0⟩
def Reg.APW_MUT_VER_VERSION : Fld := ⟨0x04c, 31, 0⟩
def Reg.APW_SCORED_COUNT : Fld := ⟨0x050, 31, 0⟩
def Reg.APW_BUSY_COUNT : Fld := ⟨0x054, 31, 0⟩

/-! Named fields of the xcu page. -/

def Reg.XCU_JOBS_COUNT : Fld := ⟨0x040, 31, 0⟩
def Reg.XCU_SENSOR_OUT_MASK : Fld := ⟨0x044, 31, 0⟩
def Reg.XCU_VOTEOUT_COUNT : Fld := ⟨0x048, 31, 0⟩
def Reg.XCU_READMIT_COUNT : Fld := ⟨0x04c, 31, 0⟩
def Reg.XCU_CONTESTED_COUNT : Fld := ⟨0x050, 13, 0⟩
def Reg.XCU_BADCLAIM_COUNT : Fld := ⟨0x054, 31, 0⟩
def Reg.XCU_EGO_DISAGREE_COUNT : Fld := ⟨0x058, 31, 0⟩
def Reg.XCU_LATE_FOLD_COUNT : Fld := ⟨0x05c, 31, 0⟩
def Reg.XCU_LATE_DROP_COUNT : Fld := ⟨0x060, 31, 0⟩
def Reg.XCU_BUSY_COUNT : Fld := ⟨0x064, 31, 0⟩

/-! Named fields of the ccu page. -/

def Reg.CCU_MAPCFG_OWNER : Fld := ⟨0x040, 2, 0⟩
def Reg.CCU_MAPCFG_READERS : Fld := ⟨0x040, 15, 8⟩
def Reg.CCU_MEPOCH_EPOCH : Fld := ⟨0x044, 31, 0⟩
def Reg.CCU_COMMIT_EPOCH : Fld := ⟨0x048, 31, 0⟩
def Reg.CCU_NALLOC_COUNT : Fld := ⟨0x04c, 13, 0⟩
def Reg.CCU_FREE_COUNT : Fld := ⟨0x050, 13, 0⟩
def Reg.CCU_PUB_FAIL_COUNT : Fld := ⟨0x054, 31, 0⟩
def Reg.CCU_PUB_WAIT_COUNT : Fld := ⟨0x058, 31, 0⟩
def Reg.CCU_CHECKED_COUNT : Fld := ⟨0x05c, 31, 0⟩
def Reg.CCU_RECHECK_COUNT : Fld := ⟨0x060, 31, 0⟩
def Reg.CCU_STALE_COUNT : Fld := ⟨0x064, 31, 0⟩
def Reg.CCU_LONG_COUNT : Fld := ⟨0x068, 31, 0⟩
def Reg.CCU_FINAL_ALT : Fld := ⟨0x06c, 2, 0⟩
def Reg.CCU_FINAL_REG : Fld := ⟨0x06c, 3, 3⟩
def Reg.CCU_FINAL_PASS : Fld := ⟨0x06c, 7, 4⟩
def Reg.CCU_FINAL_FRAME_EPOCH : Fld := ⟨0x070, 31, 0⟩
def Reg.CCU_FINAL_MEPOCH_EPOCH : Fld := ⟨0x074, 31, 0⟩
def Reg.CCU_BUSY_COUNT : Fld := ⟨0x078, 31, 0⟩

/-! Named fields of the pru page. -/

def Reg.PRU_JOBS_COUNT : Fld := ⟨0x040, 31, 0⟩
def Reg.PRU_INFEAS_COUNT : Fld := ⟨0x044, 31, 0⟩
def Reg.PRU_JERK_COUNT : Fld := ⟨0x048, 31, 0⟩
def Reg.PRU_BUSY_COUNT : Fld := ⟨0x04c, 31, 0⟩

/-! Named fields of the sna page. -/

def Reg.SNA_STATE_STATE : Fld := ⟨0x040, 2, 0⟩
def Reg.SNA_STATE_CAUSE : Fld := ⟨0x040, 10, 8⟩
def Reg.SNA_STATE_LINE : Fld := ⟨0x040, 24, 16⟩
def Reg.SNA_VERDICT_OUTCOME : Fld := ⟨0x044, 1, 0⟩
def Reg.SNA_VERDICT_MASK : Fld := ⟨0x044, 5, 2⟩
def Reg.SNA_VERDICT_FAIL : Fld := ⟨0x044, 8, 6⟩
def Reg.SNA_VERDICT_ALT : Fld := ⟨0x044, 11, 9⟩
def Reg.SNA_VERDICT_KIND : Fld := ⟨0x044, 13, 12⟩
def Reg.SNA_VFRAME_EPOCH : Fld := ⟨0x048, 31, 0⟩
def Reg.SNA_HIST_BITS : Fld := ⟨0x04c, 31, 0⟩
def Reg.SNA_DISPUTES_COUNT : Fld := ⟨0x050, 31, 0⟩
def Reg.SNA_NEAR_AGREE : Fld := ⟨0x054, 15, 0⟩
def Reg.SNA_NEAR_COMPARED : Fld := ⟨0x054, 31, 16⟩
def Reg.SNA_LINES_COUNT : Fld := ⟨0x058, 31, 0⟩
def Reg.SNA_HB_MISS_COUNT : Fld := ⟨0x05c, 31, 0⟩
def Reg.SNA_START_STEP : Fld := ⟨0x060, 2, 0⟩
def Reg.SNA_START_DONE : Fld := ⟨0x060, 3, 3⟩
def Reg.SNA_START_PASS : Fld := ⟨0x060, 4, 4⟩
def Reg.SNA_START_TIME : Fld := ⟨0x060, 31, 16⟩
def Reg.SNA_TBL_VER_VERSION : Fld := ⟨0x064, 31, 0⟩

/-! Named fields of the rsv page. -/

def Reg.RSV_DET_COUNT : Fld := ⟨0x040, 31, 0⟩
def Reg.RSV_REREAD_COUNT : Fld := ⟨0x044, 31, 0⟩
def Reg.RSV_POISONED_COUNT : Fld := ⟨0x048, 31, 0⟩
def Reg.RSV_BANKMAP_LO_MASK : Fld := ⟨0x04c, 31, 0⟩
def Reg.RSV_BANKMAP_HI_MASK : Fld := ⟨0x050, 31, 0⟩
def Reg.RSV_BONDSPARE_COUNT : Fld := ⟨0x054, 15, 0⟩
def Reg.RSV_BONDTEST_COUNT : Fld := ⟨0x058, 31, 0⟩
def Reg.RSV_WR_DISCARD_COUNT : Fld := ⟨0x05c, 31, 0⟩

/-! Named fields of the rgl page. -/

def Reg.RGL_PEAK_PEAK : Fld := ⟨0x040, 12, 0⟩
def Reg.RGL_BUDGET_BUDGET : Fld := ⟨0x044, 12, 0⟩
def Reg.RGL_ADMITTED_SUM : Fld := ⟨0x048, 12, 0⟩
def Reg.RGL_DERATE_DERATE : Fld := ⟨0x04c, 15, 0⟩
def Reg.RGL_GSEL_ENTRY : Fld := ⟨0x050, 5, 0⟩
def Reg.RGL_GENTRY_BW : Fld := ⟨0x054, 11, 0⟩
def Reg.RGL_GENTRY_WIN : Fld := ⟨0x054, 22, 16⟩
def Reg.RGL_GSTATE_SHED : Fld := ⟨0x058, 0, 0⟩
def Reg.RGL_GSTATE_PENDING : Fld := ⟨0x058, 1, 1⟩
def Reg.RGL_SHED_LO_MASK : Fld := ⟨0x05c, 31, 0⟩
def Reg.RGL_SHED_HI_MASK : Fld := ⟨0x060, 31, 0⟩
def Reg.RGL_MISS_COUNT : Fld := ⟨0x064, 31, 0⟩
def Reg.RGL_MISS_LAST_ENTRY : Fld := ⟨0x068, 5, 0⟩
def Reg.RGL_PCLASS_LO_MASK : Fld := ⟨0x06c, 31, 0⟩
def Reg.RGL_PCLASS_HI_MASK : Fld := ⟨0x070, 31, 0⟩
def Reg.RGL_TC0PORT_MASK : Fld := ⟨0x074, 31, 0⟩
def Reg.RGL_SLOTSEL_PORT : Fld := ⟨0x078, 4, 0⟩
def Reg.RGL_SLOTSEL_TC : Fld := ⟨0x078, 7, 5⟩
def Reg.RGL_SLOTS_SLOTS : Fld := ⟨0x07c, 9, 0⟩
def Reg.RGL_SLOTS_INUSE : Fld := ⟨0x07c, 19, 10⟩
def Reg.RGL_SLOTS_CAP : Fld := ⟨0x07c, 29, 20⟩
def Reg.RGL_URG_LEVEL : Fld := ⟨0x080, 13, 0⟩
def Reg.RGL_URGSEL_MASTER : Fld := ⟨0x084, 2, 0⟩
def Reg.RGL_URGTHR_ELEV : Fld := ⟨0x088, 7, 0⟩
def Reg.RGL_URGTHR_URG : Fld := ⟨0x088, 15, 8⟩
def Reg.RGL_URGTHR_CRIT : Fld := ⟨0x088, 23, 16⟩
def Reg.RGL_TC0_MAX_NS : Fld := ⟨0x08c, 15, 0⟩
def Reg.RGL_TC0_DEMOTE_COUNT : Fld := ⟨0x090, 31, 0⟩

/-! Named fields of the rglPort page. -/

def Reg.RGL_RD_LO_COUNT : Fld := ⟨0x040, 31, 0⟩
def Reg.RGL_RD_HI_COUNT : Fld := ⟨0x044, 31, 0⟩
def Reg.RGL_WR_LO_COUNT : Fld := ⟨0x048, 31, 0⟩
def Reg.RGL_WR_HI_COUNT : Fld := ⟨0x04c, 31, 0⟩
def Reg.RGL_STALL_LO_COUNT : Fld := ⟨0x050, 31, 0⟩
def Reg.RGL_STALL_HI_COUNT : Fld := ⟨0x054, 31, 0⟩

/-! Named fields of the dmc page. -/

def Reg.DMC_GEOM_DENS : Fld := ⟨0x040, 1, 0⟩
def Reg.DMC_GEOM_WIDTH : Fld := ⟨0x040, 2, 2⟩
def Reg.DMC_GEOM_RANKS : Fld := ⟨0x040, 4, 3⟩
def Reg.DMC_GEOM_GRADE : Fld := ⟨0x040, 7, 5⟩
def Reg.DMC_CAPACITY_GIB : Fld := ⟨0x044, 9, 0⟩
def Reg.DMC_RETRAIN_DRIFT : Fld := ⟨0x048, 7, 0⟩
def Reg.DMC_RETRAIN_INTERVAL : Fld := ⟨0x048, 23, 8⟩
def Reg.DMC_MIG_RATE : Fld := ⟨0x04c, 11, 0⟩
def Reg.DMC_REFCFG_REF2X : Fld := ⟨0x050, 0, 0⟩

/-! Named fields of the dmcCh page. -/

def Reg.DMC_CHSTATE_RANK0 : Fld := ⟨0x040, 2, 0⟩
def Reg.DMC_CHSTATE_RANK1 : Fld := ⟨0x040, 5, 3⟩
def Reg.DMC_CHSTATE_TRAINING : Fld := ⟨0x040, 6, 6⟩
def Reg.DMC_WMARK_ROWS : Fld := ⟨0x044, 21, 0⟩
def Reg.DMC_TRAIN_T_TEMP : Fld := ⟨0x048, 7, 0⟩
def Reg.DMC_TRAIN_AGE_SEC : Fld := ⟨0x04c, 31, 0⟩
def Reg.DMC_STORED_COUNT : Fld := ⟨0x050, 31, 0⟩
def Reg.DMC_REREAD_COUNT : Fld := ⟨0x054, 31, 0⟩
def Reg.DMC_WCRC_RETRY_COUNT : Fld := ⟨0x058, 31, 0⟩
def Reg.DMC_CAPAR_RETRY_COUNT : Fld := ⟨0x05c, 31, 0⟩
def Reg.DMC_MIG_POISON_COUNT : Fld := ⟨0x060, 31, 0⟩
def Reg.DMC_OFFLINE_WR_COUNT : Fld := ⟨0x064, 31, 0⟩
def Reg.DMC_REF_POSTMAX_COUNT : Fld := ⟨0x068, 3, 0⟩
def Reg.DMC_RETRAINS_COUNT : Fld := ⟨0x06c, 31, 0⟩
def Reg.DMC_TRAIN_FAIL_COUNT : Fld := ⟨0x070, 31, 0⟩

/-! Named fields of the lnk page. -/

def Reg.LNK_STATE_STATE : Fld := ⟨0x040, 2, 0⟩
def Reg.LNK_STATE_GROUP : Fld := ⟨0x040, 4, 3⟩
def Reg.LNK_STATE_SPARES : Fld := ⟨0x040, 10, 8⟩
def Reg.LNK_STATE_RATE : Fld := ⟨0x040, 23, 16⟩
def Reg.LNK_RET_LO_MASK : Fld := ⟨0x044, 31, 0⟩
def Reg.LNK_RET_HI_MASK : Fld := ⟨0x048, 31, 0⟩
def Reg.LNK_REPLAY_COUNT : Fld := ⟨0x04c, 31, 0⟩
def Reg.LNK_PROTO_COUNT : Fld := ⟨0x050, 31, 0⟩
def Reg.LNK_STEPS_COUNT : Fld := ⟨0x054, 15, 0⟩
def Reg.LNK_LSEL_LANE : Fld := ⟨0x058, 5, 0⟩
def Reg.LNK_LCNT_WINDOW : Fld := ⟨0x05c, 15, 0⟩
def Reg.LNK_LCNT_TOTAL : Fld := ⟨0x05c, 31, 16⟩

/-! Named fields of the lnkC page. -/

def Reg.LNK_INSVC_MASK : Fld := ⟨0x040, 7, 0⟩
def Reg.LNK_THR_THR : Fld := ⟨0x044, 7, 0⟩
def Reg.LNK_THR_WIN : Fld := ⟨0x044, 15, 8⟩

/-! Named fields of the gst page. -/

def Reg.GST_STATE_STATE : Fld := ⟨0x040, 2, 0⟩
def Reg.GST_STATE_SPARES : Fld := ⟨0x040, 10, 8⟩
def Reg.GST_STATE_RATE : Fld := ⟨0x040, 23, 16⟩
def Reg.GST_STATE_X32 : Fld := ⟨0x040, 24, 24⟩
def Reg.GST_ID_VENDOR : Fld := ⟨0x044, 15, 0⟩
def Reg.GST_ID_PARTID : Fld := ⟨0x044, 31, 16⟩
def Reg.GST_CFG_PART : Fld := ⟨0x048, 2, 0⟩
def Reg.GST_CFG_RATEMAX : Fld := ⟨0x048, 15, 8⟩
def Reg.GST_CFG_X32 : Fld := ⟨0x048, 16, 16⟩
def Reg.GST_TMO_TMO : Fld := ⟨0x04c, 15, 0⟩
def Reg.GST_TIMEOUT_COUNT : Fld := ⟨0x050, 31, 0⟩
def Reg.GST_REJECT_COUNT : Fld := ⟨0x054, 31, 0⟩
def Reg.GST_REPLAY_COUNT : Fld := ⟨0x058, 31, 0⟩
def Reg.GST_RET_LO_MASK : Fld := ⟨0x05c, 31, 0⟩
def Reg.GST_RET_HI_MASK : Fld := ⟨0x060, 31, 0⟩

/-! Named fields of the pxe page. -/

def Reg.PXE_SSEL_STREAM : Fld := ⟨0x040, 3, 0⟩
def Reg.PXE_FRAMES_COUNT : Fld := ⟨0x044, 31, 0⟩
def Reg.PXE_INCOMPLETE_COUNT : Fld := ⟨0x048, 31, 0⟩
def Reg.PXE_OVF_COUNT : Fld := ⟨0x04c, 31, 0⟩
def Reg.PXE_PKTERR_COUNT : Fld := ⟨0x050, 31, 0⟩
def Reg.PXE_UNMATCHED_COUNT : Fld := ⟨0x054, 31, 0⟩
def Reg.PXE_BUSY_COUNT : Fld := ⟨0x058, 31, 0⟩

/-! Named fields of the eth page. -/

def Reg.ETH_PORT_RATE : Fld := ⟨0x040, 2, 0⟩
def Reg.ETH_PORT_MAXLEN : Fld := ⟨0x040, 29, 16⟩
def Reg.ETH_RX_FCSERR_COUNT : Fld := ⟨0x044, 31, 0⟩
def Reg.ETH_RX_DROP_COUNT : Fld := ⟨0x048, 31, 0⟩
def Reg.ETH_RX_NOMATCH_COUNT : Fld := ⟨0x04c, 31, 0⟩
def Reg.ETH_TX_LATE_COUNT : Fld := ⟨0x050, 31, 0⟩
def Reg.ETH_LATETOL_NS : Fld := ⟨0x054, 15, 0⟩

/-! Named fields of the etq page. -/

def Reg.ETQ_SW_INDEX : Fld := ⟨0x040, 15, 0⟩
def Reg.ETQ_HW_INDEX : Fld := ⟨0x044, 15, 0⟩
def Reg.ETQ_DROP_COUNT : Fld := ⟨0x048, 31, 0⟩

/-! Named fields of the pch page. -/

def Reg.PCH_APSEL_AP : Fld := ⟨0x040, 5, 0⟩
def Reg.PCH_AP_LO_HANDLE : Fld := ⟨0x044, 15, 0⟩
def Reg.PCH_AP_LO_SLOT : Fld := ⟨0x044, 16, 16⟩
def Reg.PCH_AP_LO_VALID : Fld := ⟨0x044, 17, 17⟩
def Reg.PCH_AP_HI_BASE : Fld := ⟨0x048, 9, 0⟩
def Reg.PCH_CTO_US : Fld := ⟨0x04c, 15, 0⟩
def Reg.PCH_CTO_COUNT_COUNT : Fld := ⟨0x050, 31, 0⟩

/-! Named fields of the tbu page. -/

def Reg.TBU_NOW_NS_NS : Fld := ⟨0x040, 31, 0⟩
def Reg.TBU_NOW_SECLO_SEC : Fld := ⟨0x044, 31, 0⟩
def Reg.TBU_NOW_SECHI_SEC : Fld := ⟨0x048, 15, 0⟩
def Reg.TBU_NOW_FRAC_FRAC : Fld := ⟨0x04c, 31, 0⟩
def Reg.TBU_INCR_FRAC_FRAC : Fld := ⟨0x050, 31, 0⟩
def Reg.TBU_INCR_INT_INT : Fld := ⟨0x054, 7, 0⟩
def Reg.TBU_ADJ_SEC_SEC : Fld := ⟨0x058, 31, 0⟩
def Reg.TBU_ADJ_NS_NS : Fld := ⟨0x05c, 31, 0⟩
def Reg.TBU_SERVO_OWNER : Fld := ⟨0x060, 0, 0⟩
def Reg.TBU_SERVO_PORT : Fld := ⟨0x060, 3, 1⟩
def Reg.TBU_SERVO_HOSTQ : Fld := ⟨0x060, 6, 4⟩
def Reg.TBU_SERVO_GM : Fld := ⟨0x060, 7, 7⟩
def Reg.TBU_SERVO_MISS : Fld := ⟨0x060, 11, 8⟩
def Reg.TBU_STATE_STATE : Fld := ⟨0x064, 1, 0⟩
def Reg.TBU_STATE_SLEW : Fld := ⟨0x064, 2, 2⟩
def Reg.TBU_STATE_STEP : Fld := ⟨0x064, 3, 3⟩
def Reg.TBU_STATE_PHASEOK : Fld := ⟨0x064, 4, 4⟩
def Reg.TBU_PERIOD_US : Fld := ⟨0x068, 17, 0⟩
def Reg.TBU_PHASE_US : Fld := ⟨0x06c, 17, 0⟩
def Reg.TBU_ALARM_NS_NS : Fld := ⟨0x070, 31, 0⟩
def Reg.TBU_ALARM_SEC_SEC : Fld := ⟨0x074, 31, 0⟩
def Reg.TBU_ALARM_CTRL_ARM : Fld := ⟨0x078, 0, 0⟩
def Reg.TBU_HOLDS_COUNT : Fld := ⟨0x07c, 31, 0⟩
def Reg.TBU_STEPS_COUNT : Fld := ⟨0x080, 31, 0⟩

/-! Named fields of the pwr page. -/

def Reg.PWR_CTRL_STATE : Fld := ⟨0x040, 1, 0⟩
def Reg.PWR_CTRL_EMBER_EN : Fld := ⟨0x040, 2, 2⟩
def Reg.PWR_CTRL_DARK_EN : Fld := ⟨0x040, 3, 3⟩
def Reg.PWR_GLOW_IDLE_US : Fld := ⟨0x044, 19, 0⟩
def Reg.PWR_EMBER_IDLE_S : Fld := ⟨0x048, 15, 0⟩
def Reg.PWR_DARK_IDLE_S : Fld := ⟨0x04c, 15, 0⟩
def Reg.PWR_WAKE_EN_MASK : Fld := ⟨0x050, 10, 0⟩
def Reg.PWR_WAKE_LAST_SRC : Fld := ⟨0x054, 3, 0⟩
def Reg.PWR_WAKE_LAST_FROM : Fld := ⟨0x054, 5, 4⟩
def Reg.PWR_WAKE_LAST_ABORTED : Fld := ⟨0x054, 6, 6⟩
def Reg.PWR_WAKE_LAST_PEND : Fld := ⟨0x054, 26, 16⟩
def Reg.PWR_WAKE_NS_NS : Fld := ⟨0x058, 31, 0⟩
def Reg.PWR_WAKE_SEC_SEC : Fld := ⟨0x05c, 31, 0⟩
def Reg.PWR_WAKE_AON_COUNT : Fld := ⟨0x060, 31, 0⟩

/-! Named fields of the trm page. -/

def Reg.TRM_TJ_SOFT : Fld := ⟨0x040, 7, 0⟩
def Reg.TRM_TJ_HARD : Fld := ⟨0x040, 15, 8⟩
def Reg.TRM_TJ_CRIT : Fld := ⟨0x040, 23, 16⟩
def Reg.TRM_TJ_HYST : Fld := ⟨0x040, 31, 24⟩
def Reg.TRM_RAMP_RATE : Fld := ⟨0x044, 7, 0⟩
def Reg.TRM_RAMP_FMIN : Fld := ⟨0x044, 12, 8⟩
def Reg.TRM_RAMP_FSTART : Fld := ⟨0x044, 20, 16⟩
def Reg.TRM_COOL_LO : Fld := ⟨0x048, 7, 0⟩
def Reg.TRM_COOL_HI : Fld := ⟨0x048, 15, 8⟩
def Reg.TRM_COOL_MIN : Fld := ⟨0x048, 22, 16⟩
def Reg.TRM_PLIMIT_W : Fld := ⟨0x04c, 9, 0⟩
def Reg.TRM_LSEL_LANTERN : Fld := ⟨0x050, 2, 0⟩
def Reg.TRM_LANTERN_GRANT : Fld := ⟨0x054, 4, 0⟩
def Reg.TRM_LANTERN_T : Fld := ⟨0x054, 15, 8⟩
def Reg.TRM_LANTERN_TPRED : Fld := ⟨0x054, 23, 16⟩
def Reg.TRM_LANTERN_RTH : Fld := ⟨0x054, 31, 24⟩
def Reg.TRM_STATUS_HOT : Fld := ⟨0x058, 2, 0⟩
def Reg.TRM_STATUS_SOFT : Fld := ⟨0x058, 3, 3⟩
def Reg.TRM_STATUS_HARD : Fld := ⟨0x058, 4, 4⟩
def Reg.TRM_STATUS_ALERT : Fld := ⟨0x058, 5, 5⟩
def Reg.TRM_STATUS_FLOOR : Fld := ⟨0x058, 6, 6⟩
def Reg.TRM_STATUS_DUTY : Fld := ⟨0x058, 14, 8⟩
def Reg.TRM_PKGPWR_W : Fld := ⟨0x05c, 9, 0⟩
def Reg.TRM_STEPS_COUNT : Fld := ⟨0x060, 31, 0⟩
def Reg.TRM_LIFE_HRS_HOURS : Fld := ⟨0x064, 31, 0⟩
def Reg.TRM_CYCSEL_BIN : Fld := ⟨0x068, 2, 0⟩
def Reg.TRM_CYC_COUNT : Fld := ⟨0x06c, 31, 0⟩
def Reg.TRM_LIFE_STATUS_HOURS : Fld := ⟨0x070, 0, 0⟩
def Reg.TRM_LIFE_STATUS_CYCLES : Fld := ⟨0x070, 1, 1⟩

/-! Named fields of the flt page. -/

def Reg.FLT_BOOT_STATE : Fld := ⟨0x040, 2, 0⟩
def Reg.FLT_BOOT_READY : Fld := ⟨0x040, 3, 3⟩
def Reg.FLT_BOOT_STEP : Fld := ⟨0x040, 7, 4⟩
def Reg.FLT_BOOT_CAUSE : Fld := ⟨0x040, 15, 8⟩
def Reg.FLT_BOOT_MS_MS : Fld := ⟨0x044, 15, 0⟩
def Reg.FLT_FW_SVN : Fld := ⟨0x048, 7, 0⟩
def Reg.FLT_FW_KEYSLOT : Fld := ⟨0x048, 9, 8⟩
def Reg.FLT_FW_CFGSVN : Fld := ⟨0x048, 23, 16⟩
def Reg.FLT_MB_CMD_CMD : Fld := ⟨0x04c, 3, 0⟩
def Reg.FLT_MB_STATUS_BUSY : Fld := ⟨0x050, 0, 0⟩
def Reg.FLT_MB_STATUS_ERR : Fld := ⟨0x050, 15, 8⟩
def Reg.FLT_MB_STATUS_PROGRESS : Fld := ⟨0x050, 31, 16⟩
def Reg.FLT_MB_IN_LO_REF : Fld := ⟨0x054, 31, 0⟩
def Reg.FLT_MB_IN_HI_REF : Fld := ⟨0x058, 31, 0⟩
def Reg.FLT_MB_OUT_LO_REF : Fld := ⟨0x05c, 31, 0⟩
def Reg.FLT_MB_OUT_HI_REF : Fld := ⟨0x060, 31, 0⟩
def Reg.FLT_DEBUG_SCOPE : Fld := ⟨0x064, 4, 0⟩
def Reg.FLT_PROGSTORE_FREEMIB : Fld := ⟨0x068, 15, 0⟩

/-! Named fields of the dbg page. -/

def Reg.DBG_CTRL_FREEZE : Fld := ⟨0x040, 0, 0⟩
def Reg.DBG_CTRL_SCAN : Fld := ⟨0x040, 1, 1⟩
def Reg.DBG_FRZ_FROZEN : Fld := ⟨0x044, 0, 0⟩
def Reg.DBG_FRZ_BALL : Fld := ⟨0x044, 1, 1⟩
def Reg.DBG_FRZ_SNUFFERS : Fld := ⟨0x044, 2, 2⟩
def Reg.DBG_FRZ_SCANNED : Fld := ⟨0x044, 3, 3⟩
def Reg.DBG_FRZ_LAT : Fld := ⟨0x044, 31, 16⟩
def Reg.DBG_FRZ_COUNT_COUNT : Fld := ⟨0x048, 31, 0⟩
def Reg.DBG_TRSEL_CTR : Fld := ⟨0x04c, 2, 0⟩
def Reg.DBG_TREVT_EVENT : Fld := ⟨0x050, 7, 0⟩
def Reg.DBG_TREVT_INST : Fld := ⟨0x050, 15, 8⟩
def Reg.DBG_TRC_LO_COUNT : Fld := ⟨0x054, 31, 0⟩
def Reg.DBG_TRC_HI_COUNT : Fld := ⟨0x058, 31, 0⟩

/-! Named fields of the lmpSched page. -/

/-- The same fields `n` times, `stride` bytes apart. -/
def repeatFields (fs : List FieldSpec) (n stride : Nat) : List FieldSpec :=
  (List.range n).flatMap fun k => fs.map fun f => { f with off := f.off + k * stride }

/-- The fields of the page head (20 R479); BLOCK_ID and the reset of LOCK.OWNER depend on the page. -/
def headFields : List FieldSpec :=
  [⟨0x004, 15, 8, .ro, 0x1⟩, ⟨0x014, 0, 0, .ro, 0x1⟩, ⟨0x014, 1, 1, .ro, 0x0⟩, ⟨0x018, 0, 0, .w1c, 0x0⟩,
    ⟨0x018, 1, 1, .w1c, 0x0⟩, ⟨0x01c, 1, 0, .rw, 0x0⟩, ⟨0x020, 15, 0, .wo, 0x0⟩, ⟨0x024, 7, 0, .ro, 0x0⟩,
    ⟨0x028, 31, 0, .ro, 0x0⟩, ⟨0x02c, 15, 0, .ro, 0x0⟩, ⟨0x030, 2, 0, .rwl, 0x0⟩, ⟨0x030, 31, 31, .rw, 0x0⟩,
    ⟨0x034, 10, 0, .rwl, 0x0⟩, ⟨0x034, 11, 11, .rwl, 0x0⟩]

/-- The fields of the fus page (R24, R473). -/
def fusFields : List FieldSpec :=
  [⟨0x008, 3, 0, .ro, 0x0⟩, ⟨0x008, 4, 4, .ro, 0x0⟩, ⟨0x008, 5, 5, .ro, 0x0⟩, ⟨0x040, 31, 0, .ro, 0x0⟩,
    ⟨0x044, 31, 0, .ro, 0x0⟩, ⟨0x048, 3, 0, .ro, 0x0⟩, ⟨0x048, 7, 4, .ro, 0x0⟩, ⟨0x04c, 6, 0, .ro, 0x0⟩,
    ⟨0x04c, 14, 8, .ro, 0x0⟩, ⟨0x050, 4, 0, .rw, 0x0⟩, ⟨0x054, 31, 0, .ro, 0x0⟩]

/-- The fields of the lmpFrame page (R323, R35); LMP_GROUP_MAP with the WRL-880's reset value. -/
def lmpFrameFields : List FieldSpec :=
  [⟨0x040, 0, 0, .rw, 0x0⟩, ⟨0x040, 1, 1, .rwl, 0x0⟩, ⟨0x040, 2, 2, .rwl, 0x0⟩, ⟨0x040, 3, 3, .rwl, 0x0⟩,
    ⟨0x044, 31, 0, .ro, 0x0⟩, ⟨0x048, 17, 0, .rwl, 0xafc8⟩, ⟨0x04c, 17, 0, .rwl, 0x9c40⟩,
    ⟨0x050, 31, 0, .ro, 0x0⟩, ⟨0x054, 31, 0, .ro, 0x0⟩, ⟨0x058, 2, 0, .rwl, 0x0⟩, ⟨0x058, 5, 3, .rwl, 0x0⟩,
    ⟨0x058, 8, 6, .rwl, 0x0⟩, ⟨0x058, 11, 9, .rwl, 0x0⟩, ⟨0x058, 14, 12, .rwl, 0x0⟩,
    ⟨0x058, 17, 15, .rwl, 0x0⟩, ⟨0x058, 20, 18, .rwl, 0x1⟩, ⟨0x058, 23, 21, .rwl, 0x1⟩,
    ⟨0x05c, 17, 0, .rwl, 0xb3b0⟩, ⟨0x05c, 27, 18, .rwl, 0xc8⟩, ⟨0x060, 3, 0, .rwl, 0x0⟩,
    ⟨0x064, 15, 0, .ro, 0x0⟩, ⟨0x068, 31, 0, .ro, 0x0⟩, ⟨0x06c, 31, 0, .ro, 0x0⟩]

/-- The fields of the lmpQueue page (R60). -/
def lmpQueueFields : List FieldSpec :=
  [⟨0x040, 17, 0, .rw, 0x0⟩, ⟨0x044, 4, 0, .rw, 0x4⟩, ⟨0x044, 6, 5, .rw, 0x0⟩, ⟨0x044, 7, 7, .rw, 0x0⟩,
    ⟨0x044, 10, 8, .rw, 0x4⟩, ⟨0x044, 21, 11, .rw, 0x0⟩, ⟨0x048, 31, 12, .rw, 0x0⟩, ⟨0x04c, 15, 0, .rw, 0x0⟩,
    ⟨0x050, 31, 0, .rw, 0x0⟩, ⟨0x054, 2, 0, .wo, 0x0⟩, ⟨0x058, 15, 0, .ro, 0x0⟩, ⟨0x058, 31, 16, .ro, 0x0⟩,
    ⟨0x05c, 16, 0, .ro, 0x0⟩, ⟨0x060, 31, 0, .ro, 0x0⟩, ⟨0x064, 31, 0, .ro, 0x0⟩, ⟨0x068, 31, 6, .rwl, 0x0⟩,
    ⟨0x06c, 15, 0, .rwl, 0x0⟩]

/-- The fields of the wck page (R119, R152, R323). -/
def wckFields : List FieldSpec :=
  [⟨0x040, 2, 0, .ro, 0x0⟩, ⟨0x040, 31, 16, .ro, 0x0⟩, ⟨0x044, 2, 0, .ro, 0x0⟩, ⟨0x048, 31, 0, .ro, 0x0⟩,
    ⟨0x04c, 31, 0, .ro, 0x0⟩, ⟨0x050, 31, 0, .ro, 0x0⟩, ⟨0x054, 31, 0, .ro, 0x0⟩, ⟨0x058, 12, 0, .ro, 0x0⟩,
    ⟨0x05c, 11, 0, .ro, 0x0⟩, ⟨0x05c, 31, 16, .ro, 0x0⟩, ⟨0x060, 16, 0, .ro, 0x0⟩, ⟨0x064, 31, 0, .ro, 0x0⟩,
    ⟨0x068, 15, 0, .ro, 0x0⟩, ⟨0x06c, 31, 0, .ro, 0x0⟩, ⟨0x070, 31, 0, .ro, 0x0⟩]

/-- The fields of the scn page (R119, R192, R323). -/
def scnFields : List FieldSpec :=
  [⟨0x040, 2, 0, .rwl, 0x0⟩, ⟨0x040, 6, 4, .rwl, 0x0⟩, ⟨0x040, 10, 8, .rwl, 0x0⟩, ⟨0x040, 14, 12, .rwl, 0x0⟩,
    ⟨0x040, 18, 16, .rwl, 0x0⟩, ⟨0x040, 22, 20, .rwl, 0x0⟩, ⟨0x040, 26, 24, .rwl, 0x0⟩,
    ⟨0x040, 30, 28, .rwl, 0x0⟩, ⟨0x040, 3, 3, .rwl, 0x0⟩, ⟨0x040, 7, 7, .rwl, 0x0⟩,
    ⟨0x040, 11, 11, .rwl, 0x0⟩, ⟨0x040, 15, 15, .rwl, 0x0⟩, ⟨0x040, 19, 19, .rwl, 0x0⟩,
    ⟨0x040, 23, 23, .rwl, 0x0⟩, ⟨0x040, 27, 27, .rwl, 0x0⟩, ⟨0x040, 31, 31, .rwl, 0x0⟩,
    ⟨0x044, 31, 0, .ro, 0x0⟩, ⟨0x048, 31, 0, .ro, 0x0⟩, ⟨0x04c, 3, 0, .ro, 0x0⟩, ⟨0x050, 31, 0, .ro, 0x0⟩,
    ⟨0x054, 31, 0, .ro, 0x0⟩, ⟨0x058, 31, 0, .ro, 0x0⟩, ⟨0x05c, 31, 0, .ro, 0x0⟩]

/-- The fields of the apw page (R215). -/
def apwFields : List FieldSpec :=
  [⟨0x040, 31, 0, .ro, 0x0⟩, ⟨0x044, 31, 0, .ro, 0x0⟩, ⟨0x048, 31, 0, .ro, 0x0⟩, ⟨0x04c, 31, 0, .ro, 0x0⟩,
    ⟨0x050, 31, 0, .ro, 0x0⟩, ⟨0x054, 31, 0, .ro, 0x0⟩]

/-- The fields of the xcu page (R239). -/
def xcuFields : List FieldSpec :=
  [⟨0x040, 31, 0, .ro, 0x0⟩, ⟨0x044, 31, 0, .ro, 0x0⟩, ⟨0x048, 31, 0, .ro, 0x0⟩, ⟨0x04c, 31, 0, .ro, 0x0⟩,
    ⟨0x050, 13, 0, .ro, 0x0⟩, ⟨0x054, 31, 0, .ro, 0x0⟩, ⟨0x058, 31, 0, .ro, 0x0⟩, ⟨0x05c, 31, 0, .ro, 0x0⟩,
    ⟨0x060, 31, 0, .ro, 0x0⟩, ⟨0x064, 31, 0, .ro, 0x0⟩]

/-- The fields of the ccu page (R273). -/
def ccuFields : List FieldSpec :=
  [⟨0x040, 2, 0, .rwl, 0x0⟩, ⟨0x040, 15, 8, .rwl, 0x0⟩, ⟨0x044, 31, 0, .ro, 0x0⟩, ⟨0x048, 31, 0, .ro, 0x0⟩,
    ⟨0x04c, 13, 0, .ro, 0x0⟩, ⟨0x050, 13, 0, .ro, 0x2000⟩, ⟨0x054, 31, 0, .ro, 0x0⟩, ⟨0x058, 31, 0, .ro, 0x0⟩,
    ⟨0x05c, 31, 0, .ro, 0x0⟩, ⟨0x060, 31, 0, .ro, 0x0⟩, ⟨0x064, 31, 0, .ro, 0x0⟩, ⟨0x068, 31, 0, .ro, 0x0⟩,
    ⟨0x06c, 2, 0, .ro, 0x7⟩, ⟨0x06c, 3, 3, .ro, 0x0⟩, ⟨0x06c, 7, 4, .ro, 0x0⟩, ⟨0x070, 31, 0, .ro, 0x0⟩,
    ⟨0x074, 31, 0, .ro, 0x0⟩, ⟨0x078, 31, 0, .ro, 0x0⟩]

/-- The fields of the pru page (R273). -/
def pruFields : List FieldSpec :=
  [⟨0x040, 31, 0, .ro, 0x0⟩, ⟨0x044, 31, 0, .ro, 0x0⟩, ⟨0x048, 31, 0, .ro, 0x0⟩, ⟨0x04c, 31, 0, .ro, 0x0⟩]

/-- The fields of the sna page (R300). -/
def snaFields : List FieldSpec :=
  [⟨0x040, 2, 0, .ro, 0x0⟩, ⟨0x040, 10, 8, .ro, 0x0⟩, ⟨0x040, 24, 16, .ro, 0x0⟩, ⟨0x044, 1, 0, .ro, 0x3⟩,
    ⟨0x044, 5, 2, .ro, 0x0⟩, ⟨0x044, 8, 6, .ro, 0x0⟩, ⟨0x044, 11, 9, .ro, 0x7⟩, ⟨0x044, 13, 12, .ro, 0x0⟩,
    ⟨0x048, 31, 0, .ro, 0x0⟩, ⟨0x04c, 31, 0, .ro, 0x0⟩, ⟨0x050, 31, 0, .ro, 0x0⟩, ⟨0x054, 15, 0, .ro, 0x0⟩,
    ⟨0x054, 31, 16, .ro, 0x0⟩, ⟨0x058, 31, 0, .ro, 0x0⟩, ⟨0x05c, 31, 0, .ro, 0x0⟩, ⟨0x060, 2, 0, .ro, 0x0⟩,
    ⟨0x060, 3, 3, .ro, 0x0⟩, ⟨0x060, 4, 4, .ro, 0x0⟩, ⟨0x060, 31, 16, .ro, 0x0⟩, ⟨0x064, 31, 0, .ro, 0x0⟩]

/-- The fields of the rsv page (R323, R388). -/
def rsvFields : List FieldSpec :=
  [⟨0x040, 31, 0, .ro, 0x0⟩, ⟨0x044, 31, 0, .ro, 0x0⟩, ⟨0x048, 31, 0, .ro, 0x0⟩, ⟨0x04c, 31, 0, .ro, 0x0⟩,
    ⟨0x050, 31, 0, .ro, 0x0⟩, ⟨0x054, 15, 0, .ro, 0x0⟩, ⟨0x058, 31, 0, .ro, 0x0⟩, ⟨0x05c, 31, 0, .ro, 0x0⟩]

/-- The fields of the rgl page (R346). -/
def rglFields : List FieldSpec :=
  [⟨0x040, 12, 0, .ro, 0x1000⟩, ⟨0x044, 12, 0, .ro, 0xb85⟩, ⟨0x048, 12, 0, .ro, 0x0⟩,
    ⟨0x04c, 15, 0, .rwl, 0xb852⟩, ⟨0x050, 5, 0, .rw, 0x0⟩, ⟨0x054, 11, 0, .rwl, 0x0⟩,
    ⟨0x054, 22, 16, .rwl, 0x0⟩, ⟨0x058, 0, 0, .ro, 0x0⟩, ⟨0x058, 1, 1, .ro, 0x0⟩, ⟨0x05c, 31, 0, .ro, 0x0⟩,
    ⟨0x060, 31, 0, .ro, 0x0⟩, ⟨0x064, 31, 0, .ro, 0x0⟩, ⟨0x068, 5, 0, .ro, 0x0⟩, ⟨0x06c, 31, 0, .rwl, 0x0⟩,
    ⟨0x070, 31, 0, .rwl, 0x0⟩, ⟨0x074, 31, 0, .rwl, 0x0⟩, ⟨0x078, 4, 0, .rw, 0x0⟩, ⟨0x078, 7, 5, .rw, 0x0⟩,
    ⟨0x07c, 9, 0, .rwl, 0x0⟩, ⟨0x07c, 19, 10, .ro, 0x0⟩, ⟨0x07c, 29, 20, .ro, 0x0⟩, ⟨0x080, 13, 0, .ro, 0x0⟩,
    ⟨0x084, 2, 0, .rw, 0x0⟩, ⟨0x088, 7, 0, .rwl, 0x80⟩] ++
  [⟨0x088, 15, 8, .rwl, 0xc0⟩, ⟨0x088, 23, 16, .rwl, 0xe6⟩, ⟨0x08c, 15, 0, .ro, 0x0⟩,
    ⟨0x090, 31, 0, .ro, 0x0⟩]

/-- The fields of one of the classes, offset 0x040 + 0x20c of a rglPort page. -/
def rglPortBase : List FieldSpec :=
  [⟨0x040, 31, 0, .ro, 0x0⟩, ⟨0x044, 31, 0, .ro, 0x0⟩, ⟨0x048, 31, 0, .ro, 0x0⟩, ⟨0x04c, 31, 0, .ro, 0x0⟩,
    ⟨0x050, 31, 0, .ro, 0x0⟩, ⟨0x054, 31, 0, .ro, 0x0⟩]

/-- The fields of the rglPort page (R347). -/
def rglPortFields : List FieldSpec := repeatFields rglPortBase 8 32

/-- The fields of the dmc page (R365). -/
def dmcFields : List FieldSpec :=
  [⟨0x040, 1, 0, .ro, 0x0⟩, ⟨0x040, 2, 2, .ro, 0x0⟩, ⟨0x040, 4, 3, .ro, 0x0⟩, ⟨0x040, 7, 5, .ro, 0x0⟩,
    ⟨0x044, 9, 0, .ro, 0x0⟩, ⟨0x048, 7, 0, .rwl, 0xa⟩, ⟨0x048, 23, 8, .rwl, 0x258⟩,
    ⟨0x04c, 11, 0, .rwl, 0x14⟩, ⟨0x050, 0, 0, .ro, 0x0⟩, ⟨0x080, 31, 0, .ro, 0x808001⟩,
    ⟨0x088, 31, 0, .ro, 0x1010002⟩, ⟨0x090, 31, 0, .ro, 0x2020004⟩, ⟨0x098, 31, 0, .ro, 0x4040008⟩,
    ⟨0x0a0, 31, 0, .ro, 0x8080800⟩, ⟨0x0a8, 31, 0, .ro, 0x10101000⟩, ⟨0x0b0, 31, 0, .ro, 0x20202000⟩,
    ⟨0x0b8, 31, 0, .ro, 0x40404000⟩, ⟨0x084, 0, 0, .ro, 0x0⟩, ⟨0x08c, 0, 0, .ro, 0x0⟩,
    ⟨0x094, 0, 0, .ro, 0x0⟩, ⟨0x09c, 0, 0, .ro, 0x0⟩, ⟨0x0a4, 0, 0, .ro, 0x0⟩, ⟨0x0ac, 0, 0, .ro, 0x0⟩,
    ⟨0x0b4, 0, 0, .ro, 0x0⟩] ++
  [⟨0x0bc, 0, 0, .ro, 0x0⟩]

/-- The fields of the dmcCh page (R365). -/
def dmcChFields : List FieldSpec :=
  [⟨0x040, 2, 0, .ro, 0x0⟩, ⟨0x040, 5, 3, .ro, 0x0⟩, ⟨0x040, 6, 6, .ro, 0x0⟩, ⟨0x044, 21, 0, .ro, 0x0⟩,
    ⟨0x048, 7, 0, .ro, 0x0⟩, ⟨0x04c, 31, 0, .ro, 0x0⟩, ⟨0x050, 31, 0, .ro, 0x0⟩, ⟨0x054, 31, 0, .ro, 0x0⟩,
    ⟨0x058, 31, 0, .ro, 0x0⟩, ⟨0x05c, 31, 0, .ro, 0x0⟩, ⟨0x060, 31, 0, .ro, 0x0⟩, ⟨0x064, 31, 0, .ro, 0x0⟩,
    ⟨0x068, 3, 0, .ro, 0x0⟩, ⟨0x06c, 31, 0, .ro, 0x0⟩, ⟨0x070, 31, 0, .ro, 0x0⟩]

/-- The fields of one of the modules, offset 0x040 + 0x20m of a lnk page. -/
def lnkBase : List FieldSpec :=
  [⟨0x040, 2, 0, .ro, 0x0⟩, ⟨0x040, 4, 3, .ro, 0x0⟩, ⟨0x040, 10, 8, .ro, 0x0⟩, ⟨0x040, 23, 16, .ro, 0x0⟩,
    ⟨0x044, 31, 0, .ro, 0x0⟩, ⟨0x048, 31, 0, .ro, 0x0⟩, ⟨0x04c, 31, 0, .ro, 0x0⟩, ⟨0x050, 31, 0, .ro, 0x0⟩,
    ⟨0x054, 15, 0, .ro, 0x0⟩, ⟨0x058, 5, 0, .rw, 0x0⟩, ⟨0x05c, 15, 0, .ro, 0x0⟩, ⟨0x05c, 31, 16, .ro, 0x0⟩]

/-- The fields of the lnk page (R388). -/
def lnkFields : List FieldSpec := repeatFields lnkBase 4 32

/-- The fields of the lnkC page (R388). -/
def lnkCFields : List FieldSpec :=
  [⟨0x040, 7, 0, .ro, 0x0⟩, ⟨0x044, 7, 0, .rwl, 0x8⟩, ⟨0x044, 15, 8, .rwl, 0x64⟩]

/-- The fields of the gst page (R388). -/
def gstFields : List FieldSpec :=
  [⟨0x040, 2, 0, .ro, 0x0⟩, ⟨0x040, 10, 8, .ro, 0x0⟩, ⟨0x040, 23, 16, .ro, 0x0⟩, ⟨0x040, 24, 24, .ro, 0x0⟩,
    ⟨0x044, 15, 0, .ro, 0x0⟩, ⟨0x044, 31, 16, .ro, 0x0⟩, ⟨0x048, 2, 0, .rwl, 0x0⟩, ⟨0x048, 15, 8, .rwl, 0x0⟩,
    ⟨0x048, 16, 16, .rwl, 0x0⟩, ⟨0x04c, 15, 0, .rwl, 0x64⟩, ⟨0x050, 31, 0, .ro, 0x0⟩,
    ⟨0x054, 31, 0, .ro, 0x0⟩, ⟨0x058, 31, 0, .ro, 0x0⟩, ⟨0x05c, 31, 0, .ro, 0x0⟩, ⟨0x060, 31, 0, .ro, 0x0⟩]

/-- The fields of the pxe page (R413). -/
def pxeFields : List FieldSpec :=
  [⟨0x040, 3, 0, .rw, 0x0⟩, ⟨0x044, 31, 0, .ro, 0x0⟩, ⟨0x048, 31, 0, .ro, 0x0⟩, ⟨0x04c, 31, 0, .ro, 0x0⟩,
    ⟨0x050, 31, 0, .ro, 0x0⟩, ⟨0x054, 31, 0, .ro, 0x0⟩, ⟨0x058, 31, 0, .ro, 0x0⟩]

/-- The fields of the eth page (R413). -/
def ethFields : List FieldSpec :=
  [⟨0x040, 2, 0, .ro, 0x0⟩, ⟨0x040, 29, 16, .rwl, 0x0⟩, ⟨0x044, 31, 0, .ro, 0x0⟩, ⟨0x048, 31, 0, .ro, 0x0⟩,
    ⟨0x04c, 31, 0, .ro, 0x0⟩, ⟨0x050, 31, 0, .ro, 0x0⟩, ⟨0x054, 15, 0, .rwl, 0x3e8⟩]

/-- The fields of the etq page (R413). -/
def etqFields : List FieldSpec :=
  [⟨0x040, 15, 0, .rw, 0x0⟩, ⟨0x044, 15, 0, .ro, 0x0⟩, ⟨0x048, 31, 0, .ro, 0x0⟩]

/-- The fields of the pch page (R413). -/
def pchFields : List FieldSpec :=
  [⟨0x040, 5, 0, .rw, 0x0⟩, ⟨0x044, 15, 0, .rw, 0x0⟩, ⟨0x044, 16, 16, .rw, 0x0⟩, ⟨0x044, 17, 17, .rw, 0x0⟩,
    ⟨0x048, 9, 0, .rw, 0x0⟩, ⟨0x04c, 15, 0, .rwl, 0x3e8⟩, ⟨0x050, 31, 0, .ro, 0x0⟩]

/-- The fields of the tbu page (R425). -/
def tbuFields : List FieldSpec :=
  [⟨0x040, 31, 0, .ro, 0x0⟩, ⟨0x044, 31, 0, .ro, 0x0⟩, ⟨0x048, 15, 0, .ro, 0x0⟩, ⟨0x04c, 31, 0, .ro, 0x0⟩,
    ⟨0x050, 31, 0, .rw, 0x0⟩, ⟨0x054, 7, 0, .rw, 0x4⟩, ⟨0x058, 31, 0, .rw, 0x0⟩, ⟨0x05c, 31, 0, .wo, 0x0⟩,
    ⟨0x060, 0, 0, .rw, 0x0⟩, ⟨0x060, 3, 1, .rwl, 0x0⟩, ⟨0x060, 6, 4, .rw, 0x0⟩, ⟨0x060, 7, 7, .ro, 0x0⟩,
    ⟨0x060, 11, 8, .rw, 0x3⟩, ⟨0x064, 1, 0, .ro, 0x0⟩, ⟨0x064, 2, 2, .ro, 0x0⟩, ⟨0x064, 3, 3, .ro, 0x0⟩,
    ⟨0x064, 4, 4, .ro, 0x0⟩, ⟨0x068, 17, 0, .rwl, 0xc350⟩, ⟨0x06c, 17, 0, .rwl, 0x0⟩,
    ⟨0x070, 31, 0, .rw, 0x0⟩, ⟨0x074, 31, 0, .rw, 0x0⟩, ⟨0x078, 0, 0, .rw, 0x0⟩, ⟨0x07c, 31, 0, .ro, 0x0⟩,
    ⟨0x080, 31, 0, .ro, 0x0⟩]

/-- The fields of the pwr page (R449). -/
def pwrFields : List FieldSpec :=
  [⟨0x040, 1, 0, .ro, 0x0⟩, ⟨0x040, 2, 2, .rw, 0x0⟩, ⟨0x040, 3, 3, .rw, 0x0⟩, ⟨0x044, 19, 0, .rw, 0x3e8⟩,
    ⟨0x048, 15, 0, .rw, 0x3c⟩, ⟨0x04c, 15, 0, .rw, 0x0⟩, ⟨0x050, 10, 0, .rw, 0x7ff⟩, ⟨0x054, 3, 0, .rs, 0x0⟩,
    ⟨0x054, 5, 4, .rs, 0x0⟩, ⟨0x054, 6, 6, .rs, 0x0⟩, ⟨0x054, 26, 16, .rs, 0x0⟩, ⟨0x058, 31, 0, .rs, 0x0⟩,
    ⟨0x05c, 31, 0, .rs, 0x0⟩, ⟨0x060, 31, 0, .rs, 0x0⟩]

/-- The fields of the trm page (R449). -/
def trmFields : List FieldSpec :=
  [⟨0x040, 7, 0, .rwl, 0xa4⟩, ⟨0x040, 15, 8, .rwl, 0xb3⟩, ⟨0x040, 23, 16, .ro, 0xbd⟩,
    ⟨0x040, 31, 24, .rwl, 0x3⟩, ⟨0x044, 7, 0, .rwl, 0x14⟩, ⟨0x044, 12, 8, .rwl, 0x4⟩,
    ⟨0x044, 20, 16, .rwl, 0xc⟩, ⟨0x048, 7, 0, .rwl, 0x90⟩, ⟨0x048, 15, 8, .rwl, 0xa4⟩,
    ⟨0x048, 22, 16, .rwl, 0x14⟩, ⟨0x04c, 9, 0, .rwl, 0x1ae⟩, ⟨0x050, 2, 0, .rw, 0x0⟩, ⟨0x054, 4, 0, .ro, 0xc⟩,
    ⟨0x054, 15, 8, .ro, 0x0⟩, ⟨0x054, 23, 16, .ro, 0x0⟩, ⟨0x054, 31, 24, .rwl, 0x3c⟩, ⟨0x058, 2, 0, .ro, 0x0⟩,
    ⟨0x058, 3, 3, .ro, 0x0⟩, ⟨0x058, 4, 4, .ro, 0x0⟩, ⟨0x058, 5, 5, .ro, 0x0⟩, ⟨0x058, 6, 6, .ro, 0x0⟩,
    ⟨0x058, 14, 8, .ro, 0x0⟩, ⟨0x05c, 9, 0, .ro, 0x0⟩, ⟨0x060, 31, 0, .ro, 0x0⟩] ++
  [⟨0x064, 31, 0, .rs, 0x0⟩, ⟨0x068, 2, 0, .rw, 0x0⟩, ⟨0x06c, 31, 0, .rs, 0x0⟩, ⟨0x070, 0, 0, .rs, 0x0⟩,
    ⟨0x070, 1, 1, .rs, 0x0⟩]

/-- The fields of the flt page (R473). -/
def fltFields : List FieldSpec :=
  [⟨0x040, 2, 0, .ro, 0x0⟩, ⟨0x040, 3, 3, .ro, 0x0⟩, ⟨0x040, 7, 4, .ro, 0x1⟩, ⟨0x040, 15, 8, .ro, 0x0⟩,
    ⟨0x044, 15, 0, .ro, 0x0⟩, ⟨0x048, 7, 0, .ro, 0x0⟩, ⟨0x048, 9, 8, .ro, 0x0⟩, ⟨0x048, 23, 16, .ro, 0x0⟩,
    ⟨0x04c, 3, 0, .wo, 0x0⟩, ⟨0x050, 0, 0, .ro, 0x0⟩, ⟨0x050, 15, 8, .ro, 0x0⟩, ⟨0x050, 31, 16, .ro, 0x0⟩,
    ⟨0x054, 31, 0, .rw, 0x0⟩, ⟨0x058, 31, 0, .rw, 0x0⟩, ⟨0x05c, 31, 0, .rw, 0x0⟩, ⟨0x060, 31, 0, .rw, 0x0⟩,
    ⟨0x064, 4, 0, .ro, 0x0⟩, ⟨0x068, 15, 0, .ro, 0x0⟩]

/-- The fields of the dbg page (R496). -/
def dbgFields : List FieldSpec :=
  [⟨0x040, 0, 0, .rw, 0x0⟩, ⟨0x040, 1, 1, .wo, 0x0⟩, ⟨0x044, 0, 0, .ro, 0x0⟩, ⟨0x044, 1, 1, .ro, 0x0⟩,
    ⟨0x044, 2, 2, .ro, 0x0⟩, ⟨0x044, 3, 3, .ro, 0x0⟩, ⟨0x044, 31, 16, .ro, 0x0⟩, ⟨0x048, 31, 0, .ro, 0x0⟩,
    ⟨0x04c, 2, 0, .rw, 0x0⟩, ⟨0x050, 7, 0, .rw, 0x0⟩, ⟨0x050, 15, 8, .rw, 0x0⟩, ⟨0x054, 31, 0, .ro, 0x0⟩,
    ⟨0x058, 31, 0, .ro, 0x0⟩]

/-- The fields of one of the window entries, offset 0x040 + 8k of a lmpSched page. -/
def lmpSchedBase : List FieldSpec :=
  [⟨0x040, 31, 0, .rwl, 0x0⟩, ⟨0x044, 12, 0, .rwl, 0x0⟩]

/-- The fields of the lmpSched page (R39). -/
def lmpSchedFields : List FieldSpec := repeatFields lmpSchedBase 64 8

/-- The block-specific fields of a page of block `b`. -/
def Block.fields : Block → List FieldSpec
  | .fus => fusFields
  | .flt => fltFields
  | .pwr => pwrFields
  | .trm => trmFields
  | .tbu => tbuFields
  | .sna => snaFields
  | .snb => snaFields
  | .dbg => dbgFields
  | .lmpFrame => lmpFrameFields
  | .lmpSched => lmpSchedFields
  | .lmpQueue => lmpQueueFields
  | .rgl => rglFields
  | .rglPort => rglPortFields
  | .dmc => dmcFields
  | .dmcCh => dmcChFields
  | .ccu => ccuFields
  | .pru => pruFields
  | .xcu => xcuFields
  | .pxe => pxeFields
  | .eth => ethFields
  | .etqTx => etqFields
  | .etqRx => etqFields
  | .pch => pchFields
  | .lnkC => lnkCFields
  | .gst => gstFields
  | .wck => wckFields
  | .scn => scnFields
  | .apw => apwFields
  | .lnk => lnkFields
  | .rsv => rsvFields

/-- BLOCK_ID.BLOCK of a block (20 Table 2). -/
def Block.code : Block → Nat
  | .fus => 0x01
  | .flt => 0x02
  | .pwr => 0x03
  | .trm => 0x04
  | .tbu => 0x05
  | .sna => 0x06
  | .snb => 0x07
  | .dbg => 0x08
  | .lmpFrame => 0x10
  | .lmpSched => 0x11
  | .lmpQueue => 0x12
  | .rgl => 0x18
  | .rglPort => 0x19
  | .dmc => 0x20
  | .dmcCh => 0x21
  | .ccu => 0x28
  | .pru => 0x29
  | .xcu => 0x2A
  | .pxe => 0x30
  | .eth => 0x31
  | .etqTx => 0x32
  | .etqRx => 0x33
  | .pch => 0x38
  | .lnkC => 0x40
  | .gst => 0x41
  | .wck => 0x50
  | .scn => 0x51
  | .apw => 0x52
  | .lnk => 0x53
  | .rsv => 0x54

/-! The pages of Table 2. -/

def pgFUS : Nat := 0x000
def pgFLT : Nat := 0x001
def pgPWR : Nat := 0x002
def pgTRM : Nat := 0x003
def pgTBU : Nat := 0x004
def pgSNA : Nat := 0x005
def pgSNB : Nat := 0x006
def pgDBG : Nat := 0x007
def pgLMP : Nat := 0x008
def pgSched (g : Nat) : Nat := 0x010 + g
def pgQueue (p : Nat) : Nat := 0x018 + p
def pgRGL : Nat := 0x020
def pgPort (n : Nat) : Nat := 0x040 + n
def pgDMC : Nat := 0x060
def pgDMCch (c : Nat) : Nat := 0x070 + c
def pgCCU : Nat := 0x080
def pgPRU : Nat := 0x081
def pgXCU : Nat := 0x082
def pgPXE : Nat := 0x090
def pgETH (p : Nat) : Nat := 0x098 + p
def pgTxq (p q : Nat) : Nat := 0x0A0 + 8 * p + q
def pgRxq (q : Nat) : Nat := 0x0E0 + q
def pgPCH (h f : Nat) : Nat := 0x0F0 + 9 * h + f
def pgLNKC : Nat := 0x110
def pgGST : Nat := 0x111
/-- The first page of Lantern `n` (20 R478). -/
def pgLantern (n : Nat) : Nat := 0x200 + 0x80 * n
/-- The page of the Wick with global number `w`. -/
def pgWck (w : Nat) : Nat := pgLantern (w / 64) + w % 64
/-- The page of the Sconce with global number `k`. -/
def pgScn (k : Nat) : Nat := pgLantern (k / 8) + 0x40 + k % 8
def pgAPW (n : Nat) : Nat := pgLantern n + 0x48
def pgLNK (n : Nat) : Nat := pgLantern n + 0x49
def pgRSV (n : Nat) : Nat := pgLantern n + 0x4A

/-- The block and instance of a page on a part with `lant` Lanterns (20 Table 2); none where the page is unassigned or
belongs to an absent Lantern. -/
def pageInfo (lant page : Nat) : Option (Block × Nat) :=
  if page < 0x008 then
    some ([(.fus, 0), (.flt, 0), (.pwr, 0), (.trm, 0), (.tbu, 0), (.sna, 0), (.snb, 0), (.dbg, 0)].getD page (.fus, 0))
  else if page = 0x008 then some (.lmpFrame, 0)
  else if 0x010 ≤ page ∧ page < 0x018 then some (.lmpSched, page - 0x010)
  else if 0x018 ≤ page ∧ page < 0x020 then some (.lmpQueue, page - 0x018)
  else if page = 0x020 then some (.rgl, 0)
  else if 0x040 ≤ page ∧ page < 0x060 then some (.rglPort, page - 0x040)
  else if page = 0x060 then some (.dmc, 0)
  else if 0x070 ≤ page ∧ page < 0x080 then some (.dmcCh, page - 0x070)
  else if page = 0x080 then some (.ccu, 0)
  else if page = 0x081 then some (.pru, 0)
  else if page = 0x082 then some (.xcu, 0)
  else if page = 0x090 then some (.pxe, 0)
  else if 0x098 ≤ page ∧ page < 0x0A0 then some (.eth, page - 0x098)
  else if 0x0A0 ≤ page ∧ page < 0x0E0 then some (.etqTx, page - 0x0A0)
  else if 0x0E0 ≤ page ∧ page < 0x0E8 then some (.etqRx, page - 0x0E0)
  else if 0x0F0 ≤ page ∧ page < 0x102 then some (.pch, page - 0x0F0)
  else if page = 0x110 then some (.lnkC, 0)
  else if page = 0x111 then some (.gst, 0)
  else if 0x200 ≤ page ∧ page < 0x200 + 0x80 * lant then
    let n := (page - 0x200) / 0x80
    let o := (page - 0x200) % 0x80
    if o < 0x40 then some (.wck, 64 * n + o)
    else if o < 0x48 then some (.scn, 8 * n + (o - 0x40))
    else if o = 0x48 then some (.apw, n)
    else if o = 0x49 then some (.lnk, n)
    else if o = 0x4A then some (.rsv, n)
    else none
  else none

/-- The default owner of a page (20 Table 2): the partition of a queue-control page or of a virtual function, else P0. -/
def defaultOwner (page : Nat) : Nat :=
  if 0x018 ≤ page ∧ page < 0x020 then page - 0x018
  else if 0x0F0 ≤ page ∧ page < 0x102 then ((page - 0x0F0) % 9) - 1
  else 0

/-- The value of bits [hi:lo] put in place. -/
def placeBits (hi lo v : Nat) : Nat := (v % 2 ^ (hi - lo + 1)) * 2 ^ lo

/-- The bits of a field. -/
def FieldSpec.mask (f : FieldSpec) : Nat := placeBits f.hi f.lo (2 ^ (f.hi - f.lo + 1) - 1)

/-- The value a register reads before anything writes it: its fields' reset values (00 R15). BLOCK_ID is the code and
instance of Table 2. -/
def regReset (page off : Nat) : Word32 :=
  match pageInfo 8 page with
  | none => 0
  | some (b, inst) =>
    if off = 0 then BitVec.ofNat 32 (b.code + inst * 256)
    else if off = 0x030 then BitVec.ofNat 32 (defaultOwner page)
    else
      BitVec.ofNat 32 (((if off < 0x040 then headFields else []) ++ b.fields).foldl
        (fun a f => if f.off = off then a + placeBits f.hi f.lo f.rst else a) 0)

/-- The bits of a register that fields with one of the given access codes cover. -/
def accMask (b : Block) (off : Nat) (codes : List Acc) : Word32 :=
  BitVec.ofNat 32 ((headFields ++ b.fields).foldl
    (fun a f => if f.off = off ∧ f.acc ∈ codes then a + f.mask else a) 0)

end Sys2Proof.Machine
end

