-- ==== Sys2Proof/Machine/Regs.lean ====
section
/-!
DEFINITION. Regs.lean: reading and writing the register file by page, bank and field. A register that a selector
register chooses among several lies in bank `idx` of its page.
-/

namespace Sys2Proof.Machine

open Sys2Proof

/-- The key of a register in the register file. -/
def regKey (page idx off : Nat) : Nat := page * 2 ^ 20 + idx * 2 ^ 12 + off

/-- The stored value of a register. -/
def State.reg (s : State) (page idx off : Nat) : Word32 :=
  aget (regReset page off) s.regs (regKey page idx off)

/-- The state with a register's stored value replaced. -/
def State.setReg (s : State) (page idx off : Nat) (v : Word32) : State :=
  { s with regs := aset s.regs (regKey page idx off) v }

/-- The bits of a field within a register value. -/
def Fld.get (f : Fld) (v : Word32) : Nat := (v.toNat / 2 ^ f.lo) % 2 ^ (f.hi - f.lo + 1)

/-- A register value with a field replaced. -/
def Fld.put (f : Fld) (v : Word32) (x : Nat) : Word32 :=
  BitVec.ofNat 32 (v.toNat - placeBits f.hi f.lo (f.get v) + placeBits f.hi f.lo x)

/-- A field of a register in bank `idx`. -/
def State.fgetI (s : State) (page idx : Nat) (f : Fld) : Nat := f.get (s.reg page idx f.off)

/-- A field of a register. -/
def State.fget (s : State) (page : Nat) (f : Fld) : Nat := s.fgetI page 0 f

/-- Write a field of a register in bank `idx`. -/
def State.fsetI (s : State) (page idx : Nat) (f : Fld) (x : Nat) : State :=
  s.setReg page idx f.off (f.put (s.reg page idx f.off) x)

/-- Write a field of a register. -/
def State.fset (s : State) (page : Nat) (f : Fld) (x : Nat) : State := s.fsetI page 0 f x

/-- A one-bit field as a truth value. -/
def State.flag (s : State) (page : Nat) (f : Fld) : Bool := s.fget page f == 1

/-- Add to a counter field that saturates at all ones. -/
def State.faddI (s : State) (page idx : Nat) (f : Fld) (n : Nat) : State :=
  s.fsetI page idx f (Nat.min (s.fgetI page idx f + n) (2 ^ (f.hi - f.lo + 1) - 1))

/-- Add to a counter field that saturates at all ones. -/
def State.fadd (s : State) (page : Nat) (f : Fld) (n : Nat) : State := s.faddI page 0 f n

/-- Add to a counter field that wraps. -/
def State.fwrap (s : State) (page : Nat) (f : Fld) (n : Nat) : State :=
  s.fset page f (s.fget page f + n)

/-- A 64-bit counter: its low half at `off` in bank 0, its live high half at the next offset in bank 1; bank 0 of the
high half holds what the last read of the low half latched (04 R119). -/
def State.ctr64 (s : State) (page off : Nat) : Nat :=
  (s.reg page 0 off).toNat + (s.reg page 1 (off + 4)).toNat * 2 ^ 32

/-- Write a 64-bit counter, modulo 2⁶⁴. -/
def State.setCtr64 (s : State) (page off v : Nat) : State :=
  (s.setReg page 0 off (BitVec.ofNat 32 v)).setReg page 1 (off + 4) (BitVec.ofNat 32 (v / 2 ^ 32))

/-- The number of populated Lanterns, FUS_CAPS.LANTERNS (01 R24). -/
def State.lanterns (s : State) : Nat := s.fget pgFUS Reg.FUS_CAPS_LANTERNS

/-- The bank of a register that a selector register chooses (13 R346; 14, 15 R388; 16 R413; 18 R449; 19 R473;
21 R496). -/
def State.bank (s : State) (page : Nat) (b : Block) (off : Nat) : Nat :=
  match b with
  | .rgl =>
    if off = 0x054 ∨ off = 0x058 then s.fget page Reg.RGL_GSEL_ENTRY
    else if off = 0x07C then (s.reg page 0 0x078).toNat % 256
    else if off = 0x088 then s.fget page Reg.RGL_URGSEL_MASTER
    else 0
  | .trm =>
    if off = 0x054 then s.fget page Reg.TRM_LSEL_LANTERN
    else if off = 0x06C then s.fget page Reg.TRM_CYCSEL_BIN
    else 0
  | .pxe => if 0x044 ≤ off ∧ off ≤ 0x050 then s.fget page Reg.PXE_SSEL_STREAM else 0
  | .pch => if off = 0x044 ∨ off = 0x048 then s.fget page Reg.PCH_APSEL_AP else 0
  | .lnk => if 0x040 ≤ off ∧ off % 0x20 = 0x1C then (s.reg page 0 (off - 4)).toNat % 64 else 0
  | .fus => if off = 0x054 then s.fget page Reg.FUS_OKHSEL_WORD else 0
  | .dbg => if off = 0x050 ∨ off = 0x054 ∨ off = 0x058 then s.fget page Reg.DBG_TRSEL_CTR else 0
  | _ => 0

end Sys2Proof.Machine
end

