-- ==== Sys2Proof/Machine/Mem.lean ====
section
/-!
DEFINITION. Mem.lean: the memory of the block: one list of (address, byte) pairs over the 48-bit space (20 R474),
addresses rising, listing no byte that is 0. A byte that is not listed reads as 0 (log entry 6). Poisoned 64-byte
lines stand in their own list of line numbers (12 R303, R304).
-/

namespace Sys2Proof.Machine

open Sys2Proof

/-- What a byte of memory that nothing has written reads as (log entry 6). -/
def memDefault : Byte := 0

/-- The canonical form: addresses strictly rising, no listed byte equal to the default. -/
def Memory.wf : List Host.Cell → Bool
  | [] => true
  | [c] => c.2 != memDefault
  | c :: d :: rest => c.2 != memDefault && decide (c.1 < d.1) && Memory.wf (d :: rest)

/-- The byte at an address. -/
def readByte (m : List Host.Cell) (a : Nat) : Byte := aget memDefault m a

/-- The listed bytes of `n` bytes from `a`. -/
def memSlice (m : List Host.Cell) (a n : Nat) : List Host.Cell :=
  m.filter fun c => decide (a ≤ c.1) && decide (c.1 < a + n)

/-- The memory with the `n` bytes from `a` replaced by the listed bytes `cs`. -/
def memSplice (m : List Host.Cell) (a n : Nat) (cs : List Host.Cell) : List Host.Cell :=
  (m.filter fun c => decide (c.1 < a)) ++ cs ++ (m.filter fun c => decide (a + n ≤ c.1))

/-- The cells of a list of bytes that starts at `a`. -/
def cellsOf : Nat → List Byte → List Host.Cell
  | _, [] => []
  | a, b :: bs => if b = memDefault then cellsOf (a + 1) bs else (a, b) :: cellsOf (a + 1) bs

/-- `n` bytes from `a`, lowest address first. -/
def readBytes (m : List Host.Cell) (a n : Nat) : List Byte :=
  let sl := memSlice m a n
  (List.range n).map fun i => readByte sl (a + i)

/-- The memory with the bytes `bs` written from `a`. -/
def writeBytes (m : List Host.Cell) (a : Nat) (bs : List Byte) : List Host.Cell :=
  memSplice m a bs.length (cellsOf a bs)

/-- The memory with `n` bytes from `src` copied to `dst`, all read before any is written (03 R76). -/
def copyBytes (m : List Host.Cell) (src dst n : Nat) : List Host.Cell :=
  memSplice m dst n ((memSlice m src n).map fun c => (c.1 - src + dst, c.2))

/-- The memory with `n` bytes from `a` zero. -/
def zeroBytes (m : List Host.Cell) (a n : Nat) : List Host.Cell := memSplice m a n []

/-- A little-endian number (00 R9). -/
def ofLE : List Byte → Nat
  | [] => 0
  | b :: bs => b.toNat + 256 * ofLE bs

/-- The `n` little-endian bytes of a number. -/
def toLE : Nat → Nat → List Byte
  | 0, _ => []
  | n + 1, v => BitVec.ofNat 8 v :: toLE n (v / 256)

/-- The little-endian number of `n` bytes at `a`. -/
def readLE (m : List Host.Cell) (a n : Nat) : Nat := ofLE (readBytes m a n)

/-- The byte string cut into a number of bits [hi:lo] counted from byte 0. -/
def bitsOf (hi lo v : Nat) : Nat := (v / 2 ^ lo) % 2 ^ (hi - lo + 1)

/-- A field of a number read as two's complement of `n` bits. -/
def signed (n v : Nat) : Int := if v % 2 ^ n < 2 ^ (n - 1) then (v % 2 ^ n : Nat) else ((v % 2 ^ n : Nat) : Int) - 2 ^ n

/-! ## Lines and poison -/

/-- The 64-byte lines that `n` bytes from `a` touch. -/
def linesOf (a n : Nat) : List Nat :=
  if n = 0 then [] else (List.range ((a + n - 1) / 64 - a / 64 + 1)).map (· + a / 64)

/-- The first poisoned line among the bytes, if any. -/
def State.firstPoison (s : State) (a n : Nat) : Option Nat :=
  if n = 0 then none else s.poison.find? fun l => decide (a / 64 ≤ l) && decide (l ≤ (a + n - 1) / 64)

/-- Mark a line poisoned (12 R303). -/
def State.poisonLine (s : State) (l : Nat) : State :=
  if l ∈ s.poison then s else { s with poison := s.poison.filter (· < l) ++ [l] ++ s.poison.filter (l < ·) }

/-- Clear the marks of the lines that the bytes cover completely (12 R304). -/
def State.unpoison (s : State) (a n : Nat) : State :=
  { s with poison := s.poison.filter fun l => !(decide (a ≤ l * 64) && decide (l * 64 + 64 ≤ a + n)) }

/-- Write bytes: the memory changes and every line written whole loses its mark. -/
def State.store (s : State) (a : Nat) (bs : List Byte) : State :=
  { s with mem := writeBytes s.mem a bs }.unpoison a bs.length

/-- Copy bytes, all read before any is written. -/
def State.copyMem (s : State) (src dst n : Nat) : State :=
  { s with mem := copyBytes s.mem src dst n }.unpoison dst n

/-- Write zero over bytes. -/
def State.zero (s : State) (a n : Nat) : State := { s with mem := zeroBytes s.mem a n }.unpoison a n

/-- The bytes at an address of the present state. -/
def State.load (s : State) (a n : Nat) : List Byte := readBytes s.mem a n

/-- The little-endian number at an address of the present state. -/
def State.loadLE (s : State) (a n : Nat) : Nat := readLE s.mem a n

end Sys2Proof.Machine
end

