-- ==== Sys2Proof/Machine/Aes.lean ====
section
/-!
DEFINITION. Aes.lean: AES-256-XTS over one 64-byte line (14 R358): the AES block cipher with a 256-bit key, and the XTS mode of
IEEE 1619 with 4 blocks to the data unit. Blocks are 16 byte values, lowest address first; byte `i` of a key is its bits
8i + 7 to 8i.
-/

namespace Sys2Proof.Machine

open Sys2Proof

/-- The substitution box of AES: byte `i` of the number is the image of `i`. -/
def aesBox : Nat := 
  0x16bb54b00f2d99416842e6bf0d89a18cdf2855cee9871e9b948ed9691198f8e19e1dc186b95735610ef6034866b53e708a8bbd4b1f74dde8c6b4a61c2e2578ba08ae7a65eaf4566ca94ed58d6d37c8e779e4959162acd3c25c2406490a3a32e0db0b5ede14b8ee4688902a22dc4f816073195d643d7ea7c41744975fec130ccdd2f3ff1021dab6bcf5389d928f40a351a89f3c507f02f94585334d43fbaaefd0cf584c4a39becb6a5bb1fc20ed00d153842fe329b3d63b52a05a6e1b1a2c830975b227ebe28012079a059618c323c7041531d871f1e5a534ccf73f362693fdb7c072a49cafa2d4adf04759fa7dc982ca76abd7fe2b670130c56f6bf27b777c63

/-- The inverse of the substitution box. -/
def aesUnbox : Nat := 
  0x7d0c2155631469e126d677ba7e042b17619953833cbbebc8b0f52aae4d3be0a0ef9cc9939f7ae52d0d4ab519a97f51605fec8027591012b131c7078833a8dd1ff45acd78fec0db9a2079d2c64b3e56fc1bbe18aa0e62b76f89c5291d711af1476edf751ce837f9e28535ade72274ac9673e6b4f0cecff297eadc674f4111913a6b8a130103bdafc1020f3fca8f1e2cd00645b3b80558e4f70ad3bc8c00abd890849d8da75746155edab9edfd5048706c92b6655dcc5ca4d41698688664f6f87225d18b6d49a25b76b224d92866a12e084ec3fa420b954cee3d23c2a632947b54cbe9dec444438e3487ff2f9b8239e37cfbd7f3819ea340bf38a53630d56a0952

/-- An entry of a table of bytes. -/
def boxAt (t b : Nat) : Nat := t / 2 ^ (8 * b) % 256

/-- Two lists of bytes, exclusive-or'ed. -/
def xorBytes (a b : List Nat) : List Nat := List.zipWith Nat.xor a b

/-- The byte times x in the field of AES. -/
def xtime (b : Nat) : Nat := if b < 128 then 2 * b else Nat.xor (2 * b - 256) 0x1B

/-- The byte times a constant below 16. -/
def fieldMul (c b : Nat) : Nat :=
  (List.range 4).foldl (fun r i => if c / 2 ^ i % 2 = 1 then Nat.xor r (Nat.repeat xtime i b) else r) 0

/-! ## Key schedule -/

/-- The next 8 words of the schedule from the last 8. -/
def keyNext (ws : List (List Nat)) (rcon : Nat) : List (List Nat) :=
  let w (i : Nat) := ws.getD i []
  let sub (x : List Nat) := x.map (boxAt aesBox)
  let rot := (w 7).drop 1 ++ (w 7).take 1
  let n0 := xorBytes (w 0) (xorBytes (sub rot) [rcon, 0, 0, 0])
  let n1 := xorBytes (w 1) n0
  let n2 := xorBytes (w 2) n1
  let n3 := xorBytes (w 3) n2
  let n4 := xorBytes (w 4) (sub n3)
  let n5 := xorBytes (w 5) n4
  let n6 := xorBytes (w 6) n5
  [n0, n1, n2, n3, n4, n5, n6, xorBytes (w 7) n6]

/-- The words of the schedule: `n` further groups of 8. -/
def keyWords : Nat → List (List Nat) → Nat → List (List Nat)
  | 0, ws, _ => ws
  | n + 1, ws, rcon => ws ++ keyWords n (keyNext ws rcon) (xtime rcon)

/-- Consecutive pieces of `k` elements, `n` of them. -/
def pieces {α : Type} (k : Nat) : Nat → List α → List (List α)
  | 0, _ => []
  | n + 1, l => l.take k :: pieces k n (l.drop k)

/-- The 15 round keys of a 256-bit key. -/
def roundKeys (key : Nat) : List (List Nat) :=
  let bytes := (List.range 32).map fun i => key / 256 ^ i % 256
  (pieces 4 15 (keyWords 7 (pieces 4 8 bytes) 1)).map List.flatten

/-! ## Blocks -/

/-- Byte `r + 4c` of the block goes to place `r + 4(c - r)`; backwards the other way. -/
def shiftRows (back : Bool) (b : List Nat) : List Nat :=
  (List.range 16).map fun i =>
    let r := i % 4
    let c := i / 4
    b.getD (r + 4 * ((if back then c + 4 - r else c + r) % 4)) 0

/-- Every column times the fixed polynomial with coefficients `m`. -/
def mixColumns (m : List Nat) (b : List Nat) : List Nat :=
  (List.range 16).map fun i =>
    (List.range 4).foldl (fun x k => Nat.xor x (fieldMul (m.getD ((4 + k - i % 4) % 4) 0) (b.getD (4 * (i / 4) + k) 0))) 0

/-- The rounds of the cipher after the first round key. -/
def aesRounds : List (List Nat) → List Nat → List Nat
  | [], b => b
  | [k], b => xorBytes (shiftRows false (b.map (boxAt aesBox))) k
  | k :: ks, b => aesRounds ks (xorBytes (mixColumns [2, 3, 1, 1] (shiftRows false (b.map (boxAt aesBox)))) k)

/-- The cipher under the round keys. -/
def aesEnc (ks : List (List Nat)) (b : List Nat) : List Nat := aesRounds (ks.drop 1) (xorBytes b (ks.headD []))

/-- The rounds of the inverse cipher after the first, the round keys last first. -/
def aesBack : List (List Nat) → List Nat → List Nat
  | [], b => b
  | [k], b => xorBytes ((shiftRows true b).map (boxAt aesUnbox)) k
  | k :: ks, b => aesBack ks (mixColumns [14, 11, 13, 9] (xorBytes ((shiftRows true b).map (boxAt aesUnbox)) k))

/-- The inverse cipher. -/
def aesDec (ks : List (List Nat)) (b : List Nat) : List Nat := aesBack (ks.reverse.drop 1) (xorBytes b (ks.reverse.headD []))

/-! ## XTS -/

/-- The tweak of the next block: times x, the block as a little-endian number. -/
def nextTweak (t : List Nat) : List Nat :=
  let n := t.foldr (fun b acc => b + 256 * acc) 0
  let d := 2 * n % 2 ^ 128
  let m := if 2 ^ 127 ≤ n then Nat.xor d 0x87 else d
  (List.range 16).map fun i => m / 256 ^ i % 256

/-- Blocks under a cipher, each between two exclusive-ors with its tweak. -/
def xtsBlocks (f : List Nat → List Nat) : List Nat → List (List Nat) → List Nat
  | _, [] => []
  | t, b :: bs => xorBytes (f (xorBytes b t)) t ++ xtsBlocks f (nextTweak t) bs

/-- A line of 64 bytes under a key pair, at an address: the tweak is the address as a 128-bit little-endian number. -/
def xtsLine (keys : Nat × Nat) (dec : Bool) (addr : Nat) (line : List Byte) : List Byte :=
  let ks := roundKeys keys.1
  let t := aesEnc (roundKeys keys.2) ((List.range 16).map fun i => addr / 256 ^ i % 256)
  (xtsBlocks (if dec then aesDec ks else aesEnc ks) t (pieces 16 4 (line.map BitVec.toNat))).map (BitVec.ofNat 8)

end Sys2Proof.Machine
end

