-- ==== Sys2Proof/Machine/Crc.lean ====
section
/-!
DEFINITION. Crc.lean: the cyclic redundancy checks the spec names: CRC-32C (08 R201, 11 R279, 15 R384; log entry 13) and
the CRC-16 of a flit (15 R373); and the CRC-64 of a DDR-4 line (14 R354).
-/

namespace Sys2Proof.Machine

open Sys2Proof

/-- One bit step of CRC-32C in its reflected form. -/
def crc32Bit (c : Nat) : Nat := if c % 2 = 1 then Nat.xor (c / 2) 0x82F63B78 else c / 2

/-- One byte of CRC-32C. -/
def crc32Byte (c b : Nat) : Nat :=
  let x := Nat.xor c b
  crc32Bit (crc32Bit (crc32Bit (crc32Bit (crc32Bit (crc32Bit (crc32Bit (crc32Bit x)))))))

/-- CRC-32C of a list of bytes. -/
def crc32c (bs : List Byte) : Word32 :=
  BitVec.ofNat 32 (Nat.xor (bs.foldl (fun c b => crc32Byte c b.toNat) 0xFFFFFFFF) 0xFFFFFFFF)

/-- One bit step of the CRC-16: polynomial 0x1021, no reflection. -/
def crc16Bit (c : Nat) : Nat := if 0x8000 ≤ c then Nat.xor (c * 2 % 65536) 0x1021 else c * 2

/-- One byte of the CRC-16, most significant bit first. -/
def crc16Byte (c b : Nat) : Nat :=
  let x := Nat.xor c (b * 256)
  crc16Bit (crc16Bit (crc16Bit (crc16Bit (crc16Bit (crc16Bit (crc16Bit (crc16Bit x)))))))

/-- The CRC-16 of a list of bytes: initial value 0xFFFF, no final exclusive-or (15 R373). -/
def crc16 (bs : List Byte) : Nat := bs.foldl (fun c b => crc16Byte c b.toNat) 0xFFFF

/-- One bit step of CRC-64 in its reflected form: the polynomial 0x42F0E1EBA9EA3693 with its bits in reverse. -/
def crc64Bit (c : Nat) : Nat := if c % 2 = 1 then Nat.xor (c / 2) 0xC96C5795D7870F42 else c / 2

/-- One byte of CRC-64. -/
def crc64Byte (c b : Nat) : Nat :=
  let x := Nat.xor c b
  crc64Bit (crc64Bit (crc64Bit (crc64Bit (crc64Bit (crc64Bit (crc64Bit (crc64Bit x)))))))

/-- The CRC-64 of a list of bytes: initial value and final exclusive-or all ones. -/
def crc64 (bs : List Byte) : Nat := Nat.xor (bs.foldl (fun c b => crc64Byte c b.toNat) (2 ^ 64 - 1)) (2 ^ 64 - 1)

end Sys2Proof.Machine
end

