-- ==== Sys2Proof/Machine/Ops.lean ====
section
/-!
DEFINITION. Ops.lean: the operations every family uses: error capture and page interrupts (12 R314, 20 R480),
aggregator lines (11 R295, 20 R482), MSI-X messages, memory regions (20 R474), time.
-/

namespace Sys2Proof.Machine

open Sys2Proof

/-- The answer of a meaning. -/
abbrev Out := Host.Outcome State Fault Refusal

/-- The number of an error code (12 Table 2). -/
def Err.code : Err → Nat
  | .ok => 0x00
  | .lengthExceedsExtent => 0x01
  | .misaligned => 0x02
  | .partitionViolation => 0x03
  | .firewallViolation => 0x04
  | .dataErrorDetected => 0x05
  | .recomputeExhausted => 0x06
  | .poisonedRead => 0x07
  | .pageTableMutated => 0x08
  | .staleMapEpoch => 0x09
  | .guaranteeRejected => 0x0A
  | .guaranteeMissed => 0x0B
  | .linkDegraded => 0x0C
  | .linkFailed => 0x0D
  | .signatureInvalid => 0x0E
  | .deadlineMissed => 0x0F
  | .cancelledByEpoch => 0x10
  | .unsupportedOpcode => 0x11
  | .queueHalted => 0x12
  | .testCoverageLapse => 0x13
  | .comparatorDispute => 0x14
  | .thermalLimit => 0x15
  | .unitQuarantined => 0x16
  | .timebaseHoldover => 0x17
  | .reservedNonzero => 0x18
  | .countExceedsLimit => 0x19
  | .rankRetired => 0x1A

/-- Record what leaves the block. -/
def State.emit (s : State) (o : OutEvent) : State := { s with out := o :: s.out }

/-- Whether PCIe port `h` is up (16 R412). -/
def State.portUp (s : State) (h : Nat) : Bool := if h = 0 then s.hUp0 else if h = 1 then s.hUp1 else false

/-- The MSI-X vectors of a function (16 Table 9). -/
def msixCount (fn : Nat) : Nat := if fn = 0 then 64 else 2048

/-- The number of a vector among those of all ports and functions. -/
def msixKey (port fn vec : Nat) : Nat := (9 * port + fn) * 2048 + vec

/-- Word `d` of a vector's table entry: the message's address, low and high, its data, and the control word, whose bit 0 masks the
vector and is 1 after reset (PRESUMED, as PCI Express has it: log entry 35). -/
def State.msixWord (s : State) (k d : Nat) : Word32 := aget (if d = 3 then 1 else 0) s.msixTab (4 * k + d)

/-- Whether a vector is masked. -/
def State.msixMasked (s : State) (k : Nat) : Bool := (s.msixWord k 3).getLsbD 0

/-- The function of a partition: P0's is PF0 (20 R480). -/
def fnOf (part : Nat) : Nat := if part = 0 then 0 else part + 1

/-- Send an MSI-X message on a vector of a partition's function; a masked vector sets its pending bit instead, and a message due on
a port that is down is lost (16 R412, 20 R480). A vector that the function does not have sends none (log entry 35). -/
def State.msix (s : State) (port part vec : Nat) : State :=
  let k := msixKey port (fnOf part) vec
  if !s.portUp port || decide (msixCount (fnOf part) ≤ vec) then s
  else if s.msixMasked k then { s with msixPend := (s.msixPend.filter (· != k)) ++ [k] }
  else s.emit (.msix port (fnOf part) vec)

/-- STATUS.PEND of a page: INT_STATUS AND INT_ENABLE nonzero (20 Table 3). -/
def State.pend (s : State) (page : Nat) : Bool :=
  (s.reg page 0 0x018 &&& s.reg page 0 0x01C) != 0#32

/-- Send the page's MSI-X message if PEND has risen since `before` (20 R480). -/
def State.pendRise (s : State) (page : Nat) (before : Bool) : State :=
  if s.pend page && !before then
    s.msix (s.fget page Reg.INT_ROUTE_PORT) (s.fget page Reg.LOCK_OWNER) (s.fget page Reg.INT_ROUTE_VEC)
  else s

/-- An event that raises the page interrupt: INT_STATUS.EVT sets (20 Table 3). -/
def State.event (s : State) (page : Nat) : State :=
  (s.fset page Reg.INT_STATUS_EVT 1).pendRise page (s.pend page)

/-- An error reaches a page (12 R314): ERR_CODE and ERR_ADDR take the first error after INT_STATUS.ERR was last
cleared, and INT_STATUS.ERR sets. -/
def State.capture (s : State) (page : Nat) (e : Err) (addr : Nat) : State :=
  let s1 :=
    if s.flag page Reg.INT_STATUS_ERR then s
    else ((s.fset page Reg.ERR_CODE_CODE e.code).setReg page 0 0x028 (BitVec.ofNat 32 addr)).fset page
      Reg.ERR_ADDR_HI_ADDR (addr / 2 ^ 32)
  (s1.fset page Reg.INT_STATUS_ERR 1).pendRise page (s.pend page)

/-- A Snuffer of the state. -/
def State.sn (s : State) : Sn → Snuffer
  | .a => s.snA
  | .b => s.snB

/-- The state with a Snuffer replaced. -/
def State.setSn (s : State) (i : Sn) (x : Snuffer) : State :=
  match i with
  | .a => { s with snA := x }
  | .b => { s with snB := x }

/-- The register page of a Snuffer. -/
def pgSn : Sn → Nat
  | .a => pgSNA
  | .b => pgSNB

/-- A pulse on a line of both Snuffers' aggregators: it waits there until it is sampled (11 R295). Lines 400 to 511
never pulse. -/
def State.pulse (s : State) (line : Nat) : State :=
  if line < 400 then
    { s with snA := { s.snA with lines := s.snA.lines ++ [line] }, snB := { s.snB with lines := s.snB.lines ++ [line] } }
  else s

/-- A pulse on one Snuffer's own line (11 Table 8, lines 384 to 399). -/
def State.pulseOwn (s : State) (i : Sn) (line : Nat) : State :=
  s.setSn i { s.sn i with lines := (s.sn i).lines ++ [line] }

/-- An error that reaches a page and pulses its aggregator line, whether or not it is captured (12 R314). -/
def State.captureLine (s : State) (page : Nat) (e : Err) (addr line : Nat) : State :=
  (s.capture page e addr).pulse line

/-- Note a moment at which an activity of 18 R427 holds, so that the idle time counts from it. -/
def State.touch (s : State) : State := { s with pwr := { s.pwr with lastAct := s.now } }

/-- Record the answer to a read of `size` bytes. -/
def State.answer (s : State) (size v : Nat) : State := s.emit (.answer size v)

/-! ## Trace counters -/

/-- Add to trace counter `k`, a 64-bit counter whose live high half stands in bank 8 + k (21 R496). -/
def State.traceAdd (s : State) (k n : Nat) : State :=
  let v := (s.reg pgDBG k 0x054).toNat + (s.reg pgDBG (8 + k) 0x058).toNat * 2 ^ 32 + n
  (s.setReg pgDBG k 0x054 (BitVec.ofNat 32 v)).setReg pgDBG (8 + k) 0x058 (BitVec.ofNat 32 (v / 2 ^ 32))

/-- Whether trace counter `k` counts an event: its code, and its instance where the code names one. -/
def State.traces (s : State) (k code inst : Nat) : Bool :=
  s.fgetI pgDBG k Reg.DBG_TREVT_EVENT == code &&
    (code == 4 || code == 7 || code == 8 || s.fgetI pgDBG k Reg.DBG_TREVT_INST == inst)

/-- `n` events of a code happen: every trace counter set to it counts them. -/
def State.trace (s : State) (code inst n : Nat) : State :=
  (List.range 8).foldl (fun t k => if t.traces k code inst then t.traceAdd k n else t) s

/-! ## Regions of the address space -/

/-- The regions of Table 1 of chapter 20. -/
inductive Region where
  | ddr
  | reservoir (n : Nat)
  | pad (wick : Nat)
  | sbuf (scn : Nat)
  | mapSram
  | mirror
  | doorbell
  | guest
  | regs
  | unmapped
  deriving DecidableEq, Repr

/-- The base addresses of Table 1 of chapter 20. -/
def reservoirBase (n : Nat) : Nat := 0x8000000000 + n * 0x10000000
def padBase (wick : Nat) : Nat := 0x8100000000 + (wick / 64) * 0x4000000 + (wick % 64) * 0x100000
def sbufBase (scn : Nat) : Nat := 0x8200000000 + (scn / 8) * 0x2000000 + (scn % 8) * 0x400000

/-- The installed data capacity in bytes, DMC_CAPACITY.GIB (14 R349). -/
def State.ddrBytes (s : State) : Nat := s.fget pgDMC Reg.DMC_CAPACITY_GIB * 2 ^ 30

/-- The region an address lies in (20 R474); addresses of absent Lanterns are unmapped for a device master (20 R475). -/
def State.region (s : State) (a : Nat) : Region :=
  if a < 0x8000000000 then if a < s.ddrBytes then .ddr else .unmapped
  else if a < 0x8100000000 then
    let n := (a - 0x8000000000) / 0x10000000
    if n < s.lanterns then .reservoir n else .unmapped
  else if a < 0x8120000000 then
    let o := a - 0x8100000000
    if o / 0x4000000 < s.lanterns then .pad (64 * (o / 0x4000000) + (o % 0x4000000) / 0x100000) else .unmapped
  else if 0x8200000000 ≤ a ∧ a < 0x8210000000 then
    let o := a - 0x8200000000
    if o / 0x2000000 < s.lanterns then .sbuf (8 * (o / 0x2000000) + (o % 0x2000000) / 0x400000) else .unmapped
  else if 0x8300000000 ≤ a ∧ a < 0x8302000000 then .mapSram
  else if 0x8302000000 ≤ a ∧ a < 0x8302200000 then .mirror
  else if 0x8304000000 ≤ a ∧ a < 0x8304200000 then .doorbell
  else if 0xE000000000 ≤ a ∧ a < 0xF000000000 then .guest
  else if 0xF000000000 ≤ a ∧ a < 0xF001000000 then .regs
  else .unmapped

/-- Whether Lantern `n` is in service (15 R382). -/
def State.lanternUp (s : State) (n : Nat) : Bool :=
  decide (n < s.lanterns) && (s.fget pgLNKC Reg.LNK_INSVC_MASK / 2 ^ n) % 2 == 1

/-! ## Wicks -/

/-- A Wick by its global number. -/
def State.wick (s : State) (w : Nat) : Wick := aget Wick.zero s.wicks w

/-- The state with a Wick replaced. -/
def State.setWick (s : State) (w : Nat) (x : Wick) : State := { s with wicks := aset s.wicks w x }

/-- The Lantern and the Sconce of a Wick (00 R7). -/
def lanternOf (w : Nat) : Nat := w / 64
def sconceOf (w : Nat) : Nat := w / 8

/-- Whether a Wick exists, its Lantern is in service and it is not quarantined (12 R311). -/
def State.wickInService (s : State) (w : Nat) : Bool :=
  s.lanternUp (lanternOf w) && decide ((s.wick w).st ≠ .quarantined)

/-- The aggregator line of Sconce `k` and its Wicks (20 Table 4). -/
def lineScn (k : Nat) : Nat := 8 + 16 * (k / 8) + k % 8

/-! ## Free values -/

/-- The number of the next free value; every draw advances it (log entry 7). -/
def State.draw (s : State) : State := { s with draws := s.draws + 1 }

/-! ## Lantern supplies -/

/-- Set the supply of a Lantern over PMBus to the voltage of a grant step, or off for step 0 (22 R498). -/
def State.setVolt (s : State) (n k : Nat) : State :=
  if aget 0 s.trm.vset n = k then s
  else { s with trm := { s.trm with vset := aset s.trm.vset n k } }.emit (.pmbus n (if k = 0 then 0 else Config.vddTrim n k))

/-- The step above a grant, whose voltage VDD_Ln is held at; above 700 MHz there is none (22 R498; log entry 22). -/
def voltStep (g : Nat) : Nat := Nat.min 28 (g + 1)

/-! ## Reset values that depend on the variant -/

/-- The default of TRM_PLIMIT by variant (18 R449): 430, 245 and 152 W. -/
def plimitDefault (lanterns : Nat) : Nat := if lanterns = 8 then 0x1AE else if lanterns = 4 then 0xF5 else 0x98

/-- The reset value of LMP_GROUP_MAP by variant (02 Table 2). -/
def groupMapDefault (lanterns : Nat) : Nat := if lanterns = 8 then 0x240000 else if lanterns = 4 then 0x200 else 0x8

/-- The registers whose reset value is the variant's, which the fuses name (01 R24). -/
def State.variantRegs (s : State) : State :=
  let n := s.fuses.options % 16
  let g := groupMapDefault n
  { (s.setReg pgLMP 0 0x058 (BitVec.ofNat 32 g)).fset pgTRM Reg.TRM_PLIMIT_W (plimitDefault n) with frm := { s.frm with groupMap := g } }

end Sys2Proof.Machine
end

