-- ==== Sys2Proof/Machine/Time.lean ====
section
/-!
DEFINITION. Time.lean: TCLK time and the TBU counter (17 R414, R415, R420). `now` counts periods of TCLK, 4 ns, in which the
device is not frozen; the
counter is held as one number of units of 2⁻³² ns, so that its SEC, NS and FRAC are the digits of that number.
-/

namespace Sys2Proof.Machine

open Sys2Proof

/-- TCLK edges in a microsecond (02 R34). -/
def edgesPerUs : Nat := 250

/-- The magnitude of the slew term at each TCLK edge (17 R420). -/
def slewStep : Nat := 1717986

/-- Units of the counter in one nanosecond. -/
def nsUnit : Nat := 2 ^ 32

/-- What the increment adds in `e` edges: a commit takes effect from the edge after the next (17 R415). -/
def Tbu.incrSum (t : Tbu) (e : Nat) : Nat :=
  match t.incrNext with
  | none => e * t.incr
  | some i => if e = 0 then 0 else t.incr + (e - 1) * i

/-- What a slew adds in `e` edges: one step each, the last edge only the remainder (17 R420). -/
def Tbu.slewSum (t : Tbu) (e : Nat) : Int :=
  if t.slew < 0 then -(Nat.min t.slew.natAbs (e * slewStep) : Nat) else (Nat.min t.slew.natAbs (e * slewStep) : Nat)

/-- The counter after `e` edges. -/
def Tbu.after (t : Tbu) (e : Nat) : Nat := ((t.ctr + t.incrSum e : Nat) + t.slewSum e).toNat

/-- The counter in nanoseconds, SEC × 10⁹ + NS. -/
def Tbu.ns (t : Tbu) : Nat := t.ctr / nsUnit

/-- SEC, modulo 2⁴⁸. -/
def Tbu.sec (t : Tbu) : Nat := (t.ns / 1000000000) % 2 ^ 48

/-- NS. -/
def Tbu.nsec (t : Tbu) : Nat := t.ns % 1000000000

/-- FRAC. -/
def Tbu.frac (t : Tbu) : Nat := t.ctr % nsUnit

/-- Whether TCLK runs: after power good, in Flame, Glow and Ember (17 R414), and not while the TCLK domain is frozen
(21 R489). -/
def State.tclkOn (s : State) : Bool :=
  s.powered && s.fget pgPWR Reg.PWR_CTRL_STATE != 3 && !s.flag pgDBG Reg.DBG_FRZ_FROZEN

/-- Whether a lasting activity of 18 R427 holds: a job unretired, a queue with HEAD ≠ TAIL, a Wick at work, a final check
registered for the current frame. A Sconce or Chimney engine at work has a job unretired. -/
def State.activity (s : State) : Bool :=
  !s.jobs.isEmpty || (s.queues.any fun q => q.2.head != q.2.tail) ||
    (s.wicks.any fun w => w.2.st != .idle && w.2.st != .quarantined) ||
    (match s.ccu.finReg with
      | some r => r.frame == s.reg pgLMP 0 0x044
      | none => false)

/-- The NCLK cycles, 1.4 GHz, in the next `e` edges: 28 in 5 edges (20 Table 5). -/
def State.nclk (s : State) (e : Nat) : Nat := (s.now + e) * 28 / 5 - s.now * 28 / 5

/-- Whether the device is frozen (21 R488). -/
def State.frozen (s : State) : Bool := s.flag pgDBG Reg.DBG_FRZ_FROZEN

/-- The device's time after `e` periods of TCLK, and what the model counts of a freeze. -/
def State.nowAfter (s : State) (e : Nat) : Nat := if s.frozen then s.now else s.now + e
def State.dbgAfter (s : State) (e : Nat) : Dbg :=
  if s.frozen then
    { s.dbg with frz := s.dbg.frz + e, frzSn := s.dbg.frzSn + (if s.flag pgDBG Reg.DBG_FRZ_SNUFFERS then 0 else e) }
  else s.dbg

/-- The newest map epoch, CCU_MEPOCH. -/
def State.mepoch (s : State) : Word32 := s.reg pgCCU 0 0x044

/-- Whether a check or the final check holds the table that is not the newest (10 R245). -/
def State.oldHeld (s : State) : Bool :=
  (s.ccu.pipes.any fun p =>
    match p.2 with
    | .cand _ _ e _ _ => e != s.mepoch
    | .fin _ _ _ => false) ||
  s.ccu.fin.any fun f => !f.named && f.epoch != s.mepoch

/-! ## The counters of cycles (04 R119; 09 R239; 10 R245, R273)

A unit that is at work through a stretch of time counts the cycles of its clock in it (log entry 24). -/

/-- The cycles of a clock of `mhz` MHz from TCLK edge `a` to edge `b`. -/
def cyclesIn (mhz a b : Nat) : Nat := if a < b then b * mhz / 250 - a * mhz / 250 else 0

/-- A Wick that runs a unit counts the LCLK cycles of the next `e` edges, those in which it clears its storage left out, and,
while a WAIT holds its issue, counts them as stalled. -/
def State.wickBusy (s : State) (e w : Nat) (x : Wick) : State :=
  if x.st ≠ .running then s
  else
    let n := cyclesIn (25 * s.fgetI pgTRM (w / 64) Reg.TRM_LANTERN_GRANT) (Nat.max s.now x.clearTo) (s.now + e)
    let s := s.setCtr64 (pgWck w) 0x048 (s.ctr64 (pgWck w) 0x048 + n)
    match x.hold with
    | .wait _ _ => s.fadd (pgWck w) Reg.WCK_TOKEN_STALL_COUNT n
    | _ => s

/-- Whether an engine runs a unit of a job of an opcode. -/
def State.opcRuns (s : State) (o : Opc) : Bool :=
  s.jobs.any fun j => j.opc == o && j.phase == .running && decide (j.step < j.total) && j.fail.isNone

/-- Whether a publication waits for a check that holds the table it needs. -/
def State.pubWaits (s : State) : Bool :=
  s.ccu.pub.isNone && s.oldHeld && s.jobs.any fun j => j.opc == .mapPublish && j.phase == .taken

/-- The units at work in the next `e` edges count them. -/
def State.busy (s : State) (e : Nat) : State :=
  if e = 0 then s
  else
    let n := 4 * e
    let s := s.wicks.foldl (fun t p => t.wickBusy e p.1 p.2) s
    let s := if s.opcRuns .xcuVote then s.fwrap pgXCU Reg.XCU_BUSY_COUNT n else s
    let s := if s.opcRuns .profile then s.fwrap pgPRU Reg.PRU_BUSY_COUNT n else s
    let s := if s.ccu.pipes.isEmpty then s else s.fwrap pgCCU Reg.CCU_BUSY_COUNT (n * s.ccu.pipes.length)
    if s.pubWaits then s.fwrap pgCCU Reg.CCU_PUB_WAIT_COUNT n else s

/-- `e` periods of TCLK pass: time and the counter advance; a slew whose remainder is used up ends and the state becomes
TRACKING (17 R420). The idle time of 18 R427 does not begin while an activity lasts; trace counters count NCLK cycles. In a
freeze every timer of the device stands still, and only the clocks that run on count (21 R487, R494). -/
def elapse (e : Nat) (s : State) : State :=
  let n := s.nowAfter e
  let d := s.dbgAfter e
  let s := if s.tclkOn && decide (s.fget pgPWR Reg.PWR_CTRL_STATE ≤ 1) then s.trace 8 0 (s.nclk e) else s
  let s := if s.tclkOn then s.busy e else s
  let s := { s with now := n, dbg := d, pwr := if s.activity then { s.pwr with lastAct := n } else s.pwr }
  if s.tclkOn then
    let t := s.tbu
    let left := t.slew - t.slewSum e
    let t' := { t with
      ctr := t.after e
      slew := left
      incr := if e = 0 then t.incr else t.incrNext.getD t.incr
      incrNext := if e = 0 then t.incrNext else none }
    let s := { s with tbu := t' }
    if t.slew ≠ 0 ∧ left = 0 then
      (s.fset pgTBU Reg.TBU_STATE_SLEW 0).fset pgTBU Reg.TBU_STATE_STATE 1
    else s
  else s

/-- The time of the clocks that no freeze stops (ACLK), and of the Snuffers, which a freeze stops only under scope bit 3. -/
def State.realNow (s : State) : Nat := s.now + s.dbg.frz
def State.snNow (s : State) : Nat := s.now + s.dbg.frzSn

/-- Whether the Snuffers' time reaches `t` after exactly `e` periods. -/
def State.dueSn (s : State) (e t : Nat) : Bool := e == t - s.snNow

/-- Whether the device's time reaches `t` after exactly `e` edges; an event whose time has passed is due at once. -/
def State.dueNow (s : State) (e t : Nat) : Bool := e == t - s.now

/-- Whether the counter first reaches `ns` nanoseconds after `e` edges; a time it has passed is due at once. -/
def State.dueCtr (s : State) (e ns : Nat) : Bool :=
  decide (ns ≤ s.tbu.after e / nsUnit) && (e == 0 || decide (s.tbu.after (e - 1) / nsUnit < ns))

/-- Whether the block is powered and not frozen: only then do its commands act (19 R450, 21 R487, 22 R500). -/
def State.live (s : State) : Bool := s.powered && !s.flag pgDBG Reg.DBG_FRZ_FROZEN

/-- A command with its effect `t` where its condition holds in a live block, and without effect otherwise: an event
whose condition does not hold does not happen (log entry 1). -/
def onLive (s : State) (c : Bool) (t : State) : Out := .next (if s.live && c then t else s)

/-- Whether the block has been released (19 R452) and is in Flame or Glow, where the Chimney runs (18 R426). -/
def State.awake (s : State) : Bool := s.live && s.released && decide (s.fget pgPWR Reg.PWR_CTRL_STATE ≤ 1)

/-- A command that needs the Chimney running. -/
def onAwake (s : State) (c : Bool) (t : State) : Out := .next (if s.awake && c then t else s)

/-- A duration of `n` cycles of a clock of `mhz` MHz in TCLK edges, rounded up. -/
def cyclesToEdges (n mhz : Nat) : Nat := (n * 250 + mhz - 1) / mhz

end Sys2Proof.Machine
end

