-- ==== Sys2Proof/Machine/Regl.lean ====
section
/-!
DEFINITION. Regl.lean: the Regulator's guarantees: classes held, the deliverable budget, the per-Lantern limits, admission
and shedding (13 R325, R328, R336 to R342).
-/

namespace Sys2Proof.Machine

open Sys2Proof

/-- Whether partition `p` holds class `c`, bit 8p + c of RGL_PCLASS (13 R325). -/
def State.holdsClass (s : State) (p c : Nat) : Bool :=
  ((if p < 4 then s.reg pgRGL 0 0x06C else s.reg pgRGL 0 0x070).toNat / 2 ^ (8 * (p % 4) + c)) % 2 == 1

/-- The rank of a partition, 0 highest: P0, C3, C2, C1, P3, C0, and the lower number first (02 R44). -/
def State.rankKey (s : State) (p : Nat) : Nat :=
  let c := if p = 0 then 0 else if p = 3 then 4 else
    match (s.cfg.part p).crit with
    | some 3 => 1
    | some 2 => 2
    | some 1 => 3
    | _ => 5
  c * 8 + p

/-- The MT/s of a grade code (14 R365). -/
def gradeMts (g : Nat) : Nat :=
  match g with
  | 0 => 1600
  | 1 => 1866
  | 2 => 2133
  | 3 => 2400
  | 4 => 2666
  | 5 => 2933
  | _ => 3200

/-- The state of rank `r` of channel `c` (14 Table 5, DMC_CHSTATE). -/
def State.rankSt (s : State) (c r : Nat) : Nat :=
  s.fget (pgDMCch c) (if r = 0 then Reg.DMC_CHSTATE_RANK0 else Reg.DMC_CHSTATE_RANK1)

/-- The state with a rank's state replaced, which the lifetime log records (14 R364). -/
def State.setRankSt (s : State) (c r st : Nat) : State :=
  let s := s.fset (pgDMCch c) (if r = 0 then Reg.DMC_CHSTATE_RANK0 else Reg.DMC_CHSTATE_RANK1) st
  { s with flog := s.flog ++ [(1, 16 * c + 8 * r + st)] }

/-- The data ranks of channel `c` that serve: in service, or retiring (14 R361, R364). -/
def State.dataRanks (s : State) (c : Nat) : Nat :=
  ((List.range 2).filter fun r => s.rankSt c r == 1 || s.rankSt c r == 3).length

/-- The data ranks configured per channel (14 R348). -/
def State.cfgRanks (s : State) : Nat := if s.fget pgDMC Reg.DMC_GEOM_RANKS = 1 then 2 else 1

/-- The data ranks in service over all channels. -/
def State.rankSum (s : State) : Nat := (List.range 16).foldl (fun a c => a + s.dataRanks c) 0

/-- peak of R337 as a fraction: its numerator, and its denominator. -/
def State.peakNum (s : State) : Nat := 256 * gradeMts (s.fget pgDMC Reg.DMC_GEOM_GRADE) * s.rankSum
def State.peakDen (s : State) : Nat := 3200 * s.cfgRanks

/-- The deliverable budget in 100 MB/s (13 R337). -/
def State.budget (s : State) : Nat := s.peakNum * s.fget pgRGL Reg.RGL_DERATE_DERATE / (s.peakDen * 65536)

/-- RGL_PEAK and RGL_BUDGET follow the capacity (13 R346). -/
def State.budgetRegs (s : State) : State :=
  (s.fset pgRGL Reg.RGL_PEAK_PEAK (s.peakNum / s.peakDen)).fset pgRGL Reg.RGL_BUDGET_BUDGET s.budget

/-- The bandwidth of an LC module by its LNK_STATE.STATE (13 R338): full, half, quarter width. -/
def moduleBw (st : Nat) : Nat :=
  match st with
  | 2 => 2560
  | 3 => 1280
  | 4 => 640
  | _ => 0

/-- The state of module `m` of Lantern `n` (15 Table 7). -/
def State.lnkSt (s : State) (n m : Nat) : Nat := (s.reg (pgLNK n) 0 (0x040 + 0x20 * m)).toNat % 8

/-- LCBW_n × derate (13 R338). -/
def State.lanternLimit (s : State) (n : Nat) : Nat :=
  (moduleBw (s.lnkSt n 0) + moduleBw (s.lnkSt n 1)) * s.fget pgRGL Reg.RGL_DERATE_DERATE / 65536

/-- The Wicks of a partition's set on Lantern `n`, and all of the set that are in service (13 R338). -/
def State.wicksOn (s : State) (p n : Nat) : Nat :=
  ((List.range 64).filter fun w => (s.cfg.part p).wicks.getLsbD (64 * n + w)).length
def State.wicksAll (s : State) (p : Nat) : Nat :=
  ((List.range 512).filter fun w => (s.cfg.part p).wicks.getLsbD w && s.wickInService w).length

/-- BW and WIN of a guarantee entry's word (13 R346). -/
def gBw (v : Word32) : Nat := v.toNat % 4096
def gWin (v : Word32) : Nat := v.toNat / 2 ^ 16 % 128

/-- The guarantee entry `e` in force. -/
def State.gentry (s : State) (e : Nat) : Word32 := s.reg pgRGL e 0x054

/-- Whether entry `e` is shed (13 R340). -/
def State.isShed (s : State) (e : Nat) : Bool :=
  ((if e < 32 then s.reg pgRGL 0 0x05C else s.reg pgRGL 0 0x060).toNat / 2 ^ (e % 32)) % 2 == 1

/-- Mark entry `e` shed, or not shed. -/
def State.setShed (s : State) (e : Nat) (b : Bool) : State :=
  let off := if e < 32 then 0x05C else 0x060
  let v := (s.reg pgRGL 0 off).toNat
  let bit := v / 2 ^ (e % 32) % 2
  s.setReg pgRGL 0 off (BitVec.ofNat 32 (v - bit * 2 ^ (e % 32) + (if b then 2 ^ (e % 32) else 0)))

/-- The bandwidths of the entries in force and not shed, entry by entry. -/
def State.bwsNow (s : State) : List Nat := (List.range 64).map fun e => if s.isShed e then 0 else gBw (s.gentry e)

/-- The bandwidths of all entries, entry by entry, as admission sums them (13 R339): those that are pending as they will be, a
shed one too; `chg` names the ones that change. -/
def State.bwsAdmit (s : State) (chg : Nat → Option Nat) : List Nat := (List.range 64).map fun e =>
  match chg e with
  | some bw => bw
  | none => gBw (((s.rgl.guarNext.find? fun x => x.1 == e).map (·.2)).getD (s.gentry e))

/-- The sum of a list. -/
def sumL (l : List Nat) : Nat := l.foldl (· + ·) 0

/-- What the entries of each partition add up to. -/
def partBw (bws : List Nat) (p : Nat) : Nat := sumL ((bws.drop (8 * p)).take 8)

/-- The load of Lantern `n` under a list of bandwidths, rounded up (13 R338): the sum of fractions with the partitions'
Wick counts as denominators, over their common product. -/
def State.lanternLoad (s : State) (bws : List Nat) (n : Nat) : Nat :=
  let ps := (List.range 8).filterMap fun p =>
    let all := s.wicksAll p
    if all = 0 then none else some (partBw bws p * s.wicksOn p n, all)
  let den := ps.foldl (fun a x => a * x.2) 1
  let num := ps.foldl (fun a x => a + x.1 * (den / x.2)) 0
  (num + den - 1) / den

/-- Whether a list of bandwidths stays within the budget and every in-service Lantern's limit (13 R339). -/
def State.bwsFit (s : State) (bws : List Nat) : Bool :=
  decide (sumL bws ≤ s.budget) &&
    (List.range 8).all fun n => !s.lanternUp n || decide (s.lanternLoad bws n ≤ s.lanternLimit n)

/-- Whether entry `e` contributes to a broken limit (13 R340). -/
def State.breaks (s : State) (bws : List Nat) (e : Nat) : Bool :=
  bws.getD e 0 != 0 &&
    (decide (s.budget < sumL bws) ||
      (List.range 8).any fun n =>
        s.lanternUp n && decide (s.lanternLimit n < s.lanternLoad bws n) && s.wicksOn (e / 8) n != 0 &&
          s.wicksAll (e / 8) != 0)

/-- The entry to shed next: of those that contribute, the lowest-ranked partition's highest class (13 R340). -/
def State.nextShed (s : State) (bws : List Nat) : Option Nat :=
  ((List.range 64).filter fun e => s.breaks bws e).foldl (fun best e =>
    match best with
    | none => some e
    | some b =>
      if s.rankKey (b / 8) < s.rankKey (e / 8) ∨ (e / 8 = b / 8 ∧ b < e) then some e else some b) none

/-- RGL_ADMITTED follows the entries in force. -/
def State.admittedReg (s : State) : State := s.fset pgRGL Reg.RGL_ADMITTED_SUM (sumL s.bwsNow)

/-- Shed entries one at a time until every limit holds (13 R340, R341): the bit of RGL_SHED, line 185, the page interrupt
with the event's code, and line 184 for a C3 partition. -/
def State.shedLoop (s : State) (code : Err) : Nat → State
  | 0 => s
  | n + 1 =>
    let bws := s.bwsNow
    if s.bwsFit bws then s
    else match s.nextShed bws with
      | none => s
      | some e =>
        let s := ((s.setShed e true).captureLine pgRGL code 0 185)
        let s := if (s.cfg.part (e / 8)).crit = some 3 then s.pulse 184 else s
        s.shedLoop code n

/-- Admission runs again after a change of capacity (13 R340). -/
def State.readmit (s : State) (code : Err) : State := (s.budgetRegs.shedLoop code 64).admittedReg

/-- Whether a partition is P0, whose entries must be zero (13 R336). -/
def p0Entry (e bw win : Nat) : Bool := decide (e / 8 = 0) && (bw != 0 || win != 0)

/-- Whether a list of guarantees, added to nothing, is admitted as a whole (13 R336, R339): no entry twice, P0 none, and
the sums within the limits. -/
def State.guarsOk (s : State) (gs : List GuarCfg) : Bool :=
  let es := gs.map fun g => 8 * g.part + g.tc
  es.Nodup && (gs.all fun g => !p0Entry (8 * g.part + g.tc) g.bw g.win && decide (g.bw ≤ 4095) && decide (g.win ≤ 100)) &&
    s.bwsFit ((List.range 64).map fun e =>
      ((gs.find? fun g => 8 * g.part + g.tc == e).map (·.bw)).getD 0)

/-! ## Slots (13 R326 to R328) -/

/-- CAP of a port (13 Table 2); the ports of absent Lanterns have none. -/
def State.portCap (s : State) (n : Nat) : Nat :=
  if n < 8 then (if n < s.lanterns then 512 else 0)
  else if n = 8 ∨ n = 9 then 128
  else if n = 10 then 64
  else if n = 11 ∨ n = 12 then 32
  else if 13 ≤ n ∧ n ≤ 18 then 64
  else if n = 19 ∨ n = 20 then 128
  else if 21 ≤ n ∧ n ≤ 23 then 4
  else if n = 24 then 16
  else if n = 25 then 32
  else if n = 26 then 128
  else 0

/-- The bank of RGL_SLOTS for a (port, class): PORT in bits [4:0], TC in bits [7:5] of RGL_SLOTSEL. -/
def slotIdx (port tc : Nat) : Nat := port + 32 * tc

/-- SLOTS of a (port, class). -/
def State.slots (s : State) (port tc : Nat) : Nat := s.fgetI pgRGL (slotIdx port tc) Reg.RGL_SLOTS_SLOTS

/-- Whether the slots of a port, with the pair (port, tc) set to `v`, keep R328. -/
def State.slotsOk (s : State) (port tc v : Nat) : Bool :=
  let sum := (List.range 8).foldl (fun a c => a + (if c = tc then v else s.slots port c)) 0
  if s.portCap port = 0 then sum == 0 else decide (sum ≤ s.portCap port - 2)

end Sys2Proof.Machine
end

