-- ==== Sys2Proof/Machine/Dram.lean ====
section
/-!
DEFINITION. Dram.lean: the DDR-4 address decode, rank states and retirement (14 R348 to R352, R361, R362, R364; 20 R481).
-/

namespace Sys2Proof.Machine

open Sys2Proof

/-! ## Address decode (14 R352) -/

/-- PA bit `i`. -/
def paBit (a i : Nat) : Nat := (a / 2 ^ i) % 2

/-- The parity of the address bits a mask selects. -/
def maskParity (a m : Nat) : Nat :=
  ((List.range 48).foldl (fun acc i => acc + paBit a i * paBit m i) 0) % 2

/-- MASK_k, bits PA[38:6] (14 R352, R365). -/
def State.ddrMask (s : State) (k : Nat) : Nat :=
  ((s.reg pgDMC 0 (0x080 + 8 * k)).toNat + (s.reg pgDMC 0 (0x084 + 8 * k)).toNat % 2 * 2 ^ 32) * 64

/-- The channel of an address. -/
def State.ddrChannel (s : State) (a : Nat) : Nat :=
  (List.range 4).foldl (fun acc i => acc + maskParity a (s.ddrMask i) * 2 ^ i) 0

/-- The select bits in use: BG1 only on x8 devices. -/
def State.selectCount (s : State) : Nat := if s.fget pgDMC Reg.DMC_GEOM_WIDTH = 0 then 8 else 7

/-- The home bit of a mask: its lowest set bit among PA[38:6]. -/
def homeBit (m : Nat) : Option Nat := ((List.range 33).map (· + 6)).find? fun i => paBit m i == 1

/-- The address bits from PA[6] upward that are no home bit, ascending. -/
def State.plainBits (s : State) : List Nat :=
  let homes := (List.range s.selectCount).filterMap fun k => homeBit (s.ddrMask k)
  ((List.range 33).map (· + 6)).filter fun i => !homes.contains i

/-- The bits of an address at the given places, the first lowest. -/
def gather (a : Nat) : List Nat → Nat
  | [] => 0
  | i :: is => paBit a i + 2 * gather a is

/-- The row bits of the device (14 R349). -/
def State.rowBits (s : State) : Nat := if s.fget pgDMC Reg.DMC_GEOM_DENS = 1 then 17 else 16

/-- Column [9:3], row, bank select bits (BA, BG) and rank of an address. -/
def State.ddrCol (s : State) (a : Nat) : Nat := gather a (s.plainBits.take 7)
def State.ddrRow (s : State) (a : Nat) : Nat := gather a ((s.plainBits.drop 7).take s.rowBits)
def State.ddrBank (s : State) (a : Nat) : Nat :=
  (List.range (s.selectCount - 4)).foldl (fun acc i => acc + maskParity a (s.ddrMask (4 + i)) * 2 ^ i) 0

/-- The data rank of an address: the rank bit with two data ranks; otherwise the rank that serves as the channel's one
data rank (14 R352, R361): the one in service or retiring, else the one that retired. -/
def State.ddrRank (s : State) (a : Nat) : Nat :=
  if s.cfgRanks = 2 then gather a ((s.plainBits.drop (7 + s.rowBits)).take 1)
  else
    let c := s.ddrChannel a
    if s.rankSt c 1 = 1 ∨ s.rankSt c 1 = 3 then 1
    else if s.rankSt c 0 = 4 ∨ s.rankSt c 0 = 6 then 1
    else 0

/-- The rank rows of a rank, one row of every bank each: rows × banks (14 R349, R362). -/
def State.rankRows (s : State) : Nat := 2 ^ (s.rowBits + (s.selectCount - 4))

/-- The rank-local row index of a line: its row, then its bank (14 R362). -/
def State.rowIndex (s : State) (a : Nat) : Nat := s.ddrRow a * 2 ^ (s.selectCount - 4) + s.ddrBank a

/-- Whether a rank of some channel is offline. -/
def State.anyOffline (s : State) : Bool := (List.range 16).any fun c => s.rankSt c 0 == 5 || s.rankSt c 1 == 5

/-- Whether a line of DDR-4 is offline (14 R361). -/
def State.lineOffline (s : State) (a : Nat) : Bool :=
  s.anyOffline && s.rankSt (s.ddrChannel a) (s.ddrRank a) == 5

/-! ## The lowest offline address of a region (20 R481) -/

/-- The value an address bit must have, given the bits above it, for the address to lie on channel `c` and rank `r`;
none where the bit is free. -/
def State.forcedBit (s : State) (c r pre b : Nat) : Option Nat :=
  match (List.range 4).find? fun k => homeBit (s.ddrMask k) == some b with
  | some k => some ((c / 2 ^ k + maskParity pre (s.ddrMask k)) % 2)
  | none =>
    if s.cfgRanks = 2 ∧ (s.plainBits.drop (7 + s.rowBits)).head? = some b then some r else none

/-- The lowest address at or above `base` on channel `c` and rank `r`: bit by bit from PA[38] down; `tight` says that the
bits so far equal those of `base`. -/
def State.lowestOn (s : State) (c r base : Nat) : Nat → Nat → Bool → Option Nat
  | 0, pre, _ => some pre
  | i + 1, pre, tight =>
    let b := 6 + i
    let f := s.forcedBit c r pre b
    if !tight then s.lowestOn c r base i (pre + f.getD 0 * 2 ^ b) false
    else
      let t := paBit base b
      let same := if f = none ∨ f = some t then s.lowestOn c r base i (pre + t * 2 ^ b) true else none
      match same with
      | some x => some x
      | none => if t = 0 ∧ f ≠ some 0 then s.lowestOn c r base i (pre + 2 ^ b) false else none

/-- The DDR-4 areas of a partition: its regions, or in Cormer mode the windows whose key is its own (02 R43, R54). -/
def Cfg.areas (g : Cfg) (p : Nat) : List (Nat × Nat) :=
  if g.cormer then
    (g.windows.filter fun w => decide (w.base ≤ w.limit) && w.part == p).map fun w =>
      (w.base * 4096, (w.limit + 1 - w.base) * 4096)
  else (g.regions.filter fun r => r.owner == p).map fun r => (r.base, r.size)

/-- The lowest address of a partition's areas on channel `c` and rank `r`. -/
def State.lowestOffline (s : State) (p c r : Nat) : Option Nat :=
  ((s.cfg.areas p).filterMap fun x =>
    match s.lowestOn c r x.1 33 0 true with
    | some a => if a < x.1 + x.2 then some a else none
    | none => none).min?

/-! ## Retirement (14 R361, R364) -/

/-- Tell every partition whose areas hold an offline line (20 R481). -/
def State.tellOffline (s : State) (c r : Nat) : State :=
  (List.range 8).foldl (fun t p =>
    match s.lowestOffline p c r with
    | some a => (t.captureLine (pgQueue p) .rankRetired a 4).event (pgQueue p)
    | none => t) s

/-- A data rank goes offline: the channel page captures RANK_RETIRED, line 208 + 4c pulses, the partitions are told and
admission runs again. -/
def State.offlineRank (s : State) (c r a : Nat) : State :=
  (((s.setRankSt c r 5).captureLine (pgDMCch c) .rankRetired a (208 + 4 * c)).tellOffline c r).readmit .rankRetired

/-- A stored error or an uncorrectable command error on rank `r` of channel `c`; `cmd` tells which. The channel page captures the
code of the transition (14 Table 5), and DATA_ERROR_DETECTED for a stored error without one (12 R303). -/
def State.rankError (s : State) (c r a : Nat) (cmd : Bool) : State :=
  let st := s.rankSt c r
  let other := s.rankSt c (1 - r)
  if st = 1 then
    if other = 2 then
      ((s.setRankSt c r 3).fset (pgDMCch c) Reg.DMC_WMARK_ROWS 0).captureLine (pgDMCch c) .dataErrorDetected a (208 + 4 * c)
    else s.offlineRank c r a
  else if st = 2 then
    if other = 3 then ((s.setRankSt c r 5).offlineRank c (1 - r) a).touch
    else if cmd then (s.setRankSt c r 5).pulse (208 + 4 * c)
    else s.captureLine (pgDMCch c) .dataErrorDetected a (208 + 4 * c)
  else if cmd then s
  else s.captureLine (pgDMCch c) .dataErrorDetected a (208 + 4 * c)

/-- Whether rank-row redirection sends a line of a retiring rank to the spare: rows below W (14 R362). -/
def State.onSpare (s : State) (a : Nat) : Bool :=
  let c := s.ddrChannel a
  s.rankSt c (s.ddrRank a) == 3 && decide (s.rowIndex a < s.fget (pgDMCch c) Reg.DMC_WMARK_ROWS)

/-- The rank a request to a line meets. -/
def State.hitRank (s : State) (a : Nat) : Nat := if s.onSpare a then 1 - s.ddrRank a else s.ddrRank a

end Sys2Proof.Machine
end

