-- ==== Sys2Proof/Machine/LineCode.lean ====
section
/-!
DEFINITION. LineCode.lean: a line as its memory stores it: the encryption and the CRC-64 of a DDR-4 line (14 R354, R355, R358), the
parity of an SRAM word (12 R301), and what a read makes of a line that comes back with errors (12 R303, R304).
-/

namespace Sys2Proof.Machine

open Sys2Proof

/-! ## Keys (14 R358) -/

/-- The key pair of a partition. -/
def State.keyPair (s : State) (p : Nat) : Nat × Nat := s.keys.getD p (0, 0)

/-- A key pair for every partition, drawn at a cold boot: free values. -/
def State.drawKeys (s : State) : State :=
  { s with
    keys := (List.range 8).map fun p => (Config.freeNat (s.draws + 2 * p) % 2 ^ 256, Config.freeNat (s.draws + 2 * p + 1) % 2 ^ 256)
    draws := s.draws + 16 }

/-- The partition whose pair encrypts a line as it is stored: the owner of the region that holds it, P0 outside every region (14
R358); in Cormer mode the one it was last written under (02 R55), P0 for a line that none was (log entry 34). -/
def State.lineKey (s : State) (l : Nat) : Nat :=
  if s.cfg.cormer then aget 0 s.lineKeys l
  else ((s.cfg.regions.find? fun r => decide (r.base ≤ l * 64) && decide (l * 64 < r.base + r.size)).map (·.owner)).getD 0

/-- The bytes of a DDR-4 line as they are stored: encrypted (14 R358). -/
def State.storedLine (s : State) (l : Nat) : List Byte := xtsLine (s.keyPair (s.lineKey l)) false (l * 64) (s.load (l * 64) 64)

/-- A line whose stored bytes stay and which partition `p`'s pair decrypts from now on. -/
def State.rekey (s : State) (l p : Nat) : State :=
  if s.lineKey l = p then s
  else
    { s with
      mem := writeBytes s.mem (l * 64) (xtsLine (s.keyPair p) true (l * 64) (s.storedLine l))
      lineKeys := if p = 0 then s.lineKeys.filter fun x => x.1 != l else aset s.lineKeys l p }

/-! ## Checks -/

/-- What one read of a line shows: its check passes, the line bears the poison encoding, or its check fails. -/
inductive LineRead where
  | good
  | poison
  | bad
  deriving DecidableEq, Repr

/-- The stored bytes lane by lane: byte lane by byte lane, each through the 8 beats (14 R354). -/
def laneOrder (stored : List Byte) : List Byte :=
  (List.range 8).flatMap fun k => (List.range 8).map fun b => stored.getD (8 * b + k) 0

/-- The CRC-64 of a line: over its stored bytes in lane order and the 42 bits of its address (14 R354). -/
def lineCrc (addr : Nat) (stored : List Byte) : Nat := crc64 (laneOrder stored ++ toLE 6 (addr / 64 * 64 % 2 ^ 48))

/-- What the check lane of a DDR-4 line tells: its CRC, or the CRC with every bit inverted (14 R355). -/
def crcRead (addr : Nat) (stored : List Byte) (check : Nat) : LineRead :=
  let c := lineCrc addr stored
  if check = c then .good else if check = Nat.xor c (2 ^ 64 - 1) then .poison else .bad

/-- A DDR-4 line and its check lane as they come back with errors: 8 bytes to a beat, and of the check lane one. -/
def State.ddrRead (s : State) (l : Nat) (es : List Nat) : LineRead :=
  let stored := s.storedLine l
  let back := List.zipWith (fun (b : Byte) e => BitVec.ofNat 8 (Nat.xor b.toNat e)) stored (es.take 64)
  crcRead (l * 64) back (Nat.xor (lineCrc (l * 64) stored) (ofLE ((es.drop 64).map (BitVec.ofNat 8))))

/-- Whether an odd number of the 8 bits is set. -/
def oddBits (b : Nat) : Bool := (List.range 8).foldl (fun acc i => acc + b / 2 ^ i % 2) 0 % 2 == 1

/-- An SRAM word as it comes back with errors: one parity bit to each byte, in the 8 check bytes (12 R301, R304). The address parity
is right where the word is read from its own address. -/
def sramRead (es : List Nat) : LineRead :=
  let wrong := (List.range 64).filter fun i => oddBits (es.getD i 0) != decide (es.getD (64 + i / 8) 0 / 2 ^ (i % 8) % 2 = 1)
  if wrong.isEmpty then .good else if wrong.length = 64 then .poison else .bad

/-- How the checks of a read go in the end. -/
inductive CheckEnd where
  | ok
  | reread (addr : Nat)
  | poison (addr : Nat)
  | stored (addr : Nat)
  deriving DecidableEq, Repr

/-- How a read of a line with errors ends: a first read that passes or finds the poison encoding is not repeated; a repeat that does not
pass is a stored error (12 R303, R304). Errors that the code does not detect leave the line as it was written (log entry 8). -/
def lineEnd (addr : Nat) (first again : LineRead) : CheckEnd :=
  match first, again with
  | .good, _ => .ok
  | .poison, _ => .poison addr
  | .bad, .good => .reread addr
  | .bad, _ => .stored addr

/-- How the checks of a read go: as the command says, or as the code of the memory at the address decides. -/
def State.checkEnd (s : State) (chk : ReadCheck) : CheckEnd :=
  match chk with
  | .ok => .ok
  | .reread a => .reread a
  | .stored a => .stored a
  | .flips a e1 e2 =>
    if s.region a = .ddr then lineEnd a (s.ddrRead (a / 64) e1) (s.ddrRead (a / 64) e2) else lineEnd a (sramRead e1) (sramRead e2)

end Sys2Proof.Machine
end

