-- ==== Sys2Proof/Machine/Versions.lean ====
section
/-!
DEFINITION. Versions.lean: versioned buffers, their slots, what a reference resolves to, finality, free slots and the
commit rule (02 R47 to R53).
-/

namespace Sys2Proof.Machine

open Sys2Proof

/-- The current frame epoch, LMP_EPOCH. -/
def State.epoch (s : State) : Word32 := s.reg pgLMP 0 0x044

/-- Whether frame `g` comes before frame `f`: by a distance of 1 up to half the range, modulo 2³² (02 R36). -/
def frameBelow (g f : Word32) : Bool := decide (1 ≤ (f - g).toNat) && decide ((f - g).toNat < 2 ^ 31)

/-- A versioned buffer that nothing has touched: slot 0 holds the initial version, slot 1 none (02 R48). -/
def VBuf.fresh (p h : Nat) : VBuf :=
  { part := p, handle := h, slot0 := { tag := .initial, gen := 0, vid := 0 }, slot1 := { tag := .none, gen := 0, vid := 0 }
    committed := some 0 }

/-- The versioned buffer of a partition's handle. -/
def State.vbuf (s : State) (p h : Nat) : VBuf :=
  (s.vbufs.find? fun v => v.part == p && v.handle == h).getD (VBuf.fresh p h)

/-- The state with a versioned buffer replaced or added. -/
def State.setVbuf (s : State) (v : VBuf) : State :=
  { s with vbufs := (s.vbufs.filter fun w => !(w.part == v.part && w.handle == v.handle)) ++ [v] }

/-- Slot `i` of a buffer. -/
def VBuf.slot (v : VBuf) (i : Nat) : VSlot := if i = 0 then v.slot0 else v.slot1

/-- The buffer with slot `i` replaced. -/
def VBuf.setSlot (v : VBuf) (i : Nat) (x : VSlot) : VBuf := if i = 0 then { v with slot0 := x } else { v with slot1 := x }

/-- The slot tagged `f`, if any. -/
def VBuf.tagged (v : VBuf) (f : Word32) : Option Nat :=
  if v.slot0.tag = .frame f then some 0 else if v.slot1.tag = .frame f then some 1 else none

/-- Whether a slot holds a version tagged below `f`; the initial version is older than every frame. -/
def VSlot.below (x : VSlot) (f : Word32) : Bool :=
  match x.tag with
  | .none => false
  | .initial => true
  | .frame g => frameBelow g f

/-- Whether the version of slot `x` is newer than that of slot `y`. -/
def VSlot.newer (x y : VSlot) : Bool :=
  match x.tag, y.tag with
  | .frame g, .frame h => frameBelow h g
  | .frame _, _ => true
  | .initial, .none => true
  | _, _ => false

/-- The slot that holds the newest version tagged below `f` (02 R48). -/
def VBuf.newestBelow (v : VBuf) (f : Word32) : Option Nat :=
  match v.slot0.below f, v.slot1.below f with
  | true, true => if v.slot1.newer v.slot0 then some 1 else some 0
  | true, false => some 0
  | false, true => some 1
  | false, false => none

/-- Whether a job writes the buffer: some write reference of it names the handle through SAME. -/
def Job.writes (j : Job) (p h : Nat) : Bool :=
  j.part == p && (j.refs ++ j.args).any fun c => c.wr && c.vsel == 1 && c.handle == h

/-- The versioned references a job writes. -/
def Job.writeRefs (j : Job) : List CRef := (j.refs ++ j.args).filter fun c => c.wr && c.vsel == 1

/-- The versioned references a job reads. -/
def Job.readRefs (j : Job) : List CRef := (j.refs ++ j.args).filter fun c => c.rd && c.vsel != 0

/-- The ingest streams that write a buffer: cameras by their number, Ethernet streams from 64. -/
def Cfg.ingestKeys (c : Cfg) (p h : Nat) : List Nat :=
  ((List.range c.cams.length).filter fun i =>
    match c.cams[i]? with
    | none => false
    | some m => m.en && m.lvls.any fun l =>
        l.factor != 0 && ((m.part0 == p && l.h0 == h) || (m.dual && m.part1 == p && l.h1 == h))) ++
  (c.eth.streams.filter fun x => x.part == p && x.handle == h).map (64 + ·.t)

/-- The newest frame whose input version of a stream has closed; before any, frame 0. -/
def State.closedOf (s : State) (key : Nat) : Word32 := aget 0 s.ing.closed key

/-- Whether a dequeued job other than `me` that writes the buffer in frame `f` has not completed, or an input version of
that frame has not closed (02 R51, 16 R394). -/
def State.unfinal (s : State) (me p h : Nat) (f : Word32) : Bool :=
  (s.jobs.any fun j => j.tag != me && j.f == f && j.phase != .ended && j.writes p h) ||
  ((s.cfg.ingestKeys p h).any fun k => frameBelow (s.closedOf k) f)

/-- What a read through PREV resolves to (02 R48). -/
def State.resolvePrev (s : State) (p h : Nat) (f : Word32) : Option Nat := (s.vbuf p h).newestBelow f

/-- The slot a reference of a job reads, as the state stands (02 R48): slot 0 of an unversioned buffer; through SAME the
slot tagged F or, where there is none, what PREV gives; through PREV the newest version below F. -/
def State.resolveRead (s : State) (j : Job) (c : CRef) : Option Nat :=
  if c.vsel = 0 then some 0
  else if c.vsel = 1 then ((s.vbuf j.part c.handle).tagged j.f).orElse fun _ => s.resolvePrev j.part c.handle j.f
  else s.resolvePrev j.part c.handle j.f

/-- The slot a reference of a job writes (02 R48, R51): the slot tagged F; else, for a run-ahead job, the slot that does
not hold the newest version below F, and for any other job the slot that does not hold the committed version. -/
def State.writeSlot (s : State) (j : Job) (c : CRef) : Nat :=
  if c.vsel = 0 then 0
  else
    let v := s.vbuf j.part c.handle
    match v.tagged j.f with
    | some i => i
    | none =>
      if j.runAhead then
        match v.newestBelow j.f with
        | some i => 1 - i
        | none => 1
      else
        match v.committed with
        | some i => 1 - i
        | none => 1

/-- Whether every version a job reads is final (02 R51, R77): a read through SAME waits for the writers of frame F, and
a run-ahead job's read of the version of frame F − 1 for that frame's writers. -/
def State.readsFinal (s : State) (j : Job) : Bool :=
  j.readRefs.all fun c =>
    !(c.vsel == 1 && s.unfinal j.tag j.part c.handle j.f) &&
      !(j.runAhead && !(c.vsel == 1 && ((s.vbuf j.part c.handle).tagged j.f).isSome) &&
        s.unfinal j.tag j.part c.handle (j.f - 1))

/-- Whether a job reads the version that slot `i` of the buffer holds: as it resolved it at its start, or, before its
start, as it would resolve it now. -/
def State.readsSlot (s : State) (j : Job) (p h i : Nat) : Bool :=
  j.part == p && j.readRefs.any fun c =>
    c.handle == h &&
      (if j.phase = .waiting then s.resolveRead j c == some i
       else c.slot == i && c.vid == ((s.vbuf p h).slot i).vid)

/-- Whether the slot a reference writes is free (02 R51): tagged F already; or no other dequeued job that has not
completed reads its old version; for a run-ahead job the version of frame F − 1, where there will be one, is final, so
that the slot of the newest version is known; and a slot of the committed version is left only for such a version. -/
def State.slotFree (s : State) (j : Job) (c : CRef) : Bool :=
  let v := s.vbuf j.part c.handle
  match v.tagged j.f with
  | some _ => true
  | none =>
    let i := s.writeSlot j c
    (s.jobs.all fun k => k.tag == j.tag || k.phase == .ended || !s.readsSlot k j.part c.handle i) &&
    !(j.runAhead && s.unfinal j.tag j.part c.handle (j.f - 1)) &&
    (v.committed != some i || (v.tagged (j.f - 1)).isSome)

/-- Whether every slot a job writes is free. -/
def State.writesFree (s : State) (j : Job) : Bool := j.writeRefs.all fun c => s.slotFree j c

/-- Tag slot `i` of a buffer with frame `f`: the slot comes to hold another version, and it is no longer the slot of the
committed version. -/
def VBuf.retag (v : VBuf) (i : Nat) (f : Word32) : VBuf :=
  let x := v.slot i
  { v.setSlot i { x with tag := .frame f, vid := x.vid + 1 } with
    committed := if v.committed = some i then none else v.committed }

/-- Retag the free slots that a waiting run-ahead job writes (02 R51). -/
def State.retagJob (s : State) (j : Job) : State :=
  j.writeRefs.foldl (fun s c =>
    let v := s.vbuf j.part c.handle
    if v.tagged j.f = none ∧ s.slotFree j c then s.setVbuf (v.retag (s.writeSlot j c) j.f) else s) s

/-- Retag for every waiting run-ahead job, in the order of dequeue (95: SLOT_RETAG). -/
def State.retagSweep (s : State) : State :=
  s.jobs.foldl (fun s j => if j.runAhead ∧ j.phase = .waiting then s.retagJob j else s) s

/-- Resolve a reference at the job's start: record its slot, its version and its write generation; a slot it writes is
tagged F and its generation rises. -/
def State.bindRef (s : State) (j : Job) (c : CRef) : State × CRef :=
  if c.vsel = 0 then (s, { c with slot := 0 })
  else if c.wr ∧ c.vsel = 1 then
    let i := s.writeSlot j c
    let v := s.vbuf j.part c.handle
    let v := if v.tagged j.f = some i then v else v.retag i j.f
    let x := v.slot i
    let v := v.setSlot i { x with gen := x.gen + 1 }
    (s.setVbuf v, { c with slot := i, vid := (v.slot i).vid, gen := (v.slot i).gen })
  else
    let i := (s.resolveRead j c).getD 0
    let x := (s.vbuf j.part c.handle).slot i
    (s, { c with slot := i, vid := x.vid, gen := x.gen })

/-- Resolve the references of a list, one after another. -/
def State.bindRefs (s : State) (j : Job) : List CRef → State × List CRef
  | [] => (s, [])
  | c :: cs =>
    let (s1, c1) := s.bindRef j c
    let (s2, cs1) := s1.bindRefs j cs
    (s2, c1 :: cs1)

/-- Whether the version a started job's reference names is still in its slot; a job that reads it after a discard or a
retag ends CANCELLED_BY_EPOCH (02 R50, R51). -/
def State.refLive (s : State) (j : Job) (c : CRef) : Bool :=
  c.vsel == 0 || ((s.vbuf j.part c.handle).slot c.slot).vid == c.vid

/-- The byte address of a resolved reference. -/
def CRef.addr (c : CRef) : Nat := (if c.slot = 0 then c.ent.base0 else c.ent.base1) + c.off

/-- Discard the versions a frame job wrote: in each buffer the slot tagged F holds no version (02 R50, R52). -/
def State.discard (s : State) (j : Job) : State :=
  j.writeRefs.foldl (fun s c =>
    let v := s.vbuf j.part c.handle
    match v.tagged j.f with
    | some i => s.setVbuf (v.setSlot i { v.slot i with tag := .none, vid := (v.slot i).vid + 1 })
    | none => s) s

/-- A job that ends before it has written anything leaves no version behind: where no other job of its frame writes the
buffer, the slot tagged for it holds no version (02 R49, R51). -/
def State.dropTags (s : State) (j : Job) : State :=
  j.writeRefs.foldl (fun s c =>
    let v := s.vbuf j.part c.handle
    let other := s.jobs.any fun k => k.tag != j.tag && k.f == j.f && !(k.phase == .ended && k.st == .cancelled) &&
      k.writes j.part c.handle
    match v.tagged j.f with
    | some i => if other then s else s.setVbuf (v.setSlot i { v.slot i with tag := .none, vid := (v.slot i).vid + 1 })
    | none => s) s

/-- The version a run-ahead job wrote is discarded and its slot kept for the re-run (02 R52). -/
def State.restart (s : State) (j : Job) : State :=
  j.writeRefs.foldl (fun s c =>
    let v := s.vbuf j.part c.handle
    match v.tagged j.f with
    | some i => s.setVbuf (v.setSlot i { v.slot i with gen := (v.slot i).gen + 1, vid := (v.slot i).vid + 1 })
    | none => s) s

/-- Commit frame `n`: every slot tagged `n` holds its buffer's current committed version (02 R49). A buffer without one
keeps its committed version. -/
def VBuf.commit (v : VBuf) (n : Word32) : VBuf :=
  match v.tagged n with
  | some i => { v with committed := some i }
  | none => v

/-- Whether a run-ahead job's reads pass validation at the tick that opens its frame (02 R52): each version is still
there with its generation unchanged, and it is committed, or it is tagged with the frame itself and not among the
versions of jobs that fail. -/
def State.readsValid (s : State) (failed : List Nat) (j : Job) : Bool :=
  j.readRefs.all fun c =>
    let v := s.vbuf j.part c.handle
    let x := v.slot c.slot
    x.vid == c.vid && x.gen == c.gen &&
      (v.committed == some c.slot ||
        (x.tag == .frame j.f && !(s.jobs.any fun k => k.tag ∈ failed && k.f == j.f && k.writes j.part c.handle)))

/-- The run-ahead jobs of frame `f` that fail validation, found by repeating the test until no further job fails. Every
job whose references are resolved is tested, one that waits for its engine or its Wicks among them (02 R52: running or
complete; log entry 23); a job that has not started has resolved nothing. -/
def State.failing (s : State) (f : Word32) : Nat → List Nat → List Nat
  | 0, bad => bad
  | n + 1, bad =>
    let bad' := (s.jobs.filter fun j => j.runAhead && j.f == f && j.phase != .waiting && !(s.readsValid bad j)).map (·.tag)
    s.failing f n bad'

end Sys2Proof.Machine
end

