-- ==== Sys2Proof/Machine/Access.lean ====
section
/-!
DEFINITION. Access.lean: who may reach which memory (02 R43, R55; 03 R73; 04 R108, R110; 20 R475), and how a read fares
with poison and detected errors (12 R303, R304).
-/

namespace Sys2Proof.Machine

open Sys2Proof

/-- Whether partition `p` may read or write `n` bytes at `a` as one DDR-4 region of the configuration (02 Table 6): only the
owner writes a region, others may be granted to read it. -/
def Cfg.inRegion (c : Cfg) (p a n : Nat) (write : Bool) : Bool :=
  c.regions.any fun r =>
    decide (r.base ≤ a) && decide (a + n ≤ r.base + r.size) && (r.owner == p || (!write && r.readers.getLsbD p))

/-- Whether `n` bytes at `a` lie in one set of Reservoir banks of partition `p` (02 Table 6, 03 R73). -/
def Cfg.inBanks (c : Cfg) (p a n : Nat) : Bool :=
  if 0x8000000000 ≤ a ∧ a + n ≤ 0x8100000000 ∧ 0 < n then
    let o := a - 0x8000000000
    let ln := o / 0x10000000
    let first := (o % 0x10000000) / 0x400000
    let last := (o % 0x10000000 + n - 1) / 0x400000
    decide (last < 64) && (List.range (last - first + 1)).all fun k => (c.part p).banks.contains (ln, first + k)
  else false

/-- A firewall window in use (02 R56). -/
def FwWin.used (w : FwWin) : Bool := decide (w.base ≤ w.limit)

/-- Whether a window matches a requester at an address, and the requester's identifier (02 R55, Table 8). -/
def FwWin.hits (w : FwWin) (rid : BitVec 12) (a : Nat) : Bool :=
  w.used && decide (w.base ≤ a / 4096) && decide (a / 4096 ≤ w.limit) && (rid &&& w.ridMask == w.rid &&& w.ridMask)

/-- The requester identifier of a master (02 R55); a master the configuration assigns none has 0 (log entry 9). -/
def Cfg.rid (c : Cfg) (m : Master) : BitVec 12 := BitVec.ofNat 12 ((c.rids.find? fun p => p.1 == m).map (·.2) |>.getD 0)

/-- The window that decides an access of a requester at an address: the first that matches (02 R55). -/
def Cfg.fwWin (c : Cfg) (m : Master) (a : Nat) : Option FwWin := c.windows.find? fun w => w.hits (c.rid m) a

/-- The first 4 KiB unit above `u` at which another window may decide. -/
def Cfg.fwNext (c : Cfg) (u : Nat) : Option Nat :=
  (((c.windows.filter FwWin.used).flatMap fun w => [w.base, w.limit + 1]).filter (u < ·)).min?

/-- Whether the windows permit the 4 KiB units `u` to `last`, each by the first window that matches it; at most `fuel`
stretches. -/
def Cfg.fwUnits (c : Cfg) (m : Master) (write : Bool) (last : Nat) : Nat → Nat → Bool
  | 0, _ => false
  | f + 1, u =>
    match c.fwWin m (u * 4096) with
    | none => false
    | some w =>
      (if write then w.wr else w.rd) &&
        (match c.fwNext u with
         | none => true
         | some v => decide (last < v) || c.fwUnits m write last f v)

/-- Whether the firewall permits `n` bytes at `a`: each of their 4 KiB units by the first window that matches it (02 R55). -/
def Cfg.fwOk (c : Cfg) (m : Master) (a n : Nat) (write : Bool) : Bool :=
  c.fwUnits m write ((a + (n - 1)) / 4096) (2 * c.windows.length + 1) (a / 4096)

/-- Whether work of partition `p` on master `m` may access `n` bytes at `a` (02 R43; in Cormer mode R55). -/
def Cfg.mayAccess (c : Cfg) (m : Master) (p a n : Nat) (write : Bool) : Bool :=
  if c.cormer then c.fwOk m a n write else c.inRegion p a n write || c.inBanks p a n

/-- Whether `n` bytes at `a` lie in one DDR-4 region that partition `p` writes; in Cormer mode, in one window whose key is
the partition's and that permits writes (02 R43, R54). -/
def Cfg.ddrWritable (c : Cfg) (p a n : Nat) : Bool :=
  if c.cormer then
    c.windows.any fun w => w.used && w.wr && w.part == p && decide (w.base ≤ a / 4096) &&
      decide ((a + (n - 1)) / 4096 ≤ w.limit)
  else c.inRegion p a n true

/-- The code of an access that is not permitted (02 R55, 20 R475). -/
def Cfg.denyErr (c : Cfg) : Err := if c.cormer then .firewallViolation else .partitionViolation

/-- How a read of bytes ends: with data, poisoned, with a stored error, or answered as a place that holds nothing. -/
inductive ReadRes where
  | data
  | poisoned (line : Nat)
  | stored (line : Nat)
  deriving DecidableEq, Repr

/-- The page of the block that holds an address and reports its errors, with the aggregator line it pulses: a Reservoir
its RSV page, a scratchpad its WCK page, a Sconce buffer its SCN page, DDR-4 the channel's page, the Chimney's memories
the LMP or CCU page (12 R303, 20 R482). `ch` is the channel of a DDR-4 address. -/
def State.memPage (s : State) (ch a : Nat) : Nat × Nat :=
  match s.region a with
  | .reservoir n => (pgRSV n, 8 + 16 * n + 10)
  | .pad w => (pgWck w, lineScn (sconceOf w))
  | .sbuf k => (pgScn k, lineScn k)
  | .mapSram => (pgCCU, 137)
  | .ddr => (pgDMCch ch, 208 + 4 * ch)
  | _ => (pgLMP, 370)

/-- Count a read that passed on its repeat (12 R303): RSV_REREAD of a Reservoir, DMC_REREAD of a channel (14 R365), else
the block's detection counter. -/
def State.countReread (s : State) (a : Nat) : State :=
  match s.region a with
  | .reservoir n => s.fadd (pgRSV n) Reg.RSV_REREAD_COUNT 1
  | .pad w => s.fadd (pgWck w) Reg.WCK_DET_COUNT 1
  | .sbuf k => s.fadd (pgScn k) Reg.SCN_DET_COUNT 1
  | .ddr => s.fadd (pgDMCch (s.ddrChannel a)) Reg.DMC_REREAD_COUNT 1
  | _ => s

/-- The Reservoir bank of an address. -/
def rsvBank (a : Nat) : Nat := (a % 0x10000000) / 0x400000

/-- A stored error (12 R303): the location is poisoned, the block counts it and captures its address, and its line
pulses. In DDR-4 the rank retires (14 R361); in a Reservoir the bank's bonds will be tested (15 R368). -/
def State.storedError (s : State) (a : Nat) : State :=
  let ch := s.ddrChannel a
  let pl := s.memPage ch a
  let s := s.poisonLine (a / 64)
  match s.region a with
  | .reservoir n =>
    let s := (s.fadd (pgRSV n) Reg.RSV_DET_COUNT 1).captureLine pl.1 .dataErrorDetected a pl.2
    { s with bonds := s.bonds ++ [(n, rsvBank a)] }
  | .pad w => (s.fadd (pgWck w) Reg.WCK_DET_COUNT 1).captureLine pl.1 .dataErrorDetected a pl.2
  | .sbuf k => (s.fadd (pgScn k) Reg.SCN_DET_COUNT 1).captureLine pl.1 .dataErrorDetected a pl.2
  | .ddr => (s.fadd (pgDMCch ch) Reg.DMC_STORED_COUNT 1).rankError ch (s.hitRank a) a false
  | _ => s.captureLine pl.1 .dataErrorDetected a pl.2

/-- A POISONED_READ answer: a Reservoir counts it (12 R323). -/
def State.countPoisoned (s : State) (a : Nat) : State :=
  match s.region a with
  | .reservoir n => s.fadd (pgRSV n) Reg.RSV_POISONED_COUNT 1
  | _ => s

/-- A read meets a poisoned location: the page of the block that holds the mark captures it and the block's line pulses
(12 R313, R314); a DDR-4 channel has no line for it (14 R365, 20 R482; log entry 32). -/
def State.poisonHit (s : State) (a : Nat) : State :=
  let ch := s.ddrChannel a
  let pl := s.memPage ch a
  if s.region a = .ddr then s.capture pl.1 .poisonedRead a else s.captureLine pl.1 .poisonedRead a pl.2

/-- Whether a Reservoir bank is mapped out (15 R368, R369). -/
def State.bankOut (s : State) (n k : Nat) : Bool :=
  ((if k < 32 then s.reg (pgRSV n) 0 0x04C else s.reg (pgRSV n) 0 0x050).toNat / 2 ^ (k % 32)) % 2 == 1

/-- Whether an address reads as poisoned because its unit is out of reach: the scratchpad of a quarantined Wick (04
R108), a Reservoir, scratchpad or Sconce buffer of a Lantern out of service (15 R382), a mapped-out bank (15 R369), or
an offline line (14 R361). -/
def State.deadPlace (s : State) (a : Nat) : Bool :=
  match s.region a with
  | .pad w => !s.wickInService w
  | .reservoir n => !s.lanternUp n || s.bankOut n (rsvBank a)
  | .sbuf k => !s.lanternUp (k / 8)
  | .ddr => s.lineOffline a
  | _ => false

/-- The first line of a range that lies in a dead place. In DDR-4 the lines are looked at only while a rank is
offline; elsewhere each MiB of the range is, of which no unit's memory shares one with another's. -/
def State.firstDead (s : State) (a n : Nat) : Option Nat :=
  match s.region a with
  | .ddr => if s.anyOffline then (linesOf a n).find? fun l => s.lineOffline (l * 64) else none
  | _ =>
    if s.deadPlace a then some (a / 64)
    else if n = 0 then none
    else (((List.range ((a + n - 1) / 2 ^ 20 - a / 2 ^ 20 + 1)).map fun k => Nat.max a ((a / 2 ^ 20 + k) * 2 ^ 20)).find?
      s.deadPlace).map (· / 64)

/-- Whether a segment of a Sconce's buffer is assigned to a partition (04 R110). -/
def State.segOwned (s : State) (scn seg p : Nat) : Bool :=
  (s.reg (pgScn scn) 0 0x040).toNat / 2 ^ (4 * seg) % 16 == p + 8

/-- Whether a range of a Sconce's buffer lies in segments assigned to a partition. -/
def State.rangeOwned (s : State) (scn p : Nat) (off : Int) (n : Nat) : Bool :=
  n == 0 || ((List.range 8).all fun g =>
    decide (off + n ≤ (g * 0x80000 : Nat)) || decide (((g + 1) * 0x80000 : Nat) ≤ off) || s.segOwned scn g p)

/-- The bytes of the guest window that the guest serves, GWIN (15 R384, R387). -/
def State.gwin (s : State) : Nat := (s.guestDie.map (·.gwin)).getD 0

/-- Whether the guest port is up (15 R386). -/
def State.guestUp (s : State) : Bool :=
  let st := s.fget pgGST Reg.GST_STATE_STATE
  st == 2 || st == 3 || st == 4

/-- The error with which the place itself turns away an access of partition `p`: a Sconce buffer outside the partition's
segments (04 R110); a write to the scratchpad of a quarantined Wick (04 R108) or to the memories of a Lantern out of
service (15 R382); the guest window beyond GWIN (15 R387). -/
def State.denied (s : State) (p a n : Nat) (write : Bool) : Option Err :=
  if n = 0 then none
  else match s.region a with
    | .sbuf k =>
      if !s.rangeOwned k p (a % 0x400000 : Nat) n || (write && !s.lanternUp (k / 8)) then some .partitionViolation else none
    | .pad v => if write && !s.wickInService v then some .partitionViolation else none
    | .reservoir ln => if write && !s.lanternUp ln then some .partitionViolation else none
    | .guest => if s.guestUp && decide (s.gwin < a - 0xE000000000 + n) then some .lengthExceedsExtent else none
    | _ => none

/-- Whether an access meets a Reservoir bank whose bonds are under test: it waits (15 R368). -/
def State.bondWait (s : State) (a n : Nat) : Bool :=
  s.bonds.any fun b =>
    let base := reservoirBase b.1 + b.2 * 0x400000
    decide (a < base + 0x400000) && decide (base < a + n)

/-- What the guest delivers for a read of its window: free bytes, all ones while its port is down (15 R381, R387). -/
def State.guestIn (s : State) (a n : Nat) : State :=
  if n = 0 ∨ s.region a ≠ .guest then s
  else if s.guestUp then { s with mem := writeBytes s.mem a ((List.range n).map fun i => Config.freeByte s.draws i), draws := s.draws + 1 }
  else { s with mem := writeBytes s.mem a (List.replicate n 0xFF) }

/-- How a read of `n` bytes at `a` ends, given how its checks go: poison first, then a stored error inside the range. A
read of the guest window that the guest does not answer in time ends as one with a stored error (15 R387). -/
def State.readRes (s : State) (a n : Nat) (chk : ReadCheck) : ReadRes :=
  if n = 0 ∨ s.region a = .mapSram then .data
  else match s.firstDead a n with
    | some l => .poisoned l
    | none =>
      match s.firstPoison a n with
      | some l => .poisoned l
      | none =>
        match s.checkEnd chk with
        | .stored x => if a / 64 ≤ x / 64 ∧ x / 64 ≤ (a + n - 1) / 64 then .stored (x / 64) else .data
        | .poison x => if a / 64 ≤ x / 64 ∧ x / 64 ≤ (a + n - 1) / 64 then .poisoned (x / 64) else .data
        | _ => .data

/-- An access to the Map SRAM by another master than the CCU: the CCU page records it and the access goes on (10 R243). -/
def State.mapAccess (s : State) (a n : Nat) : State :=
  if n ≠ 0 ∧ s.region a = .mapSram then s.captureLine pgCCU .partitionViolation a 137 else s

/-- What a read leaves behind in the memory's own counters and pages. -/
def State.readMarks (s : State) (a n : Nat) (chk : ReadCheck) : State :=
  let s := s.mapAccess a n
  match s.readRes a n chk with
  | .poisoned l => let t := s.countPoisoned (l * 64); if s.deadPlace (l * 64) then t else t.poisonHit (l * 64)
  | .stored l => if s.region a = .guest then s.fadd pgGST Reg.GST_TIMEOUT_COUNT 1 else s.storedError (l * 64)
  | .data =>
    match s.checkEnd chk with
    | .reread x => if n ≠ 0 ∧ a / 64 ≤ x / 64 ∧ x / 64 ≤ (a + n - 1) / 64 then s.countReread x else s
    | _ => s

/-- The error code of a failed read. -/
def ReadRes.err : ReadRes → Option Err
  | .data => none
  | .poisoned _ => some .poisonedRead
  | .stored _ => some .dataErrorDetected

/-- Write the bytes of one line, or part of one, where the place takes writes: the places out of reach take none; an
offline line counts the write in DMC_OFFLINE_WR, a mapped-out bank in RSV_WR_DISCARD (14 R361, 15 R369). -/
def State.storeLine (s : State) (a : Nat) (bs : List Byte) : State :=
  if s.deadPlace a then
    match s.region a with
    | .ddr => s.fadd (pgDMCch (s.ddrChannel a)) Reg.DMC_OFFLINE_WR_COUNT 1
    | .reservoir n => if s.lanternUp n then s.fadd (pgRSV n) Reg.RSV_WR_DISCARD_COUNT 1 else s
    | _ => s
  else s.store a bs

/-- Write bytes line by line; at most `fuel` lines. -/
def State.storeLines (s : State) (fuel a : Nat) (bs : List Byte) : State :=
  match fuel with
  | 0 => s
  | f + 1 =>
    if bs.isEmpty then s
    else
      let k := 64 - a % 64
      (s.storeLine a (bs.take k)).storeLines f (a + k) (bs.drop k)

/-- Write bytes where the places take writes; the Map SRAM takes none (10 R243). While no place of the range is out of reach this is one write. -/
def State.storePlain (s : State) (a : Nat) (bs : List Byte) : State :=
  if s.region a = .mapSram then s.mapAccess a bs.length
  else if (s.firstDead a bs.length).isNone then s.store a bs else s.storeLines (bs.length / 64 + 2) a bs

/-- Whether a write of `n` bytes at `a` covers only a part of line `l`. -/
def partOf (a n l : Nat) : Bool := decide (l * 64 < a) || decide (a + n < l * 64 + 64)

/-- The read-modify-write of the DDR-4 lines that a write covers in part (14 R356): a poisoned one keeps its mark, which
hides the bytes, and its channel's page captures the error. -/
def State.mergeMarks (s : State) (a n : Nat) : State :=
  if n = 0 ∨ s.region a ≠ .ddr ∨ s.poison = [] then s
  else
    [a / 64, (a + n - 1) / 64].eraseDups.foldl (fun t l =>
      if partOf a n l && s.poison.contains l && !s.lineOffline (l * 64) then
        t.capture (pgDMCch (s.ddrChannel (l * 64))) .poisonedRead (l * 64)
      else t) s

/-- Write bytes where the places take writes, the lines written in part by a read-modify-write. -/
def State.storeAt (s : State) (a : Nat) (bs : List Byte) : State := (s.storePlain a bs).mergeMarks a bs.length

/-! ## The units' own traffic at the Regulator (13 R324, R326, R331, R336, R343, R344)

A unit's command stands for all of the requests it makes: they pass its port in the class of the work, and what they move is
counted there and, at DDR-4, against the guarantee entry (log entry 32). -/

/-- Whether a port is designated for TC0 reads (13 R329). -/
def State.designated (s : State) (port : Nat) : Bool := (s.reg pgRGL 0 0x074).getLsbD port

/-- The Lantern that holds a place. -/
def State.placeLantern (s : State) (a : Nat) : Option Nat :=
  match s.region a with
  | .reservoir n => some n
  | .pad w => some (lanternOf w)
  | .sbuf k => some (k / 8)
  | _ => none

/-- What serving `n` bytes at DDR-4 does to the entry of a partition and class: a TC0 read of a port that is not designated
counts as TC1. -/
def State.serveDdr (s : State) (port tc p n : Nat) (write : Bool) : State :=
  let demoted := tc == 0 && !write && !s.designated port
  let e := 8 * p + (if demoted then 1 else tc)
  let k := (n + 63) / 64
  let s := if demoted then s.fadd pgRGL Reg.RGL_TC0_DEMOTE_COUNT k else s
  { s with rgl := { s.rgl with
    served := aset s.rgl.served e (aget 0 s.rgl.served e + n), credits := aset s.rgl.credits e (aget 0 s.rgl.credits e - 640 * k) } }

/-- The DDR-4 lines that a master accesses come under the key of the first window that matches (02 R55). A master without a
requester identifier leaves every line under its key (log entry 34). -/
def State.keyed (s : State) (m : Option Master) (a n : Nat) : State :=
  match m with
  | none => s
  | some m =>
    if s.cfg.cormer && decide (s.region a = .ddr) then
      (linesOf a n).foldl (fun t l => match t.cfg.fwWin m (l * 64) with
        | some w => t.rekey l w.part
        | none => t) s
    else s

/-- A master moves `n` bytes at `a` through a port for a partition in a class; what stays in its Lantern passes no port. -/
def State.traffic (s : State) (m : Option Master) (port tc p a n : Nat) (write : Bool) : State :=
  if n = 0 ∨ (port < 8 ∧ s.placeLantern a = some port) then s
  else
    let off := (if write then 0x048 else 0x040) + 0x20 * tc
    let s := (s.keyed m a n).setCtr64 (pgPort port) off (s.ctr64 (pgPort port) off + n)
    if s.region a = .ddr then s.serveDdr port tc p n write else s

/-- The port of a job's engine: the Chimney engines have their own, a Sconce engine its Lantern's. -/
def Job.port (j : Job) : Nat :=
  match j.opc with
  | .copy => 9
  | .selftest => 8
  | .ccuCheck => 10
  | .mapPublish => 10
  | .profile => 11
  | .xcuVote => 12
  | _ => j.place / 8

/-- The master that a job's engine is (02 R55); the self-test sequencer has no requester identifier. -/
def Job.engine (j : Job) : Option Master :=
  match j.opc with
  | .copy => some (.chimney 0)
  | .selftest => none
  | .ccuCheck => some (.chimney 1)
  | .mapPublish => some (.chimney 1)
  | .profile => some (.chimney 2)
  | .xcuVote => some (.chimney 3)
  | _ => some (.sconce j.place)

/-- An engine's job moves bytes. -/
def State.jobMoves (s : State) (j : Job) (a n : Nat) (write : Bool) : State := s.traffic j.engine j.port j.tc j.part a n write

end Sys2Proof.Machine
end

