-- ==== Sys2Proof/Machine/Queues.lean ====
section
/-!
DEFINITION. Queues.lean: queue contexts, the context cache, status words, tags, queue commands, doorbells and the
choice of the next dequeue (03 R57 to R64, R78, R80, R82 to R85).
-/

namespace Sys2Proof.Machine

open Sys2Proof

/-- The context of a queue. -/
def State.queue (s : State) (qid : Nat) : QCtx := aget QCtx.zero s.queues qid

/-- The state with a queue's context replaced. -/
def State.setQueue (s : State) (qid : Nat) (q : QCtx) : State := { s with queues := aset s.queues qid q }

/-- The partition whose range holds a queue (03 R57). -/
def State.queueOwner (s : State) (qid : Nat) : Option Nat :=
  (List.range 8).find? fun p =>
    decide ((s.cfg.part p).qbase ≤ qid) && decide (qid < (s.cfg.part p).qbase + (s.cfg.part p).qcount)

/-- Whether a queue lies in partition `p`'s range. -/
def State.ownsQueue (s : State) (p qid : Nat) : Bool := s.queueOwner qid == some p

/-- PIN of a queue's context (03 R59). -/
def State.pinned (s : State) (qid : Nat) : Bool :=
  match s.queueOwner qid with
  | some p => (s.cfg.part p).pins.any fun r => decide (r.1 ≤ qid) && decide (qid < r.1 + r.2)
  | none => false

/-- Whether a queue's context is in the cache (03 R59). -/
def State.ctxCached (s : State) (qid : Nat) : Bool := s.pinned qid || s.lmp.ctxCache.contains qid

/-- The contexts the cache holds (03 R59). -/
def ctxCacheSize : Nat := 65536

/-- The pinned contexts of the configuration. -/
def State.pinnedCount (s : State) : Nat := s.cfg.parts.foldl (fun a p => a + p.pins.foldl (fun b r => b + r.2) 0) 0

/-- Bring a context into the cache as its most recently used, the least recently used leaving (log entry 10). -/
def State.ctxTouch (s : State) (qid : Nat) : State :=
  if s.pinned qid then s
  else { s with lmp := { s.lmp with
    ctxCache := (qid :: s.lmp.ctxCache.filter (· != qid)).take (ctxCacheSize - s.pinnedCount) } }

/-- A held context whose check fails is discarded (12 R306). -/
def State.ctxDrop (s : State) (qid : Nat) : State :=
  { s with lmp := { s.lmp with ctxCache := s.lmp.ctxCache.filter (· != qid) } }

/-- The DDR-4 address of a queue's context in P0's context region (03 R59). -/
def State.ctxAddr (s : State) (qid : Nat) : Nat := s.cfg.ctxBase + 64 * qid

/-- Whether a queue's context is held and nothing recorded earlier waits for it. -/
def State.ctxReady (s : State) (qid : Nat) : Bool := s.ctxCached qid && s.lmp.bells.all fun b => b.qid != qid

/-- A held context that fails its check is discarded, to be read again; the LMP frame page captures its address
(12 R306). -/
def State.ctxFail (s : State) (qid : Nat) : State :=
  (s.ctxDrop qid).captureLine pgLMP .dataErrorDetected (s.ctxAddr qid) 370

/-! ## Jobs in flight -/

/-- A job in flight by its tag. -/
def State.job (s : State) (tag : Nat) : Option Job := s.jobs.find? fun j => j.tag == tag

/-- The state with a job replaced. -/
def State.setJob (s : State) (j : Job) : State :=
  { s with jobs := s.jobs.map fun k => if k.tag = j.tag then j else k }

/-- The job of a queue with a job number. -/
def State.jobAt (s : State) (qid : Nat) (num : Word32) : Option Job := s.jobs.find? fun j => j.qid == qid && j.num == num

/-! ## Tags (03 R82) -/

/-- The first tag of the TC0 reserve. -/
def reserveBase : Nat := 0xFC00

/-- The tags in use, with the partition that holds each: by jobs and by dequeues in progress. A skipped descriptor that
waits for its turn to retire holds none; it is kept under a number of 0x10000 or above. -/
def State.tagsUsed (s : State) : List (Nat × Nat) :=
  (s.jobs.filter fun j => decide (j.tag < 0x10000)).map (fun j => (j.tag, j.part)) ++
  s.queues.filterMap fun kq => kq.2.fetch.map fun f => (f.tag, (s.queueOwner kq.1).getD 0)

/-- The lowest number of `lo … hi − 1` that is not in the list. -/
def lowestFree (used : List Nat) (lo hi : Nat) : Option Nat :=
  (List.range (Nat.min (used.length + 1) (hi - lo))).map (· + lo) |>.find? fun t => !used.contains t

/-- The general tags a partition holds. -/
def State.generalHeld (s : State) (p : Nat) : Nat :=
  (s.tagsUsed.filter fun t => t.2 == p && decide (t.1 < reserveBase)).length

/-- The tag a job of a queue takes (03 R82): a reserve tag where FTC = 0 and the partition holds TC0; else a general tag
below MIN; else a general tag below MAX while the free ones exceed the other partitions' unused MIN. The lowest free
number is taken (log entry 10). -/
def State.pickTag (s : State) (p ftc : Nat) : Option Nat :=
  let used := s.tagsUsed.map (·.1)
  let reserve := if ftc = 0 ∧ s.holdsClass p 0 then lowestFree used reserveBase 0x10000 else none
  match reserve with
  | some t => some t
  | none =>
    let held := s.generalHeld p
    let c := s.cfg.part p
    let free := reserveBase - (s.tagsUsed.filter fun t => decide (t.1 < reserveBase)).length
    let owed := (List.range 8).foldl (fun a o => if o = p then a else a + ((s.cfg.part o).tagMin - s.generalHeld o)) 0
    if held < c.tagMin ∨ (held < c.tagMax ∧ owed < free) then lowestFree used 0 reserveBase else none

/-- LMP_TAG_INUSE of a partition follows the tags it holds (03 R60). -/
def State.tagCount (s : State) (p : Nat) : State :=
  s.fset (pgQueue p) Reg.LMP_TAG_INUSE_COUNT (s.tagsUsed.filter fun t => t.2 == p).length

/-! ## Status words (03 Table 11) -/

/-- STATE of a status word. -/
def JState.code : JState → Nat
  | .empty => 0
  | .queued => 1
  | .running => 2
  | .partialDone => 3
  | .done => 4
  | .failed => 5
  | .cancelled => 6
  | .halted => 7

/-- A status word (03 Table 11): PROGRESS saturates at 24 bits, ATTEMPTS at 15, JOB is bits [23:0]. -/
def statusOf (st : JState) (err : Err) (attempts progress : Nat) (num : Word32) : Word64 :=
  BitVec.ofNat 64 (st.code + err.code * 2 ^ 4 + Nat.min attempts 15 * 2 ^ 12 + Nat.min progress 0xFFFFFF * 2 ^ 16 +
    num.toNat % 2 ^ 24 * 2 ^ 40)

/-- What a job reads in its status word before it retires (03 R86): a frame job that has completed still reads RUNNING,
and one that ended otherwise its end. -/
def Job.statusSt (j : Job) : JState := if j.frameJob ∧ j.st = .done then .running else j.st

/-- The status word of a job in flight. -/
def Job.word (j : Job) : Word64 := statusOf j.statusSt j.err j.attempts j.progress j.num

/-- The status word of a queue (03 R85): HALTED with the ERR and JOB of the halt; the job at RET; QUEUED where that job is
not dequeued yet; else the last retired job. -/
def State.statusWord (s : State) (qid : Nat) : Word64 :=
  let q := s.queue qid
  if q.halt then statusOf .halted q.haltErr 0 0 q.head
  else if q.ret ≠ q.tail then
    match s.jobAt qid q.ret with
    | some j => j.word
    | none => statusOf .queued .ok 0 0 q.ret
  else q.last

/-! ## Halts (03 R61, R62, R69) -/

/-- Halt a queue on its HEAD with an error; a halt of a queue of a C3 partition pulses line 2 (03 R69, 11 Table 8). DESIGN
CHOICE (log entry 10): a doorbell that halts a queue drops a dequeue in progress from it. -/
def State.haltQueue (s : State) (qid : Nat) (e : Err) (bell : Bool) : State :=
  let q := s.queue qid
  let s := s.setQueue qid { q with halt := true, haltErr := e, haltDoorbell := bell, fetch := none }
  match s.queueOwner qid with
  | some p =>
    let s := (s.captureLine (pgQueue p) e 0 4).tagCount p
    if (s.cfg.part p).crit = some 3 then s.pulse 2 else s
  | none => s

/-! ## Queue commands (03 R61) -/

/-- The queue LMP_QSEL of partition `p`'s page names. -/
def State.selQid (s : State) (p : Nat) : Nat := s.fget (pgQueue p) Reg.LMP_QSEL_QID

/-- The ring base in the setup registers, in bytes. -/
def State.setupBase (s : State) (p : Nat) : Nat :=
  s.fget (pgQueue p) Reg.LMP_QBASE_LO_BASE * 4096 + s.fget (pgQueue p) Reg.LMP_QBASE_HI_BASE * 2 ^ 32

/-- Whether ENABLE is refused, and with which code: the refusals of its row in order (03 Table 3). -/
def State.enableRefusal (s : State) (p qid : Nat) : Option Err :=
  let pg := pgQueue p
  let n := s.fget pg Reg.LMP_QCFG_LOG2SIZE
  if !s.holdsClass p (s.fget pg Reg.LMP_QCFG_FTC) then some .partitionViolation
  else if n < 4 ∨ 16 < n then some .countExceedsLimit
  else if !s.cfg.ddrWritable p (s.setupBase p) (2 ^ n * 64) then some .partitionViolation
  else if (s.queue qid).ret ≠ (s.queue qid).tail then some .queueHalted
  else none

/-- ENABLE's effect: the setup registers are loaded, TAIL = HEAD = RET = LMP_QSTART.JOB, the status word is EMPTY; the
port it came through will carry the queue's vector (16 R410). -/
def State.enableQueue (s : State) (p qid port : Nat) : State :=
  let pg := pgQueue p
  let j := s.reg pg 0 0x050
  s.setQueue qid { QCtx.zero with
    base := s.setupBase p / 4096
    log2size := s.fget pg Reg.LMP_QCFG_LOG2SIZE
    prio := s.fget pg Reg.LMP_QCFG_PRIO
    order := s.flag pg Reg.LMP_QCFG_ORDER
    ftc := s.fget pg Reg.LMP_QCFG_FTC
    vec := s.fget pg Reg.LMP_QCFG_VEC
    en := true
    tail := j, head := j, ret := j
    dbEpoch := s.epoch, dbTail := j, dbEpochOld := s.epoch, dbTailOld := j
    port := port
    hist := (s.queue qid).hist
    errs := (s.queue qid).errs }

/-- The ENABLE command. -/
def State.cmdEnable (s : State) (p port : Nat) : State :=
  let qid := s.selQid p
  if !s.ownsQueue p qid then s.captureLine (pgQueue p) .partitionViolation 0 4
  else if (s.queue qid).en then s
  else match s.enableRefusal p qid with
    | some e => s.captureLine (pgQueue p) e 0 4
    | none => s.enableQueue p qid port

/-- End a job that has not started, or a started one, in a terminal state: it waits for its retirement. -/
def Job.finish (j : Job) (st : JState) (e : Err) : Job := { j with phase := .ended, st := st, err := e }

/-- Whether a job has nothing left to run: all its units are done (a PROFILE has read its tables), or an error ends it and no unit of it runs. -/
def Job.over (j : Job) : Bool :=
  j.phase == .running &&
    (if j.fail.isSome then j.units.all fun u => u.phase != .running
     else decide (j.total ≤ j.step) && (j.opc != .profile || j.aux != []))

/-- Whether a job has not started: no unit of it has begun, so that it reads QUEUED (03 R86). Its units may be listed
already. -/
def Job.notStarted (j : Job) : Bool :=
  j.phase == .waiting || j.phase == .placed || j.phase == .taken || (j.phase == .running && j.st == .queued && !j.over)

/-- What DISABLE does to a job of the queue. -/
def Job.disable (qid : Nat) (j : Job) : Job :=
  if j.qid == qid && j.notStarted then j.finish .cancelled .queueHalted else j

/-- The DISABLE command (03 Table 3): dequeuing stops, a dequeue in progress is dropped, and jobs not yet started end
CANCELLED with QUEUE_HALTED. DESIGN CHOICE (log entry 10): HALT of a halted queue stays set until ENABLE, RESUME or SKIP, while
its rejected descriptor ends CANCELLED like the others, HEAD advancing over it. -/
def State.cmdDisable (s : State) (p : Nat) : State :=
  let qid := s.selQid p
  if !s.ownsQueue p qid then s.captureLine (pgQueue p) .partitionViolation 0 4
  else if !(s.queue qid).en then s
  else
    let s := s.setQueue qid { s.queue qid with en := false, fetch := none }
    let ended := s.jobs.filter fun j => j.qid == qid && j.notStarted
    (ended.foldl (fun (t : State) (j : Job) => t.dropTags j) { s with jobs := s.jobs.map (Job.disable qid) }).tagCount p

/-- The RESUME command (03 Table 3): HALT clears, and the descriptor at HEAD will be fetched afresh. -/
def State.cmdResume (s : State) (p : Nat) : State :=
  let qid := s.selQid p
  if !s.ownsQueue p qid then s.captureLine (pgQueue p) .partitionViolation 0 4
  else if !(s.queue qid).halt then s
  else s.setQueue qid { s.queue qid with halt := false, haltErr := .ok, haltDoorbell := false }

/-! ## Doorbells (03 R62, R63) -/

/-- The epoch of the doorbell that made job `num` visible: the oldest recorded doorbell whose TAIL lies beyond it
(03 R63). -/
def QCtx.bellEpoch (q : QCtx) (num : Word32) : Word32 :=
  match q.bells.find? fun b => decide (1 ≤ (b.1 - num).toNat) && decide ((b.1 - num).toNat < 2 ^ 31) with
  | some b => b.2
  | none => q.dbEpoch

/-- A context that takes a doorbell: TAIL, the latest doorbell and the latest of an earlier epoch (03 Table 1). -/
def QCtx.ring (q : QCtx) (tail epoch : Word32) : QCtx :=
  { q with
    tail := tail
    dbEpochOld := if q.dbEpoch = epoch then q.dbEpochOld else q.dbEpoch
    dbTailOld := if q.dbEpoch = epoch then q.dbTailOld else q.dbTail
    dbEpoch := epoch
    dbTail := tail
    bells := if tail = q.tail then q.bells else q.bells ++ [(tail, epoch)] }

/-- The code with which Table 4 halts a queue for a doorbell, if it does. -/
def QCtx.bellErr (q : QCtx) (v : Word64) : Option Err :=
  let t : Word32 := v.truncate 32
  if v.toNat / 2 ^ 32 ≠ 0 then some .reservedNonzero
  else if 2 ^ 31 ≤ (t - q.tail).toNat ∨ 2 ^ q.log2size < (t - q.ret).toNat then some .lengthExceedsExtent
  else none

/-- What Table 4 makes of a doorbell: its conditions in their order, tested against the queue as it stands (03 R63). -/
def State.bellRes (s : State) (qid part : Nat) (v : Word64) : BellRes :=
  let q := s.queue qid
  if !s.ownsQueue part qid then .foreign
  else if !q.en then .disabled
  else match q.bellErr v with
    | some e => .halts e
    | none => .rings

/-- A doorbell takes its effect (03 Table 4) as `res` decided it; `epoch` is the epoch of its recording. One that would
halt a queue already halted leaves the earlier halt and is captured (03 R62). -/
def State.applyBell (s : State) (qid part : Nat) (v : Word64) (epoch : Word32) (res : BellRes) : State :=
  let q := s.queue qid
  match res with
  | .foreign => s.capture pgLMP .partitionViolation 0
  | .disabled => s.captureLine (pgQueue part) .queueHalted 0 4
  | .halts e => if q.halt then s.captureLine (pgQueue part) e 0 4 else s.haltQueue qid e true
  | .rings => s.setQueue qid (q.ring (v.truncate 32) epoch)

/-! ## Waits (03 R78) -/

/-- How a wait stands: open, satisfied, or its job ended other than DONE. -/
inductive WaitRes where
  | open_
  | ok
  | cancel (e : Err)
  deriving DecidableEq, Repr

/-- The 2-bit code of a terminal state in HIST (the coding is the model's, log entry 10). -/
def JState.histCode : JState → Nat
  | .done => 1
  | .failed => 2
  | .cancelled => 3
  | _ => 0

/-- A wait word of a descriptor against the queue it names; `own` is the job's queue and number. -/
def State.waitRes (s : State) (qid : Nat) (num : Word32) (w : Nat) : WaitRes :=
  if bitsOf 18 18 w = 0 then .ok
  else
    let wq := bitsOf 17 0 w
    let wj : Word32 := BitVec.ofNat 32 (bitsOf 63 32 w)
    let q := s.queue wq
    let passed := (q.ret - wj).toNat
    let sat := if wq = qid then q.ret == num else decide (1 ≤ passed) && decide (passed < 2 ^ 31)
    if !sat then .open_
    else if bitsOf 19 19 w = 1 ∨ passed = 0 ∨ 16 < passed then .ok
    else if q.hist.toNat / 4 ^ (passed - 1) % 4 = 1 then .ok
    else .cancel (q.errs.getD (passed - 1) .ok)

/-! ## Dequeue arbitration (03 R80) -/

/-- Whether a queue could be dequeued but for a tag (03 R80, R84). -/
def QCtx.ready (q : QCtx) : Bool := q.en && !q.halt && q.head != q.tail && q.fetch == none

/-- The queues that could be dequeued but for tags, with their partitions. -/
def State.readyQueues (s : State) : List (Nat × Nat) :=
  s.queues.filterMap fun kq => if kq.2.ready then (s.queueOwner kq.1).map fun p => (kq.1, p) else none

/-- The eligible queues (03 R80). -/
def State.eligible (s : State) : List (Nat × Nat) :=
  s.readyQueues.filter fun qp => (s.pickTag qp.2 (s.queue qp.1).ftc).isSome

/-- Of the numbers in a list, the first above `last`, else the lowest: one turn of a round-robin. -/
def nextRound (last : Nat) (xs : List Nat) : Option Nat :=
  match (xs.filter (last < ·)).min? with
  | some x => some x
  | none => xs.min?

/-- The queue of partition `p` that is served next among the eligible ones: highest PRIO, then round-robin. -/
def State.pickQueue (s : State) (el : List (Nat × Nat)) (p : Nat) : Option Nat :=
  let mine := (el.filter fun qp => qp.2 == p).map (·.1)
  let top := (mine.map fun q => (s.queue q).prio).foldl Nat.max 0
  nextRound (aget 0x40000 s.lmp.rr (p * 4 + top)) (mine.filter fun q => (s.queue q).prio == top)

/-- The partition served in this dequeue slot: the highest-ranked with an eligible queue; every sixteenth slot goes
round-robin over the partitions (03 R80). -/
def State.pickPart (s : State) (el : List (Nat × Nat)) : Option Nat :=
  let ps := (List.range 8).filter fun p => el.any fun qp => qp.2 == p
  if s.lmp.slotNo % 16 = 15 then nextRound s.lmp.rrPart ps
  else ps.foldl (fun best p =>
    match best with
    | none => some p
    | some b => if s.rankKey p < s.rankKey b then some p else some b) none

/-- Start the dequeue of a queue: its tag is taken and the context or descriptor read is issued (03 R59, R80, R82); a
context held on chip that fails its check is read again first (12 R306). -/
def State.beginFetch (s : State) (p qid tag : Nat) (bad : Bool) : State :=
  let q := s.queue qid
  let held := s.ctxReady qid && !bad
  let stage := if held then FetchStage.descriptor else FetchStage.context
  let s := if bad && s.ctxCached qid then s.ctxFail qid else s
  let s := s.setQueue qid { q with fetch := some { tag := tag, stage := stage, retried := false, desc := 0 } }
  let s := { s with lmp := { s.lmp with rr := aset s.lmp.rr (p * 4 + q.prio) qid } }
  ((if held then s.ctxTouch qid else s).tagCount p).trace 1 p 1

/-- One dequeue slot, 4 NCLK cycles (03 R80): partitions whose ready queues all lack a tag count their stall (03 R84),
and the queue that wins is dequeued; `bad` says whether its held context fails its check. -/
def State.dequeueSlot (s : State) (bad : Bool) : State :=
  let el := s.eligible
  let stalled := (List.range 8).filter fun p =>
    s.readyQueues.any fun qp => qp.2 == p && (s.pickTag p (s.queue qp.1).ftc).isNone
  let s1 := stalled.foldl (fun t p => (t.setCtr64 (pgQueue p) 0x060 (t.ctr64 (pgQueue p) 0x060 + 4)).trace 3 p 4) s
  let sixteenth := s.lmp.slotNo % 16 = 15
  let s1 := { s1 with lmp := { s1.lmp with slotNo := s1.lmp.slotNo + 1 } }
  match s.pickPart el with
  | none => s1
  | some p =>
    let s1 := if sixteenth then { s1 with lmp := { s1.lmp with rrPart := p } } else s1
    match s.pickQueue el p with
    | none => s1
    | some qid =>
      match s.pickTag p (s.queue qid).ftc with
      | none => s1
      | some tag => s1.beginFetch p qid tag bad

end Sys2Proof.Machine
end

