-- ==== Sys2Proof/Machine/Image.lean ====
section
/-!
DEFINITION. Image.lean: program images: their header, shapes, groups and instructions (05 R130 to R132), the validity
rules a model package is held to (05 R133, 06 R168), and the encodings of the tile instructions (05 R136 to R149).
-/

namespace Sys2Proof.Machine

open Sys2Proof

/-! ## Encodings -/

/-- A bit as a number. -/
def b2n (b : Bool) : Nat := if b then 1 else 0

/-- LOOP (05 Table 10). -/
def encLoop (f : LoopF) : Nat :=
  0x02 + f.l.toNat * 2 ^ 8 + b2n f.csrc * 2 ^ 10 + f.sc.toNat * 2 ^ 11 + f.cnt.toNat * 2 ^ 16 + f.body.toNat * 2 ^ 32

/-- WAIT (05 Table 10). -/
def encWait (f : WaitF) : Nat := 0x03 + f.tok.toNat * 2 ^ 8 + f.n.toNat * 2 ^ 17

/-- ARRIVE (05 Table 10). -/
def encArrive (f : ArriveF) : Nat := 0x04 + f.tok.toNat * 2 ^ 8 + b2n f.peer * 2 ^ 17 + f.su.toNat * 2 ^ 18

/-- FENCE (05 Table 10). -/
def encFence (f : FenceF) : Nat := 0x05 + b2n f.dma * 2 ^ 8 + b2n f.eng * 2 ^ 9 + b2n f.st * 2 ^ 10

/-- Format S (05 Table 9). -/
def encS (op : Nat) (f : SFields) : Nat :=
  op + f.sd.toNat * 2 ^ 8 + f.sa.toNat * 2 ^ 13 + f.sb.toNat * 2 ^ 18 + b2n f.i * 2 ^ 23 + f.ln.toNat * 2 ^ 24 +
    f.imm.toNat * 2 ^ 32

/-- Format V (05 Table 9). -/
def encV (op : Nat) (f : VFields) : Nat :=
  op + f.vd.toNat * 2 ^ 8 + f.va.toNat * 2 ^ 14 + f.vb.toNat * 2 ^ 20 + f.vc.toNat * 2 ^ 26 + f.pg.toNat * 2 ^ 32 +
    b2n f.pn * 2 ^ 35 + f.ty.toNat * 2 ^ 36 + f.rnd.toNat * 2 ^ 38 + b2n f.sat * 2 ^ 40 + b2n f.bs * 2 ^ 41 +
    f.pd.toNat * 2 ^ 42 + f.cc.toNat * 2 ^ 45 + f.fc.toNat * 2 ^ 48

/-- Format M (05 Table 9). -/
def encM (op : Nat) (f : MFields) : Nat :=
  op + f.v.toNat * 2 ^ 8 + f.sa.toNat * 2 ^ 14 + b2n f.post * 2 ^ 19 + f.imm.toNat * 2 ^ 20 + f.pg.toNat * 2 ^ 40 +
    b2n f.pn * 2 ^ 43 + f.t.toNat * 2 ^ 44 + f.col.toNat * 2 ^ 46 + f.cl.toNat * 2 ^ 51 + b2n f.cle * 2 ^ 53

/-- The companion half of an MMA (05 Table 15), bits [63:32]. -/
def encComp : Companion → Nat
  | .none => 0
  | .trd v t col cl cle =>
    (0x01 + v.toNat * 2 ^ 8 + t.toNat * 2 ^ 19 + col.toNat * 2 ^ 21 + cl.toNat * 2 ^ 26 + b2n cle * 2 ^ 28) * 2 ^ 32
  | .vst v s => (0x02 + v.toNat * 2 ^ 8 + s.toNat * 2 ^ 14) * 2 ^ 32
  | .saddi s imm => (0x03 + s.toNat * 2 ^ 14 + imm.toNat * 2 ^ 19) * 2 ^ 32
  | .arrive tok => (0x04 + tok.toNat * 2 ^ 8) * 2 ^ 32

/-- Format T (05 Table 9). -/
def encT (f : TFields) : Nat :=
  0x50 + f.tile.toNat * 2 ^ 8 + b2n f.zero * 2 ^ 10 + f.fmt.toNat * 2 ^ 11 + f.sa.toNat * 2 ^ 15 + f.sb.toNat * 2 ^ 20 +
    b2n f.inca * 2 ^ 25 + b2n f.incb * 2 ^ 26 + f.ssc.toNat * 2 ^ 27 + encComp f.comp

/-- Format D (05 Table 9). -/
def encD (op : Nat) (f : DFields) : Nat :=
  op + b2n f.dir * 2 ^ 8 + f.ch.toNat * 2 ^ 9 + f.sr.toNat * 2 ^ 11 + f.sl.toNat * 2 ^ 16 + f.shape.toNat * 2 ^ 21 +
    f.ref.toNat * 2 ^ 27 + f.tok.toNat * 2 ^ 32 + f.su.toNat * 2 ^ 41

/-- CMB (05 Table 16). -/
def encCmb (f : CmbF) : Nat :=
  0x70 + f.grp.toNat * 2 ^ 8 + f.sr.toNat * 2 ^ 14 + f.sd.toNat * 2 ^ 19 + f.tok.toNat * 2 ^ 24

/-- SORTI (05 Table 16). -/
def encSorti (f : SortiF) : Nat :=
  0x71 + f.sr.toNat * 2 ^ 8 + f.sd.toNat * 2 ^ 13 + f.sn.toNat * 2 ^ 18 + f.sk.toNat * 2 ^ 23 + f.keyfmt.toNat * 2 ^ 28 +
    b2n f.order * 2 ^ 30 + f.tok.toNat * 2 ^ 31

/-! ## Images -/

/-- Word `k`, 64 bits, of an image. -/
def imgWord (bs : List Byte) (k : Nat) : Nat := ofLE ((bs.drop (8 * k)).take 8)

/-- A shape entry (05 Table 5) whose first word is word `k`. -/
def parseShape (bs : List Byte) (k : Nat) : Shape :=
  let w0 := imgWord bs k
  let w1 := imgWord bs (k + 1)
  let w2 := imgWord bs (k + 2)
  { n0 := bitsOf 16 0 w0, n1 := bitsOf 33 17 w0, n2 := bitsOf 50 34 w0
    rstr1 := signed 32 w1, rstr2 := signed 32 (w1 / 2 ^ 32), lstr1 := signed 21 w2, lstr2 := signed 21 (w2 / 2 ^ 21) }

/-- A group entry (05 Table 6) whose first word is word `k`. -/
def parseGroup (bs : List Byte) (k : Nat) : Group :=
  let w0 := imgWord bs k
  let w1 := imgWord bs (k + 1)
  { kind := bitsOf 2 0 w0, ty := bitsOf 4 3 w0, npart := bitsOf 11 5 w0, baseu := bitsOf 27 12 w0
    ustride := bitsOf 35 28 w0, rootu := bitsOf 51 36 w0, rows := bitsOf 15 0 w1, dim := bitsOf 31 16 w1
    shape := bitsOf 37 32 w1, delta := signed 16 (w1 / 2 ^ 38), rtok := bitsOf 62 54 w1 }

/-- NSHAPE, NGROUP and NINSN of a header's word 0. -/
def hdrShapes (w0 : Nat) : Nat := bitsOf 52 46 w0
def hdrGroups (w0 : Nat) : Nat := bitsOf 59 53 w0
def hdrInsns (w0 : Nat) : Nat := bitsOf 45 32 w0

/-- The size of an image by its header (05 R130). -/
def imageSize (w0 : Nat) : Nat := 64 + 32 * hdrShapes w0 + 32 * hdrGroups w0 + 8 * hdrInsns w0

/-- Word index of the first shape, group and instruction. -/
def shapeWord (i : Nat) : Nat := 8 + 4 * i
def groupWord (w0 i : Nat) : Nat := 8 + 4 * hdrShapes w0 + 4 * i
def insnWord (w0 i : Nat) : Nat := 8 + 4 * hdrShapes w0 + 4 * hdrGroups w0 + i

/-- An image parsed (05 R130 to R132). -/
def parseImage (bs : List Byte) : TileImage :=
  let w0 := imgWord bs 0
  let w1 := imgWord bs 1
  { gang := bitsOf 24 24 w0 == 1, dur := bitsOf 31 0 w1, nshared := bitsOf 40 32 w1, nref := bitsOf 45 41 w1
    nscal := bitsOf 50 46 w1
    shapes := (List.range (hdrShapes w0)).map fun i => parseShape bs (shapeWord i)
    groups := (List.range (hdrGroups w0)).map fun i => parseGroup bs (groupWord w0 i)
    insns := (List.range (hdrInsns w0)).map fun i => BitVec.ofNat 64 (imgWord bs (insnWord w0 i))
    size := imageSize w0 }

/-! ## Validity (05 R133 Table 7) -/

/-- The header: magic, version, counts within Table 4, reserved fields zero. -/
def headerOk (bs : List Byte) : Bool :=
  let w0 := imgWord bs 0
  let w1 := imgWord bs 1
  bitsOf 15 0 w0 == 0x5450 && bitsOf 23 16 w0 == 1 && bitsOf 31 25 w0 == 0 && bitsOf 63 60 w0 == 0 &&
  decide (1 ≤ hdrInsns w0) && decide (hdrInsns w0 ≤ 8192) && decide (hdrShapes w0 ≤ 64) && decide (hdrGroups w0 ≤ 64) &&
  decide (1 ≤ bitsOf 31 0 w1) && decide (bitsOf 40 32 w1 ≤ 256) && decide (bitsOf 45 41 w1 ≤ 16) &&
  decide (bitsOf 50 46 w1 ≤ 26) && bitsOf 63 51 w1 == 0 && ((List.range 6).all fun k => imgWord bs (2 + k) == 0) &&
  bs.length == imageSize w0

/-- A shape entry's reserved fields and strides. -/
def shapeOk (bs : List Byte) (k : Nat) : Bool :=
  let x := parseShape bs k
  bitsOf 63 51 (imgWord bs k) == 0 && bitsOf 63 42 (imgWord bs (k + 2)) == 0 && imgWord bs (k + 3) == 0 &&
  decide (x.n0 ≤ 65536) && decide (x.n1 ≤ 65536) && decide (x.n2 ≤ 65536) &&
  x.rstr1 % 64 == 0 && x.rstr2 % 64 == 0 && x.lstr1 % 64 == 0 && x.lstr2 % 64 == 0

/-- A token operand: with bit [8] clear bits [7:6] are zero; a shared index is below NSHARED (05 R138, R133). -/
def tokOk (nshared tok : Nat) : Bool :=
  if bitsOf 8 8 tok = 0 then bitsOf 7 6 tok == 0 else decide (bitsOf 7 0 tok < nshared)

/-- Whether unit `u` is a participant of a group (05 R132). -/
def Group.has (g : Group) (u : Nat) : Bool :=
  decide (g.baseu ≤ u) && g.ustride != 0 && (u - g.baseu) % g.ustride == 0 && decide ((u - g.baseu) / g.ustride < g.npart)

/-- A group entry (05 Table 6). -/
def groupOk (bs : List Byte) (k : Nat) : Bool :=
  let g := parseGroup bs k
  let w0 := imgWord bs 0
  bitsOf 63 52 (imgWord bs k) == 0 && bitsOf 63 63 (imgWord bs (k + 1)) == 0 && imgWord bs (k + 2) == 0 &&
  imgWord bs (k + 3) == 0 && decide (g.kind ≤ 4) && decide (g.ty ≤ 2) && decide (1 ≤ g.ustride) &&
  (if g.kind = 4 then decide (g.shape < hdrShapes w0) && tokOk (bitsOf 40 32 (imgWord bs 1)) g.rtok
   else decide (2 ≤ g.npart) && decide (g.npart ≤ 64) && g.has g.rootu &&
     (g.kind != 3 || (g.ty == 0 && g.dim % 16 == 0 && decide (16 ≤ g.dim) && decide (g.dim ≤ 1024))))

/-- Whether VCVT supports a pair of format codes (06 R168). -/
def cvtPair (a b : Nat) : Bool :=
  decide (a ≤ 13) && decide (b ≤ 13) &&
  ((a == 0) != (b == 0) ||
   (a == 3 && [4, 5, 6, 7, 8, 9].contains b) || (b == 3 && [4, 5, 6, 7, 8, 9].contains a) ||
   (a == 1 && [10, 11, 12].contains b) || (b == 1 && [10, 11, 12].contains a) ||
   (a == 2 && b == 11) || (b == 2 && a == 11))

/-- The width in bits of a VCVT format (06 Tables 1, 5). -/
def fmtBits (c : Nat) : Nat :=
  if c ≤ 2 then 32 else if c ≤ 4 then 16 else if c = 7 ∨ c = 8 then 6 else if c = 9 ∨ c = 12 then 4 else 8

/-- The elements a VCVT converts (06 R167). -/
def cvtN (a b : Nat) : Nat := if fmtBits a = 32 ∨ fmtBits b = 32 then 64 else 128

/-- The VC bits Table 6 uses for a pair (06 R169). -/
def cvtVcMax (a b : Nat) : Nat :=
  let n := cvtN a b
  let w := Nat.min (fmtBits a) (fmtBits b)
  if n = 64 then if w = 32 then 1 else if w = 16 then 2 else if w = 4 then 8 else 4
  else if w = 16 then 1 else if w = 4 then 4 else 2

/-- A word of format V (05 R141, R142; 06 R167, R168). -/
def vOk (op w : Nat) : Bool :=
  let ty := bitsOf 37 36 w
  bitsOf 63 56 w == 0 && decide (bitsOf 39 38 w ≤ 1) && decide (bitsOf 47 45 w ≤ 6) &&
  (if 0x26 ≤ op ∧ op ≤ 0x2A then ty == 1 || ty == 2
   else if op = 0x2D then
     ty == 0 && cvtPair (bitsOf 55 52 w) (bitsOf 51 48 w) &&
       decide (bitsOf 31 26 w < cvtVcMax (bitsOf 55 52 w) (bitsOf 51 48 w))
   else if 0x2E ≤ op ∧ op ≤ 0x31 then ty == 0 || ty == 3
   else if op = 0x35 then decide (bitsOf 55 48 w ≤ 3)
   else true)

/-- The companion of an MMA (05 Table 15): defined, its unused bits zero, its tile another than the MMA's. -/
def compOk (w : Nat) : Bool :=
  let c := w / 2 ^ 32
  let cop := bitsOf 7 0 c
  if cop = 0 then c == 0
  else if cop = 1 then bitsOf 18 14 c == 0 && bitsOf 31 29 c == 0 && bitsOf 20 19 c != bitsOf 9 8 w
  else if cop = 2 then bitsOf 31 19 c == 0
  else if cop = 3 then bitsOf 13 8 c == 0 && bitsOf 31 29 c == 0
  else if cop = 4 then bitsOf 31 14 c == 0
  else false

/-- One instruction word against the rules of Table 7 that look at it alone. -/
def insnOk (bs : List Byte) (w : Nat) : Bool :=
  let w0 := imgWord bs 0
  let w1 := imgWord bs 1
  let op := bitsOf 7 0 w
  let gang := bitsOf 24 24 w0 == 1
  let nsh := bitsOf 40 32 w1
  let nref := bitsOf 45 41 w1
  if op = 0x00 ∨ op = 0x01 then w == op
  else if op = 0x02 then bitsOf 63 45 w == 0 && decide (1 ≤ bitsOf 44 32 w)
  else if op = 0x03 then bitsOf 63 33 w == 0 && tokOk nsh (bitsOf 16 8 w)
  else if op = 0x04 then bitsOf 63 23 w == 0 && tokOk nsh (bitsOf 16 8 w) && (gang || bitsOf 17 17 w == 0)
  else if op = 0x05 then bitsOf 63 11 w == 0
  else if 0x10 ≤ op ∧ op ≤ 0x1A then bitsOf 31 26 w == 0
  else if 0x20 ≤ op ∧ op ≤ 0x35 then vOk op w
  else if 0x40 ≤ op ∧ op ≤ 0x43 then bitsOf 63 54 w == 0
  else if op = 0x50 then
    decide (bitsOf 14 11 w ≤ 13) && compOk w &&
      !(bitsOf 25 25 w == 1 && bitsOf 26 26 w == 1 && bitsOf 19 15 w == bitsOf 24 20 w)
  else if op = 0x60 ∨ op = 0x61 then
    let ref := bitsOf 31 27 w
    let shp := parseShape bs (shapeWord (bitsOf 26 21 w))
    bitsOf 63 46 w == 0 && tokOk nsh (bitsOf 40 32 w) && decide (bitsOf 26 21 w < hdrShapes w0) && decide (ref ≤ 17) &&
      (decide (16 ≤ ref) || decide (ref < nref)) && (gang || ref != 16) &&
      (op == 0x60 || (decide (shp.n0 ≤ 4096) && shp.n1 == 1 && shp.n2 == 1))
  else if op = 0x70 then bitsOf 63 33 w == 0 && tokOk nsh (bitsOf 32 24 w) && decide (bitsOf 13 8 w < hdrGroups w0) && gang
  else if op = 0x71 then bitsOf 63 40 w == 0 && tokOk nsh (bitsOf 39 31 w) && bitsOf 29 28 w != 3
  else false

/-- The loops and the END of a program, instruction by instruction (05 Table 7): `open_` holds the counter and the last
instruction of every loop that encloses instruction `i`, innermost first. -/
def loopsOk (n : Nat) : Nat → List (Nat × Nat) → List Nat → Bool
  | _, _, [] => true
  | i, open_, w :: ws =>
    let open_ := open_.filter fun p => decide (i ≤ p.2)
    let op := bitsOf 7 0 w
    if op = 0x01 then open_.isEmpty && loopsOk n (i + 1) open_ ws
    else if op = 0x02 then
      let last := i + bitsOf 44 32 w
      decide (last < n) && (open_.all fun p => decide (last ≤ p.2) && p.1 != bitsOf 9 8 w) && decide (open_.length < 4) &&
        loopsOk n (i + 1) ((bitsOf 9 8 w, last) :: open_) ws
    else loopsOk n (i + 1) open_ ws

/-- Whether an image is valid (05 R133, 06 R168). -/
def imageOk (bs : List Byte) : Bool :=
  headerOk bs &&
    let w0 := imgWord bs 0
    let ws := (List.range (hdrInsns w0)).map fun i => imgWord bs (insnWord w0 i)
    ((List.range (hdrShapes w0)).all fun i => shapeOk bs (shapeWord i)) &&
    ((List.range (hdrGroups w0)).all fun i => groupOk bs (groupWord w0 i)) &&
    (ws.all fun w => insnOk bs w) && ws.getLast? == some 0x01 && loopsOk (hdrInsns w0) 0 [] ws

/-- The DUR load time of an image in cycles (05 R135). -/
def TileImage.loadCycles (t : TileImage) : Nat := 32 + (t.size + 63) / 64

end Sys2Proof.Machine
end

