-- ==== Sys2Proof/Machine/Place.lean ====
section
/-!
DEFINITION. Place.lean: Wick sets, Lantern groups and window schedules: where and when work may start (02 R39 to R41,
R44; 04 R118; 12 R311).
-/

namespace Sys2Proof.Machine

open Sys2Proof

/-- The Wicks of a partition's set that are in service, in ascending order (02 R43, 12 R311). -/
def State.wickSet (s : State) (p : Nat) : List Nat :=
  (List.range (64 * s.lanterns)).filter fun w => (s.cfg.part p).wicks.getLsbD w && s.wickInService w

/-- The Lantern group of a Lantern, by the value in force (02 R39). -/
def State.groupOf (s : State) (n : Nat) : Nat := s.frm.groupMap / 2 ^ (3 * n) % 8

/-- Whether an LMASK allows a Lantern; 0 allows every one (05 Table 1). -/
def lmaskHas (lmask n : Nat) : Bool := lmask == 0 || (lmask / 2 ^ n) % 2 == 1

/-- Whether an LMASK names an absent Lantern. -/
def State.lmaskAbsent (s : State) (lmask : Nat) : Bool := decide (2 ^ s.lanterns ≤ lmask)

/-- The in-service Wicks of a partition in the Lanterns an LMASK allows. -/
def State.allowedWicks (s : State) (p lmask : Nat) : List Nat :=
  (s.wickSet p).filter fun w => lmaskHas lmask (lanternOf w)

/-- The number of those Wicks in the Lantern group with the most of them (05 Table 2). -/
def State.gangLimit (s : State) (p lmask : Nat) : Nat :=
  ((List.range 8).map fun g =>
    ((s.allowedWicks p lmask).filter fun w => s.groupOf (lanternOf w) == g).length).foldl Nat.max 0

/-- The Sconces that have a Wick of a partition's set (04 R118). -/
def State.sconcesOf (s : State) (p : Nat) : List Nat :=
  (List.range (8 * s.lanterns)).filter fun k => (s.wickSet p).any fun w => sconceOf w == k

/-! ## Windows (02 R39 to R41) -/

/-- A window in force: start, length, partition, kind, in µs after the tick. -/
abbrev Win := Nat × Nat × Nat × Nat

/-- The schedule in force of a group. -/
def State.sched (s : State) (g : Nat) : List Win := aget [] s.frm.scheds g

/-- Real time since the last tick in TCLK edges. -/
def State.sinceTick (s : State) : Nat := s.now - s.frm.tickAt.getD 0

/-- The time stamp on the TBU counter of the last tick, in nanoseconds (02 R37). -/
def State.tickNs (s : State) : Nat := s.tbu.stamp / nsUnit

/-- Time since the last tick on the TBU counter, in nanoseconds (17 R423). -/
def State.frameNs (s : State) : Nat := s.tbu.ns - s.tickNs

/-- The window a group is in, if a frame is open and one covers the present moment. -/
def State.window (s : State) (g : Nat) : Option Win :=
  if s.frm.tickAt.isSome then
    (s.sched g).find? fun w => decide (w.1 * 1000 ≤ s.frameNs) && decide (s.frameNs < (w.1 + w.2.1) * 1000)
  else none

/-- The earliest time, in ns after the last tick, at which the next tick can occur (02 R41): TBU_NEXT, or with FTICK_IN
as the source 0.9 periods; before any tick nothing bounds it. -/
def State.earliestTick (s : State) : Nat :=
  if s.frm.tickSrc then s.frm.periodUs * 900 else (s.tbu.next / nsUnit) - s.tickNs

/-- The time left, in ns, before the next window of a group begins (02 R41); none where its schedule has no used
window, or ticks are not running. Before the first tick there is no frame, and with FTICK_IN as the source no earliest
time of it. -/
def State.toNextWindow (s : State) (g : Nat) : Option Nat :=
  let starts := (s.sched g).map (·.1 * 1000)
  let ticking := s.flag pgLMP Reg.LMP_FRAME_CTRL_ENABLE
  match s.frm.tickAt with
  | none =>
    match starts.min? with
    | some t => if ticking && !s.frm.tickSrc then some (s.tbu.next / nsUnit + t - s.tbu.ns) else none
    | none => none
  | some _ =>
    match (starts.filter (s.frameNs < ·)).min? with
    | some t => some (t - s.frameNs)
    | none =>
      match starts.min? with
      | some t => if ticking then some (s.earliestTick + t - s.frameNs) else none
      | none => none

/-- Whether a unit of partition `p` with a declared time of `ns` may start on Lantern `n` now, on a Wick of its own set
(02 R40, R41): inside its own window if it fits before the window ends; outside every window, or on a Wick outside the
window owner's set, if it fits before the next window begins. `wick` is the Wick, none for a Sconce engine. -/
def State.windowOk (s : State) (p n : Nat) (wick : Option Nat) (ns : Nat) : Bool :=
  let g := s.groupOf n
  match s.window g with
  | some (st, len, owner, _) =>
    if owner = p then decide (s.frameNs + ns ≤ (st + len) * 1000)
    else
      match wick with
      | some w => !(s.cfg.part owner).wicks.getLsbD w &&
          (match s.toNextWindow g with | some t => decide (ns ≤ t) | none => true)
      | none => false
  | none => match s.toNextWindow g with | some t => decide (ns ≤ t) | none => true

/-- The LCLK frequency the Trimmer grants a Lantern, in MHz (18 R437). -/
def State.lclkMhz (s : State) (n : Nat) : Nat := 25 * s.fgetI pgTRM n Reg.TRM_LANTERN_GRANT

/-- The declared time in ns of a number of LCLK cycles on Lantern `n`, at the frequency granted (05 R128). -/
def State.lclkNs (s : State) (n cycles : Nat) : Nat :=
  let mhz := Nat.max 1 (s.lclkMhz n)
  (cycles * 1000 + mhz - 1) / mhz

/-- Whether the time of `cycles` LCLK cycles on Lantern `n` fits a start now; in Glow, where the Lantern is gated, 5 µs are
added (18 R429). -/
def State.fits (s : State) (p n : Nat) (wick : Option Nat) (cycles : Nat) : Bool :=
  s.windowOk p n wick (s.lclkNs n cycles + if s.fget pgPWR Reg.PWR_CTRL_STATE = 1 then 5000 else 0)

end Sys2Proof.Machine
end

