-- ==== Sys2Proof/Machine/Descr.lean ====
section
/-!
DEFINITION. Descr.lean: descriptors: their layouts per opcode and the checks 2 to 9 of dequeue (03 R65 to R76; 04 R117,
R118; 05 R122 to R124, R512; 07 R184, R185, R189, R190; 08 R203, R205, R214; 09 R235, R236; 10 R248, R259, R265, R272;
12 R318, R319).
-/

namespace Sys2Proof.Machine

open Sys2Proof

/-- Word `k` of a descriptor read as one little-endian number. -/
def dw (d k : Nat) : Nat := d / 2 ^ (64 * k) % 2 ^ 64

/-- A field of a descriptor: word, highest bit, lowest bit. -/
def df (d k hi lo : Nat) : Nat := bitsOf hi lo (dw d k)

/-- The opcode of an OPC byte (03 Table 6). -/
def opcOf (n : Nat) : Option Opc :=
  match n with
  | 0x00 => some .nop
  | 0x01 => some .barrier
  | 0x02 => some .copy
  | 0x10 => some .tileRun
  | 0x20 => some .cropResize
  | 0x21 => some .regroup
  | 0x22 => some .sort
  | 0x30 => some .attendPaged
  | 0x31 => some .pageScore
  | 0x40 => some .ccuCheck
  | 0x41 => some .mapPublish
  | 0x42 => some .profile
  | 0x50 => some .xcuVote
  | 0x70 => some .selftest
  | _ => none

/-! ## Geometry of maps (07 R176, R177) -/

/-- A map geometry word (07 Table 2). -/
structure Geo where
  h : Nat
  xb : Nat
  halo : Nat
  fmt : Nat
  nr : Nat
  deriving DecidableEq, Repr

/-- The fields of a geometry word. -/
def geoOf (w : Nat) : Geo :=
  { h := bitsOf 15 0 w, xb := bitsOf 23 16 w, halo := bitsOf 25 24 w, fmt := bitsOf 29 26 w, nr := bitsOf 47 32 w }

/-- Whether a geometry word passes check 3: a format below 13 and reserved bits zero (07 R177). -/
def geoReserved (w : Nat) : Bool := decide (bitsOf 29 26 w < 13) && bitsOf 31 30 w == 0 && bitsOf 63 48 w == 0

/-- The bytes of a channel row (07 Table 1). -/
def rowBytes (fmt : Nat) : Nat :=
  match fmtBits fmt with
  | 32 => 256
  | 16 => 128
  | 6 => 48
  | _ => 64

/-- Round up to a multiple of `n`. -/
def roundUp (n x : Nat) : Nat := (x + n - 1) / n * n

/-- The block stride (07 R176). -/
def Geo.bs (g : Geo) : Nat := roundUp 64 (g.nr * rowBytes g.fmt)

/-- The row stride (07 R176). -/
def Geo.rowStride (g : Geo) : Nat := (g.xb + 2 * g.halo) * g.bs

/-- Whether the map is empty (07 R177). -/
def Geo.isEmpty (g : Geo) : Bool := g.h == 0 || g.xb == 0 || g.nr == 0

/-- The bytes a map occupies (07 R176). -/
def Geo.size (g : Geo) : Nat := if g.isEmpty then 0 else g.h * g.rowStride

/-- HALO above XB of a map with blocks (07 R177). -/
def Geo.haloOk (g : Geo) : Bool := g.xb == 0 || decide (g.halo ≤ g.xb)

/-- REGROUP's factor (07 Table 3). -/
def regroupF (d : Nat) : Nat := 2 ^ (df d 0 27 26 + 1)

/-- The output geometry of a REGROUP (07 R183). -/
def regroupOut (d : Nat) : Geo :=
  let g := geoOf (dw d 3)
  let f := regroupF d
  if df d 0 25 25 = 0 then
    { h := g.h / f, xb := g.xb / f, halo := df d 5 1 0, fmt := g.fmt, nr := f * f * g.nr }
  else { h := f * g.h, xb := f * g.xb, halo := df d 5 1 0, fmt := g.fmt, nr := g.nr / (f * f) }

/-- The bytes of one output pixel of a CROP_RESIZE (07 R186). -/
def cropCB (d : Nat) : Nat := roundUp 64 ((geoOf (dw d 3)).nr * (fmtBits (df d 6 35 32) / 8))

/-- The formats of CROP_RESIZE (07 R186). -/
def cropFmt (c : Nat) : Bool := [0, 3, 4, 5, 6, 10, 11].contains c

/-- The rows of a row group and the (sequence, row group) pairs of an attention job (08 R204). -/
def rowGroups (nq g : Nat) : Nat := (nq * g + 255) / 256

/-! ## Jobs of the Sconce engines -/

/-- The declared cycles of a REGROUP (07 R185), a CROP_RESIZE (07 R190) and a SORT of `n` entries keeping `k` (04 R116). -/
def regroupCycles (d : Nat) : Nat := 64 + ((regroupOut d).size + 255) / 256
def cropCycles (d : Nat) : Nat :=
  let w := Nat.max (fmtBits (geoOf (dw d 3)).fmt) (fmtBits (df d 6 35 32))
  let e := if w = 32 then 16 else if w = 16 then 32 else 64
  64 + df d 6 12 0 * (16 + (df d 6 22 16 * df d 6 30 24 * (geoOf (dw d 3)).nr + e - 1) / e)
def sortCycles (n k : Nat) : Nat := (n + 7) / 8 + k + 64

/-- The declared cycles of a Sconce engine's job. -/
def scnCycles (o : Opc) (d : Nat) : Nat :=
  match o with
  | .regroup => regroupCycles d
  | .cropResize => cropCycles d
  | .sort => sortCycles (df d 4 16 0) (df d 4 40 32)
  | _ => 0

/-- ANY and SCN of a Sconce engine's job (04 R118; 07 R183, R189). -/
def engScn (o : Opc) (d : Nat) : Nat × Nat :=
  match o with
  | .regroup => (df d 0 24 24, df d 5 13 8)
  | .cropResize => (df d 0 24 24, df d 6 41 36)
  | .sort => (df d 0 27 27, df d 5 5 0)
  | _ => (1, 0)

/-! ## References -/

/-- A buffer reference of a descriptor as its opcode uses it: the word, the directions, the selectors the opcode
permits (all where the list is empty), the alignment of its offset, and the extent it needs. -/
structure RefUse where
  word : Nat
  rd : Bool
  wr : Bool
  vsels : List Nat
  align : Nat
  ext : Nat
  deriving DecidableEq, Repr

/-- A read reference. -/
def rdRef (word align ext : Nat) : RefUse := { word := word, rd := true, wr := false, vsels := [], align := align, ext := ext }

/-- A write reference. -/
def wrRef (word align ext : Nat) : RefUse := { word := word, rd := false, wr := true, vsels := [], align := align, ext := ext }

/-- The buffer references in the words of a descriptor, in the order of the words (TILE_RUN's ARGS apart). -/
def refUses (o : Opc) (d : Nat) : List RefUse :=
  match o with
  | .nop => []
  | .barrier => []
  | .copy => [rdRef (dw d 2) 64 (df d 4 31 0), wrRef (dw d 3) 64 (df d 4 31 0)]
  | .tileRun => if 2 ≤ df d 2 19 16 then [rdRef (dw d 3) 4 4] else []
  | .cropResize =>
    [rdRef (dw d 2) 64 (geoOf (dw d 3)).size, rdRef (dw d 4) 16 (16 * df d 6 12 0),
     wrRef (dw d 5) 64 (df d 6 12 0 * df d 6 22 16 * df d 6 30 24 * cropCB d)]
  | .regroup => [rdRef (dw d 2) 64 (geoOf (dw d 3)).size, wrRef (dw d 4) 64 (regroupOut d).size]
  | .sort => [rdRef (dw d 2) 8 (8 * df d 4 16 0), wrRef (dw d 3) 8 (8 * df d 4 40 32)]
  | .attendPaged =>
    let n := df d 5 6 0 * df d 5 28 16 * df d 5 12 8
    [{ rdRef (dw d 2) 64 (64 * df d 5 6 0) with vsels := [1, 2] }, rdRef (dw d 3) 256 (256 * n), wrRef (dw d 4) 256 (256 * n)]
  | .pageScore =>
    let n := df d 5 6 0 * df d 5 28 16 * df d 5 12 8
    [{ rdRef (dw d 2) 64 (64 * df d 5 6 0) with vsels := [1, 2] }, rdRef (dw d 3) 256 (256 * n),
     wrRef (dw d 4) 64 (2112 * (df d 5 6 0 * rowGroups (df d 5 28 16) (df d 5 12 8)))]
  | .ccuCheck =>
    [rdRef (dw d 2) 64 (1088 * df d 6 12 0), rdRef (dw d 3) 64 (32 * df d 6 19 16),
     { wrRef (dw d 4) 64 (128 * df d 6 12 0) with vsels := [1] }, { wrRef (dw d 5) 8 (8 * df d 6 12 0) with vsels := [1] }]
  | .mapPublish =>
    [rdRef (dw d 2) 8 (8 * df d 5 14 0), rdRef (dw d 3) 64 (4096 * df d 5 45 32),
     { wrRef (dw d 4) 64 2112 with vsels := [1] }]
  | .profile =>
    [rdRef (dw d 2) 8 (8 * df d 7 2 0), rdRef (dw d 3) 64 0, rdRef (dw d 4) 64 64,
     { wrRef (dw d 5) 64 (1856 * df d 7 2 0) with vsels := [1] }] ++
    (if df d 0 24 24 = 1 then [rdRef (dw d 6) 64 (32 * df d 7 11 8)] else [])
  | .xcuVote =>
    [rdRef (dw d 2) 64 (2880 * df d 7 5 0), { rdRef (dw d 3) 64 2112 with vsels := [2] },
     { wrRef (dw d 4) 64 2112 with vsels := [1] }, wrRef (dw d 5) 64 (2944 + 8 * df d 7 5 0)] ++
    (if df d 0 24 24 = 1 then [rdRef (dw d 6) 64 64] else [])
  | .selftest => [{ wrRef (dw d 5) 16 0 with vsels := [0] }]

/-! ## Self-test shapes (12 R317, R318) -/

/-- The chunks of a kind's sequence (12 Table 3). -/
def stChunks (kind : Nat) : Nat := match kind with | 0 => 4 | 1 => 2 | _ => 1

/-- The targets a SELFTEST names: global Wick or Sconce numbers, Lantern numbers, engine indices. -/
def stTargets (d : Nat) : List Nat :=
  let kind := df d 2 1 0
  let tm := dw d 3
  let lm := df d 4 7 0
  let lants := (List.range 8).filter fun n => (lm / 2 ^ n) % 2 == 1
  match kind with
  | 0 => lants.flatMap fun n => ((List.range 64).filter fun w => (tm / 2 ^ w) % 2 == 1).map (· + 64 * n)
  | 1 => lants.flatMap fun n => ((List.range 8).filter fun k => (tm / 2 ^ k) % 2 == 1).map (· + 8 * n)
  | 2 => lants
  | _ => (List.range 4).filter fun e => (tm / 2 ^ e) % 2 == 1

/-- The chunks a SELFTEST selects, ascending. -/
def stSelected (d : Nat) : List Nat := (List.range 4).filter fun c => (df d 2 11 8 / 2 ^ c) % 2 == 1

/-- The references of an opcode with their extents, SELFTEST's record extent included. -/
def refsOf (o : Opc) (d : Nat) : List RefUse :=
  match o with
  | .selftest => (refUses o d).map fun r => { r with ext := 16 * (stTargets d).length * (stSelected d).length }
  | _ => refUses o d

/-! ## Checks 3 and 4 -/

/-- The reserved bits of the header and of a wait word (03 Table 5, R65). -/
def waitReserved (w : Nat) : Bool := bitsOf 31 20 w == 0 && (w == 0 || bitsOf 18 18 w == 1)

/-- The header's part of check 3. -/
def headerReserved (d : Nat) : Bool := df d 0 23 18 == 0 && waitReserved (dw d 1)

/-- Whether words `lo` to 7 are zero. -/
def wordsZero (d lo : Nat) : Bool := (List.range (8 - lo)).all fun k => dw d (lo + k) == 0

/-- The opcode's part of check 3: unused FLAGS bits, reserved fields and unused words. -/
def opReserved (o : Opc) (d : Nat) : Bool :=
  match o with
  | .nop => df d 0 31 24 == 0 && wordsZero d 2
  | .barrier => df d 0 31 24 == 0 && ((List.range 6).all fun k => waitReserved (dw d (2 + k)))
  | .copy => df d 0 31 24 == 0 && df d 4 63 32 == 0 && wordsZero d 5
  | .tileRun =>
    df d 0 31 25 == 0 && df d 2 23 20 == 0 && df d 2 63 41 == 0 && (decide (2 ≤ df d 2 19 16) || dw d 3 == 0) &&
      df d 5 63 8 == 0 && wordsZero d 6
  | .cropResize =>
    df d 0 31 27 == 0 && geoReserved (dw d 3) && df d 6 15 13 == 0 && df d 6 23 23 == 0 && df d 6 31 31 == 0 &&
      df d 6 63 42 == 0 && wordsZero d 7
  | .regroup =>
    df d 0 31 28 == 0 && df d 0 27 26 != 3 && geoReserved (dw d 3) && df d 5 7 2 == 0 && df d 5 63 14 == 0 && wordsZero d 6
  | .sort =>
    df d 0 31 28 == 0 && df d 0 26 25 != 3 && df d 4 31 17 == 0 && df d 4 63 41 == 0 && df d 5 63 6 == 0 && wordsZero d 6
  | .attendPaged =>
    df d 0 31 26 == 0 && df d 5 7 7 == 0 && df d 5 15 13 == 0 && df d 5 31 29 == 0 && df d 5 39 39 == 0 &&
      df d 5 63 56 == 0 && df d 6 63 56 == 0 && wordsZero d 7 &&
      (df d 0 25 25 == 1 || (df d 5 48 40 == 0 && df d 5 55 49 == 0))
  | .pageScore =>
    df d 0 31 24 == 0 && df d 5 7 7 == 0 && df d 5 15 13 == 0 && df d 5 31 29 == 0 && df d 5 39 32 == 0 &&
      df d 5 63 56 == 0 && df d 6 31 0 == 0 && df d 6 63 40 == 0 && wordsZero d 7
  | .ccuCheck => df d 0 31 27 == 0 && df d 6 15 13 == 0 && df d 6 31 20 == 0 && df d 7 63 13 == 0
  | .mapPublish =>
    df d 0 31 25 == 0 && df d 5 31 15 == 0 && df d 5 63 46 == 0 && df d 7 63 32 == 0 &&
      (df d 0 24 24 == 1 || (dw d 6 == 0 && df d 7 31 0 == 0))
  | .profile =>
    df d 0 31 28 == 0 && df d 7 3 3 == 0 && df d 7 63 12 == 0 &&
      (df d 0 24 24 == 1 || (df d 0 27 25 == 0 && df d 7 11 8 == 0 && dw d 6 == 0))
  | .xcuVote => df d 0 31 25 == 0 && df d 7 63 6 == 0 && (df d 0 24 24 == 1 || dw d 6 == 0)
  | .selftest =>
    let kind := df d 2 1 0
    df d 0 31 24 == 0 && df d 2 7 2 == 0 && df d 2 63 12 == 0 && df d 4 63 8 == 0 && wordsZero d 6 &&
      decide (df d 2 11 8 < 2 ^ stChunks kind) &&
      (match kind with
       | 0 => true
       | 1 => decide (dw d 3 < 2 ^ 8)
       | 2 => dw d 3 == 0
       | _ => decide (dw d 3 < 2 ^ 4) && df d 4 7 0 == 0)

/-- The opcode's part of check 4. -/
def opFormats (o : Opc) (d : Nat) : Bool :=
  match o with
  | .cropResize => cropFmt (geoOf (dw d 3)).fmt && cropFmt (df d 6 35 32)
  | _ => true

/-! ## Check 5 -/

/-- Whether a wait word names a queue of the partition's own range. -/
def State.waitQueueOk (s : State) (p w : Nat) : Bool := bitsOf 18 18 w == 0 || s.ownsQueue p (bitsOf 17 0 w)

/-- SCN and ANY of a Sconce engine's job (04 R118). -/
def State.scnOk (s : State) (p any scn : Nat) : Bool :=
  if any = 1 then !(s.sconcesOf p).isEmpty else (s.sconcesOf p).contains scn

/-- LMASK of a job on Wicks (05 Table 2, 08 Table 5). -/
def State.lmaskOk (s : State) (p lmask : Nat) : Bool :=
  !s.lmaskAbsent lmask && !(s.allowedWicks p lmask).isEmpty

/-- CCU_MAPCFG.OWNER, and whether a partition may check against the map (10 R243). -/
def State.mapOwner (s : State) : Nat := s.fget pgCCU Reg.CCU_MAPCFG_OWNER
def State.mapReader (s : State) (p : Nat) : Bool :=
  s.mapOwner == p || (s.fget pgCCU Reg.CCU_MAPCFG_READERS / 2 ^ p) % 2 == 1

/-- The opcode's part of check 5. -/
def State.opPart (s : State) (o : Opc) (p d : Nat) : Bool :=
  match o with
  | .barrier => (List.range 6).all fun k => s.waitQueueOk p (dw d (2 + k))
  | .tileRun => s.lmaskOk p (df d 5 7 0)
  | .sort => s.scnOk p (df d 0 27 27) (df d 5 5 0)
  | .regroup => s.scnOk p (df d 0 24 24) (df d 5 13 8)
  | .cropResize => s.scnOk p (df d 0 24 24) (df d 6 41 36)
  | .attendPaged => s.lmaskOk p (df d 6 39 32)
  | .pageScore => s.lmaskOk p (df d 6 39 32)
  | .mapPublish => s.mapOwner == p
  | .ccuCheck => s.mapReader p
  | .profile => df d 0 24 24 == 0 || s.mapOwner == p
  | .selftest => p == 3 && !s.lmaskAbsent (df d 4 7 0)
  | _ => true

/-! ## Check 6 -/

/-- The base of a partition's buffer table, LMP_BUFTAB (03 R60). -/
def State.bufTab (s : State) (p : Nat) : Nat :=
  s.fget (pgQueue p) Reg.LMP_BUFTAB_LO_BASE * 64 + s.fget (pgQueue p) Reg.LMP_BUFTAB_HI_BASE * 2 ^ 32

/-- Whether a preset sets LMP_BUFTAB of a partition (03 R60). -/
def Cfg.hasTab (c : Cfg) (p : Nat) : Bool :=
  c.presets.any fun x => x.page == pgQueue p && (x.off == 0x068 || x.off == 0x06C) && x.mask != 0#32

/-- A partition without a buffer table (03 R60): no preset has set its LMP_BUFTAB, which reads 0. -/
def State.noTab (s : State) (p : Nat) : Bool := s.bufTab p == 0 && !s.cfg.hasTab p

/-- A buffer-table entry of 32 bytes (03 Table 8). -/
def parseEntry (e : Nat) : BufEntry :=
  let w0 := e % 2 ^ 64
  let w1 := e / 2 ^ 64 % 2 ^ 64
  let w2 := e / 2 ^ 128 % 2 ^ 64
  { base0 := bitsOf 47 0 w0, r := bitsOf 48 48 w0 == 1, w := bitsOf 49 49 w0 == 1, versioned := bitsOf 50 50 w0 == 1
    host := bitsOf 51 51 w0 == 1, base1 := bitsOf 47 0 w1, size := bitsOf 39 0 w2
    rsvd := bitsOf 63 52 w0 != 0 || bitsOf 63 48 w1 != 0 || bitsOf 63 40 w2 != 0 || e / 2 ^ 192 != 0 }

/-- The address of a handle's entry. -/
def State.entryAddr (s : State) (p h : Nat) : Nat := s.bufTab p + 32 * h

/-- The entry of a handle, as the table stands. -/
def State.entry (s : State) (p h : Nat) : BufEntry := parseEntry (s.loadLE (s.entryAddr p h) 32)

/-- HANDLE, VSEL and OFFSET of a reference (03 Table 9). -/
def refHandle (w : Nat) : Nat := bitsOf 15 0 w
def refVsel (w : Nat) : Nat := bitsOf 17 16 w
def refOff (w : Nat) : Nat := bitsOf 63 24 w

/-- A slot of an entry lies where the partition may access it in the needed direction; an empty slot passes (03 R73). -/
def State.slotOk (s : State) (m : Master) (p base size : Nat) (write : Bool) : Bool :=
  size == 0 || s.cfg.mayAccess m p base size write

/-- The test of R73 of one reference in one direction, reserved content aside, in the order of its list; in Cormer mode
the slot is tested against the windows (02 R55). -/
def State.refDirErr (s : State) (m : Master) (p w : Nat) (write : Bool) : Option Err :=
  let h := refHandle w
  let v := refVsel w
  let e := s.entry p h
  if s.noTab p ∨ e.rsvd ∨ (e.versioned ∧ 0x400 ≤ h) ∨ e.base0 % 64 ≠ 0 ∨ (e.versioned ∧ e.base1 % 64 ≠ 0) then
    some .partitionViolation
  else if !s.slotOk m p e.base0 e.size write || (e.versioned && !s.slotOk m p e.base1 e.size write) then some s.cfg.denyErr
  else if !(if write then e.w else e.r) || (v != 0) != e.versioned || (write && v == 2) then some .partitionViolation
  else none

/-- A reference's own reserved content (03 R73). -/
def refReserved (w : Nat) : Bool := refVsel w != 3 && bitsOf 23 18 w == 0

/-- The first error of a list of tests. -/
def firstErr : List (Option Err) → Option Err
  | [] => none
  | some e :: _ => some e
  | none :: rest => firstErr rest

/-- Check 6 of one reference of a descriptor. -/
def State.refErr (s : State) (m : Master) (p : Nat) (r : RefUse) : Option Err :=
  if !refReserved r.word then some .reservedNonzero
  else firstErr [if r.rd then s.refDirErr m p r.word false else none, if r.wr then s.refDirErr m p r.word true else none,
    if r.vsels.isEmpty || r.vsels.contains (refVsel r.word) then none else some .partitionViolation]

/-- The directions a reference of an argument block counts for (05 R512): read with R, write with W and VSEL not 2. -/
def State.argRd (s : State) (p w : Nat) : Bool := (s.entry p (refHandle w)).r
def State.argWr (s : State) (p w : Nat) : Bool := (s.entry p (refHandle w)).w && refVsel w != 2

/-- Check 6 of one reference of an argument block (05 R124, R512). -/
def State.argErr (s : State) (m : Master) (p w : Nat) : Option Err :=
  if !refReserved w then some .reservedNonzero
  else if s.noTab p ∨ (!s.argRd p w && !s.argWr p w) then some .partitionViolation
  else firstErr [if s.argRd p w then s.refDirErr m p w false else none, if s.argWr p w then s.refDirErr m p w true else none]

/-- The candidates of a TILE_RUN: how many it names, and their valid directory entries below 4,096 (05 R121, R123). -/
def tileCount (d : Nat) : Nat := Nat.max (df d 2 19 16) 1
def State.dirEntry (s : State) (p i : Nat) : Option DirEntry := s.lmp.dirs.find? fun e => e.part == p && e.idx == i

/-- The candidate indices below 4,096. -/
def tileIdxs (d : Nat) : List Nat := ((List.range (tileCount d)).map (· + df d 2 15 0)).filter (· < 4096)

/-- Words 0 and 1 of the header of a directory entry's image. -/
def State.imgHdr (s : State) (e : DirEntry) : Nat × Nat := (s.loadLE e.addr 8, s.loadLE (e.addr + 8) 8)

/-- GANG, NREF, NSCAL and NSHARED of an image header. -/
def hdrShape (h : Nat × Nat) : Nat × Nat × Nat × Nat :=
  (bitsOf 24 24 h.1, bitsOf 45 41 h.2, bitsOf 50 46 h.2, bitsOf 40 32 h.2)

/-- The header shape of the first candidate that exists. -/
def State.tileShape (s : State) (p d : Nat) : Nat × Nat × Nat × Nat :=
  match (tileIdxs d).filterMap (s.dirEntry p) with
  | e :: _ => hdrShape (s.imgHdr e)
  | [] => (0, 0, 0, 0)

/-- The bytes of a TILE_RUN's argument block (05 R124). -/
def State.argBytes (s : State) (p d : Nat) : Nat :=
  let h := s.tileShape p d
  8 * h.2.1 + 4 * h.2.2.1

/-- ARGS as a read reference of an unversioned buffer (05 R124). -/
def argsUse (d ext : Nat) : RefUse := { rdRef (dw d 4) 8 ext with vsels := [0] }

/-- The address of the argument block. -/
def State.argsAddr (s : State) (p d : Nat) : Nat := (s.entry p (refHandle (dw d 4))).base0 + refOff (dw d 4)

/-- Whether the argument block lies within its slot, so that it is read and its references are examined (05 R123). -/
def State.argsReadable (s : State) (m : Master) (p d : Nat) : Bool :=
  let n := s.argBytes p d
  n != 0 && s.refErr m p (argsUse d n) == none && decide (refOff (dw d 4) + n ≤ (s.entry p (refHandle (dw d 4))).size)

/-- The reference words of the argument block. -/
def State.argWords (s : State) (p d : Nat) : List Nat :=
  (List.range (s.tileShape p d).2.1).map fun i => s.loadLE (s.argsAddr p d + 8 * i) 8

/-- The scalars of the argument block. -/
def State.argScalars (s : State) (p d : Nat) : List Nat :=
  let h := s.tileShape p d
  (List.range h.2.2.1).map fun i => s.loadLE (s.argsAddr p d + 8 * h.2.1 + 4 * i) 4

/-- Steps 1 and 2 of a TILE_RUN's check 6 (05 R123): the candidates are valid and agree. -/
def State.tileDirErr (s : State) (p d : Nat) : Option Err :=
  let es := (tileIdxs d).map (s.dirEntry p)
  if es.any Option.isNone then some .signatureInvalid
  else if (es.filterMap id).any fun e => hdrShape (s.imgHdr e) != s.tileShape p d then some .unsupportedOpcode
  else none

/-- The masters that may run a job, whose access rights check 6 uses (02 R55; log entry 9): the engine that runs the opcode;
every Sconce a job with ANY may go to; every Wick a job on Wicks may go to. -/
def State.jobMasters (s : State) (o : Opc) (p d : Nat) : List Master :=
  let scns := fun (any scn : Nat) => (if any = 1 then s.sconcesOf p else [scn]).map Master.sconce
  match o with
  | .copy => [.chimney 0]
  | .ccuCheck => [.chimney 1]
  | .mapPublish => [.chimney 1]
  | .profile => [.chimney 2]
  | .xcuVote => [.chimney 3]
  | .sort => scns (df d 0 27 27) (df d 5 5 0)
  | .regroup => scns (df d 0 24 24) (df d 5 13 8)
  | .cropResize => scns (df d 0 24 24) (df d 6 41 36)
  | .tileRun => (s.allowedWicks p (df d 5 7 0)).map Master.wick
  | .attendPaged => (s.allowedWicks p (df d 6 39 32)).map Master.wick
  | .pageScore => (s.allowedWicks p (df d 6 39 32)).map Master.wick
  | _ => (s.wickSet p).map Master.wick

/-- The first of them, whose rights a single access of the job outside its units uses. -/
def State.jobMaster (s : State) (o : Opc) (p d : Nat) : Master := (s.jobMasters o p d).headD (.chimney 0)

/-- The masters whose rights one reference needs: in native mode the partition's own rights decide, so one is enough. -/
def State.refMasters (s : State) (o : Opc) (p d : Nat) : List Master :=
  if s.cfg.cormer then (if (s.jobMasters o p d).isEmpty then [.chimney 0] else s.jobMasters o p d) else [s.jobMaster o p d]

/-- A test of a reference by every master of a list: the first error in their order. -/
def eachMaster (ms : List Master) (t : Master → Option Err) : Option Err := firstErr (ms.map t)

/-- Check 6 as a whole: each reference is tested in turn, by every master that may run the job. -/
def State.check6 (s : State) (o : Opc) (p d : Nat) : Option Err :=
  let ms := s.refMasters o p d
  match o with
  | .tileRun =>
    firstErr ([s.tileDirErr p d] ++ (refsOf o d).map (fun r => eachMaster ms fun m => s.refErr m p r) ++
      (if s.argBytes p d = 0 then [] else
        [eachMaster ms fun m => s.refErr m p (argsUse d (s.argBytes p d))] ++
          (if ms.all fun m => s.argsReadable m p d then
             (s.argWords p d).map (fun w => eachMaster ms fun m => s.argErr m p w) else [])))
  | _ => firstErr ((refsOf o d).map fun r => eachMaster ms fun m => s.refErr m p r)

/-! ## Checks 7 to 9 -/

/-- The opcode's own part of check 7, the offsets of its references aside. -/
def opAlign (o : Opc) (d : Nat) : Bool :=
  match o with
  | .copy => df d 4 31 0 % 64 == 0
  | .tileRun => true
  | .regroup =>
    let g := geoOf (dw d 3)
    let f := regroupF d
    if df d 0 25 25 = 0 then g.h % f == 0 && g.xb % f == 0 else g.nr % (f * f) == 0
  | _ => true

/-- Check 7: the offsets and the opcode's own rules. -/
def State.check7 (s : State) (o : Opc) (p d : Nat) : Bool :=
  ((refsOf o d).all fun r => refOff r.word % r.align == 0) && opAlign o d &&
    (match o with
     | .tileRun => s.argBytes p d == 0 || refOff (dw d 4) % 8 == 0
     | _ => true)

/-- Check 8. -/
def State.check8 (s : State) (o : Opc) (p d : Nat) : Bool :=
  match o with
  | .tileRun =>
    decide (df d 2 15 0 + tileCount d ≤ 4096) && decide (df d 2 40 24 ≤ 65536) &&
      ((s.tileShape p d).1 == 0 || decide (df d 2 40 24 ≤ s.gangLimit p (df d 5 7 0)))
  | .sort => decide (df d 4 16 0 ≤ 65536) && decide (df d 4 40 32 ≤ 256)
  | .regroup =>
    let g := regroupOut d
    (geoOf (dw d 3)).haloOk && decide (g.xb ≤ 255) && decide (g.nr ≤ 65535) && decide (g.h ≤ 65535) && g.haloOk
  | .cropResize =>
    (geoOf (dw d 3)).haloOk && decide (df d 6 12 0 ≤ 4096) && decide (df d 6 22 16 ≤ 64) && decide (df d 6 30 24 ≤ 64)
  | .attendPaged =>
    decide (df d 5 6 0 ≤ 64) && decide (df d 5 12 8 ≤ 16) && decide (df d 5 28 16 ≤ 4096) && decide (df d 5 38 32 ≤ 64) &&
      decide (df d 5 48 40 ≤ 256) && decide (df d 5 55 49 ≤ 64) &&
      decide (df d 5 38 32 ≤ s.gangLimit p (df d 6 39 32))
  | .pageScore =>
    decide (df d 5 6 0 ≤ 64) && decide (df d 5 12 8 ≤ 16) && decide (df d 5 28 16 ≤ 4096) &&
      decide (df d 5 48 40 ≤ 256) && decide (df d 5 55 49 ≤ 64)
  | .ccuCheck =>
    decide (df d 6 12 0 ≤ 4096) && decide (df d 6 19 16 ≤ 8) && decide (df d 7 12 0 + df d 6 12 0 ≤ 4096)
  | .mapPublish => decide (df d 5 14 0 ≤ 16384) && decide (df d 5 45 32 ≤ 8192)
  | .profile => decide (df d 7 2 0 ≤ 4) && decide (df d 7 11 8 ≤ 8)
  | .xcuVote => decide (df d 7 5 0 ≤ 32)
  | _ => true

/-- Whether a reference's extent lies within its buffer; nothing is needed for an extent of zero (03 R75). -/
def State.extOk (s : State) (p : Nat) (r : RefUse) : Bool :=
  r.ext == 0 || decide (refOff r.word + r.ext ≤ (s.entry p (refHandle r.word)).size)

/-- Check 9. -/
def State.check9 (s : State) (o : Opc) (p d : Nat) : Bool :=
  ((refsOf o d).all (s.extOk p)) &&
    (match o with
     | .tileRun => s.extOk p (argsUse d (s.argBytes p d))
     | _ => true)

/-- Checks 2 to 5 of Table 7, on a descriptor of queue `qid` of partition `p`. DESIGN CHOICE (log entry 10): of an undefined
OPC, for which no table says which FLAGS and words are unused, check 3 tests the header's reserved bits alone, so that nonzero
FLAGS or words 2 to 7 leave the outcome to check 4. -/
def State.headChecks (s : State) (qid p d : Nat) : Option Err :=
  if df d 0 63 32 ≠ (s.queue qid).head.toNat then some .dataErrorDetected
  else
    match opcOf (df d 0 7 0) with
    | none => if headerReserved d then some .unsupportedOpcode else some .reservedNonzero
    | some o =>
      if !(headerReserved d && opReserved o d) then some .reservedNonzero
      else if !opFormats o d then some .unsupportedOpcode
      else if df d 0 10 8 ≠ p ∨ !s.holdsClass p (df d 0 13 11) ∨ !s.waitQueueOk p (dw d 1) ∨ !s.opPart o p d then
        some .partitionViolation
      else none

/-- Checks 6 to 9 of Table 7. -/
def State.bodyChecks (s : State) (o : Opc) (p d : Nat) : Option Err :=
  match s.check6 o p d with
  | some e => some e
  | none =>
    if !s.check7 o p d then some .misaligned
    else if !s.check8 o p d then some .countExceedsLimit
    else if !s.check9 o p d then some .lengthExceedsExtent
    else none

/-! ## What check 6 reads (03 R74, 05 R124) -/

/-- The handles whose entries a descriptor needs, the argument block's own among them once the block is read. -/
def State.needHandles (s : State) (o : Opc) (p d : Nat) (argsRead : Bool) : List Nat :=
  (refsOf o d).map (fun r => refHandle r.word) ++
    (match o with
     | .tileRun =>
       if s.argBytes p d = 0 then [] else
         [refHandle (dw d 4)] ++ (if argsRead then (s.argWords p d).map refHandle else [])
     | _ => [])

/-- The entries among them that the chip does not hold. -/
def State.missing (s : State) (o : Opc) (p d : Nat) (argsRead : Bool) : List Nat :=
  if s.noTab p then [] else (s.needHandles o p d argsRead).filter fun h => !s.lmp.bufCache.contains (p, h)

/-- Whether the argument block is still to be read. -/
def State.argsDue (s : State) (o : Opc) (p d : Nat) (argsRead : Bool) : Bool :=
  o == .tileRun && !argsRead && (s.refMasters o p d).all fun m => s.argsReadable m p d

/-- Bring entries into the 8,192 held on chip, most recently used first (03 R74). -/
def State.bufTouch (s : State) (p : Nat) (hs : List Nat) : State :=
  { s with lmp := { s.lmp with bufCache :=
      (hs.foldl (fun c h => (p, h) :: c.filter (· != (p, h))) s.lmp.bufCache).take 8192 } }

end Sys2Proof.Machine
end

