-- ==== Sys2Proof/Machine/Jobs.lean ====
section
/-!
DEFINITION. Jobs.lean: the life of a job in the Lamplighter: dequeue, binding to a frame, start, engine places,
completion, retirement (02 R47, R50, R51; 03 R67 to R70, R74 to R79, R81, R85, R86; 12 R303, R306, R307), and the
commands of queues, doorbells, NOP, BARRIER and COPY.
-/

namespace Sys2Proof.Machine

open Sys2Proof

/-! ## Contexts and descriptors -/

/-- The stage of a queue's dequeue in progress. -/
def State.stage (s : State) (qid : Nat) : Option FetchStage := (s.queue qid).fetch.map (·.stage)

/-- The state with a queue's dequeue in progress replaced. -/
def State.setFetch (s : State) (qid : Nat) (f : Fetch) : State := s.setQueue qid { s.queue qid with fetch := some f }

/-- The waiting doorbells of a queue act, in the order they were recorded (03 R59, R63). -/
def State.waitingBells (s : State) (qid : Nat) : State :=
  let mine := s.lmp.bells.filter fun b => b.qid == qid
  let s := { s with lmp := { s.lmp with bells := s.lmp.bells.filter fun b => b.qid != qid } }
  mine.foldl (fun t b => t.applyBell b.qid b.part b.v b.epoch b.res) s

/-- A context read ends. With a detected error the LMP frame page captures the context's address and the context is read
again (12 R306); otherwise the waiting doorbells act and the dequeue goes on to its descriptor. -/
def State.contextDone (s : State) (qid : Nat) (chk : ReadCheck) : State :=
  match s.checkEnd chk with
  | .stored _ => s.captureLine pgLMP .dataErrorDetected (s.ctxAddr qid) 370
  | _ =>
    let s := (s.ctxTouch qid).waitingBells qid
    match (s.queue qid).fetch with
    | some f => if f.stage = .context then s.setFetch qid { f with stage := .descriptor } else s
    | none => s

/-- Whether a doorbell or a dequeue waits for a queue's context. -/
def State.waitsContext (s : State) (qid : Nat) : Bool :=
  s.stage qid == some .context || s.lmp.bells.any fun b => b.qid == qid

/-- The ring slot of job number `num` of a queue. -/
def QCtx.slotAddr (q : QCtx) (num : Word32) : Nat := q.base * 4096 + num.toNat % 2 ^ q.log2size * 64

/-! ## Building a job (02 R47; 03 R70, R74) -/

/-- A reference of a job with the entry captured for it. -/
def State.capRef (s : State) (p w : Nat) (rd wr : Bool) : CRef :=
  { handle := refHandle w, vsel := refVsel w, off := refOff w, ent := s.entry p (refHandle w), rd := rd, wr := wr
    slot := 0, vid := 0, gen := 0 }

/-- The references of a descriptor, with ARGS of a TILE_RUN last. -/
def State.capRefs (s : State) (o : Opc) (p d : Nat) : List CRef :=
  (refsOf o d).map (fun r => s.capRef p r.word r.rd r.wr)

/-- The references of a TILE_RUN's argument block. -/
def State.capArgs (s : State) (o : Opc) (p d : Nat) : List CRef :=
  if o = .tileRun ∧ s.argBytes p d ≠ 0 then
    (s.argWords p d).map fun w => s.capRef p w (s.argRd p w) (s.argWr p w)
  else []

/-- The job of a descriptor that passed every check, bound to its frame: F = D + 1 for a run-ahead frame job. -/
def State.newJob (s : State) (qid p d tag : Nat) (o : Opc) : Job :=
  let q := s.queue qid
  let refs := s.capRefs o p d
  let args := s.capArgs o p d
  let fj := (refs ++ args).any fun c => c.wr && c.vsel == 1
  let dd := q.bellEpoch q.head
  let f := if fj && df d 0 15 15 == 1 then dd + 1 else dd
  { tag := tag, qid := qid, num := q.head, opc := o, part := p, tc := df d 0 13 11, irq := df d 0 14 14 == 1
    retry := df d 0 17 16, desc := d, refs := refs, args := args
    scal := if o = .tileRun ∧ s.argBytes p d ≠ 0 then s.argScalars p d else []
    d := dd, f := f, frameJob := fj, runAhead := fj && f == s.epoch + 1
    phase := .waiting, st := .queued, err := .ok, attempts := 0, progress := 0, seqNo := 0, place := 0, step := 0
    total := 0, tries := 0, fail := none, prog := if o = .tileRun then df d 2 15 0 else 0, progGen := 0
    cands := if o = .tileRun then (tileIdxs d).filterMap (s.dirEntry p) else []
    image := none, units := [], lanterns := [], sts := [], seqs := [], sels := [], aux := [], since := 0 }

/-- Whether a job of the current frame writes a buffer whose slot a run-ahead job of the next frame has taken
(02 R51). -/
def State.overtaken (s : State) (j : Job) : Bool :=
  !j.runAhead && j.writeRefs.any fun c => ((s.vbuf j.part c.handle).tagged (j.f + 1)).isSome

/-- What becomes of a new job at once: cancelled where its frame is over or its slot is taken (02 R51, 03 R70). -/
def State.bindJob (s : State) (j : Job) : Job :=
  if (j.frameJob && frameBelow j.f s.epoch) || s.overtaken j then j.finish .cancelled .cancelledByEpoch else j

/-- The last part of a dequeue: checks 6 to 9, and the queue halts or the job enters the scoreboards. -/
def State.finishDequeue (s : State) (qid p : Nat) (o : Opc) (f : Fetch) : State :=
  match s.bodyChecks o p f.desc with
  | some e => s.haltQueue qid e false
  | none =>
    let j := s.bindJob (s.newJob qid p f.desc f.tag o)
    let ar := match f.stage with
      | .entries b => b
      | _ => false
    let s := s.bufTouch p (s.needHandles o p f.desc ar)
    let q := s.queue qid
    let h := q.head + 1
    let s := s.setQueue qid { q with
      fetch := none, head := h
      bells := q.bells.filter fun b => decide (1 ≤ (b.1 - h).toNat) && decide ((b.1 - h).toNat < 2 ^ 31) }
    ({ s with jobs := s.jobs ++ [j] }.tagCount p).retagSweep

/-- Go on with check 6: finish the dequeue, or wait for the entries and the argument block that are still missing. -/
def State.nextEntry (s : State) (qid p : Nat) (o : Opc) (f : Fetch) (ar : Bool) : State :=
  if (s.missing o p f.desc ar).isEmpty && !s.argsDue o p f.desc ar then
    s.finishDequeue qid p o { f with stage := .entries ar }
  else s.setFetch qid { f with stage := .entries ar, retried := false }

/-- The outcome of a read that a dequeue waits for (check 1, and 03 R74): poison halts the queue; a stored error is read
once more and halts it when it fails again; data go on. -/
def State.fetchRead (s : State) (qid : Nat) (f : Fetch) (a n : Nat) (chk : ReadCheck) (ok : State → State) : State :=
  let t := s.readMarks a n chk
  match s.readRes a n chk with
  | .poisoned _ => t.haltQueue qid .poisonedRead false
  | .stored _ =>
    if f.retried then t.haltQueue qid .dataErrorDetected false else t.setFetch qid { f with retried := true }
  | .data => ok (t.traffic none 8 (s.queue qid).ftc ((s.queueOwner qid).getD 0) a n false)

/-- A descriptor arrives (03 R69). -/
def State.descriptorDone (s : State) (qid : Nat) (chk : ReadCheck) : State :=
  match (s.queue qid).fetch, s.queueOwner qid with
  | some f, some p =>
    if f.stage = .descriptor then
      let q := s.queue qid
      let a := q.slotAddr q.head
      s.fetchRead qid f a 64 chk fun t =>
        let d := t.loadLE a 64
        match t.headChecks qid p d with
        | some e => t.haltQueue qid e false
        | none =>
          match opcOf (df d 0 7 0) with
          | some o => t.nextEntry qid p o { f with desc := d } false
          | none => t
    else s
  | _, _ => s

/-- A buffer-table entry, or the argument block, has been read (03 R74, 05 R124). -/
def State.entryDone (s : State) (qid : Nat) (chk : ReadCheck) : State :=
  match (s.queue qid).fetch, s.queueOwner qid with
  | some f, some p =>
    match f.stage, opcOf (df f.desc 0 7 0) with
    | .entries ar, some o =>
      match s.missing o p f.desc ar with
      | h :: _ =>
        s.fetchRead qid f (s.entryAddr p h) 32 chk fun t => (t.bufTouch p [h]).nextEntry qid p o f ar
      | [] =>
        if s.argsDue o p f.desc ar then
          s.fetchRead qid f (s.argsAddr p f.desc) (s.argBytes p f.desc) chk fun t => t.nextEntry qid p o f true
        else s.nextEntry qid p o f ar
    | _, _ => s
  | _, _ => s

/-! ## Start (03 R77, R78) -/

/-- The wait in word 1 of a job's descriptor. -/
def State.jobWait (s : State) (j : Job) : WaitRes := s.waitRes j.qid j.num (dw j.desc 1)

/-- ORDER = 1: the previous job of the queue has retired. -/
def State.orderOk (s : State) (j : Job) : Bool := !(s.queue j.qid).order || (s.queue j.qid).ret == j.num

/-- A CCU_CHECK or MAP_PUBLISH starts only in its own frame (10 R246). -/
def State.mapFrameOk (s : State) (j : Job) : Bool := (j.opc != .ccuCheck && j.opc != .mapPublish) || j.f == s.epoch

/-- Whether a job's start conditions hold. -/
def State.canStart (s : State) (j : Job) : Bool :=
  s.orderOk j && s.readsFinal j && s.writesFree j && s.mapFrameOk j

/-- The start of a job: its references are resolved, and it waits for its engine or its Wicks. -/
def State.startJob (s : State) (j : Job) : State :=
  let (s, refs) := s.bindRefs j j.refs
  let (s, args) := s.bindRefs j j.args
  let s := s.setJob { j with refs := refs, args := args, phase := .placed, seqNo := s.lmp.nextSeq }
  { s with lmp := { s.lmp with nextSeq := s.lmp.nextSeq + 1 } }

/-- JOB_START of a job: it starts, ends CANCELLED with the code of the job it waited for, or goes on waiting. -/
def State.tryStart (s : State) (j : Job) : State :=
  if j.phase ≠ .waiting then s
  else match s.jobWait j with
    | .open_ => s
    | .cancel e => ((s.setJob (j.finish .cancelled e)).dropTags j).retagSweep
    | .ok => if s.canStart j then s.startJob j else s

/-! ## Running -/

/-- The status of a job that has done units: RUNNING, and PARTIAL from its first unit on unless it is a frame job
(03 R86). -/
def Job.unitDone (j : Job) (n : Nat) : Job :=
  { j with step := j.step + n, progress := j.progress + n, tries := 0, st := if j.frameJob then .running else .partialDone }

/-- A job begins to run with `total` units to do, the first of them at once; a job without units has none to start and
reads QUEUED until it completes (03 R86). -/
def Job.begin_ (j : Job) (total : Nat) : Job :=
  { j with phase := .running, st := if total = 0 then j.st else .running, step := 0, total := total }

/-- The `total` units of a job are listed; it reads QUEUED until the first of them starts (03 R86). -/
def Job.list (j : Job) (total : Nat) : Job := { j with phase := .running, step := 0, total := total }

/-- A unit of a job starts: from the first on it reads RUNNING (03 R86). -/
def Job.unitStarts (j : Job) : Job := { j with st := if j.st = .queued then .running else j.st }

/-- RECOMPUTE_EXHAUSTED of a job of a C3 partition pulses line 369 (12 R307). -/
def State.exhausted (s : State) (p : Nat) : State := if (s.cfg.part p).crit = some 3 then s.pulse 369 else s

/-- A unit of an engine's job ends with a detected error: it runs again while RETRY allows, else the job fails
(12 R307). -/
def State.unitRetry (s : State) (j : Job) : State :=
  if j.tries < j.retry then (s.setJob { j with tries := j.tries + 1, attempts := j.attempts + 1 }).trace 7 0 1
  else (s.setJob { j with fail := some .recomputeExhausted }).exhausted j.part

/-- What a read of an engine's unit does to its job: a place that turns it away fails it, as poison does; a stored error
re-executes the unit; a bank under bond test keeps it waiting. -/
def State.unitRead (s : State) (j : Job) (a n : Nat) (chk : ReadCheck) (ok : State → State) : State :=
  if s.bondWait a n then s
  else match s.denied j.part a n false with
  | some e => s.setJob { j with fail := some e }
  | none =>
    let t := s.readMarks a n chk
    match s.readRes a n chk with
    | .poisoned _ => t.setJob { j with fail := some .poisonedRead }
    | .stored _ => t.unitRetry j
    | .data => ok ((t.guestIn a n).jobMoves j a n false)

/-- What a write of an engine's unit does to its job: a place that turns it away fails the job (04 R110, 15 R382). -/
def State.unitWrite (s : State) (j : Job) (a n : Nat) (ok : State → State) : State :=
  if s.bondWait a n then s
  else match s.denied j.part a n true with
    | some e => s.setJob { j with fail := some e }
    | none => ok (s.jobMoves j a n true)

/-- A job whose reference no longer holds the version it resolved to ends CANCELLED_BY_EPOCH (02 R50, R51). -/
def State.staleEnd (s : State) (j : Job) : State := (s.setJob (j.finish .cancelled .cancelledByEpoch)).retagSweep

/-- Whether every reference a job reads still holds its version. -/
def State.readsLive (s : State) (j : Job) : Bool := (j.refs ++ j.args).all fun c => !c.rd || s.refLive j c

/-- A Sampler job completes: it is counted, with the cycles it declared (07 R185, R190, R192; log entry 24). -/
def State.countSampler (s : State) (j : Job) : State :=
  (s.fwrap (pgScn j.place) Reg.SCN_SMP_JOBS_COUNT 1).fwrap (pgScn j.place) Reg.SCN_SMP_BUSY_COUNT (scnCycles j.opc j.desc)

/-- A job of an engine that has no unit completes: its engine counts it. -/
def State.countEmpty (s : State) (j : Job) : State :=
  if j.total ≠ 0 ∨ j.fail ≠ none then s
  else match j.opc with
    | .regroup => s.countSampler j
    | .cropResize => s.countSampler j
    | .xcuVote => s.fwrap pgXCU Reg.XCU_JOBS_COUNT 1
    | .profile => s.fwrap pgPRU Reg.PRU_JOBS_COUNT 1
    | _ => s

/-- Whether a job does no work because its counts are zero (03 R75): it writes nothing, and so no version (02 R49; 09 R236). -/
def Job.idle (j : Job) : Bool :=
  j.fail.isNone && (j.total == 0 || (j.opc == .ccuCheck && df j.desc 6 12 0 == 0) ||
    (j.opc == .sort && (df j.desc 4 31 0 == 0 || df j.desc 4 63 32 == 0)))

/-- The end of a job (05 R129; 12 R307): FAILED with the error that ended it, else DONE with ERR as it stands. -/
def State.completeJob (s : State) (j : Job) : State :=
  let s := s.countEmpty j
  let s := s.setJob (match j.fail with
    | some e => j.finish .failed e
    | none => j.finish .done j.err)
  (if j.idle then s.dropTags j else s).retagSweep

/-! ## Engine places (03 R76, R81) -/

/-- The engine an opcode runs on in a place; a collision check takes no place. -/
def Opc.engine : Opc → Option Engine
  | .copy => some .copy
  | .mapPublish => some .ccu
  | .profile => some .pru
  | .xcuVote => some .xcu
  | _ => none

/-- The places of an engine. -/
def enginePlaces : Engine → Nat
  | .copy => 8
  | _ => 1

/-- The bit of an engine in ENG of a SELFTEST: copy engine, CCU, PRU, XCU (12 Table 4). -/
def engineBit : Engine → Nat
  | .copy => 0
  | .ccu => 1
  | .pru => 2
  | .xcu => 3

/-- Whether a self-test chunk holds an engine (12 R319). -/
def State.engineTesting (s : State) (e : Engine) : Bool :=
  s.jobs.any fun j => j.opc == .selftest && j.phase == .running && df j.desc 2 1 0 == 3 &&
    j.sts.any fun t => t.tgt == engineBit e && t.running

/-- The job in a place of an engine. -/
def State.inPlace (s : State) (e : Engine) (k : Nat) : Option Job :=
  s.jobs.find? fun j => j.opc.engine == some e && (j.phase == .taken || j.phase == .running) && j.place == k

/-- Whether a place can take a job. -/
def State.placeFree (s : State) (e : Engine) (k : Nat) : Bool :=
  decide (k < enginePlaces e) && (s.inPlace e k).isNone && !s.engineTesting e

/-- The placed job an engine's place takes next: of the lowest-numbered class, up to the place's own in the copy engine,
the one placed first. -/
def State.nextPlaced (s : State) (e : Engine) (k : Nat) : Option Job :=
  (s.jobs.filter fun j => j.opc.engine == some e && j.phase == .placed && (e != .copy || decide (j.tc ≤ k))).foldl
    (fun best j =>
      match best with
      | none => some j
      | some b => if j.tc < b.tc ∨ (j.tc = b.tc ∧ j.seqNo < b.seqNo) then some j else some b) none

/-- An engine's place takes its next job. -/
def State.takeJob (s : State) (e : Engine) (k : Nat) : State :=
  match s.nextPlaced e k with
  | some j => s.setJob { j with phase := .taken, place := k }
  | none => s

/-! ## COPY (03 R76) -/

/-- The bytes of a COPY's unit. -/
def copyUnit : Nat := 2 ^ 20

/-- The source and destination references of a COPY. -/
def Job.ref (j : Job) (i : Nat) : CRef := j.refs.getD i { handle := 0, vsel := 0, off := 0, ent := parseEntry 0, rd := false, wr := false, slot := 0, vid := 0, gen := 0 }

/-- Whether a COPY goes from its high end down: the ranges overlap and DST lies above SRC. -/
def copyDown (src dst len : Nat) : Bool := decide (src < dst) && decide (dst < src + len)

/-- Offset and length of the unit a COPY does as its `k`-th. -/
def copyPart (len k : Nat) (down : Bool) : Nat × Nat :=
  let n := (len + copyUnit - 1) / copyUnit
  let u := if down then n - 1 - k else k
  (u * copyUnit, Nat.min copyUnit (len - u * copyUnit))

/-- Write a copied range where the places take writes. -/
def State.copyAt (s : State) (src dst n : Nat) : State :=
  if (s.firstDead dst n).isNone && s.region dst != .mapSram then (s.copyMem src dst n).mergeMarks dst n
  else s.storeAt dst (s.load src n)

/-- One unit of a COPY. -/
def State.copyStep (s : State) (j : Job) (chk : ReadCheck) : State :=
  if !s.readsLive j then s.staleEnd j
  else
    let src := (j.ref 0).addr
    let dst := (j.ref 1).addr
    let len := df j.desc 4 31 0
    let u := copyPart len j.step (copyDown src dst len)
    if s.bondWait (dst + u.1) u.2 then s
    else s.unitRead j (src + u.1) u.2 chk fun t =>
      t.unitWrite j (dst + u.1) u.2 fun t => (t.copyAt (src + u.1) (dst + u.1) u.2).setJob (j.unitDone 1)

/-! ## BARRIER (03 R68) -/

/-- The six waits of a BARRIER. -/
def State.barrierWaits (s : State) (j : Job) : List WaitRes :=
  (List.range 6).map fun k => s.waitRes j.qid j.num (dw j.desc (2 + k))

/-- The code of the first wait whose job ended other than DONE. -/
def waitCancel : List WaitRes → Option Err
  | [] => none
  | .cancel e :: _ => some e
  | _ :: rest => waitCancel rest

/-- A started BARRIER looks at its waits. -/
def State.barrierStep (s : State) (j : Job) : State :=
  match waitCancel (s.barrierWaits j) with
  | some e => s.setJob (j.finish .cancelled e)
  | none => if (s.barrierWaits j).all (· == .ok) then s.setJob (j.finish .done .ok) else s

/-! ## Retirement (03 R79) -/

/-- Write a final status word over word 0 of a job's ring slot. -/
def State.writeBack (s : State) (qid : Nat) (num : Word32) (w : Word64) : State :=
  let a := (s.queue qid).slotAddr num
  (s.storeAt a (toLE 8 w.toNat)).traffic none 8 (s.queue qid).ftc ((s.queueOwner qid).getD 0) a 8 true

/-- Retire the job at RET with a terminal state: the write-back, HIST, RET and the vector. -/
def State.retire (s : State) (qid : Nat) (st : JState) (e : Err) (w : Word64) (irq : Bool) : State :=
  let q := s.queue qid
  let s := s.writeBack qid q.ret w
  let s := s.setQueue qid { q with
    ret := q.ret + 1, hist := BitVec.ofNat 32 (st.histCode + q.hist.toNat * 4), errs := (e :: q.errs).take 16, last := w }
  match s.queueOwner qid with
  | some p => if irq || st != .done then s.msix q.port p q.vec else s
  | none => s

/-- Whether a job may retire: it has ended, and a frame job only after its frame's commit. -/
def State.canRetire (s : State) (j : Job) : Bool := j.phase == .ended && (!j.frameJob || frameBelow j.f s.epoch)

/-- Retire the next job of a queue: the job at RET; in a disabled queue also a descriptor that was never dequeued, which
ends CANCELLED with QUEUE_HALTED (03 Table 3). -/
def State.retireNext (s : State) (qid : Nat) : State :=
  let q := s.queue qid
  if q.ret = q.tail then s
  else match s.jobAt qid q.ret with
    | some j =>
      if s.canRetire j then
        let s := { s with jobs := s.jobs.filter fun k => !(k.qid == qid && k.num == q.ret) }
        (s.retire qid j.st j.err (statusOf j.st j.err j.attempts j.progress j.num) j.irq).tagCount j.part
      else s
    | none =>
      if !q.en && q.head == q.ret then
        let s := s.retire qid .cancelled .queueHalted (statusOf .cancelled .queueHalted 0 0 q.ret) false
        s.setQueue qid { s.queue qid with head := q.head + 1 }
      else s

/-- The lowest number above the tags that no skipped descriptor holds. -/
def State.skipTag (s : State) : Nat := s.jobs.foldl (fun m j => if m ≤ j.tag then j.tag + 1 else m) 0x10000

/-- SKIP (03 Table 3): after a halt by a doorbell HALT clears; else the descriptor at HEAD ends FAILED with the code of
the halt and retires in its turn. -/
def State.cmdSkip (s : State) (p : Nat) : State :=
  let qid := s.selQid p
  if !s.ownsQueue p qid then s.captureLine (pgQueue p) .partitionViolation 0 4
  else
    let q := s.queue qid
    if !q.halt then s
    else
      let s1 := s.setQueue qid { q with halt := false, haltErr := .ok, haltDoorbell := false }
      if q.haltDoorbell || q.head == q.tail then s1
      else
        let j := ((s.newJob qid p 0 s.skipTag .nop).finish .failed q.haltErr)
        let s2 := s1.setQueue qid { s1.queue qid with head := q.head + 1 }
        { s2 with jobs := s2.jobs ++ [j] }

/-! ## The commands -/

/-- The partition as which a writer acts at a doorbell (16 R408): PF0, Flint and JTAG act as P0. -/
def writerPart : Writer → Nat
  | .host _ fn => fn - 1
  | _ => 0

/-- The PCIe port a writer came through. -/
def writerPort : Writer → Nat
  | .host h _ => h
  | _ => 0

/-- Whether a writer's PCIe port is up; Flint and JTAG need none. -/
def State.writerUp (s : State) : Writer → Bool
  | .host h fn => s.portUp h && decide (fn ≤ 8)
  | _ => true

/-- A doorbell is recorded (03 R59, R62, R63): Table 4 is tested at its recording, on the state that the doorbells
recorded before it leave; it acts at once where the context is held, and else waits for it. A context held on chip that is
found bad is discarded and read again (12 R306): the doorbell waits for that read. -/
def State.ringBell (s : State) (p qid : Nat) (v : Word64) (bad : Bool) : State :=
  let res := (s.waitingBells qid).bellRes qid p v
  if !s.ownsQueue p qid then s.capture pgLMP .partitionViolation 0
  else if s.ctxReady qid && !bad then (s.ctxTouch qid).applyBell qid p v s.epoch res
  else
    let s := if bad && s.ctxCached qid then s.ctxFail qid else s
    { s with lmp := { s.lmp with bells := s.lmp.bells ++ [{ qid := qid, part := p, v := v, epoch := s.epoch, res := res }] } }

/-- DOORBELL. -/
def execDoorbell (w : Writer) (qid : Nat) (v : Word64) (bad : Bool) (s : State) : Out :=
  onAwake s (s.writerUp w && decide (qid < 2 ^ 18)) (s.ringBell (writerPart w) qid v bad).touch

/-- CONTEXT_FETCH_DONE. -/
def execContextFetchDone (qid : Nat) (chk : ReadCheck) (s : State) : Out :=
  onAwake s (s.waitsContext qid) (s.contextDone qid chk)

/-- DEQUEUE. -/
def execDequeue (bad : Bool) (s : State) : Out := onAwake s true (s.dequeueSlot bad)

/-- DESCRIPTOR_ARRIVAL. -/
def execDescriptorArrival (qid : Nat) (chk : ReadCheck) (s : State) : Out := onAwake s true (s.descriptorDone qid chk)

/-- BUFFER_ENTRY_READ_DONE. -/
def execBufferEntryReadDone (qid : Nat) (chk : ReadCheck) (s : State) : Out := onAwake s true (s.entryDone qid chk)

/-- A command about the job of a tag, where there is one. -/
def State.withJob (s : State) (tag : Nat) (f : Job → State) : State :=
  match s.job tag with
  | some j => f j
  | none => s

/-- JOB_START. -/
def execJobStart (tag : Nat) (s : State) : Out := onAwake s true (s.withJob tag s.tryStart)

/-- JOB_COMPLETE. -/
def execJobComplete (tag : Nat) (s : State) : Out :=
  onAwake s true (s.withJob tag fun j => if j.over then s.completeJob j else s)

/-- JOB_RETIRE. -/
def execJobRetire (qid : Nat) (s : State) : Out := onAwake s true (s.retireNext qid)

/-- DESCRIPTOR_NOP. -/
def execDescriptorNop (tag : Nat) (s : State) : Out :=
  onAwake s true (s.withJob tag fun j => if j.opc = .nop ∧ j.phase = .placed then s.setJob (j.finish .done .ok) else s)

/-- BARRIER. -/
def execBarrier (tag : Nat) (s : State) : Out :=
  onAwake s true (s.withJob tag fun j => if j.opc = .barrier ∧ j.phase = .placed then s.barrierStep j else s)

/-- ENGINE_JOB_START. -/
def execEngineJobStart (eng : Engine) (place : Nat) (s : State) : Out :=
  onAwake s (s.placeFree eng place) (s.takeJob eng place)

/-- COPY: the job taken by a place of the copy engine begins. -/
def execCopy (tag : Nat) (s : State) : Out :=
  onAwake s true (s.withJob tag fun j =>
    if j.opc = .copy ∧ j.phase = .taken then
      s.setJob (j.begin_ ((df j.desc 4 31 0 + copyUnit - 1) / copyUnit))
    else s)

/-- COPY_UNIT_DONE. -/
def execCopyUnitDone (place : Nat) (chk : ReadCheck) (s : State) : Out :=
  onAwake s true (match s.inPlace .copy place with
    | some j => if j.phase = .running ∧ j.step < j.total ∧ j.fail = none then s.copyStep j chk else s
    | none => s)

end Sys2Proof.Machine
end

