-- ==== Sys2Proof/Machine/Cover.lean ====
section
/-!
DEFINITION. Cover.lean: the self-test coverage round (12 R321, R322).
-/

namespace Sys2Proof.Machine

open Sys2Proof

/-! ## The coverage round (12 R321, R322) -/

/-- The in-service targets of a kind (12 R321). -/
def State.kindTargets (s : State) (kind : Nat) : List Nat :=
  match kind with
  | 0 => (List.range (64 * s.lanterns)).filter s.wickInService
  | 1 => (List.range (8 * s.lanterns)).filter fun k => s.lanternUp (k / 8)
  | 2 => (List.range s.lanterns).filter s.lanternUp
  | _ => List.range 4

/-- Whether a target has completed its sequence in this interval. -/
def State.covered (s : State) (kind tgt : Nat) : Bool :=
  (List.range (stChunks kind)).all fun c => s.cov.done.contains (kind, tgt, c)

/-- The kinds of the round, LMP_ST_CFG.KINDS. -/
def State.stKinds (s : State) : List Nat :=
  (List.range 4).filter fun k => (s.fget pgLMP Reg.LMP_ST_CFG_KINDS).testBit k

/-- The targets not yet covered, LMP_ST_OPEN. -/
def State.openTargets (s : State) : Nat :=
  sumL (s.stKinds.map fun k => ((s.kindTargets k).filter fun t => !s.covered k t).length)

/-- A lapse, raised once in an interval (12 R322). -/
def State.lapse (s : State) : State :=
  if s.cov.lapsed then s
  else
    let s := { s with cov := { s.cov with lapsed := true } }
    (s.fadd pgLMP Reg.LMP_ST_LAPSE_COUNT 1).captureLine pgLMP .testCoverageLapse 0 368

/-- The round is complete once every in-service target of its kinds has completed its sequence: by a chunk, or because the last
open target leaves service. -/
def State.roundCheck (s : State) : State :=
  if s.cov.start.isSome ∧ !s.cov.complete ∧ s.openTargets = 0 then
    ({ s with cov := { s.cov with complete := true } }).fwrap pgLMP Reg.LMP_ST_ROUNDS_COUNT 1
  else s

/-- A chunk is completed: it counts for the round, which may be complete with it. -/
def State.coverChunk (s : State) (kind tgt chunk : Nat) : State :=
  ({ s with cov := { s.cov with done := (kind, tgt, chunk) :: s.cov.done } }).roundCheck

/-- Whether an interval starts at the tick that opens epoch `e`, by the NF held since the last start (12 R321). -/
def State.coverStarts (s : State) (e : Word32) : Bool :=
  (e - 1).toNat % Nat.max 1 s.cov.nf == 0

/-- At a tick that opened epoch `e`: where an interval starts, the one before it ends, and lapses if it is uncovered; NF is
recomputed there (12 R321, R322). -/
def State.coverageTick (s : State) (e : Word32) : State :=
  if s.coverStarts e then
    let s := if s.cov.start.isSome && s.openTargets != 0 then s.lapse else s
    { s with cov := { nf := Nat.max 1 (100000 / Nat.max 1 s.frm.periodUs), start := some e, done := [], lapsed := false, complete := false } }
  else s

/-- Whether this frame is the last of the coverage interval: one starts at the next tick. -/
def State.lastFrame (s : State) : Bool := s.cov.start.isSome && s.coverStarts (s.epoch + 1)

end Sys2Proof.Machine
end

