-- ==== Sys2Proof/Machine/Float.lean ====
section
/-!
DEFINITION. Float.lean: number formats, exact values, one rounding, the float operations and conversions (06 R153 to
R172).
-/

namespace Sys2Proof.Machine

open Sys2Proof

/-! ## Formats and values (06 R153 to R155) -/

/-- What a format's top exponent encodes: infinity and NaN, NaN only with all mantissa bits set, or ordinary values. -/
inductive TopCode where
  | ieee | nanOnly | plain
  deriving DecidableEq, Repr

/-- A float format (06 Table 1): widths of exponent and mantissa, bias, top exponent, whether subnormals are flushed,
the largest finite code and the canonical NaN. -/
structure FFmt where
  eb : Nat
  mb : Nat
  bias : Nat
  top : TopCode
  flush : Bool
  maxCode : Nat
  nan : Nat
  deriving DecidableEq, Repr

def fp32 : FFmt := { eb := 8, mb := 23, bias := 127, top := .ieee, flush := false, maxCode := 0x7F7FFFFF, nan := 0x7FC00000 }
def fp16 : FFmt := { eb := 5, mb := 10, bias := 15, top := .ieee, flush := false, maxCode := 0x7BFF, nan := 0x7E00 }
def bf16 : FFmt := { eb := 8, mb := 7, bias := 127, top := .ieee, flush := true, maxCode := 0x7F7F, nan := 0x7FC0 }
def e4m3 : FFmt := { eb := 4, mb := 3, bias := 7, top := .nanOnly, flush := false, maxCode := 0x7E, nan := 0x7F }
def e5m2 : FFmt := { eb := 5, mb := 2, bias := 15, top := .ieee, flush := false, maxCode := 0x7B, nan := 0x7E }
def e3m2 : FFmt := { eb := 3, mb := 2, bias := 3, top := .plain, flush := false, maxCode := 0x1F, nan := 0 }
def e2m3 : FFmt := { eb := 2, mb := 3, bias := 1, top := .plain, flush := false, maxCode := 0x1F, nan := 0 }
def e2m1 : FFmt := { eb := 2, mb := 1, bias := 1, top := .plain, flush := false, maxCode := 0x7, nan := 0 }

/-- A value: NaN, an infinity, or (−1)^neg × m × 2^e, exactly. -/
inductive Num where
  | nan
  | inf (neg : Bool)
  | fin (neg : Bool) (m : Nat) (e : Int)
  deriving DecidableEq, Repr

/-- The weight of a format's last subnormal bit, as a power of two. -/
def FFmt.emin (f : FFmt) : Int := 1 - (f.bias : Int) - f.mb

/-- The bits of a format without the sign. -/
def FFmt.magBits (f : FFmt) : Nat := f.eb + f.mb

/-- The value of a bit pattern. -/
def FFmt.decode (f : FFmt) (v : Nat) : Num :=
  let neg := v / 2 ^ f.magBits % 2 == 1
  let e := v / 2 ^ f.mb % 2 ^ f.eb
  let m := v % 2 ^ f.mb
  let last := e == 2 ^ f.eb - 1
  if f.top = .ieee ∧ last then (if m = 0 then .inf neg else .nan)
  else if f.top = .nanOnly ∧ last ∧ m = 2 ^ f.mb - 1 then .nan
  else if e = 0 then .fin neg (if f.flush then 0 else m) f.emin
  else .fin neg (2 ^ f.mb + m) (f.emin + (e - 1 : Nat))

/-- A pattern with its sign. -/
def FFmt.withSign (f : FFmt) (neg : Bool) (mag : Nat) : Nat := mag + (if neg then 2 ^ f.magBits else 0)

/-- The pattern of infinity where the format has one. -/
def FFmt.infMag (f : FFmt) : Nat := (2 ^ f.eb - 1) * 2 ^ f.mb

/-! ## Rounding (06 R142, R163) -/

/-- `m × 2^sh` rounded to an integer: `rz` toward zero, else to nearest, ties to even. -/
def roundShift (rz : Bool) (m : Nat) (sh : Int) : Nat :=
  if 0 ≤ sh then m * 2 ^ sh.toNat
  else
    let d := 2 ^ (-sh).toNat
    let q := m / d
    let r := m % d
    if rz then q
    else if d < 2 * r ∨ (2 * r = d ∧ q % 2 = 1) then q + 1 else q

/-- The number of bits of a natural number. -/
def bitLen (m : Nat) : Nat := if m = 0 then 0 else Nat.log2 m + 1

/-- The magnitude code of `m × 2^e` rounded once, not yet held to the format's range: codes of one exponent follow those
of the one below. -/
def FFmt.roundMag (f : FFmt) (rz : Bool) (m : Nat) (e : Int) : Nat :=
  if m = 0 then 0
  else
    let u := max f.emin (e + bitLen m - (f.mb + 1 : Nat))
    (u - f.emin).toNat * 2 ^ f.mb + roundShift rz m (e - u)

/-- What an out-of-range result becomes: infinity, or the largest finite value. -/
def FFmt.overMag (f : FFmt) (rz : Bool) : Nat := if rz then f.maxCode else f.infMag

/-- A value in FP32, FP16 or BF16, rounded once (06 R155, R163). -/
def FFmt.encode (f : FFmt) (rz : Bool) : Num → Nat
  | .nan => f.nan
  | .inf neg => f.withSign neg f.infMag
  | .fin neg m e =>
    let c := f.roundMag rz m e
    let c := if f.flush ∧ c < 2 ^ f.mb then 0 else c
    f.withSign neg (if f.maxCode < c then f.overMag rz else c)

/-! ## Exact operations (06 R154, R163) -/

/-- The exact sum of two finite values; `rz` only picks the free sign of an exact zero. -/
def addFin (rz : Bool) (n1 : Bool) (m1 : Nat) (e1 : Int) (n2 : Bool) (m2 : Nat) (e2 : Int) : Num :=
  let e := min e1 e2
  let a : Int := (m1 * 2 ^ (e1 - e).toNat : Nat)
  let b : Int := (m2 * 2 ^ (e2 - e).toNat : Nat)
  let t := (if n1 then -a else a) + (if n2 then -b else b)
  if t = 0 then .fin (if n1 = n2 then n1 else Config.zeroSign (if rz then 1 else 0)) 0 0
  else .fin (decide (t < 0)) t.natAbs e

/-- The exact sum. -/
def Num.add (rz : Bool) : Num → Num → Num
  | .nan, _ => .nan
  | _, .nan => .nan
  | .inf a, .inf b => if a = b then .inf a else .nan
  | .inf a, _ => .inf a
  | _, .inf b => .inf b
  | .fin n1 m1 e1, .fin n2 m2 e2 => addFin rz n1 m1 e1 n2 m2 e2

/-- The value with its sign inverted. -/
def Num.neg : Num → Num
  | .nan => .nan
  | .inf a => .inf !a
  | .fin n m e => .fin (!n) m e

/-- The exact product. -/
def Num.mul : Num → Num → Num
  | .nan, _ => .nan
  | _, .nan => .nan
  | .inf a, .inf b => .inf (a != b)
  | .inf a, .fin n m _ => if m = 0 then .nan else .inf (a != n)
  | .fin n m _, .inf a => if m = 0 then .nan else .inf (a != n)
  | .fin n1 m1 e1, .fin n2 m2 e2 => .fin (n1 != n2) (m1 * m2) (e1 + e2)

/-- A finite value times a power of two. -/
def Num.scale (k : Int) : Num → Num
  | .fin n m e => .fin n m (e + k)
  | x => x

/-- An integer as a value. -/
def Num.ofInt (i : Int) : Num := .fin (decide (i < 0)) i.natAbs 0

/-- Whether the first finite value is below the second, −0 and +0 equal. -/
def ltFin (n1 : Bool) (m1 : Nat) (e1 : Int) (n2 : Bool) (m2 : Nat) (e2 : Int) : Bool :=
  let e := min e1 e2
  let a : Int := (m1 * 2 ^ (e1 - e).toNat : Nat)
  let b : Int := (m2 * 2 ^ (e2 - e).toNat : Nat)
  decide ((if n1 then -a else a) < (if n2 then -b else b))

/-- Whether the first value is below the second; NaN is below nothing (06 R165). -/
def Num.lt : Num → Num → Bool
  | .nan, _ => false
  | _, .nan => false
  | .inf a, .inf b => a && !b
  | .inf a, _ => a
  | _, .inf b => !b
  | .fin n1 m1 e1, .fin n2 m2 e2 => ltFin n1 m1 e1 n2 m2 e2

/-- Whether a value is NaN. -/
def Num.isNan : Num → Bool
  | .nan => true
  | _ => false

/-- The sign of a value. -/
def Num.isNeg : Num → Bool
  | .nan => false
  | .inf a => a
  | .fin n _ _ => n

/-- The order of VMIN and VMAX, with −0 below +0. -/
def Num.ltOrd (a b : Num) : Bool := a.lt b || (!a.isNan && !b.isNan && !b.lt a && a.isNeg && !b.isNeg)

/-- VMIN and VMAX of floats (06 R165). -/
def Num.minMax (mx : Bool) (a b : Num) : Num :=
  if a.isNan then b
  else if b.isNan then a
  else if mx then (if a.ltOrd b then b else a)
  else if b.ltOrd a then b
  else a

/-- A comparison by CC (05 R142, 06 R165). -/
def Num.cmp (cc : Nat) (a b : Num) : Bool :=
  let un := a.isNan || b.isNan
  match cc with
  | 0 => !un && !a.lt b && !b.lt a
  | 1 => un || a.lt b || b.lt a
  | 2 => a.lt b
  | 3 => !un && !b.lt a
  | 4 => b.lt a
  | 5 => !un && !a.lt b
  | _ => un

/-! ## Approximate functions (06 R166) -/

/-- The integer square root by digits, `n` bits of result. -/
def isqrtBits (v : Nat) : Nat → Nat → Nat
  | 0, r => r
  | n + 1, r =>
    let c := r + 2 ^ n
    isqrtBits v n (if c * c ≤ v then c else r)

/-- The integer square root. -/
def isqrt (v : Nat) : Nat := isqrtBits v ((bitLen v + 1) / 2 + 1) 0

/-- The working precision, in bits, of the approximations. -/
def apxBits : Nat := 128

/-- Factors of 2^f, the bits of `f` from the highest down; `r` is 2^(2^−k) in units of 2^−128. -/
def exp2Frac (f : Nat) : Nat → Nat → Nat → Nat
  | 0, _, acc => acc
  | n + 1, r, acc =>
    let acc := if f / 2 ^ n % 2 = 1 then acc * r / 2 ^ apxBits else acc
    exp2Frac f n (isqrt (r * 2 ^ apxBits)) acc

/-- 2^(f × 2^−96) in units of 2^−128. -/
def exp2Fix (f : Nat) : Nat := exp2Frac f 96 (isqrt (2 ^ (2 * apxBits + 1))) (2 ^ apxBits)

/-- Bits of the base-2 logarithm of `y` (in units of 2^−128, 1 to 2), most significant first. -/
def log2Frac : Nat → Nat → Nat → Nat
  | 0, _, acc => acc
  | n + 1, y, acc =>
    let z := y * y / 2 ^ apxBits
    if 2 ^ (apxBits + 1) ≤ z then log2Frac n (z / 2) (2 * acc + 1) else log2Frac n z (2 * acc)

/-- 2^x of a finite value: a close value. -/
def exp2Apx (n : Bool) (m : Nat) (e : Int) : Num :=
  -- x in units of 2^-96, rounded down; beyond 2^12 the result is out of every range
  if 13 ≤ e + bitLen m then (if n then .fin false 1 (-5000) else .fin false 1 5000)
  else
    let t : Int := (if 0 ≤ e + 96 then (m * 2 ^ (e + 96).toNat : Nat) else (m / 2 ^ (-(e + 96)).toNat : Nat))
    let t := if n then -t else t
    let ip := t.fdiv (2 ^ 96)
    .fin false (exp2Fix (t.fmod (2 ^ 96)).toNat) (ip - apxBits)

/-- log₂ of a positive finite value: a close value, exact for powers of two. -/
def log2Apx (m : Nat) (e : Int) : Num :=
  let ip := e + (bitLen m - 1 : Nat)
  let y := m * 2 ^ apxBits / 2 ^ (bitLen m - 1)
  let t : Int := ip * 2 ^ 96 + log2Frac 96 y 0
  .fin (decide (t < 0)) t.natAbs (-96)

/-- 1/x of a nonzero finite value: a close value. -/
def rcpApx (n : Bool) (m : Nat) (e : Int) : Num := .fin n (2 ^ (apxBits + bitLen m) / m) (-e - (apxBits + bitLen m : Nat))

/-- 1/√x of a positive finite value: a close value. -/
def rsqApx (m : Nat) (e : Int) : Num :=
  let m' := if e % 2 = 0 then m else 2 * m
  let e' := if e % 2 = 0 then e else e - 1
  .fin false (2 ^ (apxBits + 64 + bitLen m) / isqrt (m' * 2 ^ (2 * bitLen m + apxBits))) (-e' / 2 - (apxBits : Nat))

/-- Whether `a` lies within `k` units of 2^u of every value that is within 2^−32 of a unit of `b`, one of which is the exact
result. -/
def within (a b : Num) (k : Nat) (u : Int) : Bool :=
  match (a.add false b.neg) with
  | .fin _ m e => !(ltFin false (k * 2 ^ 32 - 1) (u - 32) false m e)
  | _ => false

/-- The code of an approximate result (06 R166): `x` a value close to the exact one, `ulps` the bound; the offset from
the nearest code is the device's own, held to the bound where the result is normal. One that overflows becomes +infinity, whatever
its sign. -/
def FFmt.approxCode (f : FFmt) (op bits ulps : Nat) (x : Num) : Nat :=
  match x with
  | .nan => f.nan
  | .inf neg => f.withSign neg f.infMag
  | .fin neg m e =>
    if m = 0 then f.withSign neg 0
    else
      let c := f.roundMag false m e
      let off := Config.approx op bits
      let c' := ((c : Int) + (if ulps < off.natAbs then 0 else off)).toNat
      if c < 2 ^ f.mb then
        (if f.flush || Config.flush op bits then f.withSign neg 0 else f.withSign neg (Nat.min c' (2 ^ f.mb - 1)))
      else if f.maxCode < c then f.withSign false f.infMag
      else
        let u := max f.emin (e + bitLen m - (f.mb + 1 : Nat))
        let ok := decide (2 ^ f.mb ≤ c') && decide (c' ≤ f.maxCode) && within (f.decode c') (.fin false m e) ulps u
        f.withSign neg (if ok then c' else c)

/-- Whether a finite value is an integer, and which. -/
def intOf (n : Bool) (m : Nat) (e : Int) : Option Int :=
  let v : Option Nat :=
    if 0 ≤ e then some (m * 2 ^ e.toNat)
    else if m % 2 ^ (-e).toNat = 0 then some (m / 2 ^ (-e).toNat) else none
  v.map fun x => if n then -(x : Int) else (x : Int)

/-- VEXP2, VLOG2, VRCP, VRSQ of one element (06 R166 and Table 4); `op` 0 to 3, `v` the pattern. -/
def FFmt.special (f : FFmt) (op v ulps : Nat) : Nat :=
  let x := f.decode v
  let enc := f.encode false
  let apx := f.approxCode op v ulps
  match op, x with
  | _, .nan => f.nan
  | 0, .inf neg => if neg then f.withSign false 0 else f.withSign false f.infMag
  | 0, .fin n m e =>
    if m = 0 then enc (.fin false 1 0)
    else if bitLen m + e < 13 then
      match intOf n m e with
      | some i => if (1 - f.bias : Int) ≤ i ∧ i ≤ f.bias then enc (.fin false 1 i) else apx (exp2Apx n m e)
      | none => apx (exp2Apx n m e)
    else apx (exp2Apx n m e)
  | 1, .inf neg => if neg then f.nan else f.withSign false f.infMag
  | 1, .fin n m e =>
    if m = 0 then f.withSign true f.infMag
    else if n then f.nan
    else if m = 2 ^ (bitLen m - 1) then enc (Num.ofInt (e + (bitLen m - 1 : Nat)))
    else apx (log2Apx m e)
  | 2, .inf neg => f.withSign neg 0
  | 2, .fin n m e => if m = 0 then f.withSign n f.infMag else apx (rcpApx n m e)
  | _, .inf neg => if neg then f.nan else f.withSign false 0
  | _, .fin n m e =>
    if m = 0 then f.withSign n f.infMag
    else if n then f.nan
    else apx (rsqApx m e)

/-! ## Conversions (06 R167 to R172) -/

/-- What a VCVT code names: a float format, an integer of a width, signed or not, or E8M0. -/
inductive CFmt where
  | flt (f : FFmt)
  | int (bits : Nat) (sgn : Bool)
  | e8m0
  deriving DecidableEq, Repr

/-- Table 5; reserved codes read as E8M0, no valid image holds one (05 R133). -/
def cfmtOf (c : Nat) : CFmt :=
  match c with
  | 0 => .flt fp32
  | 1 => .int 32 true
  | 2 => .int 32 false
  | 3 => .flt bf16
  | 4 => .flt fp16
  | 5 => .flt e4m3
  | 6 => .flt e5m2
  | 7 => .flt e3m2
  | 8 => .flt e2m3
  | 9 => .flt e2m1
  | 10 => .int 8 true
  | 11 => .int 8 false
  | 12 => .int 4 true
  | _ => .e8m0

/-- The integer of a pattern. -/
def intVal (bits : Nat) (sgn : Bool) (v : Nat) : Int := if sgn then signed bits v else ((v % 2 ^ bits : Nat) : Int)

/-- An integer held to a type's range, or reduced to its low bits. -/
def fitInt (bits : Nat) (sgn sat : Bool) (i : Int) : Nat :=
  let lo : Int := if sgn then -(2 ^ (bits - 1) : Nat) else 0
  let hi : Int := if sgn then (2 ^ (bits - 1) : Nat) - 1 else (2 ^ bits : Nat) - 1
  let j := if sat then (if i < lo then lo else if hi < i then hi else i) else i
  (j.emod (2 ^ bits : Nat)).toNat

/-- Conversion into a float format with the limits of Table 7. -/
def FFmt.convert (f : FFmt) (rz sat : Bool) (x : Num) : Nat :=
  match f.top with
  | .plain =>
    match x with
    | .nan => 0
    | .inf neg => f.withSign neg f.maxCode
    | .fin neg m e => f.withSign neg (Nat.min (f.roundMag rz m e) f.maxCode)
  | .nanOnly =>
    match x with
    | .nan => f.nan
    | .inf neg => if sat then f.withSign neg f.maxCode else f.nan
    | .fin neg m e =>
      let c := f.roundMag rz m e
      if f.maxCode < c then (if sat || rz then f.withSign neg f.maxCode else f.nan) else f.withSign neg c
  | .ieee =>
    if f.eb = 5 ∧ f.mb = 2 then
      match x with
      | .nan => f.nan
      | .inf neg => f.withSign neg (if sat then f.maxCode else f.infMag)
      | .fin neg m e =>
        let c := f.roundMag rz m e
        f.withSign neg (if f.maxCode < c then (if sat || rz then f.maxCode else f.infMag) else c)
    else f.encode rz x

/-- A value to an integer type (06 R171). -/
def toInt (bits : Nat) (sgn rz sat : Bool) : Num → Nat
  | .nan => 0
  | .inf neg => fitInt bits sgn true (if neg then -(2 ^ 64 : Nat) else (2 ^ 64 : Nat))
  | .fin neg m e =>
    let q := roundShift rz m e
    fitInt bits sgn sat (if neg then -(q : Int) else (q : Int))

/-- FP32 to E8M0 (06 R172). -/
def toE8m0 : Num → Nat
  | .nan => 0xFF
  | .inf _ => 0xFF
  | .fin _ m e =>
    if m = 0 then 0
    else
      let l : Int := e + (bitLen m - 1 : Nat) + 127
      if l < 1 then 0 else (min l 254).toNat

/-- One element converted from code `a` to code `b` (06 R170 to R172). -/
def convertElem (a b : Nat) (rz sat : Bool) (v : Nat) : Nat :=
  match cfmtOf a, cfmtOf b with
  | .flt f, .flt g => g.convert rz sat (f.decode v)
  | .flt f, .int w sg => toInt w sg rz sat (f.decode v)
  | .flt f, .e8m0 => toE8m0 (f.decode v)
  | .int w sg, .flt g => g.encode rz (Num.ofInt (intVal w sg v))
  | .int w sg, .int w2 sg2 => fitInt w2 sg2 sat (intVal w sg v)
  | .e8m0, .flt g => if v % 256 = 0xFF then g.nan else g.encode rz (.fin false 1 ((v % 256 : Nat) - 127))
  | _, _ => 0

end Sys2Proof.Machine
end

