-- ==== Sys2Proof/Machine/Seq.lean ====
section
/-!
DEFINITION. Seq.lean: the tile sequencer: registers of a Wick, issue, loops, tokens, the control and scalar instructions
(04 R94, R102 to R106; 05 R134 to R141).
-/

namespace Sys2Proof.Machine

open Sys2Proof

/-! ## Registers (05 R134) -/

/-- S[i]; S0 reads 0. -/
def Wick.sreg (x : Wick) (i : Nat) : Word32 := if i = 0 then 0 else aget 0 x.sregs i

/-- Write S[i]; writes to S0 are discarded. -/
def Wick.setS (x : Wick) (i : Nat) (v : Word32) : Wick := if i = 0 then x else { x with sregs := aset x.sregs i v }

/-- V[i]. -/
def Wick.vreg (x : Wick) (i : Nat) : VWord := aget 0 x.vregs i

/-- Write V[i]. -/
def Wick.setV (x : Wick) (i : Nat) (v : VWord) : Wick := { x with vregs := aset x.vregs i v }

/-- P[i]; P0 is all ones. -/
def Wick.preg (x : Wick) (i : Nat) : BitVec 128 := if i = 0 then BitVec.allOnes 128 else aget 0 x.pregs i

/-- Write P[i]; writes to P0 are discarded. -/
def Wick.setP (x : Wick) (i : Nat) (v : BitVec 128) : Wick :=
  if i = 0 then x else { x with pregs := aset x.pregs i v }

/-- L[i]. -/
def Wick.lc (x : Wick) (i : Nat) : Nat := aget 0 x.lcnt i

/-! ## Issue (05 R135, R139) -/

/-- The sequencer after the instruction at `last`: at the end of a loop body the next iteration or the loop's end. -/
def Wick.after (x : Wick) (last : Nat) : List LoopFrame → Wick
  | [] => { x with pc := last + 1, loops := [] }
  | fr :: rest =>
    if fr.last = last then
      if 0 < fr.left then
        { x with pc := fr.first, loops := { fr with left := fr.left - 1 } :: rest
                 lcnt := aset x.lcnt fr.l (x.lc fr.l + 1) }
      else x.after last rest
    else { x with pc := last + 1, loops := fr :: rest }

/-- The instruction at the program counter has issued, and the next one is due. -/
def Wick.stepPc (x : Wick) : Wick := { x with lastPc := x.pc }.after x.pc x.loops

/-- The instruction at the program counter meets a fault: the unit issues nothing more (05 R151). -/
def Wick.faulted (x : Wick) (e : UnitErr) (own : Bool) : Wick :=
  { x with lastPc := x.pc, fault := some e, faultOwn := own, faultPeer := none }

/-- Whether a Wick issues the instruction with the encoding `enc` next. -/
def Wick.issues (x : Wick) (enc : Nat) : Bool :=
  x.st == .running && x.hold == .none && x.fault == none && !x.ended &&
    (match x.image with
     | some im => im.insns[x.pc]? == some (BitVec.ofNat 64 enc)
     | none => false)

/-- Issue an instruction that changes its Wick alone. -/
def State.issue (s : State) (w enc : Nat) (f : Wick → Wick) : State :=
  let x := s.wick w
  if x.issues enc then s.setWick w (f x) else s

/-- Issue an instruction that changes more than its Wick. -/
def State.issueWith (s : State) (w enc : Nat) (f : Wick → State) : State :=
  if (s.wick w).issues enc then f (s.wick w) else s

/-! ## Tokens (04 R102 to R104; 05 R138) -/

/-- The key of a shared entry: job, Lantern, index. -/
def shKey (tag lantern idx : Nat) : Nat := (tag * 8 + lantern) * 256 + idx

/-- The entry a token operand of a unit on Wick `w` names. -/
def tokEntry (w tag tok : Nat) : SbEntry := if tok < 256 then .priv w (tok % 64) else .shared tag (lanternOf w) (tok - 256)

/-- The count of an entry. -/
def State.tokCount (s : State) : SbEntry → Nat
  | .priv w i => aget 0 (s.wick w).toks i
  | .shared t n i => aget 0 s.shToks (shKey t n i)

/-- The state with an entry's count replaced. -/
def State.setTok (s : State) (e : SbEntry) (n : Nat) : State :=
  match e with
  | .priv w i => s.setWick w { s.wick w with toks := aset (s.wick w).toks i n }
  | .shared t l i => { s with shToks := aset s.shToks (shKey t l i) n }

/-- An arrival on its way to an entry. -/
def State.arrive (s : State) (e : SbEntry) : State := { s with arrivals := s.arrivals ++ [e] }

/-- Whether an entry belongs to work in progress; arrivals at released entries are discarded (04 R106). -/
def State.entryHeld (s : State) : SbEntry → Bool
  | .priv w _ => (s.wick w).st == .running
  | .shared t l _ => (s.job t).any fun j => j.lanterns.contains l

/-- The tag of the job that holds an entry. -/
def State.entryTag (s : State) : SbEntry → Nat
  | .priv w _ => (s.wick w).tag
  | .shared t _ _ => t

/-- The list without the first occurrence of an element. -/
def dropFirst {α : Type} [BEq α] (a : α) : List α → List α
  | [] => []
  | b :: bs => if b == a then bs else b :: dropFirst a bs

/-- The state with the first arrival on its way to an entry taken. -/
def State.takeArrival (s : State) (e : SbEntry) : State := { s with arrivals := dropFirst e s.arrivals }

/-- The page and line of a Lantern's LLA and scoreboard (20 Table 4). -/
def lineLla (n : Nat) : Nat := 8 + 16 * n + 9

/-- The line of a Lantern's APW (20 Table 4). -/
def lineApw (n : Nat) : Nat := 8 + 16 * n + 8

/-- The Lantern of an entry. -/
def entryLantern : SbEntry → Nat
  | .priv w _ => lanternOf w
  | .shared _ n _ => n

/-- A job ends with an error that is not re-executed; its running units are stopped as those of a failed job are
(05 R129). -/
def State.failJob (s : State) (tag : Nat) (e : Err) : State :=
  match s.job tag with
  | some j => if j.fail.isSome ∨ j.phase = .ended then s else s.setJob { j with fail := some e }
  | none => s

/-! ## Stopping units (04 R106, 05 R129) -/

/-- The unit of a Wick, if it runs one. -/
def Wick.runs (x : Wick) (tag : Nat) : Bool := x.st == .running && x.tag == tag

/-- Stop a running Wick at its next instruction boundary; its outstanding DMA requests complete (04 R106). -/
def Wick.stop (x : Wick) : Wick := { x with st := .stopping, hold := .none, fault := none, apw := none }

/-- The arrivals still on their way to a Wick's private entries are discarded, and its sort requests with them. -/
def State.dropPriv (s : State) (w : Nat) : State :=
  { s with
    arrivals := s.arrivals.filter fun e => match e with
      | .priv v _ => v != w
      | _ => true
    sconces := s.sconces.map fun kc => (kc.1, { kc.2 with sorter := kc.2.sorter.filter fun r => r.wick != some w }) }

/-- The combine instances of a job leave the Combine units, and its sort requests the Sorters. -/
def State.dropEngines (s : State) (tag : Nat) : State :=
  { s with
    cmbs := s.cmbs.filter fun c => c.tag != tag
    sconces := s.sconces.map fun kc =>
      (kc.1, { kc.2 with sorter := kc.2.sorter.filter fun r => !(r.tag == tag && r.wick.isSome) }) }

/-- Stop every Wick that runs a unit of a job. -/
def State.stopUnits (s : State) (tag : Nat) : State :=
  let ws := (s.wicks.map (·.1)).filter fun w => (s.wick w).runs tag
  let s := ws.foldl (fun t w => (t.setWick w (t.wick w).stop).dropPriv w) s
  s.dropEngines tag

/-- The units of a job after it stops: those that were running run no more. -/
def Job.stopAll (j : Job) : Job :=
  { j with units := j.units.map fun u => if u.phase = .running then { u with phase := .failed } else u }

/-- A job on Wicks fails: its running units are stopped and its other units never start (05 R129). -/
def State.failWickJob (s : State) (tag : Nat) (e : Err) : State :=
  let s := s.failJob tag e
  let s := s.stopUnits tag
  match s.job tag with
  | some j => s.setJob j.stopAll
  | none => s

/-- A scoreboard entry that fails its check ends its job FAILED and pulses the line of the Lantern's scoreboard
(12 R306). -/
def State.entryFail (s : State) (e : SbEntry) : State :=
  (s.captureLine (pgLNK (entryLantern e)) .dataErrorDetected 0 (lineLla (entryLantern e))).failWickJob (s.entryTag e)
    .dataErrorDetected

/-- An arrival reaches its entry (04 R103, R104; 12 R306): an entry that fails its check ends its job FAILED and pulses
the line of the Lantern's scoreboard; a count at its limit ends the job with COUNT_EXCEEDS_LIMIT. -/
def State.arrivalAt (s : State) (e : SbEntry) (chk : Bool) : State :=
  let s := s.takeArrival e
  if !s.entryHeld e then s
  else if !chk then s.entryFail e
  else if s.tokCount e = 65535 then
    (s.captureLine (pgLNK (entryLantern e)) .countExceedsLimit 0 (lineLla (entryLantern e))).failWickJob (s.entryTag e)
      .countExceedsLimit
  else s.setTok e (s.tokCount e + 1)

/-! ## Control (05 R137 to R140) -/

/-- LOOP. -/
def Wick.loop (x : Wick) (f : LoopF) : Wick :=
  let count := if f.csrc then (x.sreg f.sc.toNat).toNat else f.cnt.toNat
  if 65535 < count then x.faulted .countExceeds false
  else
    let y := { x with lastPc := x.pc, lcnt := aset x.lcnt f.l.toNat 0 }
    if count = 0 then y.after (x.pc + f.body.toNat) x.loops
    else
      { y with pc := x.pc + 1
               loops := { l := f.l.toNat, left := count - 1, first := x.pc + 1, last := x.pc + f.body.toNat } :: x.loops }

/-- Take `n` from an entry and go on after a WAIT. -/
def State.passWait (s : State) (w : Nat) (e : SbEntry) (n : Nat) : State :=
  let s := s.setTok e (s.tokCount e - n)
  s.setWick w { (s.wick w) with hold := .none }.stepPc

/-- WAIT: passes when the count suffices, else holds (05 R140); `chk` is the check of the entry (12 R306). -/
def State.waitStep (s : State) (w : Nat) (f : WaitF) (chk : Bool) : State :=
  let x := s.wick w
  let e := tokEntry w x.tag f.tok.toNat
  if !chk then s.entryFail e
  else if f.n.toNat ≤ s.tokCount e then s.passWait w e f.n.toNat
  else s.setWick w { x with lastPc := x.pc, hold := .wait f.tok.toNat f.n.toNat }

/-- A WAIT that holds is released once its count suffices. -/
def State.releaseWait (s : State) (w : Nat) (chk : Bool) : State :=
  let x := s.wick w
  match x.hold with
  | .wait tok n =>
    let e := tokEntry w x.tag tok
    if !chk then s.entryFail e else if n ≤ s.tokCount e then s.passWait w e n else s
  | _ => s

/-- NUNITS of the job of a tag. -/
def State.nunits (s : State) (tag : Nat) : Nat :=
  match s.job tag with
  | some j => df j.desc 2 40 24
  | none => 0

/-- The Wick on which unit `u` of a job runs. -/
def State.unitWick (s : State) (tag u : Nat) : Option Nat :=
  (s.job tag).bind fun j => (j.units.find? fun x => x.idx == u && x.phase == .running).map (·.wick)

/-- The Wick on which unit `u` of a job runs or last ran. -/
def State.unitHome (s : State) (tag u : Nat) : Option Nat :=
  (s.job tag).bind fun j => (j.units.find? fun x => x.idx == u && x.phase != .fresh).map (·.wick)

/-- ARRIVE: one arrival at an entry of this unit or of a peer; a peer beyond NUNITS is a fault. A peer that has ended holds no
private entry, but the job holds its shared entries on the peer's Lantern until it retires (04 R102, R106, 05 R138). -/
def State.arriveStep (s : State) (w : Nat) (f : ArriveF) : State :=
  let x := s.wick w
  let u := (x.sreg f.su.toNat).toNat
  if f.peer then
    if s.nunits x.tag ≤ u then s.setWick w (x.faulted .partition false)
    else
      let t := s.setWick w x.stepPc
      match if f.tok.toNat < 256 then s.unitWick x.tag u else s.unitHome x.tag u with
      | some v => t.arrive (tokEntry v x.tag f.tok.toNat)
      | none => t
  else (s.setWick w x.stepPc).arrive (tokEntry w x.tag f.tok.toNat)

/-- The DMA commands queued on a channel. -/
def Wick.chan (x : Wick) (c : Nat) : List DmaCmd :=
  match c with
  | 0 => x.dma0
  | 1 => x.dma1
  | 2 => x.dma2
  | _ => x.dma3

/-- A Wick with a channel's queue replaced. -/
def Wick.setChan (x : Wick) (c : Nat) (q : List DmaCmd) : Wick :=
  match c with
  | 0 => { x with dma0 := q }
  | 1 => { x with dma1 := q }
  | 2 => { x with dma2 := q }
  | _ => { x with dma3 := q }

/-- Whether no DMA command is outstanding. -/
def Wick.dmaIdle (x : Wick) : Bool := x.dma0.isEmpty && x.dma1.isEmpty && x.dma2.isEmpty && x.dma3.isEmpty

/-- Whether the conditions of a FENCE hold (05 Table 10). -/
def Wick.fenceOk (x : Wick) (f : FenceF) : Bool :=
  (!f.dma || x.dmaIdle) && (!f.eng || x.engOut == 0) && (!f.st || x.sbuf.isEmpty)

/-! ## Scalar (05 R141) -/

/-- The second operand of format S. -/
def Wick.op2 (x : Wick) (f : SFields) : Word32 := if f.i then f.imm else x.sreg f.sb.toNat

/-- A scalar instruction that computes SD from SA and op2. -/
def State.scalar (s : State) (op w : Nat) (f : SFields) (g : Wick → Word32 → Word32 → Word32) : Out :=
  onLive s true (s.issue w (encS op f) fun x =>
    (x.setS f.sd.toNat (g x (x.sreg f.sa.toNat) (x.op2 f))).stepPc)

/-! ## The commands -/

/-- NOP. -/
def execTileNop (wick : Nat) (s : State) : Out := onLive s true (s.issue wick 0x00 Wick.stepPc)

/-- END. -/
def execTileEnd (wick : Nat) (s : State) : Out :=
  onLive s true (s.issue wick 0x01 fun x => { x with lastPc := x.pc, ended := true })

/-- LOOP. -/
def execTileLoop (wick : Nat) (f : LoopF) (s : State) : Out :=
  onLive s true (s.issue wick (encLoop f) fun x => x.loop f)

/-- WAIT. -/
def execTileWait (wick : Nat) (f : WaitF) (chk : Bool) (s : State) : Out :=
  onLive s true (s.issueWith wick (encWait f) fun _ => s.waitStep wick f chk)

/-- ARRIVE. -/
def execTileArrive (wick : Nat) (f : ArriveF) (s : State) : Out :=
  onLive s true (s.issueWith wick (encArrive f) fun _ => s.arriveStep wick f)

/-- FENCE: it issues when its conditions hold, and holds issue until then. -/
def execTileFence (wick : Nat) (f : FenceF) (s : State) : Out :=
  onLive s true (s.issue wick (encFence f) fun x => if x.fenceOk f then x.stepPc else x)

/-- SADD. -/
def execSadd (wick : Nat) (f : SFields) (s : State) : Out := s.scalar 0x10 wick f fun _ a b => a + b
/-- SSUB. -/
def execSsub (wick : Nat) (f : SFields) (s : State) : Out := s.scalar 0x11 wick f fun _ a b => a - b
/-- SMUL. -/
def execSmul (wick : Nat) (f : SFields) (s : State) : Out := s.scalar 0x12 wick f fun _ a b => a * b
/-- SAND. -/
def execSand (wick : Nat) (f : SFields) (s : State) : Out := s.scalar 0x13 wick f fun _ a b => a &&& b
/-- SOR. -/
def execSor (wick : Nat) (f : SFields) (s : State) : Out := s.scalar 0x14 wick f fun _ a b => a ||| b
/-- SXOR. -/
def execSxor (wick : Nat) (f : SFields) (s : State) : Out := s.scalar 0x15 wick f fun _ a b => a ^^^ b
/-- SSHL. -/
def execSshl (wick : Nat) (f : SFields) (s : State) : Out := s.scalar 0x16 wick f fun _ a b => a <<< (b.toNat % 32)
/-- SSHR. -/
def execSshr (wick : Nat) (f : SFields) (s : State) : Out := s.scalar 0x17 wick f fun _ a b => a >>> (b.toNat % 32)
/-- SMINU. -/
def execSminu (wick : Nat) (f : SFields) (s : State) : Out :=
  s.scalar 0x18 wick f fun _ a b => if b.toNat < a.toNat then b else a
/-- SMAXU. -/
def execSmaxu (wick : Nat) (f : SFields) (s : State) : Out :=
  s.scalar 0x19 wick f fun _ a b => if a.toNat < b.toNat then b else a
/-- SLIX. -/
def execSlix (wick : Nat) (f : SFields) (s : State) : Out :=
  s.scalar 0x1A wick f fun x a b => a + BitVec.ofNat 32 (x.lc f.ln.toNat) * b

/-- SCOREBOARD_ARRIVAL. -/
def execScoreboardArrival (ent : SbEntry) (chk : Bool) (s : State) : Out :=
  onLive s (s.arrivals.contains ent) (s.arrivalAt ent chk)

/-- WAIT_RELEASE. -/
def execWaitRelease (wick : Nat) (chk : Bool) (s : State) : Out :=
  onLive s ((s.wick wick).st == .running) (s.releaseWait wick chk)

end Sys2Proof.Machine
end

