-- ==== Sys2Proof/Machine/Vector.lean ====
section
/-!
DEFINITION. Vector.lean: the vector and predicate instructions (05 R142, R143; 06 R163 to R172).
-/

namespace Sys2Proof.Machine

open Sys2Proof

/-! ## Lanes -/

/-- Lane `i` of width `w`. -/
def vlane (w : Nat) (v : VWord) (i : Nat) : Nat := (v.extractLsb' (w * i) w).toNat

/-- A number whose `w`-bit digits are `f 0`, `f 1`, … -/
def digits (w : Nat) (f : Nat → Nat) : Nat → Nat
  | 0 => 0
  | n + 1 => digits w f n + f n * 2 ^ (w * n)

/-- A vector of `n` lanes of width `w`, each value cut to its lane. -/
def mkV (n w : Nat) (f : Nat → Nat) : VWord := BitVec.ofNat 2048 (digits w (fun i => f i % 2 ^ w) n)

/-- The lanes and the width of a type: 128 of 16 bits in BF16, else 64 of 32 (05 R143). -/
def tyLanes (ty : Nat) : Nat := if ty = 3 then 128 else 64
def tyBits (ty : Nat) : Nat := if ty = 3 then 16 else 32

/-- The float format of a type. -/
def tyFmt (ty : Nat) : FFmt := if ty = 3 then bf16 else fp32

/-- Whether a predicate lets lane `i` be written. -/
def laneOn (p : BitVec 128) (pn : Bool) (i : Nat) : Bool := p.getLsbD i != pn

/-- The predicate of an instruction. -/
def Wick.pred (x : Wick) (f : VFields) (i : Nat) : Bool := laneOn (x.preg f.pg.toNat) f.pn i

/-- A scalar broadcast to the lanes of a type: as it is, or rounded to BF16 (05 R142). -/
def bcast (ty : Nat) (rz : Bool) (v : Word32) : Nat := if ty = 3 then bf16.encode rz (fp32.decode v.toNat) else v.toNat

/-- Lane `i` of operand B. -/
def Wick.opB (x : Wick) (f : VFields) (i : Nat) : Nat :=
  let ty := f.ty.toNat
  if f.bs then bcast ty (f.rnd == 1#2) (x.sreg (f.vb.toNat % 32)) else vlane (tyBits ty) (x.vreg f.vb.toNat) i

/-- Write the lanes of VD that the predicate lets through. -/
def Wick.merge (x : Wick) (f : VFields) (g : Nat → Nat) : Wick :=
  let ty := f.ty.toNat
  let old := x.vreg f.vd.toNat
  x.setV f.vd.toNat (mkV (tyLanes ty) (tyBits ty) fun i => if x.pred f i then g i else vlane (tyBits ty) old i)

/-! ## Lane operations (05 Table 12) -/

/-- Signedness of an integer type. -/
def tySigned (ty : Nat) : Bool := ty == 1

/-- VADD, VSUB, VMUL by `k` 0, 1, 2 (06 R163, R164). -/
def arith2 (k ty : Nat) (rz sat : Bool) (a b : Nat) : Nat :=
  if ty = 1 ∨ ty = 2 then
    let x := intVal 32 (tySigned ty) a
    let y := intVal 32 (tySigned ty) b
    fitInt 32 (tySigned ty) sat (if k = 0 then x + y else if k = 1 then x - y else x * y)
  else
    let f := tyFmt ty
    let x := f.decode a
    let y := f.decode b
    f.encode rz (if k = 0 then x.add rz y else if k = 1 then x.add rz y.neg else x.mul y)

/-- VFMA (06 R163, R164). -/
def fma (ty : Nat) (rz sat : Bool) (a b c : Nat) : Nat :=
  if ty = 1 ∨ ty = 2 then
    fitInt 32 (tySigned ty) sat
      (intVal 32 (tySigned ty) a * intVal 32 (tySigned ty) b + intVal 32 (tySigned ty) c)
  else
    let f := tyFmt ty
    f.encode rz (((f.decode a).mul (f.decode b)).add rz (f.decode c))

/-- VMIN and VMAX (06 R165). -/
def minMax (mx : Bool) (ty a b : Nat) : Nat :=
  if ty = 1 ∨ ty = 2 then
    let lt := decide (intVal 32 (tySigned ty) a < intVal 32 (tySigned ty) b)
    if mx then (if lt then b else a) else (if lt then a else b)
  else
    let f := tyFmt ty
    f.encode false ((f.decode a).minMax mx (f.decode b))

/-- A comparison of integers by CC; UNORDERED never holds. -/
def cmpInt (cc : Nat) (a b : Int) : Bool :=
  match cc with
  | 0 => decide (a = b)
  | 1 => decide (a ≠ b)
  | 2 => decide (a < b)
  | 3 => decide (a ≤ b)
  | 4 => decide (b < a)
  | 5 => decide (b ≤ a)
  | _ => false

/-- VCMP of one lane. -/
def cmpLane (cc ty a b : Nat) : Bool :=
  if ty = 1 ∨ ty = 2 then cmpInt cc (intVal 32 (tySigned ty) a) (intVal 32 (tySigned ty) b)
  else (tyFmt ty).decode a |>.cmp cc ((tyFmt ty).decode b)

/-- A shift right by the type: arithmetic for INT32, logical for UINT32. -/
def shiftRight (ty a n : Nat) : Nat :=
  if ty = 1 then (((intVal 32 true a).fdiv (2 ^ n : Nat)).emod (2 ^ 32 : Nat)).toNat else a / 2 ^ n

/-- An instruction that computes each lane of VD from lanes of VA and operand B. -/
def State.vec2 (s : State) (op w : Nat) (f : VFields) (g : Nat → Nat → Nat) : Out :=
  onLive s true (s.issue w (encV op f) fun x =>
    (x.merge f fun i => g (vlane (tyBits f.ty.toNat) (x.vreg f.va.toNat) i) (x.opB f i)).stepPc)

/-- An instruction that computes each lane of VD from the lane of VA. -/
def State.vec1 (s : State) (op w : Nat) (f : VFields) (g : Nat → Nat) : Out :=
  onLive s true (s.issue w (encV op f) fun x =>
    (x.merge f fun i => g (vlane (tyBits f.ty.toNat) (x.vreg f.va.toNat) i)).stepPc)

/-- An approximate function of one lane (06 R166): 2 ulp in FP32, 1 in BF16. -/
def specialLane (op ty v : Nat) : Nat :=
  if ty = 3 then bf16.special op (v + 2 ^ 32) 1 else fp32.special op v 2

/-! ## VCVT (06 R167 to R169) -/

/-- The bit position of element `i` on a side of code `c`, among `n` elements, with the part `vc` (06 Table 6). -/
def cvtPos (c n vc i : Nat) : Nat :=
  let w := fmtBits c
  if w = 32 then 32 * i
  else if w = 16 then (if n = 64 then 1024 * (vc % 2) + 16 * i else 16 * i)
  else if w = 8 then (if n = 64 then 512 * (vc % 4) + 8 * i else 1024 * (vc % 2) + 8 * i)
  else if w = 6 then (if n = 64 then 384 * (vc % 4) + 6 * i else 768 * (vc % 2) + 6 * i)
  else if n = 64 then 8 * (64 * (vc % 4) + i) + 4 * (vc / 4 % 2)
  else if i < 64 then 8 * (64 * (vc % 4) + i)
  else 8 * (64 * (vc % 4) + (i - 64)) + 4

/-- A vector with `w` bits at position `p` replaced. -/
def setBits (v : VWord) (p w x : Nat) : VWord :=
  let n := v.toNat
  BitVec.ofNat 2048 (n - n / 2 ^ p % 2 ^ w * 2 ^ p + x % 2 ^ w * 2 ^ p)

/-- VCVT of elements `0 … n − 1` into `v`. -/
def cvtInto (x : Wick) (f : VFields) (a b n : Nat) (v : VWord) : VWord :=
  (List.range n).foldl (fun v i =>
    if x.pred f i then
      let src := (x.vreg f.va.toNat).extractLsb' (cvtPos a n f.vc.toNat i) (fmtBits a)
      setBits v (cvtPos b n f.vc.toNat i) (fmtBits b) (convertElem a b (f.rnd == 1#2) f.sat src.toNat)
    else v) v

/-- VCVT of a Wick. -/
def Wick.cvt (x : Wick) (f : VFields) : Wick :=
  let a := f.fc.toNat / 16
  let b := f.fc.toNat % 16
  x.setV f.vd.toNat (cvtInto x f a b (cvtN a b) (x.vreg f.vd.toNat))

/-! ## Predicates -/

/-- Bits 0 to `n − 1` of a truth function as a predicate. -/
def mkP (n : Nat) (f : Nat → Bool) : BitVec 128 := BitVec.ofNat 128 (digits 1 (fun i => b2n (f i)) n)

/-- PLOG (05 Table 12). -/
def plog (k : Nat) (a b : BitVec 128) : BitVec 128 :=
  match k with
  | 0 => a &&& b
  | 1 => a ||| b
  | 2 => a ^^^ b
  | _ => a &&& ~~~b

/-! ## The commands -/

/-- VADD. -/
def execVadd (wick : Nat) (f : VFields) (s : State) : Out := s.vec2 0x20 wick f (arith2 0 f.ty.toNat (f.rnd == 1#2) f.sat)
/-- VSUB. -/
def execVsub (wick : Nat) (f : VFields) (s : State) : Out := s.vec2 0x21 wick f (arith2 1 f.ty.toNat (f.rnd == 1#2) f.sat)
/-- VMUL. -/
def execVmul (wick : Nat) (f : VFields) (s : State) : Out := s.vec2 0x22 wick f (arith2 2 f.ty.toNat (f.rnd == 1#2) f.sat)
/-- VFMA. -/
def execVfma (wick : Nat) (f : VFields) (s : State) : Out :=
  onLive s true (s.issue wick (encV 0x23 f) fun x =>
    let w := tyBits f.ty.toNat
    (x.merge f fun i =>
      fma f.ty.toNat (f.rnd == 1#2) f.sat (vlane w (x.vreg f.va.toNat) i) (x.opB f i) (vlane w (x.vreg f.vc.toNat) i)).stepPc)
/-- VMIN. -/
def execVmin (wick : Nat) (f : VFields) (s : State) : Out := s.vec2 0x24 wick f (minMax false f.ty.toNat)
/-- VMAX. -/
def execVmax (wick : Nat) (f : VFields) (s : State) : Out := s.vec2 0x25 wick f (minMax true f.ty.toNat)
/-- VAND. -/
def execVand (wick : Nat) (f : VFields) (s : State) : Out := s.vec2 0x26 wick f (· &&& ·)
/-- VOR. -/
def execVor (wick : Nat) (f : VFields) (s : State) : Out := s.vec2 0x27 wick f (· ||| ·)
/-- VXOR. -/
def execVxor (wick : Nat) (f : VFields) (s : State) : Out := s.vec2 0x28 wick f (· ^^^ ·)
/-- VSHL. -/
def execVshl (wick : Nat) (f : VFields) (s : State) : Out :=
  s.vec2 0x29 wick f fun a b => a * 2 ^ (b % 32) % 2 ^ 32
/-- VSHR. -/
def execVshr (wick : Nat) (f : VFields) (s : State) : Out :=
  s.vec2 0x2A wick f fun a b => shiftRight f.ty.toNat a (b % 32)
/-- VCMP. -/
def execVcmp (wick : Nat) (f : VFields) (s : State) : Out :=
  onLive s true (s.issue wick (encV 0x2B f) fun x =>
    let ty := f.ty.toNat
    (x.setP f.pd.toNat (mkP (tyLanes ty) fun i =>
      cmpLane f.cc.toNat ty (vlane (tyBits ty) (x.vreg f.va.toNat) i) (x.opB f i))).stepPc)
/-- VSEL. -/
def execVsel (wick : Nat) (f : VFields) (s : State) : Out :=
  onLive s true (s.issue wick (encV 0x2C f) fun x =>
    let ty := f.ty.toNat
    (x.setV f.vd.toNat (mkV (tyLanes ty) (tyBits ty) fun i =>
      if x.pred f i then vlane (tyBits ty) (x.vreg f.va.toNat) i else x.opB f i)).stepPc)
/-- VCVT. -/
def execVcvt (wick : Nat) (f : VFields) (s : State) : Out :=
  onLive s true (s.issue wick (encV 0x2D f) fun x => (x.cvt f).stepPc)
/-- VEXP2. -/
def execVexp2 (wick : Nat) (f : VFields) (s : State) : Out := s.vec1 0x2E wick f (specialLane 0 f.ty.toNat)
/-- VLOG2. -/
def execVlog2 (wick : Nat) (f : VFields) (s : State) : Out := s.vec1 0x2F wick f (specialLane 1 f.ty.toNat)
/-- VRCP. -/
def execVrcp (wick : Nat) (f : VFields) (s : State) : Out := s.vec1 0x30 wick f (specialLane 2 f.ty.toNat)
/-- VRSQ. -/
def execVrsq (wick : Nat) (f : VFields) (s : State) : Out := s.vec1 0x31 wick f (specialLane 3 f.ty.toNat)
/-- VMOV. DESIGN CHOICE (log entry 30): with BS = 1 on BF16 lanes the scalar is rounded to BF16 under RND, as R142 says for
operand B. -/
def execVmov (wick : Nat) (f : VFields) (s : State) : Out :=
  onLive s true (s.issue wick (encV 0x32 f) fun x =>
    let ty := f.ty.toNat
    (x.merge f fun i =>
      if f.bs then bcast ty (f.rnd == 1#2) (x.sreg (f.va.toNat % 32)) else vlane (tyBits ty) (x.vreg f.va.toNat) i).stepPc)
/-- VROT. -/
def execVrot (wick : Nat) (f : VFields) (s : State) : Out :=
  onLive s true (s.issue wick (encV 0x33 f) fun x =>
    let n := tyLanes f.ty.toNat
    (x.merge f fun i =>
      vlane (tyBits f.ty.toNat) (x.vreg f.va.toNat) ((i + n - f.fc.toNat % n) % n)).stepPc)
/-- PSET. -/
def execPset (wick : Nat) (f : VFields) (s : State) : Out :=
  onLive s true (s.issue wick (encV 0x34 f) fun x =>
    (x.setP f.pd.toNat (mkP 128 fun i => decide (i < (x.sreg (f.va.toNat % 32)).toNat))).stepPc)
/-- PLOG. -/
def execPlog (wick : Nat) (f : VFields) (s : State) : Out :=
  onLive s true (s.issue wick (encV 0x35 f) fun x =>
    (x.setP f.pd.toNat (plog f.fc.toNat (x.preg (f.va.toNat % 8)) (x.preg (f.vb.toNat % 8)))).stepPc)

/-! ## Undefined content (12 R317) -/

/-- A free vector of the draws from `n`. -/
def freeVec (n : Nat) : VWord := mkV 64 32 fun i => (Config.freeWord (n + i)).toNat

/-- A Wick whose registers hold undefined content, as free values of the draws from `d`. -/
def Wick.undefRegs (x : Wick) (d : Nat) : Wick :=
  { x with
    sregs := (List.range 31).map fun i => (i + 1, Config.freeWord (d + i))
    vregs := (List.range 64).map fun i => (i, freeVec (d + 64 * (i + 1)))
    pregs := (List.range 7).map fun i => (i + 1, (freeVec (d + 4160 + 64 * i)).truncate 128) }

/-- A Wick whose tiles hold undefined content: sums, block positions and scale records. -/
def Wick.undefTiles (x : Wick) (d : Nat) : Wick :=
  { x with
    tiles := (List.range 128).map fun c => (c, freeVec (d + 64 * c))
    kpos := (List.range 4).map fun t => (t, Config.freeNat (d + t) % 32)
    scales := (List.range 4).map fun t => (t, freeVec (d + 8192 + 64 * t)) }

end Sys2Proof.Machine
end

