-- ==== Sys2Proof/Machine/Tensor.lean ====
section
/-!
DEFINITION. Tensor.lean: vector loads and stores, tile moves, the store buffer and the tensor array (04 R89 to R92; 05
R144 to R146; 06 R156 to R162).
-/

namespace Sys2Proof.Machine

open Sys2Proof

/-! ## Scratchpad accesses (04 R95, R98; 05 R144) -/

/-- The size of a scratchpad. -/
def padSize : Nat := 0x100000

/-- A 20-bit immediate, sign-extended. -/
def sext20 (i : BitVec 20) : Word32 := i.signExtend 32

/-- The scratchpad address of format M (05 R144). -/
def Wick.maddr (x : Wick) (f : MFields) : Nat :=
  (if f.post then x.sreg f.sa.toNat else x.sreg f.sa.toNat + sext20 f.imm).toNat

/-- S[SA] after a format M instruction. -/
def Wick.mpost (x : Wick) (f : MFields) : Wick :=
  if f.post then x.setS f.sa.toNat (x.sreg f.sa.toNat + sext20 f.imm) else x

/-- The fault of a scratchpad access of `n` bytes at `a` with an alignment. -/
def padFault (a n align : Nat) : Option UnitErr :=
  if a % align ≠ 0 then some .misaligned else if padSize < a + n then some .lengthExceeds else none

/-- Bytes with those of a store-buffer entry laid over them. -/
def overlay (v : VWord) (e : StoreEnt) : VWord :=
  BitVec.ofNat 2048 (digits 8 (fun i => if e.mask.getLsbD i then vlane 8 e.data i else vlane 8 v i) 256)

/-- The 256 bytes at a scratchpad address as a Wick's own load sees them: the store buffer before the scratchpad. -/
def State.padRead (s : State) (w a : Nat) : VWord :=
  ((s.wick w).sbuf.filter fun e => e.addr == a).foldl overlay (BitVec.ofNat 2048 (s.loadLE (padBase w + a) 256))

/-- How a read of a Wick's own scratchpad goes: a fault is the Wick's own (12 R309). -/
def State.padCheck (s : State) (w a n : Nat) (chk : ReadCheck) (ok : State → State) : State :=
  let t := s.readMarks (padBase w + a) n chk
  match s.readRes (padBase w + a) n chk with
  | .poisoned _ => t.setWick w ((t.wick w).faulted .poisoned false)
  | .stored _ => t.setWick w ((t.wick w).faulted .dataError true)
  | .data => ok t

/-- VLD. DESIGN CHOICE (log entry 30): the scratchpad lines are read and checked first, also where the store buffer covers them
wholly. -/
def State.vld (s : State) (w : Nat) (f : MFields) (chk : ReadCheck) : State :=
  let x := s.wick w
  let a := x.maddr f
  match padFault a 256 256 with
  | some e => s.setWick w (x.faulted e false)
  | none =>
    s.padCheck w a 256 chk fun t =>
      let v := t.padRead w a
      let old := x.vreg f.v.toNat
      let p := x.preg f.pg.toNat
      t.setWick w ((x.setV f.v.toNat (mkV 64 32 fun i => vlane 32 (if laneOn p f.pn i then v else old) i)).mpost f).stepPc

/-- The byte mask of the 4-byte lanes a predicate lets through. -/
def laneMask (p : BitVec 128) (pn : Bool) : BitVec 256 := BitVec.ofNat 256 (digits 4 (fun i => if laneOn p pn i then 15 else 0) 64)

/-- Whether the store buffer takes another entry (05 R144). -/
def Wick.canStore (x : Wick) : Bool := decide (x.sbuf.length < 4)

/-- A stored value enters the store buffer. -/
def Wick.push (x : Wick) (e : StoreEnt) : Wick := { x with sbuf := x.sbuf ++ [e] }

/-- VST: issue stalls while the store buffer is full. -/
def State.vst (s : State) (w : Nat) (f : MFields) : State :=
  let x := s.wick w
  let a := x.maddr f
  match padFault a 256 256 with
  | some e => s.setWick w (x.faulted e false)
  | none =>
    if x.canStore then
      s.setWick w ((x.push { addr := a, data := x.vreg f.v.toNat, mask := laneMask (x.preg f.pg.toNat) f.pn }).mpost f).stepPc
    else s

/-- The bytes of a vector. -/
def vbytes (v : VWord) : List Byte := (List.range 256).map fun i => v.extractLsb' (8 * i) 8

/-- Write one 64-byte line of a buffered store: a line written whole loses its poison, a partial one keeps it (12
R304). -/
def State.drainLine (s : State) (base : Nat) (e : StoreEnt) (k : Nat) : State :=
  let m := e.mask.extractLsb' (64 * k) 64
  let bs := ((vbytes e.data).drop (64 * k)).take 64
  let a := base + e.addr + 64 * k
  if m = BitVec.allOnes 64 then s.storeAt a bs
  else if m = 0 then s
  else { s with mem := writeBytes s.mem a ((List.range 64).map fun i =>
           if m.getLsbD i then bs.getD i 0 else readByte s.mem (a + i)) }

/-- The oldest entry of a store buffer is written to the scratchpad. -/
def State.drainStore (s : State) (w : Nat) : State :=
  match (s.wick w).sbuf with
  | [] => s
  | e :: rest =>
    (List.range 4).foldl (fun t k => t.drainLine (padBase w) e k) (s.setWick w { s.wick w with sbuf := rest })

/-! ## Tiles (04 R92; 05 R144) -/

/-- The column of a tile a field group names. -/
def Wick.col (x : Wick) (col cl : Nat) (cle : Bool) : Nat := (col + (if cle then x.lc cl else 0)) % 32

/-- Column `c` of tile `t`: lane i is C[i][c]. -/
def Wick.tcol (x : Wick) (t c : Nat) : VWord := aget 0 x.tiles (32 * t + c)

/-- A Wick with a tile column replaced. -/
def Wick.setTcol (x : Wick) (t c : Nat) (v : VWord) : Wick := { x with tiles := aset x.tiles (32 * t + c) v }

/-! ## The tensor array (04 R89, R90; 05 R145; 06 R156 to R162) -/

/-- Whether an MMA format is integer, and whether it is microscaled. -/
def mmaInt (f : Nat) : Bool := decide (f ≤ 2)
def mmaMx (f : Nat) : Bool := decide (5 ≤ f) && decide (f ≤ 11)

/-- The bits of an element. -/
def mmaBits (f : Nat) : Nat :=
  if f = 2 ∨ f = 10 ∨ f = 11 then 4 else if f = 8 ∨ f = 9 then 6 else if 12 ≤ f then 16 else 8

/-- The K steps an MMA does. -/
def mmaK (f : Nat) : Nat := if mmaBits f = 4 then 2 else 1

/-- The A and B bytes of a step (04 Table 2). -/
def mmaABytes (f : Nat) : Nat := 64 * mmaK f * mmaBits f / 8
def mmaBBytes (f : Nat) : Nat := 32 * mmaK f * mmaBits f / 8

/-- Element `i`, K step `k`, of an operand word (06 R156). -/
def mmaElem (f : Nat) (word : Nat) (i k : Nat) : Nat :=
  if mmaBits f = 4 then word / 2 ^ (8 * i + 4 * k) % 16 else word / 2 ^ (mmaBits f * i) % 2 ^ mmaBits f

/-- The value of a float or MX element, its scale apart (06 R157). -/
def mmaVal (f v : Nat) : Num :=
  match f with
  | 3 => e4m3.decode v
  | 4 => e5m2.decode v
  | 5 => (Num.ofInt (intVal 8 true v)).scale (-6)
  | 6 => e4m3.decode v
  | 7 => e5m2.decode v
  | 8 => e3m2.decode v
  | 9 => e2m3.decode v
  | 10 => e2m1.decode v
  | 11 => (Num.ofInt (intVal 4 true v)).scale (-2)
  | 12 => bf16.decode v
  | _ => fp16.decode v

/-- The integer of an element. -/
def mmaIntVal (f v : Nat) : Int := if f = 0 then intVal 8 true v else if f = 1 then intVal 8 false v else intVal 4 true v

/-- The exact product term of lane (i, j): the step's products, scaled (06 R160, R161). -/
def mmaTerm (f a b : Nat) (scale : VWord) (i j : Nat) : Num :=
  let p := fun k => (mmaVal f (mmaElem f a i k)).mul (mmaVal f (mmaElem f b j k))
  let t := if mmaK f = 2 then (p 0).add false (p 1) else p 0
  if mmaMx f then
    let sa := vlane 8 scale i
    let sb := vlane 8 scale (64 + j)
    if sa = 0xFF ∨ sb = 0xFF then .nan else t.scale ((sa + sb : Nat) - 254)
  else t

/-- The integer sum of a step's products. -/
def mmaIntTerm (f a b i j : Nat) : Int :=
  (List.range (mmaK f)).foldl (fun t k => t + mmaIntVal f (mmaElem f a i k) * mmaIntVal f (mmaElem f b j k)) 0

/-- The new accumulator of lane (i, j). -/
def mmaLane (f a b : Nat) (scale : VWord) (zero : Bool) (acc i j : Nat) : Nat :=
  if mmaInt f then (((if zero then 0 else (acc : Int)) + mmaIntTerm f a b i j).emod (2 ^ 32 : Nat)).toNat
  else
    let t := mmaTerm f a b scale i j
    fp32.encode false (if zero then t else (fp32.decode acc).add false t)

/-- The tile after a step. -/
def Wick.mmaTile (x : Wick) (t f a b : Nat) (scale : VWord) (zero : Bool) : Wick :=
  (List.range 32).foldl (fun y j =>
    let old := x.tcol t j
    y.setTcol t j (mkV 64 32 fun i => mmaLane f a b scale zero (vlane 32 old i) i j)) x

/-- The companion of an MMA changes the Wick; `x` is the Wick before the MMA (05 R146). -/
def Wick.companion (x y : Wick) : Companion → Wick
  | .none => y
  | .trd v t col cl cle => y.setV v.toNat (x.tcol t.toNat (x.col col.toNat cl.toNat cle))
  | .vst v s =>
    (y.push { addr := (x.sreg s.toNat).toNat, data := x.vreg v.toNat, mask := BitVec.allOnes 256 }).setS s.toNat
      (y.sreg s.toNat + 256)
  | .saddi s imm => y.setS s.toNat (y.sreg s.toNat + imm.signExtend 32 * 64)
  | .arrive _ => y

/-- The fault of a companion. -/
def Wick.compFault (x : Wick) : Companion → Option UnitErr
  | .vst _ s => padFault (x.sreg s.toNat).toNat 256 256
  | _ => none

/-- Whether a companion can issue. -/
def Wick.compReady (x : Wick) : Companion → Bool
  | .vst _ _ => x.canStore
  | _ => true

/-- The arrival a companion makes. -/
def State.compArrive (s : State) (w : Nat) : Companion → State
  | .arrive tok => s.arrive (.priv w tok.toNat)
  | _ => s

/-- The first fault of a list. -/
def firstFault : List (Option UnitErr) → Option UnitErr
  | [] => none
  | some e :: _ => some e
  | none :: rest => firstFault rest

/-- MMA: one step into a tile with its companion (05 R145, R146). DESIGN CHOICE (log entry 30): its operand reads see the
scratchpad and not the unit's own buffered stores, of which R144 speaks for loads only. -/
def State.mmaStep (s : State) (w : Nat) (g : TFields) (chk : ReadCheck) : State :=
  let x := s.wick w
  let f := g.fmt.toNat
  let t := g.tile.toNat
  let a := (x.sreg g.sa.toNat).toNat
  let b := (x.sreg g.sb.toNat).toNat
  let c := (x.sreg g.ssc.toNat).toNat
  let pos := if g.zero then 0 else aget 0 x.kpos t
  let first := mmaMx f && pos == 0
  let na := mmaABytes f
  let nb := mmaBBytes f
  match firstFault [padFault a na 16, padFault b nb 8, if first then padFault c 128 64 else none, x.compFault g.comp] with
  | some e => s.setWick w (x.faulted e false)
  | none =>
    if !x.compReady g.comp then s
    else
      s.padCheck w a na chk fun s => s.padCheck w b nb chk fun s =>
        s.padCheck w c (if first then 128 else 0) chk fun s =>
          let scale := if first then BitVec.ofNat 2048 (s.loadLE (padBase w + c) 128) else aget 0 x.scales t
          let y := x.mmaTile t f (s.loadLE (padBase w + a) na) (s.loadLE (padBase w + b) nb) scale g.zero
          let next := (pos + mmaK f) % 32
          let y := { y with kpos := aset y.kpos t next, scales := if mmaMx f then aset y.scales t scale else y.scales }
          let y := if g.inca then y.setS g.sa.toNat (y.sreg g.sa.toNat + BitVec.ofNat 32 na) else y
          let y := if g.incb then y.setS g.sb.toNat (y.sreg g.sb.toNat + BitVec.ofNat 32 nb) else y
          let y := if mmaMx f && next == 0 && g.inca then y.setS g.ssc.toNat (y.sreg g.ssc.toNat + 128) else y
          (s.setWick w (x.companion y g.comp).stepPc).compArrive w g.comp

/-! ## The commands -/

/-- VLD. -/
def execVld (wick : Nat) (f : MFields) (chk : ReadCheck) (s : State) : Out :=
  onLive s true (s.issueWith wick (encM 0x40 f) fun _ => s.vld wick f chk)

/-- VST. -/
def execVst (wick : Nat) (f : MFields) (s : State) : Out :=
  onLive s true (s.issueWith wick (encM 0x41 f) fun _ => s.vst wick f)

/-- TRD. DESIGN CHOICE (log entry 30): POST and PG, which R144 gives a meaning for VLD and VST, have no effect here. -/
def execTrd (wick : Nat) (f : MFields) (s : State) : Out :=
  onLive s true (s.issue wick (encM 0x42 f) fun x =>
    (x.setV f.v.toNat (x.tcol f.t.toNat (x.col f.col.toNat f.cl.toNat f.cle))).stepPc)

/-- TWR. DESIGN CHOICE (log entry 30): POST and PG have no effect, as for TRD. -/
def execTwr (wick : Nat) (f : MFields) (s : State) : Out :=
  onLive s true (s.issue wick (encM 0x43 f) fun x =>
    (x.setTcol f.t.toNat (x.col f.col.toNat f.cl.toNat f.cle) (x.vreg f.v.toNat)).stepPc)

/-- MMA. -/
def execMma (wick : Nat) (f : TFields) (chk : ReadCheck) (s : State) : Out :=
  onLive s true (s.issueWith wick (encT f) fun _ => s.mmaStep wick f chk)

/-- STORE_DRAIN. -/
def execStoreDrain (wick : Nat) (s : State) : Out := onLive s true (s.drainStore wick)

end Sys2Proof.Machine
end

