-- ==== Sys2Proof/Machine/Dma.lean ====
section
/-!
DEFINITION. Dma.lean: the Wick DMA engine (04 R99 to R101, R110; 05 R131, R147).
-/

namespace Sys2Proof.Machine

open Sys2Proof

/-- A row of a transfer: remote offset, local offset, bytes. -/
abbrev DmaRow := Int × Int × Nat

/-- The rows of a shape (05 R131); a shape with any count 0 moves nothing. -/
def Shape.rows (h : Shape) (remote loc : Int) : List DmaRow :=
  if h.n0 = 0 then []
  else
    (List.range h.n2).flatMap fun (p : Nat) => (List.range h.n1).map fun (r : Nat) =>
      (remote + (p : Int) * h.rstr2 + (r : Int) * h.rstr1, loc + (p : Int) * h.lstr2 + (r : Int) * h.lstr1, 64 * h.n0)

/-- The rows of a gather or scatter by its offset list. -/
def gatherRows (list : List Nat) (remote loc : Int) : List DmaRow :=
  (List.range list.length).map fun (i : Nat) => (remote + (list.getD i 0 : Nat), loc + (64 * i : Nat), 64)

/-- The rows of a command. -/
def DmaCmd.rows (c : DmaCmd) : List DmaRow :=
  match c.gather with
  | some l => gatherRows l c.remote c.loc
  | none => c.shape.rows c.remote c.loc

/-- The remote side of a command (05 R147): its base address, the offset its rows start from, the bytes it may span, and
the argument reference it is. -/
structure DmaSide where
  base : Nat
  off : Nat
  limit : Nat
  cref : Option Nat
  deriving DecidableEq, Repr

/-- The remote side a REF names for Wick `w`; a peer unit beyond NUNITS is out of range. `at_` is S[SR], 0 for a gather or
scatter. DESIGN CHOICE (log entry 31): the OFFSET of an argument reference is added to S[SR], and to the listed offsets of a
gather or scatter; the rule speaks of the captured slot at offset S[SR] only. -/
def State.dmaSide (s : State) (w ref su at_ : Nat) : Except UnitErr DmaSide :=
  let x := s.wick w
  match s.job x.tag with
  | none => .error .partition
  | some j =>
    if ref < 16 then
      match j.args[ref]? with
      | some c =>
        .ok { base := if c.slot = 0 then c.ent.base0 else c.ent.base1, off := c.off + at_, limit := c.ent.size, cref := some ref }
      | none => .error .partition
    else if ref = 16 then
      match (j.units.find? fun u => u.idx == su) with
      | some u => .ok { base := padBase u.wick, off := at_, limit := padSize, cref := none }
      | none => .error .lengthExceeds
    else .ok { base := sbufBase (sconceOf w), off := at_, limit := 0x400000, cref := none }

/-- Whether a reference's directions permit a command. -/
def Job.argDir (j : Job) (ref : Nat) (toPad : Bool) : Bool :=
  match j.args[ref]? with
  | some c => if toPad then c.rd else c.wr
  | none => false

/-- Whether a row lies in its bounds. -/
def rowIn (limit : Nat) (r : DmaRow) : Bool :=
  r.2.2 == 0 ||
    (decide (0 ≤ r.1) && decide (r.1 + r.2.2 ≤ limit) && decide (0 ≤ r.2.1) && decide (r.2.1 + r.2.2 ≤ padSize))

/-- The fault of a command, if any (05 R147): alignment, ranges, permission of the reference, of the place (04 R108, R110)
and, in Cormer mode, of the windows that decide for the DMA engine (02 R55). -/
def State.dmaFault (s : State) (w ref : Nat) (toPad : Bool) (d : DmaSide) (c : DmaCmd) : Option UnitErr :=
  let x := s.wick w
  let rows := c.rows
  if d.off % 64 ≠ 0 ∨ c.loc % 64 ≠ 0 ∨ (c.gather.getD []).any (· % 64 != 0) then some .misaligned
  else if !(rows.all (rowIn d.limit)) then some .lengthExceeds
  else if ref < 16 ∧ ((s.job x.tag).any fun j => !j.argDir ref toPad) then some .partition
  else match rows.findSome? fun r => s.denied x.part (d.base + r.1.toNat) r.2.2 (!toPad) with
    | some e => some (if e = .lengthExceedsExtent then .lengthExceeds else .partition)
    | none =>
      if ref < 16 ∧ s.cfg.cormer ∧ !(rows.all fun r => r.2.2 == 0 || s.cfg.fwOk (.dma w) (d.base + r.1.toNat) r.2.2 (!toPad)) then
        some .firewall
      else none

/-- Queue a command on its channel, or end the unit with its fault. -/
def State.dmaQueue (s : State) (w : Nat) (f : DFields) (d : DmaSide) (c : DmaCmd) : State :=
  let x := s.wick w
  match s.dmaFault w f.ref.toNat (!f.dir) d c with
  | some e => s.setWick w (x.faulted e false)
  | none => s.setWick w (x.setChan f.ch.toNat (x.chan f.ch.toNat ++ [{ c with base := d.base }])).stepPc

/-- The traffic class of a job's requests, TC of its descriptor (04 R99). -/
def State.tcOf (s : State) (tag : Nat) : Nat := ((s.job tag).map (·.tc)).getD 0

/-- The shape a command names. -/
def Wick.shape (x : Wick) (i : Nat) : Shape :=
  ((x.image.bind fun im => im.shapes[i]?)).getD { n0 := 0, n1 := 0, n2 := 0, rstr1 := 0, rstr2 := 0, lstr1 := 0, lstr2 := 0 }

/-- DMA: issue stalls while the channel holds 4 commands. -/
def State.dmaStep (s : State) (w : Nat) (f : DFields) : State :=
  let x := s.wick w
  if 4 ≤ (x.chan f.ch.toNat).length then s
  else
    match s.dmaSide w f.ref.toNat (x.sreg f.su.toNat).toNat (x.sreg f.sr.toNat).toNat with
    | .error e => s.setWick w (x.faulted e false)
    | .ok d =>
      s.dmaQueue w f d { toPad := !f.dir, base := d.base, remote := d.off, loc := (x.sreg f.sl.toNat).toNat
                         shape := x.shape f.shape.toNat, gather := none, tok := f.tok.toNat, tc := s.tcOf x.tag, cref := d.cref }

/-- The offset list of a gather or scatter. -/
def State.offList (s : State) (w a n : Nat) : List Nat :=
  (List.range n).map fun i => s.loadLE (padBase w + a + 4 * i) 4

/-- DMAG: the list is read as the instruction issues. DESIGN CHOICE (log entry 31): the list may stand at any scratchpad
address; the rule gives it no alignment. -/
def State.dmagStep (s : State) (w : Nat) (f : DFields) (chk : ReadCheck) : State :=
  let x := s.wick w
  let h := x.shape f.shape.toNat
  let a := (x.sreg f.sr.toNat).toNat
  let n := if h.n1 = 0 ∨ h.n2 = 0 then 0 else h.n0
  if 4 ≤ (x.chan f.ch.toNat).length then s
  else if padSize < a + 4 * n then s.setWick w (x.faulted .lengthExceeds false)
  else
    match s.dmaSide w f.ref.toNat (x.sreg f.su.toNat).toNat 0 with
    | .error e => s.setWick w (x.faulted e false)
    | .ok d =>
      s.padCheck w a (4 * n) chk fun s =>
        s.dmaQueue w f d { toPad := !f.dir, base := d.base, remote := d.off, loc := (x.sreg f.sl.toNat).toNat
                           shape := h, gather := some (s.offList w a n), tok := f.tok.toNat, tc := s.tcOf x.tag, cref := d.cref }

/-- A row's absolute source, destination and length. -/
def dmaMove (w : Nat) (c : DmaCmd) (r : DmaRow) : Nat × Nat × Nat :=
  let rem := c.base + r.1.toNat
  let loc := padBase w + r.2.1.toNat
  if c.toPad then (rem, loc, r.2.2) else (loc, rem, r.2.2)

/-- How the reads of a list of moves go: the first that fails. -/
def State.movesRead (s : State) (chk : ReadCheck) : List (Nat × Nat × Nat) → Option (Nat × Nat × ReadRes)
  | [] => none
  | m :: ms =>
    match s.readRes m.1 m.2.2 chk with
    | .data => s.movesRead chk ms
    | r => some (m.1, m.2.2, r)

/-- Make the moves, one after another; the guest delivers what is read of its window. -/
def State.moveAll (s : State) (ms : List (Nat × Nat × Nat)) : State :=
  ms.foldl (fun t m => (t.guestIn m.1 m.2.2).copyAt m.1 m.2.1 m.2.2) s

/-- The requests of a command pass the Lantern's port in the class of its job (04 R99). -/
def State.dmaTraffic (s : State) (w p : Nat) (c : DmaCmd) (ms : List (Nat × Nat × Nat)) : State :=
  ms.foldl (fun t m => t.traffic (some (.dma w)) (lanternOf w) c.tc p (if c.toPad then m.1 else m.2.1) m.2.2 (!c.toPad)) s

/-- A unit meets an error outside its issue: recorded unless one is recorded already. -/
def Wick.hurt (x : Wick) (e : UnitErr) (own : Bool) : Wick :=
  if x.st = .running ∧ x.fault = none then { x with fault := some e, faultOwn := own } else x

/-- A job on Wicks whose reference lost its version ends CANCELLED_BY_EPOCH (02 R50, R51). -/
def State.staleWickJob (s : State) (tag : Nat) : State :=
  let s := s.stopUnits tag
  match s.job tag with
  | some j => (s.setJob (j.stopAll.finish .cancelled .cancelledByEpoch)).retagSweep
  | none => s

/-- Whether a command's reference still holds its version. -/
def State.cmdLive (s : State) (tag : Nat) (c : DmaCmd) : Bool :=
  match s.job tag, c.cref with
  | some j, some i =>
    match j.args[i]? with
    | some r => !c.toPad || s.refLive j r
    | none => true
  | _, _ => true

/-- How a place turns a move's write away (04 R108, R110; 15 R382). -/
def State.moveDenied (s : State) (p : Nat) (m : Nat × Nat × Nat) : Bool := (s.denied p m.2.1 m.2.2 true).isSome

/-- Whose failure a stored error of a DMA read is (12 R309): that of the Wick in whose scratchpad the check failed. -/
def State.blame (s : State) (l : Nat) : Option Nat :=
  match s.region (l * 64) with
  | .pad v => some v
  | _ => none

/-- A unit meets a stored error that its DMA engine read. -/
def Wick.hurtStored (x : Wick) (w : Nat) (v : Option Nat) : Wick :=
  if x.st = .running ∧ x.fault = none then
    { x with fault := some .dataError, faultOwn := v == some w, faultPeer := if v = some w then none else v }
  else x

/-- The oldest command of a channel completes (04 R101). -/
def State.dmaDone (s : State) (w ch : Nat) (chk : ReadCheck) : State :=
  let x := s.wick w
  match x.chan ch with
  | [] => s
  | c :: rest =>
    let s1 := s.setWick w (x.setChan ch rest)
    if x.st = .running && !s.cmdLive x.tag c then s1.staleWickJob x.tag
    else
      let ms := c.rows.map (dmaMove w c)
      if ms.any fun m => s.bondWait m.1 m.2.2 || s.bondWait m.2.1 m.2.2 then s
      else if !c.toPad && ms.any (s.moveDenied x.part) then s1.setWick w ((s1.wick w).hurt .partition false)
      else match s.movesRead chk ms with
      | some (a, n, r) =>
        let t := s1.readMarks a n chk
        match r with
        | .stored l => t.setWick w ((t.wick w).hurtStored w (s.blame l))
        | _ => t.setWick w ((t.wick w).hurt .poisoned false)
      | none =>
        let t := match s1.checkEnd chk with
          | .reread a => if ms.any (fun m => decide (m.1 / 64 ≤ a / 64) && decide (a / 64 ≤ (m.1 + m.2.2 - 1) / 64) && m.2.2 != 0) then s1.countReread a else s1
          | _ => s1
        let t := (t.dmaTraffic w x.part c ms).moveAll ms
        if x.st = .running then t.arrive (tokEntry w x.tag c.tok) else t

/-- DMA. -/
def execDma (wick : Nat) (f : DFields) (s : State) : Out :=
  onLive s true (s.issueWith wick (encD 0x60 f) fun _ => s.dmaStep wick f)

/-- DMAG. -/
def execDmag (wick : Nat) (f : DFields) (chk : ReadCheck) (s : State) : Out :=
  onLive s true (s.issueWith wick (encD 0x61 f) fun _ => s.dmagStep wick f chk)

/-- DMA_COMMAND_COMPLETE. -/
def execDmaCommandComplete (wick ch : Nat) (chk : ReadCheck) (s : State) : Out :=
  onLive s (decide (ch < 4) && ((s.wick wick).st == .running || (s.wick wick).st == .stopping)) (s.dmaDone wick ch chk)

end Sys2Proof.Machine
end

