-- ==== Sys2Proof/Machine/Softmax.lean ====
section
/-!
DEFINITION. Softmax.lean: FP32 operations, the online-softmax merge (04 R113) and the arithmetic of ATTEND_PAGED (08 Table
6, R213).
-/

namespace Sys2Proof.Machine

open Sys2Proof

/-- One FP32 operation: the exact result rounded once to nearest even (06 R163). -/
def f32op (g : Num → Num → Num) (a b : Word32) : Word32 :=
  BitVec.ofNat 32 (fp32.encode false (g (fp32.decode a.toNat) (fp32.decode b.toNat)))

def f32add : Word32 → Word32 → Word32 := f32op fun x y => x.add false y
def f32sub : Word32 → Word32 → Word32 := f32op fun x y => x.add false y.neg
def f32mul : Word32 → Word32 → Word32 := f32op Num.mul
def f32max : Word32 → Word32 → Word32 := f32op fun x y => x.minMax true y
def f32exp2 (a : Word32) : Word32 := BitVec.ofNat 32 (fp32.special 0 a.toNat 2)

/-- log₂ e in FP32. -/
def log2e : Word32 := 0x3FB8AA3B

/-- −∞ in FP32: the running maximum of an empty partial (04 R113). -/
def negInf : Word32 := 0xFF800000

/-- The scale of a partial at the merged maximum. -/
def softScale (m1 m : Word32) : Word32 := f32exp2 (f32mul (f32sub m1 m) log2e)

/-- Whether an FP32 pattern is a NaN. -/
def isNan32 (a : Word32) : Bool := (fp32.decode a.toNat).isNan

/-- The online-softmax merge of two rows m, s, o… (04 R113). Of two empty partials one whose sum is NaN stays (log entry 12). -/
def softMerge (a b : List Word32) : List Word32 :=
  if a.headD 0 = negInf then (if b.headD 0 = negInf && isNan32 (a.getD 1 0) then a else b)
  else if b.headD 0 = negInf then a
  else
    let m := f32max (a.headD 0) (b.headD 0)
    let a1 := softScale (a.headD 0) m
    let a2 := softScale (b.headD 0) m
    m :: List.zipWith (fun x y => f32add (f32mul x a1) (f32mul y a2)) (a.drop 1) (b.drop 1)

/-- Merge rows of `n` words, row by row; at most `fuel` rows. -/
def softRows (n : Nat) : Nat → List Word32 → List Word32 → List Word32
  | 0, _, _ => []
  | fuel + 1, a, b => softMerge (a.take n) (b.take n) ++ softRows n fuel (a.drop n) (b.drop n)

/-- An FP32 pattern of a natural number. -/
def f32ofNat (n : Nat) : Word32 := BitVec.ofNat 32 (fp32.encode false (.fin false n 0))

/-- The quotient of two FP32 values, rounded once. -/
def f32div (a b : Word32) : Word32 :=
  let x := fp32.decode a.toNat
  let y := fp32.decode b.toNat
  BitVec.ofNat 32 (
    match x, y with
    | .fin n1 m1 e1, .fin n2 m2 e2 =>
      if m2 = 0 then (if m1 = 0 then fp32.nan else fp32.withSign (n1 != n2) fp32.infMag)
      else
        -- the quotient to 40 bits beyond FP32 and a sticky bit: one rounding
        let q := m1 * 2 ^ 80 / m2
        let st := if m1 * 2 ^ 80 % m2 = 0 then 0 else 1
        fp32.encode false (.fin (n1 != n2) (2 * q + st) (e1 - e2 - 81))
    | .inf a, .fin n _ _ => fp32.withSign (a != n) fp32.infMag
    | .fin n _ _, .inf b => fp32.withSign (n != b) 0
    | _, _ => fp32.nan)


/-! ## Attention (08 R204 to R209) -/

/-- The FP32 pattern of a value, rounded once to nearest even. -/
def toF32 (x : Num) : Word32 := BitVec.ofNat 32 (fp32.encode false x)

/-- One row of a query converted to MXFP8: 128 element codes and four block scales. -/
structure QRow where
  codes : List Nat
  scales : List Nat
  deriving DecidableEq, Repr

/-- The greatest magnitude of a block as FP32 pattern without sign; a NaN counts above every number. -/
def amaxBits (xs : List Nat) : Nat := (xs.map fun v => v % 2 ^ 15 * 2 ^ 16).foldl Nat.max 0

/-- The scale of a block by the OCP rule: floor(log₂ amax) − 8 + 127; 0 for a block of zeros (log entry 12), and where the
rule gives none an E8M0 code can hold a free value (log entry 7). -/
def mxScale (xs : List Nat) : Nat :=
  let a := amaxBits xs
  let e := toE8m0 (fp32.decode a)
  if bf16.decode (a / 2 ^ 16) = .fin false 0 0 ∨ a = 0 then 0
  else if e = 0xFF ∨ e < 8 then (Config.approx 16 a).toNat % 256
  else e - 8

/-- A row of 128 BF16 patterns as MXFP8 E4M3 (08 Table 6, Queries). -/
def qRow (row : List Nat) : QRow :=
  let blocks := (List.range 4).map fun b => (row.drop (32 * b)).take 32
  { codes := blocks.flatMap fun b =>
      b.map fun v => e4m3.convert false true ((bf16.decode v).scale (127 - (mxScale b : Int)))
    scales := blocks.map mxScale }

/-- One MMA step with E8M0 scales `sa` and `sb`: the accumulator plus one exact product, rounded once (06 R160, R161). -/
def mxStep (acc : Option Num) (a b sa sb : Nat) : Num :=
  if sa = 0xFF ∨ sb = 0xFF then .nan
  else
    let t := ((e4m3.decode a).mul (e4m3.decode b)).scale ((sa + sb : Nat) - 254)
    fp32.decode (fp32.encode false (match acc with
      | some c => c.add false t
      | none => t))

/-- A sequence of MMA steps over (a, b, scale of b); the first of them has ZERO = 1 where there is no accumulator yet. -/
def mxDot (sa : Nat) (acc : Option Num) : List (Nat × Nat × Nat) → Num
  | [] => acc.getD (.fin false 0 0)
  | (a, b, sb) :: rest => mxDot sa (some (mxStep acc a b sa sb)) rest

/-- The score of a query row and a key (08 Table 6, Scores). -/
def pageScore (q : QRow) (key : List Nat) (kscale : Nat) (scale : Word32) : Word32 :=
  let steps := (List.range 128).map fun d => (key.getD d 0, q.codes.getD d 0, q.scales.getD (d / 32) 0)
  f32mul (toF32 (mxDot kscale none steps)) scale

/-- The weight of a score at the maximum `m`, as its E4M3 code of p × 2⁸ (08 Table 6, Weights). -/
def weightCode (score m : Word32) : Nat :=
  let p := f32exp2 (f32mul (f32sub score m) log2e)
  e4m3.convert false true ((fp32.decode p.toNat).scale 8)

/-- The partial of a row that has attended nothing: m = −∞, s = 0, o = 0. -/
def emptyPart : List Word32 := negInf :: List.replicate 129 0

/-- Fold the attended positions of one page, each with its score and its 128 value codes, into a row's partial m, s, o
(08 R209; log entry 12 for the order of the roundings). A NaN score makes p, and with it s and o, NaN, also where no score of the
page counts for the maximum; scores of −∞ alone are as masked positions. -/
def foldPage (part : List Word32) (vscale : Nat) (xs : List (Word32 × List Nat)) : List Word32 :=
  let mp := xs.foldl (fun m x => f32max m x.1) negInf
  if mp = negInf && !xs.any (fun x => isNan32 x.1) then part
  else
    let m0 := part.headD negInf
    let m := f32max m0 mp
    let a := if m0 = negInf then (0 : Word32) else softScale m0 m
    let ws := xs.map fun x => weightCode x.1 m
    let s := ws.foldl (fun s w => f32add s (toF32 ((e4m3.decode w).scale (-8)))) (f32mul (part.getD 1 0) a)
    let o := (List.range 128).map fun d =>
      toF32 (mxDot vscale (if m0 = negInf && !isNan32 (part.getD 1 0) then none else some (fp32.decode (f32mul (part.getD (2 + d) 0) a).toNat))
        ((List.range xs.length).map fun i => (((xs.getD i (0, [])).2).getD d 0, ws.getD i 0, 0x77)))
    m :: s :: o

/-- An output row: o / s rounded once to BF16; +0 where s is 0 (08 Table 6, Output). -/
def outRow (part : List Word32) : List Nat :=
  let s := part.getD 1 0
  (part.drop 2).map fun o =>
    match fp32.decode o.toNat, fp32.decode s.toNat with
    | .fin n1 m1 e1, .fin n2 m2 e2 =>
      if m2 = 0 then 0
      else bf16.encode false (.fin (n1 != n2) (2 * (m1 * 2 ^ 80 / m2) + (if m1 * 2 ^ 80 % m2 = 0 then 0 else 1)) (e1 - e2 - 81))
    | .inf a, .fin n m _ => if m = 0 then 0 else bf16.encode false (.inf (a != n))
    | .fin n _ _, .inf b => bf16.withSign (n != b) 0
    | _, .fin _ m _ => if m = 0 then 0 else bf16.nan
    | _, _ => bf16.nan

/-! ## The coarse index (08 R213) -/

/-- The mean of a row group's rows, per dimension: FP32 additions in ascending order, times 1/rows rounded. -/
def meanQuery (rows : List (List Nat)) : List Word32 :=
  let inv := f32div 0x3F800000 (f32ofNat rows.length)
  (List.range 128).map fun d =>
    f32mul ((rows.drop 1).foldl (fun s r => f32add s (toF32 (bf16.decode (r.getD d 0))))
      (toF32 (bf16.decode ((rows.headD []).getD d 0)))) inv

/-- The dot product of the mean query with a summary key, exact and rounded once. -/
def summaryScore (mean : List Word32) (key : List Nat) : Word32 :=
  toF32 ((List.range 128).foldl
    (fun t d => t.add false ((fp32.decode (mean.getD d 0).toNat).mul (e4m3.decode (key.getD d 0)))) (.fin false 0 0))

end Sys2Proof.Machine
end

