-- ==== Sys2Proof/Machine/AttnBase.lean ====
section
/-!
DEFINITION. AttnBase.lean: the shape of an attention job: its sequences, row groups, pages, units and merge groups, and
its output (08 R203 to R206, R213).
-/

namespace Sys2Proof.Machine

open Sys2Proof

/-- NSEQ, G, NQ, NSPLIT, TOPK and WIN of an attention job (08 Table 4). -/
def Job.nseq (j : Job) : Nat := df j.desc 5 6 0
def Job.heads (j : Job) : Nat := df j.desc 5 12 8
def Job.nq (j : Job) : Nat := df j.desc 5 28 16
def Job.nsplit (j : Job) : Nat := df j.desc 5 38 32
def Job.topk (j : Job) : Nat := df j.desc 5 48 40
def Job.win (j : Job) : Nat := df j.desc 5 55 49

/-- FLAGS of ATTEND_PAGED; PAGE_SCORE always selects (08 R214). -/
def Job.causal (j : Job) : Bool := j.opc == .attendPaged && df j.desc 0 24 24 == 1
def Job.coarse (j : Job) : Bool := j.opc == .pageScore || df j.desc 0 25 25 == 1

/-- The rows of a sequence, its row groups, and the rows of row group `rg`. -/
def Job.seqRows (j : Job) : Nat := j.nq * j.heads
def Job.rgs (j : Job) : Nat := rowGroups j.nq j.heads
def Job.rgRows (j : Job) (rg : Nat) : Nat := Nat.min 256 (j.seqRows - 256 * rg)

/-- Whether an attention job does no work (08 R205). -/
def Job.attnEmpty (j : Job) : Bool :=
  j.nseq == 0 || j.heads == 0 || j.nq == 0 || (j.opc == .attendPaged && j.nsplit == 0)

/-- The captured sequence `n` of a job. -/
def Job.seqOf (j : Job) (n : Nat) : Option SeqCap := j.seqs.find? fun c => c.seq == n

/-- The job with a sequence replaced. -/
def Job.setSeq (j : Job) (c : SeqCap) : Job := { j with seqs := j.seqs.map fun d => if d.seq = c.seq then c else d }

/-- The entries a captured sequence uses (08 R194). -/
def SeqCap.np (c : SeqCap) : Nat := (c.len + 63) / 64

/-- The pages row group `rg` of a sequence attends, once they are known (08 R206, R213). -/
def Job.attended (j : Job) (c : SeqCap) (rg : Nat) : Option (List Nat) :=
  if j.coarse then (j.sels.find? fun x => x.seq == c.seq && x.rg == rg).map (·.pages) else some (List.range c.np)

/-- Range `k` of a list of pages cut into `n` ranges (08 R206). -/
def pageRange (ps : List Nat) (n k : Nat) : List Nat :=
  (ps.drop (k * ps.length / n)).take ((k + 1) * ps.length / n - k * ps.length / n)

/-- The (sequence, row group) number, the sequence, the row group and the range of a unit of ATTEND_PAGED. -/
def Job.unitGrp (j : Job) (u : Nat) : Nat := u / j.nsplit
def Job.unitSeq (j : Job) (u : Nat) : Nat := j.unitGrp u / j.rgs
def Job.unitRg (j : Job) (u : Nat) : Nat := j.unitGrp u % j.rgs
def Job.unitRange (j : Job) (u : Nat) : Nat := u % j.nsplit

/-- The pages of a unit. -/
def Job.unitPages (j : Job) (u : Nat) : List Nat :=
  match j.seqOf (j.unitSeq u) with
  | some c => pageRange ((j.attended c (j.unitRg u)).getD []) j.nsplit (j.unitRange u)
  | none => []

/-- The Combine group of merge group `grp` (08 R206): an online-softmax merge whose root is range 0. -/
def Job.mergeGroup (j : Job) (grp : Nat) : Group :=
  { kind := 3, ty := 0, npart := j.nsplit, baseu := grp * j.nsplit, ustride := 1, rootu := grp * j.nsplit
    rows := j.rgRows (grp % j.rgs), dim := 128, shape := 0, delta := 0, rtok := 0 }

/-- The address of row `r` of sequence `n` behind a reference (08 R204). -/
def Job.rowAddr (j : Job) (c : CRef) (n r : Nat) : Nat := c.addr + (n * j.seqRows + r) * 256

/-- A row of 128 BF16 patterns. -/
def State.bfRow (s : State) (a : Nat) : List Nat := (List.range 128).map fun i => s.loadLE (a + 2 * i) 2

/-- The rows of a row group. -/
def State.qRows (s : State) (j : Job) (n rg : Nat) : List (List Nat) :=
  (List.range (j.rgRows rg)).map fun r => s.bfRow (j.rowAddr (j.ref 1) n (256 * rg + r))

/-- Partials row after row: 130 words each. -/
def cutRows : Nat → List Word32 → List (List Word32)
  | 0, _ => []
  | n + 1, d => d.take 130 :: cutRows n (d.drop 130)

/-- Write bytes for an attention job from the port of Lantern `n`, in the job's class: a place that turns the write away ends
the job (04 R110, 15 R382). -/
def State.attnWrite (s : State) (j : Job) (n a : Nat) (bs : List Byte) (ok : State → State) : State :=
  match s.denied j.part a bs.length true with
  | some e => s.failWickJob j.tag e
  | none => ok ((s.traffic (some (s.jobMaster j.opc j.part j.desc)) n j.tc j.part a bs.length true).storeAt a bs)

/-- Where the output rows of (sequence, row group) `grp` go, and whether they meet a bank under test. -/
def Job.outAddr (j : Job) (grp : Nat) : Nat := j.rowAddr (j.ref 2) (grp / j.rgs) (256 * (grp % j.rgs))
def State.outWaits (s : State) (j : Job) (grp : Nat) : Bool := s.bondWait (j.outAddr grp) (256 * j.rgRows (grp % j.rgs))

/-- Write the output rows of (sequence, row group) `grp` from its merged partials (08 Table 6, Output), from Lantern `n`. -/
def State.attnOutput (s : State) (j : Job) (n grp : Nat) (parts : List (List Word32)) : State :=
  s.attnWrite j n (j.outAddr grp) (parts.flatMap fun p => (outRow p).flatMap (toLE 2)) id

end Sys2Proof.Machine
end

