-- ==== Sys2Proof/Machine/Engines.lean ====
section
/-!
DEFINITION. Engines.lean: the Combine unit and the Sorter (04 R110, R112 to R118; 05 R132, R148, R149).
-/

namespace Sys2Proof.Machine

open Sys2Proof

/-! ## Elements -/

/-- One element of a reduction (04 R112): KIND 0 sum, 1 maximum, 2 minimum; TY 0 FP32, 1 INT32, 2 BF16. -/
def reduceElem (kind ty : Nat) (a b : Word32) : Word32 :=
  BitVec.ofNat 32 (
    if kind = 0 then
      (if ty = 1 then (a + b).toNat else arith2 0 (if ty = 2 then 3 else 0) false false a.toNat b.toNat)
    else minMax (kind == 1) (if ty = 2 then 3 else ty) a.toNat b.toNat)

/-- The words of a KIND 3 row, and the bytes it takes (05 R132). -/
def Group.rowWords (g : Group) : Nat := 2 + g.dim
def Group.rowStride (g : Group) : Nat := roundUp 64 (4 * g.rowWords)

/-- The bytes of a contribution to a KIND 0 to 3 group. -/
def Group.bytes (g : Group) : Nat := if g.kind = 3 then g.rows * g.rowStride else 64 * g.rows

/-- Fold one operand into another. -/
def Group.fold (g : Group) (a b : List Word32) : List Word32 :=
  if g.kind = 3 then softRows g.rowWords g.rows a b else List.zipWith (reduceElem g.kind g.ty) a b

/-- `n` elements of `k` bytes at `a`. -/
def State.elems (s : State) (a k n : Nat) : List Word32 :=
  (List.range n).map fun i => BitVec.ofNat 32 (s.loadLE (a + k * i) k)

/-- The elements of a contribution at a scratchpad address. -/
def State.groupData (s : State) (g : Group) (a : Nat) : List Word32 :=
  if g.kind = 3 then (List.range g.rows).flatMap fun r => s.elems (a + r * g.rowStride) 4 g.rowWords
  else if g.ty = 2 then s.elems a 2 (32 * g.rows)
  else s.elems a 4 (16 * g.rows)

/-- Elements as bytes. -/
def elemBytes (k : Nat) (l : List Word32) : List Byte := l.flatMap fun v => toLE k v.toNat

/-- Write the result of a group; a KIND 3 row's padding is not written. -/
def State.groupWrite (s : State) (g : Group) (a : Nat) (d : List Word32) : State :=
  if g.kind = 3 then
    (List.range g.rows).foldl
      (fun t r => t.storeAt (a + r * g.rowStride) (elemBytes 4 ((d.drop (r * g.rowWords)).take g.rowWords))) s
  else s.storeAt a (elemBytes (if g.ty = 2 then 2 else 4) d)

/-! ## Combine instances (04 R112, R114; 05 R148) -/

/-- The group a CMB names. -/
def Wick.group (x : Wick) (i : Nat) : Option Group := x.image.bind fun im => im.groups[i]?

/-- The group of a job's instance; an attention job's merge groups are its own (08 R206). -/
def State.jobGroup (s : State) (tag grp : Nat) : Option Group :=
  (s.job tag).bind fun j =>
    if j.opc = .attendPaged then some (j.mergeGroup grp) else j.image.bind fun im => im.groups[grp]?

/-- Whether the job of a tag is an attention job: its contributions are kept beside the Wick, and it makes no arrivals. -/
def State.isAttn (s : State) (tag : Nat) : Bool := (s.job tag).any fun j => j.opc == .attendPaged

/-- The words a built-in program contributes (08 R209). -/
def Wick.apwWords (x : Wick) : List Word32 := ((x.apw.map (·.part)).getD []).flatten

/-- The image of a running job. -/
def State.jobShape (s : State) (tag i : Nat) : Shape :=
  (((s.job tag).bind fun j => j.image).bind fun im => im.shapes[i]?).getD
    { n0 := 0, n1 := 0, n2 := 0, rstr1 := 0, rstr2 := 0, lstr1 := 0, lstr2 := 0 }

/-- The participants of a group. -/
def Group.units (g : Group) : List Nat := (List.range g.npart).map fun i => g.baseu + i * g.ustride

/-- The Sconces of a group's participants. -/
def State.groupSconces (s : State) (tag : Nat) (g : Group) : List Nat :=
  (g.units.filterMap fun u => (s.unitWick tag u).map sconceOf).eraseDups

/-- The unit that receives the strip of unit `u` (05 R148). -/
def Group.receiver (g : Group) (u : Nat) : Option Nat := let v : Int := u + g.delta; if v < 0 then none else some v.toNat

/-- The Sconces an instance occupies: those of the participants, or of a strip's sender and receiver (04 R112). -/
def State.instSconces (s : State) (c : CmbInst) : List Nat :=
  match s.jobGroup c.tag c.grp with
  | some g =>
    if g.kind = 4 then
      (((c.waiting ++ c.folded).flatMap fun p => p.unit :: (g.receiver p.unit).toList).filterMap fun u =>
        (s.unitWick c.tag u).map sconceOf).eraseDups
    else s.groupSconces c.tag g
  | none => []

/-- Whether a Combine unit serves an instance: it holds 16, oldest first (04 R112). -/
def State.served (s : State) (c : CmbInst) (scn : Nat) : Bool :=
  decide (((s.cmbs.takeWhile fun d => !(d.tag == c.tag && d.grp == c.grp && d.no == c.no)).filter fun d =>
    (s.instSconces d).contains scn).length < 16)

/-- Whether every Combine unit that an instance passes through serves it: both of a strip that crosses Sconces. -/
def State.servedAll (s : State) (c : CmbInst) : Bool := (s.instSconces c).all fun k => s.served c k

/-- SCN_CMB_GROUPS.COUNT of a Sconce (04 R119). Its four bits cannot hold the 16 it may count: DESIGN CHOICE (log entry 31),
a read answers 16 as 0x10, with bit 4 of the reserved field set. -/
def State.cmbGroups (s : State) (scn : Nat) : Nat :=
  Nat.min 16 (s.cmbs.filter fun d => (s.instSconces d).contains scn).length

/-- The rows of a halo strip at a scratchpad offset, as (offset, bytes): local strides on both sides. -/
def stripRows (h : Shape) (off : Nat) : List DmaRow := { h with rstr1 := h.lstr1, rstr2 := h.lstr2 : Shape }.rows off off

/-- The fault of a CMB: a non-participant, or data beyond the scratchpad. -/
def State.cmbFault (_ : State) (x : Wick) (g : Group) (h : Shape) (src dst : Nat) : Option UnitErr :=
  if g.kind = 4 then
    (if (stripRows h src).all (rowIn padSize) && (stripRows h dst).all (rowIn padSize) then none else some .lengthExceeds)
  else if !g.has x.unit then some .partition
  else if padSize < src + g.bytes ∨ (x.unit = g.rootu ∧ padSize < dst + g.bytes) then some .lengthExceeds
  else none

/-- Add a contribution to an instance, which comes into being with its first. -/
def State.contribute (s : State) (tag grp no : Nat) (p : CmbPart) : State :=
  if s.cmbs.any fun c => c.tag == tag && c.grp == grp && c.no == no then
    { s with cmbs := s.cmbs.map fun c =>
        if c.tag = tag ∧ c.grp = grp ∧ c.no = no then { c with waiting := c.waiting ++ [p] } else c }
  else
    { s with cmbs := s.cmbs ++ [{ tag := tag, grp := grp, no := no, waiting := [p], folded := [], parts := [], acc := []
                                  merged := [] }] }

/-- CMB (05 R148). Strips are numbered apart for each sender. -/
def State.cmbStep (s : State) (w : Nat) (f : CmbF) : State :=
  let x := s.wick w
  match x.group f.grp.toNat with
  | none => s
  | some g =>
    let src := (x.sreg f.sr.toNat).toNat
    let dst := (x.sreg f.sd.toNat).toNat
    match s.cmbFault x g (x.shape g.shape) src dst with
    | some e => s.setWick w (x.faulted e false)
    | none =>
      let n := aget 0 x.cmbNo f.grp.toNat
      let y := { x with cmbNo := aset x.cmbNo f.grp.toNat (n + 1), engOut := x.engOut + 1 }.stepPc
      (s.setWick w y).contribute x.tag f.grp.toNat (if g.kind = 4 then n * 65536 + x.unit else n)
        { unit := x.unit, src := src, dst := dst, tok := f.tok.toNat }

/-- One engine request of a unit has completed. -/
def State.engDone (s : State) (w : Nat) : State := s.setWick w { s.wick w with engOut := (s.wick w).engOut - 1 }

/-- The state with an instance replaced. -/
def State.setCmb (s : State) (c : CmbInst) : State :=
  { s with cmbs := s.cmbs.map fun d => if d.tag = c.tag ∧ d.grp = c.grp ∧ d.no = c.no then c else d }

/-- The state with an instance complete. -/
def State.dropCmb (s : State) (c : CmbInst) : State :=
  { s with cmbs := s.cmbs.filter fun d => !(d.tag == c.tag && d.grp == c.grp && d.no == c.no) }

/-- What an operand makes of a result that may still be empty. -/
def Group.foldIn (g : Group) (acc : Option (List Word32)) (d : List Word32) : List Word32 :=
  match acc with
  | none => d
  | some a => g.fold a d

/-- Whether Sconce `k` has folded in all of its participants: each has been folded, or runs on another Sconce. -/
def State.sconceDone (s : State) (tag : Nat) (g : Group) (folded : List CmbPart) (k : Nat) : Bool :=
  g.units.all fun u => (folded.any fun q => q.unit == u) ||
    (match s.unitWick tag u with
     | some w => sconceOf w != k
     | none => false)

/-- Fold the results of the Sconces that are done into the root's, in the order of their first contributions. -/
def State.forwardParts (s : State) (g : Group) (c : CmbInst) : CmbInst :=
  c.parts.foldl (fun d x =>
    if s.sconceDone c.tag g c.folded x.1 then
      { d with parts := d.parts.filter (fun y => y.1 != x.1)
               acc := g.foldIn (if d.merged.isEmpty then none else some d.acc) x.2, merged := d.merged ++ [x.1] }
    else d) c

/-- Fold a contribution into its Sconce's result; a Sconce that has folded in all of its participants forwards its result
to the root's (04 R112). -/
def State.foldPart (s : State) (c : CmbInst) (g : Group) (p : CmbPart) (w : Nat) (d : List Word32) : CmbInst :=
  let k := sconceOf w
  let now := g.foldIn ((c.parts.find? fun x => x.1 == k).map (·.2)) d
  s.forwardParts g { c with
    waiting := c.waiting.filter fun q => q.unit != p.unit
    folded := c.folded ++ [p]
    parts := if c.parts.any fun x => x.1 == k then c.parts.map fun x => if x.1 = k then (k, now) else x else c.parts ++ [(k, now)] }

/-- The bytes of a strip, row after row. -/
def State.stripData (s : State) (w : Nat) (rows : List DmaRow) : List Byte :=
  rows.flatMap fun r => s.load (padBase w + r.1.toNat) r.2.2

/-- Write a strip's bytes, row after row. -/
def State.stripWrite (s : State) (w : Nat) : List DmaRow → List Byte → State
  | [], _ => s
  | r :: rs, bs => (s.storeAt (padBase w + r.1.toNat) (bs.take r.2.2)).stripWrite w rs (bs.drop r.2.2)

/-- How the Combine unit's reads of some ranges of a scratchpad go: the first that fails. -/
def State.rangesRead (s : State) (chk : ReadCheck) : List (Nat × Nat) → ReadRes
  | [] => .data
  | r :: rs =>
    match s.readRes r.1 r.2 chk with
    | .data => s.rangesRead chk rs
    | e => e

/-- What the reads of some ranges leave behind, up to the first that fails. -/
def State.readAll (s : State) (chk : ReadCheck) : List (Nat × Nat) → State
  | [] => s
  | r :: rs =>
    match s.readRes r.1 r.2 chk with
    | .data => (s.readMarks r.1 r.2 chk).readAll chk rs
    | _ => s.readMarks r.1 r.2 chk

/-- A failed read of a Wick's own scratchpad by its Sconce hurts its unit: a stored error is the Wick's own (12 R309). -/
def Wick.hurtBy (x : Wick) (r : ReadRes) : Wick :=
  match r with
  | .data => x
  | .poisoned _ => x.hurt .poisoned false
  | .stored _ => x.hurt .dataError true

/-- COMBINE_FOLD of a contribution that waits: data are read and folded in, and the unit's token gets its arrival; for a
strip, the strip is read. -/
def State.combineFold (s : State) (tag grp unit : Nat) (chk : ReadCheck) : State :=
  match s.cmbs.find? (fun c => c.tag == tag && c.grp == grp && c.waiting.any fun p => p.unit == unit),
    s.jobGroup tag grp, s.unitWick tag unit with
  | some c, some g, some w =>
    match c.waiting.find? fun p => p.unit == unit with
    | none => s
    | some p =>
      if (if g.kind = 4 then !s.servedAll c else !s.served c (sconceOf w)) || (s.isAttn tag && !(s.wick w).ended) then s
      else if g.kind = 4 then
        let h := s.jobShape tag g.shape
        let rows := stripRows h p.src
        let dst : Int := unit + g.delta
        let none_ := decide (dst < 0) || decide ((s.nunits tag : Int) ≤ dst)
        let rs := rows.map fun r => (padBase w + r.1.toNat, r.2.2)
        if !none_ && s.rangesRead chk rs != .data then
          ((s.readAll chk rs).dropCmb c).setWick w ((s.wick w).hurtBy (s.rangesRead chk rs))
        else
          let t := ((if none_ then s else s.readAll chk rs).engDone w).arrive (tokEntry w tag p.tok)
          if none_ then t.dropCmb c
          else t.setCmb { c with waiting := [], folded := [p]
                                 acc := (s.stripData w rows).map fun b => b.zeroExtend 32 }
      else if s.isAttn tag then
        let t := s.setCmb (s.foldPart c g p w (s.wick w).apwWords)
        if unit = g.rootu then t else t.engDone w
      else if s.readRes (padBase w + p.src) g.bytes chk ≠ .data then
        (s.readMarks (padBase w + p.src) g.bytes chk).setWick w ((s.wick w).hurtBy (s.readRes (padBase w + p.src) g.bytes chk))
      else
        let t := (s.readMarks (padBase w + p.src) g.bytes chk).setCmb (s.foldPart c g p w (s.groupData g (padBase w + p.src)))
        (if unit = g.rootu then t else t.engDone w).arrive (tokEntry w tag p.tok)
  | _, _, _ => s

/-- Whether every participant of an instance has been folded in. -/
def CmbInst.full (c : CmbInst) (g : Group) : Bool := g.units.all fun u => c.folded.any fun p => p.unit == u

/-- COMBINE_RESULT_WRITTEN: the root's result is written and its token gets one more arrival; for a strip, the receiver's
copy is written and its RTOK gets an arrival. The oldest instance of the group that is ready is meant: instances of one
group complete in order. -/
def State.combineWritten (s : State) (tag grp unit : Nat) : State :=
  match s.jobGroup tag grp with
  | none => s
  | some g =>
    if g.kind = 4 then
      match s.cmbs.find? fun c => c.tag == tag && c.grp == grp && c.waiting.isEmpty && c.folded.any fun p => p.unit == unit with
      | some c =>
        match c.folded.head?, s.unitWick tag (unit + g.delta).toNat with
        | some p, some v =>
          (((s.dropCmb c).stripWrite v (stripRows (s.jobShape tag g.shape) p.dst) (c.acc.map fun x => x.truncate 8))).arrive
            (tokEntry v tag g.rtok)
        | _, _ => s.dropCmb c
      | none => s
    else
      match s.cmbs.find? (fun c => c.tag == tag && c.grp == grp), s.unitWick tag unit with
      | some c, some w =>
        match c.folded.find? fun p => p.unit == g.rootu with
        | some p =>
          if unit = g.rootu && c.full g then
            if s.isAttn tag then
              match s.job tag with
              | some j =>
                if s.outWaits j grp then s
                else ((s.dropCmb c).attnOutput j (lanternOf w) grp (cutRows g.rows c.acc)).engDone w
              | none => s.engDone w
            else (((s.dropCmb c).groupWrite g (padBase w + p.dst) c.acc).engDone w).arrive (tokEntry w tag p.tok)
          else s
        | none => s
      | _, _ => s

/-! ## The Sorter (04 R115 to R118; 05 R149) -/

/-- Whether the key of entry `a` ranks strictly before that of `b` (04 R115). -/
def ranksBefore (keyfmt : Nat) (smallest : Bool) (a b : Nat) : Bool :=
  let ka := a % 2 ^ 32
  let kb := b % 2 ^ 32
  if keyfmt = 0 then
    let x := fp32.decode ka
    let y := fp32.decode kb
    if x.isNan then false else if y.isNan then true else if smallest then x.lt y else y.lt x
  else
    let x := intVal 32 (keyfmt == 1) ka
    let y := intVal 32 (keyfmt == 1) kb
    if smallest then decide (x < y) else decide (y < x)

/-- Insert an entry after every entry that it does not rank strictly before. -/
def sortInsert (lt : Nat → Nat → Bool) (a : Nat) : List Nat → List Nat
  | [] => [a]
  | b :: bs => if lt a b then a :: b :: bs else b :: sortInsert lt a bs

/-- The entries in rank order, equal keys by position. -/
def sortEntries (keyfmt : Nat) (smallest : Bool) (l : List Nat) : List Nat :=
  l.foldl (fun acc a => sortInsert (ranksBefore keyfmt smallest) a acc) []

/-- A Sconce's engines. -/
def State.sconce (s : State) (k : Nat) : Sconce := aget { sorter := [], sampler := [] } s.sconces k

/-- The state with a Sconce's engines replaced. -/
def State.setSconce (s : State) (k : Nat) (x : Sconce) : State := { s with sconces := aset s.sconces k x }

/-- SORTI (05 R149). -/
def State.sortiStep (s : State) (w : Nat) (f : SortiF) : State :=
  let x := s.wick w
  let n := (x.sreg f.sn.toNat).toNat
  let k := (x.sreg f.sk.toNat).toNat
  let src := (x.sreg f.sr.toNat).toNat
  let dst := (x.sreg f.sd.toNat).toNat
  if 65536 < n ∨ 256 < k then s.setWick w (x.faulted .countExceeds false)
  else if n ≠ 0 ∧ k ≠ 0 ∧ (padSize < src + 8 * n ∨ padSize < dst + 8 * Nat.min k n) then
    s.setWick w (x.faulted .lengthExceeds false)
  else
    let scn := sconceOf w
    let t := s.setWick w { x with engOut := x.engOut + 1 }.stepPc
    t.setSconce scn { t.sconce scn with
      sorter := (t.sconce scn).sorter ++ [{ tag := x.tag, wick := some w, src := padBase w + src, dst := padBase w + dst
                                            n := n, k := k, keyfmt := f.keyfmt.toNat, order := f.order, tok := f.tok.toNat }] }

/-- Write the first min(K, N) of N sorted entries. -/
def State.sortWrite (s : State) (r : SortReq) : State :=
  if r.n = 0 ∨ r.k = 0 then s
  else
    let es := (List.range r.n).map fun i => s.loadLE (r.src + 8 * i) 8
    s.storeAt r.dst (((sortEntries r.keyfmt r.order es).take (Nat.min r.k r.n)).flatMap (toLE 8))

/-- The bytes a request reads. -/
def SortReq.readLen (r : SortReq) : Nat := if r.k = 0 then 0 else 8 * r.n

/-- The bytes a request writes. -/
def SortReq.writeLen (r : SortReq) : Nat := 8 * Nat.min r.k r.n

/-- Whether a self-test chunk runs on a Sconce (12 R317). -/
def State.scnTesting (s : State) (k : Nat) : Bool :=
  s.jobs.any fun j => j.opc == .selftest && j.phase == .running && df j.desc 2 1 0 == 1 &&
    j.sts.any fun t => t.tgt == k && t.running

/-- The Sconces that may serve a Sconce engine's job: the one it names, or the partition's. -/
def State.scnChoice (s : State) (j : Job) : List Nat :=
  let e := engScn j.opc j.desc
  if e.1 = 1 then s.sconcesOf j.part else [e.2]

/-- Whether the time a Sconce engine's job declares fits a start now on a Sconce. -/
def State.scnFits (s : State) (j : Job) (k : Nat) : Bool := s.fits j.part (k / 8) none (scnCycles j.opc j.desc)

/-- Whether, in open time, a partition of higher rank has a job for the engine of a Sconce that runs `ops` (02 R41, R44). -/
def State.scnOutranked (s : State) (j : Job) (ops : List Opc) (k : Nat) : Bool :=
  (s.window (s.groupOf (k / 8))).isNone && s.jobs.any fun i =>
    ops.contains i.opc && i.phase == .placed && decide (s.rankKey i.part < s.rankKey j.part) && (s.scnChoice i).contains k &&
      s.scnFits i k

/-- The first Sconce that is idle for the engine that runs `ops`, whose window lets the job start and where no job of a
higher rank is due (log entry 11). -/
def State.pickScn (s : State) (j : Job) (ops : List Opc) (idle : Sconce → Bool) : Option Nat :=
  (s.scnChoice j).find? fun k =>
    s.lanternUp (k / 8) && idle (s.sconce k) && !s.scnTesting k && s.scnFits j k && !s.scnOutranked j ops k

/-- SORT: its start (04 R116 to R118). A SORT that keeps nothing or has no entries is one unit
like any other, and counts like one (DESIGN CHOICE, log entry 31). -/
def State.sortStart (s : State) (j : Job) : State :=
  match s.pickScn j [.sort] (fun c => c.sorter.isEmpty) with
  | none => s
  | some scn =>
    let c := s.sconce scn
    (s.setJob { j.begin_ 1 with place := scn }).setSconce scn
      { c with sorter := c.sorter ++ [{ tag := j.tag, wick := none, src := (j.ref 0).addr, dst := (j.ref 1).addr
                                        n := df j.desc 4 16 0, k := df j.desc 4 40 32, keyfmt := df j.desc 0 26 25
                                        order := df j.desc 0 24 24 == 1, tok := 0 }] }

/-- The first request leaves a Sorter. -/
def State.popSorter (s : State) (scn : Nat) : State :=
  s.setSconce scn { s.sconce scn with sorter := (s.sconce scn).sorter.drop 1 }

/-- A Sorter job that is done is counted (04 R119), a SORT or SORTI of no entries too. -/
def State.countSort (s : State) (scn : Nat) : State := s.fwrap (pgScn scn) Reg.SCN_SORT_COUNT_COUNT 1

/-- A SORT job's request is done. -/
def State.sortJobDone (s : State) (scn : Nat) (r : SortReq) (j : Job) (chk : ReadCheck) : State :=
  if !s.readsLive j then (s.popSorter scn).staleEnd j
  else if s.bondWait r.src r.readLen || s.bondWait r.dst r.writeLen then s
  else match (s.denied j.part r.src r.readLen false).or (s.denied j.part r.dst r.writeLen true) with
  | some e => (s.popSorter scn).setJob { j with fail := some e }
  | none =>
    let t := s.readMarks r.src r.readLen chk
    match s.readRes r.src r.readLen chk with
    | .poisoned _ => (t.popSorter scn).setJob { j with fail := some .poisonedRead }
    | .stored _ => if j.tries < j.retry then t.unitRetry j else (t.popSorter scn).unitRetry j
    | .data =>
      let t := (t.guestIn r.src r.readLen).jobMoves { j with place := scn } r.src r.readLen false
      ((((t.jobMoves { j with place := scn } r.dst r.writeLen true).sortWrite r).popSorter scn).countSort scn).setJob (j.unitDone 1)

/-- A tile program's request is done (05 R149). -/
def State.sortTileDone (s : State) (scn w : Nat) (r : SortReq) (chk : ReadCheck) : State :=
  let t := (s.readMarks r.src r.readLen chk).popSorter scn
  match s.readRes r.src r.readLen chk with
  | .poisoned _ => t.setWick w ((t.wick w).hurt .poisoned false)
  | .stored _ => t.setWick w ((t.wick w).hurt .dataError true)
  | .data => (((t.sortWrite r).countSort scn).engDone w).arrive (tokEntry w r.tag r.tok)

/-- SORTER_JOB_DONE: the request in progress, the oldest, is done. -/
def State.sorterDone (s : State) (scn : Nat) (chk : ReadCheck) : State :=
  match (s.sconce scn).sorter with
  | [] => s
  | r :: _ =>
    match r.wick with
    | some w => if (s.wick w).runs r.tag then s.sortTileDone scn w r chk else s.popSorter scn
    | none =>
      match s.job r.tag with
      | some j => if j.phase = .running then s.sortJobDone scn r j chk else s.popSorter scn
      | none => s.popSorter scn

/-! ## The commands -/

/-- CMB. -/
def execCmb (wick : Nat) (f : CmbF) (s : State) : Out :=
  onLive s true (s.issueWith wick (encCmb f) fun _ => s.cmbStep wick f)

/-- COMBINE_FOLD. -/
def execCombineFold (tag grp unit : Nat) (chk : ReadCheck) (s : State) : Out := onLive s true (s.combineFold tag grp unit chk)

/-- COMBINE_RESULT_WRITTEN. -/
def execCombineResultWritten (tag grp unit : Nat) (s : State) : Out := onLive s true (s.combineWritten tag grp unit)

/-- SORTI. -/
def execSorti (wick : Nat) (f : SortiF) (s : State) : Out :=
  onLive s true (s.issueWith wick (encSorti f) fun _ => s.sortiStep wick f)

/-- SORT. -/
def execSort (tag : Nat) (s : State) : Out :=
  onAwake s true (s.withJob tag fun j => if j.opc = .sort ∧ j.phase = .placed then s.sortStart j else s)

/-- SORTER_JOB_DONE. -/
def execSorterJobDone (scn : Nat) (chk : ReadCheck) (s : State) : Out := onLive s true (s.sorterDone scn chk)

end Sys2Proof.Machine
end

