-- ==== Sys2Proof/Machine/Units.lean ====
section
/-!
DEFINITION. Units.lean: TILE_RUN: its start and selector, placing units on Wicks, and how a unit ends (02 R40, R41, R44;
04 R102, R106, R107; 05 R120, R125 to R129, R151; 12 R307 to R312).
-/

namespace Sys2Proof.Machine

open Sys2Proof

/-! ## The job -/

/-- Whether a TILE_RUN selects among programs. -/
def Job.selects (j : Job) : Bool := decide (2 ≤ df j.desc 2 19 16)

/-- Whether FILL fixes the unit-to-Wick map. -/
def Job.fill (j : Job) : Bool := df j.desc 0 24 24 == 1

/-- LMASK of a job on Wicks. -/
def Job.lmask (j : Job) : Nat := if j.opc = .tileRun then df j.desc 5 7 0 else df j.desc 6 39 32

/-- NUNITS. -/
def Job.nunits (j : Job) : Nat := df j.desc 2 40 24

/-- Whether the units of a job start together. -/
def Job.gang (j : Job) : Bool := (j.image.map (·.gang)).getD false

/-- Whether units of a job start together with Wicks held for them (05 R126; 08 R206). -/
def Job.together (j : Job) : Bool := j.gang || j.opc == .attendPaged

/-- The captured directory entry of the program a job runs. -/
def Job.entry (j : Job) : Option DirEntry := j.cands.find? fun e => e.idx == j.prog

/-- Whether too few Wicks are in service for a dequeued job (12 R311): a gang larger than its group's Wicks, a merge group
of an attention job, or no Wick at all. -/
def State.unplaceable (s : State) (j : Job) : Bool :=
  match j.opc with
  | .tileRun =>
    j.nunits != 0 && ((s.allowedWicks j.part j.lmask).isEmpty ||
      ((s.tileShape j.part j.desc).1 == 1 && decide (s.gangLimit j.part j.lmask < j.nunits)))
  | .attendPaged =>
    (s.allowedWicks j.part j.lmask).isEmpty || decide (s.gangLimit j.part j.lmask < df j.desc 5 38 32)
  | .pageScore => (s.allowedWicks j.part j.lmask).isEmpty
  | _ => false

/-- Whether a job still has Wicks to be given. -/
def Job.wantsWicks (j : Job) : Bool :=
  (j.opc == .tileRun || j.opc == .attendPaged || j.opc == .pageScore) && j.fail.isNone &&
    (j.notStarted || (j.phase == .running && j.units.any fun u => u.phase == .fresh || u.phase == .retry))

/-- A job that can no longer be placed ends FAILED with UNIT_QUARANTINED. -/
def State.endUnplaceable (s : State) (j : Job) : State :=
  if j.notStarted then (s.setJob (j.finish .failed .unitQuarantined)).retagSweep
  else s.failWickJob j.tag .unitQuarantined

/-- After a quarantine every dequeued job is looked at again (12 R311). -/
def State.sweepUnplaceable (s : State) : State :=
  s.jobs.foldl (fun t j => if j.wantsWicks && t.unplaceable j then t.endUnplaceable j else t) s

/-- The start of a TILE_RUN: the header of the captured program names its shape, and the units are listed. The image is
read when a Wick loads it (05 R135). -/
def State.tileStart (s : State) (j : Job) : State :=
  if j.nunits = 0 then s.setJob (j.begin_ 0)
  else if j.selects ∧ j.aux = [] then s
  else if s.unplaceable j then s.endUnplaceable j
  else match j.entry with
    | none => s
    | some e =>
      s.setJob { j with
        phase := .running, total := j.nunits, progGen := e.gen
        image := some (parseImage (s.load e.addr e.size))
        units := (List.range j.nunits).map fun u => { idx := u, phase := .fresh, wick := 0, attempt := 0, own := false } }

/-- The selector word is read (05 R125): PROG + min(value, NSEL − 1). -/
def State.selectorRead (s : State) (j : Job) (chk : ReadCheck) : State :=
  if !s.readsLive j then s.staleEnd j
  else
    let a := (j.ref 0).addr
    let t := s.readMarks a 4 chk
    match s.readRes a 4 chk with
    | .poisoned _ => (t.setJob (j.finish .failed .poisonedRead)).retagSweep
    | .stored _ =>
      if j.tries = 0 then t.setJob { j with tries := 1 } else (t.setJob (j.finish .failed .dataErrorDetected)).retagSweep
    | .data =>
      let t := t.traffic none 8 j.tc j.part a 4 false
      t.setJob { j with prog := j.prog + Nat.min (t.loadLE a 4) (df j.desc 2 19 16 - 1), tries := 0, aux := [1] }

/-! ## Placing (05 R126 to R128, R135; 04 R102, R107) -/

/-- Whether a Lantern's clock is gated: in Glow, while no Wick of it has a unit (18 R426, R429). -/
def State.gated (s : State) (n : Nat) : Bool :=
  s.fget pgPWR Reg.PWR_CTRL_STATE == 1 && !(s.wicks.any fun x => x.1 / 64 == n && x.2.st != .idle && x.2.st != .quarantined)

/-- The LCLK cycles of the 5 µs by which the first unit on a gated Lantern may start late (18 R429). -/
def State.gateCycles (s : State) (n : Nat) : Nat := if s.gated n then 5 * 25 * s.fgetI pgTRM n Reg.TRM_LANTERN_GRANT else 0

/-- Whether a Wick clears its storage before a unit of partition `p` (04 R107). -/
def Wick.clears (x : Wick) (p : Nat) : Bool := !x.used || x.part != p

/-- Whether the program buffer already holds the program. -/
def Wick.holds (x : Wick) (p prog gen : Nat) : Bool :=
  x.image.isSome && x.progPart == p && x.prog == prog && x.progGen == gen

/-- The Wick FILL names for unit `u`. -/
def State.fillWick (s : State) (j : Job) (u : Nat) : Option Nat :=
  let ws := s.allowedWicks j.part j.lmask
  ws[u % ws.length]?

/-- The declared cycles of a unit of ATTEND_PAGED (08 R210). -/
def State.attnCycles (s : State) (j : Job) (u : Nat) : Nat :=
  let rows := j.rgRows (j.unitRg u)
  let rb := (rows + 31) / 32
  let unit := 512 + 96 * rb + (j.unitPages u).length * rb * (320 + df j.desc 6 55 40)
  if j.unitRange u = 0 then
    let spans := (((List.range j.nsplit).filterMap fun k => s.fillWick j (u + k)).map lanternOf).eraseDups.length
    unit + (j.nsplit - 1) * ((9 * rows + 3) / 4) + 6 * rows + 1024 * (spans - 1)
  else unit

/-- The declared cycles of unit `u` of a job on Wick `w`: DUR and the load (05 R128), or those of a built-in program
(08 R210), and the clearing (04 R107). -/
def State.unitCycles (s : State) (j : Job) (u w : Nat) : Nat :=
  (if j.opc = .attendPaged then s.attnCycles j u
   else match j.image with
    | none => 0
    | some im => im.dur + if (s.wick w).holds j.part j.prog j.progGen then 0 else im.loadCycles) +
    if (s.wick w).clears j.part then 1024 else 0

/-- The shared entries a job needs on a Lantern are its own already or are free (04 R102). -/
def State.entriesFree (s : State) (j : Job) (n : Nat) : Bool :=
  j.lanterns.contains n ||
    decide ((s.jobs.foldl (fun a k => if k.lanterns.contains n then a + ((k.image.map (·.nshared)).getD 0) else a) 0) +
      ((j.image.map (·.nshared)).getD 0) ≤ 4096)

/-- Whether a Wick could take unit `u` of a job now, the order among jobs aside. -/
def State.wickFits (s : State) (j : Job) (u w : Nat) : Bool :=
  (s.wick w).st == .idle && (s.allowedWicks j.part j.lmask).contains w && s.entriesFree j (lanternOf w) &&
    s.fits j.part (lanternOf w) (some w) (s.unitCycles j u w + s.gateCycles (lanternOf w))

/-- Whether a unit can be placed as far as its job's data go: of an attention job once every sequence is captured and the
pages of its row group are known (08 R197, R213). -/
def Job.unitReady (j : Job) (u : Nat) : Bool :=
  j.opc == .tileRun ||
    (j.opc == .attendPaged && (j.seqs.all fun c => c.st == .held || c.st == .passed) &&
      (j.seqOf (j.unitSeq u)).any fun c => (j.attended c (j.unitRg u)).isSome)

/-- Whether a job has units to place. -/
def Job.placeable (j : Job) : Bool :=
  (j.opc == .tileRun || j.opc == .attendPaged) && j.phase == .running && j.fail.isNone &&
    j.units.any fun u => (u.phase == .fresh || u.phase == .retry) && j.unitReady u.idx

/-- The oldest placeable job of a partition. -/
def State.oldest (s : State) (p : Nat) : Option Job :=
  (s.jobs.filter fun j => j.part == p && j.placeable).foldl (fun b j =>
    match b with
    | none => some j
    | some k => if j.seqNo < k.seqNo then some j else some k) none

/-- Whether the Wicks of a job's partition are held for an older gang (05 R126). -/
def State.heldForGang (s : State) (j : Job) : Bool :=
  match s.oldest j.part with
  | some k => k.together && k.tag != j.tag
  | none => false

/-- Whether a Wick runs open-time work now: no window covers its group, or it lies outside the set of the window's owner
(02 R40, R41). -/
def State.openTime (s : State) (w : Nat) : Bool :=
  match s.window (s.groupOf (lanternOf w)) with
  | none => true
  | some (_, _, owner, _) => !(s.cfg.part owner).wicks.getLsbD w

/-- Whether the Wick is one that unit `u` of a job may go to by the map its opcode or FILL fixes; a re-executed unit may go to
any (05 R126; 08 R206; 12 R308). -/
def State.onMap (s : State) (j : Job) (x : WUnit) (w : Nat) : Bool :=
  x.phase == .retry || !(j.fill || j.opc == .attendPaged) || s.fillWick j x.idx == some w

/-- Whether a job has a unit that could start on a Wick now: no older gang of its partition holds the Wicks, and a gang or
merge group only once it is the oldest, from when on the Wick is held for it (05 R126). -/
def State.wantsWick (s : State) (k : Job) (w : Nat) : Bool :=
  k.placeable && !s.heldForGang k && (!k.together || (s.oldest k.part).any fun o => o.tag == k.tag) &&
    k.units.any fun x => (x.phase == .fresh || x.phase == .retry) && k.unitReady x.idx && s.onMap k x w && s.wickFits k x.idx w

/-- Whether, in open time, a partition of higher rank has a unit for the Wick (02 R41, R44). -/
def State.outranked (s : State) (j : Job) (w : Nat) : Bool :=
  s.openTime w && s.jobs.any fun k => decide (s.rankKey k.part < s.rankKey j.part) && s.wantsWick k w

/-- Whether the query rows of unit `u` of an attention job meet a bank under test: the unit waits for it (15 R368). -/
def State.startWaits (s : State) (j : Job) (u : Nat) : Bool :=
  j.opc == .attendPaged && s.bondWait (j.rowAddr (j.ref 1) (j.unitSeq u) (256 * j.unitRg u)) (256 * j.rgRows (j.unitRg u))

/-- Whether a Wick may take unit `u` of a job. -/
def State.mayPlace (s : State) (j : Job) (u w : Nat) : Bool :=
  s.wickFits j u w && !s.heldForGang j && !s.outranked j w && !s.startWaits j u

/-- The registers at unit start (05 Table 3). -/
def startRegs (regs : List (Nat × Word32)) (j : Job) (u w att : Nat) : List (Nat × Word32) :=
  let l : List (Nat × Word32) :=
    [(1, BitVec.ofNat 32 u), (2, BitVec.ofNat 32 j.nunits), (3, BitVec.ofNat 32 w),
     (4, if j.frameJob then j.f else j.d), (5, BitVec.ofNat 32 att)] ++
    (List.range j.scal.length).map fun i => (6 + i, BitVec.ofNat 32 (j.scal.getD i 0))
  l.foldl (fun r p => aset r p.1 p.2) regs

/-- A Wick at the start of a unit. -/
def Wick.begin_ (x : Wick) (j : Job) (u w att : Nat) : Wick :=
  let c := x.clears j.part
  { x with
    st := .running, used := true, part := j.part, tag := j.tag, unit := u, attempt := att
    prog := j.prog, progGen := j.progGen, progPart := j.part, image := j.image
    pc := 0, lastPc := 0, ended := false, endBy := 0, loops := [], hold := .none, fault := none, faultOwn := false, faultPeer := none
    sregs := startRegs (if c then [] else x.sregs) j u w att
    vregs := if c then [] else x.vregs
    pregs := if c then [] else x.pregs
    tiles := if c then [] else x.tiles
    kpos := if c then [] else x.kpos
    scales := if c then [] else x.scales
    lcnt := [], toks := [], sbuf := [], dma0 := [], dma1 := [], dma2 := [], dma3 := [], engOut := 0, cmbNo := []
    apw := none }

/-- A job with unit `u` on Wick `w`. -/
def Job.placed_ (j : Job) (u w : Nat) : Job :=
  { j with
    units := j.units.map fun x => if x.idx = u then { x with phase := .running, wick := w, own := false } else x
    lanterns := if j.lanterns.contains (lanternOf w) then j.lanterns else j.lanterns ++ [lanternOf w]
    st := j.unitStarts.st }

/-- Shared entries of a Lantern are at zero when a job receives them. -/
def State.freshShared (s : State) (j : Job) (n : Nat) : State :=
  if j.lanterns.contains n then s
  else { s with shToks := s.shToks.filter fun k => k.1 / 256 != j.tag * 8 + n }

/-- The pages of a built-in program's unit are done (08 R206): its partials go to the Combine group, unless an execution
before this one has contributed them; a group of one needs no merge. -/
def State.apwFinish (s : State) (w : Nat) (j : Job) : State :=
  let x := s.wick w
  let grp := j.unitGrp x.unit
  let inst := s.cmbs.find? fun c => c.tag == j.tag && c.grp == grp
  let folded := inst.any fun c => c.folded.any fun p => p.unit == x.unit
  let waits := inst.any fun c => c.waiting.any fun p => p.unit == x.unit
  let root := j.unitRange x.unit == 0
  if j.nsplit ≤ 1 then s.setWick w { x with ended := true }
  else
    let t := s.setWick w { x with ended := true, engOut := if folded && !root then 0 else 1 }
    if folded || waits then t else t.contribute j.tag grp 0 { unit := x.unit, src := 0, dst := 0, tok := 0 }

/-- A read that a unit needs at its start ends (12 R303): poison or a stored error is a fault of the unit, which lies in the
memory read and not in the Wick (12 R309). -/
def State.startRead (s : State) (j : Job) (w a n : Nat) (chk : ReadCheck) (bad : Wick → Wick) (ok : State → State) : State :=
  match s.denied j.part a n false with
  | some e => s.setWick w (bad ((s.wick w).faulted (if e = .lengthExceedsExtent then .lengthExceeds else .partition) false))
  | none =>
    let t := s.readMarks a n chk
    match s.readRes a n chk with
    | .data => ok ((t.guestIn a n).traffic (some (.wick w)) (lanternOf w) j.tc j.part a n false)
    | .poisoned _ => t.setWick w (bad ((t.wick w).faulted .poisoned false))
    | .stored _ => t.setWick w (bad ((t.wick w).faulted .dataError false))

/-- The load of a program into a Wick's program buffer, skipped where the buffer holds it (05 R135); an image that fails its
read is not held. -/
def State.loadImage (s : State) (j : Job) (w : Nat) (held : Bool) (chk : ReadCheck) : State :=
  match j.entry with
  | some e => if held then s else s.startRead j w e.addr e.size chk (fun x => { x with image := none }) id
  | none => s

/-- A Wick under a built-in attention program: what that program makes of the registers and tiles the spec does not say (log
entry 31). -/
def State.apwUses (s : State) (w : Nat) : State :=
  if (s.wick w).apw.isSome then
    { s.setWick w (((s.wick w).undefRegs s.draws).undefTiles (s.draws + 8192)) with draws := s.draws + 32768 }
  else s

/-- A built-in program starts its unit (08 R206, R209): the query rows are read, the partials are empty. -/
def State.apwStart (s : State) (j : Job) (u w : Nat) (chk : ReadCheck) : State :=
  let n := j.unitSeq u
  let rg := j.unitRg u
  let a := j.rowAddr (j.ref 1) n (256 * rg)
  s.startRead j w a (256 * j.rgRows rg) chk id fun s =>
    let t := (s.setWick w { s.wick w with apw := some {
      row0 := 256 * rg, rows := s.qRows j n rg, left := j.unitPages u, part := List.replicate (j.rgRows rg) emptyPart } }).apwUses w
    if j.unitPages u = [] then t.apwFinish w j else t

/-- Start unit `u` of the job of a tag on Wick `w`: the clearing, the load and the state at unit start. -/
def State.startUnit (s : State) (tag u w : Nat) (chk : ReadCheck) : State :=
  match s.job tag with
  | none => s
  | some j =>
    let att := ((j.units.find? fun x => x.idx == u).map (·.attempt)).getD 0
    let held := (s.wick w).holds j.part j.prog j.progGen
    let s := if (s.wick w).clears j.part then s.zero (padBase w) padSize else s
    let s := s.freshShared j (lanternOf w)
    let x := { (s.wick w).begin_ j u w att with
      clearTo := if (s.wick w).clears j.part then s.now + (s.lclkNs (lanternOf w) 1024 + 3) / 4 else 0 }
    let s := ((s.setWick w x).setJob (j.placed_ u w)).trace 2 (lanternOf w) 1
    if j.opc = .attendPaged then s.apwStart j u w chk else s.loadImage j w held chk

/-- Whether a list of Wicks suits a gang: one for each unit, all different, in one Lantern group, each fit to start. -/
def State.gangFits (s : State) (j : Job) (ws : List Nat) : Bool :=
  ws.length == j.nunits && ws.Nodup &&
    (ws.all fun w => s.groupOf (lanternOf w) == s.groupOf (lanternOf (ws.headD 0)) && s.mayPlace j 0 w)

/-- Start every unit of a gang, unit `u` on the `u`-th Wick. -/
def State.startGang (s : State) (tag : Nat) (ws : List Nat) (chk : ReadCheck) : State :=
  (List.range ws.length).foldl (fun t u => t.startUnit tag u (ws.getD u 0) chk) s

/-- Whether a unit could start now on the Wick its map names. -/
def State.fillReady (s : State) (j : Job) (u : Nat) : Bool :=
  j.unitReady u && (s.fillWick j u).any fun w => s.mayPlace j u w

/-- Whether unit `u` is the next of its job to be placed first: units go in ascending index as Wicks become free; with FILL each
on its own Wick, after the earlier units of that Wick and after every unit below `base` whose own Wick could take it now
(05 R126; log entry 31). -/
def State.nextFresh (s : State) (j : Job) (u w base : Nat) : Bool :=
  (j.units.any fun x => x.idx == u && x.phase == .fresh) &&
    (if j.fill || j.opc == .attendPaged then
      s.fillWick j u == some w &&
        (j.units.all fun x => decide (u ≤ x.idx) || x.phase != .fresh ||
          (s.fillWick j x.idx != some w && (decide (base ≤ x.idx) || !s.fillReady j x.idx)))
     else j.units.all fun x => decide (u ≤ x.idx) || x.phase != .fresh)

/-- Whether a list of Wicks suits the merge group of root unit `u`: each its unit's own by the FILL map, all fit to start
in one placement round (08 R206). -/
def State.mergeFits (s : State) (j : Job) (u : Nat) (ws : List Nat) : Bool :=
  u % j.nsplit == 0 && ws.length == j.nsplit && j.unitReady u &&
    (List.range ws.length).all fun k => s.nextFresh j (u + k) (ws.getD k 0) u && s.mayPlace j (u + k) (ws.getD k 0)

/-- Start the units of a merge group. -/
def State.startMerge (s : State) (tag u : Nat) (ws : List Nat) (chk : ReadCheck) : State :=
  (List.range ws.length).foldl (fun t k => t.startUnit tag (u + k) (ws.getD k 0) chk) s

/-- UNIT_PLACE: first executions. -/
def State.unitPlace (s : State) (j : Job) (u : Nat) (ws : List Nat) (chk : ReadCheck) : State :=
  if !j.placeable then s
  else if j.opc = .attendPaged then
    if !s.readsLive j then s.staleWickJob j.tag
    else if s.mergeFits j u ws then s.startMerge j.tag u ws chk
    else s
  else if j.gang then
    if (j.units.all fun x => x.phase == .fresh) && s.gangFits j ws &&
        (!j.fill || (List.range ws.length).all fun k => s.fillWick j k == ws[k]?) then s.startGang j.tag ws chk
    else s
  else match ws with
    | [w] => if s.nextFresh j u w u && s.mayPlace j u w then s.startUnit j.tag u w chk else s
    | _ => s

/-- The Wicks a re-execution avoids while others are free: those an error was attributed to (12 R308). -/
def Job.badWicks (j : Job) : List Nat := (j.units.filter fun u => u.phase == .retry && u.own).map (·.wick)

/-- Whether some Lantern group has a Wick for every unit of a gang without those an error was attributed to. -/
def State.gangElsewhere (s : State) (j : Job) : Bool :=
  (List.range 8).any fun g =>
    decide (j.nunits ≤ ((s.allowedWicks j.part j.lmask).filter fun w =>
      s.groupOf (lanternOf w) == g && s.mayPlace j 0 w && !j.badWicks.contains w).length)

/-- UNIT_REEXECUTE: a unit, or the whole gang, is placed again (12 R308). -/
def State.unitAgain (s : State) (j : Job) (u : Nat) (ws : List Nat) (chk : ReadCheck) : State :=
  if !j.placeable then s
  else if j.gang then
    if (j.units.all fun x => x.phase == .retry) && s.gangFits j ws &&
        ((ws.all fun w => !j.badWicks.contains w) || !s.gangElsewhere j) then s.startGang j.tag ws chk
    else s
  else match ws with
    | [w] =>
      if (j.units.any fun x => x.idx == u && x.phase == .retry && (!x.own || x.wick != w ||
            ((s.allowedWicks j.part j.lmask).filter fun v => s.mayPlace j u v && v != w).isEmpty)) && s.mayPlace j u w then
        s.startUnit j.tag u w chk
      else s
    | _ => s

/-! ## How a unit ends (05 R129, R151; 12 R307 to R310) -/

/-- Whether the output of a unit of a built-in program meets a bank under test: the unit completes later (15 R368). -/
def State.unitWaits (s : State) (x : Wick) (j : Job) : Bool :=
  j.opc == .attendPaged && decide (j.nsplit ≤ 1) && s.outWaits j (j.unitGrp x.unit)

/-- A Wick free again, its content kept. -/
def Wick.rest (x : Wick) : Wick := { x with st := .idle, hold := .none, fault := none, apw := none }

/-- What the completion of a unit does to its job: a unit of a built-in program counts only once its sequence has passed its
check (08 R212), and writes its output itself where it needs no merge. -/
def State.unitCounts (s : State) (w : Nat) (x : Wick) (j : Job) : State :=
  let units := j.units.map fun u => if u.idx = x.unit then { u with phase := .done } else u
  if j.opc = .attendPaged then
    let t := s.setJob { j with units := units }
    if j.nsplit ≤ 1 then t.attnOutput j (lanternOf w) (j.unitGrp x.unit) ((x.apw.map (·.part)).getD []) else t
  else s.setJob { j.unitDone 1 with units := units }

/-- A unit completes (05 R129). -/
def State.unitComplete (s : State) (w : Nat) : State :=
  let x := s.wick w
  if x.st = .running ∧ x.ended ∧ x.fault = none ∧ x.dmaIdle ∧ x.sbuf = [] ∧ x.engOut = 0 then
    match s.job x.tag with
    | some j =>
      if s.unitWaits x j then s
      else ((s.setWick w x.rest).dropPriv w).unitCounts w x j
    | none => s
  else s

/-- A quarantine (12 R311): the Wick leaves service, its page captures it, the line of its Sconce pulses, the lifetime log
records it and the jobs that can no longer be placed end. -/
def State.quarantine (s : State) (w : Nat) : State :=
  let s := s.setWick w { s.wick w with st := .quarantined }
  let s := s.captureLine (pgWck w) .unitQuarantined 0 (lineScn (sconceOf w))
  ({ s with flog := s.flog ++ [(0, w)] }).sweepUnplaceable.roundCheck

/-- A failure of a Wick in the current frame (12 R310). -/
def State.wickFailure (s : State) (w : Nat) : State :=
  let pg := pgWck w
  let e1 := s.reg pg 0 0x06C
  let e2 := s.reg pg 0 0x070
  if 2 ≤ s.fget pg Reg.WCK_FAILS_COUNT ∧ (s.epoch - e2).toNat ≤ 999 then s.quarantine w
  else ((s.setReg pg 0 0x070 e1).setReg pg 0 0x06C s.epoch).fadd pg Reg.WCK_FAILS_COUNT 1

/-- The code of a unit's fault (05 Table 17). -/
def UnitErrCode : UnitErr → Err
  | .dataError => .dataErrorDetected
  | .poisoned => .poisonedRead
  | .misaligned => .misaligned
  | .lengthExceeds => .lengthExceedsExtent
  | .countExceeds => .countExceedsLimit
  | .partition => .partitionViolation
  | .deadline => .deadlineMissed
  | .firewall => .firewallViolation

/-- Re-executions already used by unit `u` of a job. -/
def Job.attemptOf (j : Job) (u : Nat) : Nat := ((j.units.find? fun x => x.idx == u).map (·.attempt)).getD 0

/-- A unit of the job waits for re-execution; of a gang every unit, and PROGRESS falls back by those counted. -/
def Job.retryUnit (j : Job) (u w : Nat) (own : Bool) : Job :=
  if j.gang then
    let n := (j.units.filter fun x => x.phase == .done).length
    { j with
      attempts := j.attempts + 1, step := j.step - n, progress := j.progress - n
      units := j.units.map fun x => { x with phase := .retry, attempt := x.attempt + 1, own := own && x.wick == w } }
  else
    { j with
      attempts := j.attempts + 1
      units := j.units.map fun x =>
        if x.idx = u then { x with phase := .retry, attempt := x.attempt + 1, own := own } else x }

/-- A unit ends with a detected error: it runs again while RETRY allows (12 R307). The Wick in whose storage the check failed
has one failure (12 R309). -/
def State.unitDataError (s : State) (w : Nat) (own : Bool) : State :=
  let x := s.wick w
  match s.job x.tag with
  | none => s
  | some j =>
    let s1 :=
      if j.attemptOf x.unit < j.retry then
        let s := if j.gang then s.stopUnits j.tag else (s.setWick w x.stop).dropPriv w
        (s.setJob (j.retryUnit x.unit w own)).trace 7 0 1
      else (s.failWickJob j.tag .recomputeExhausted).exhausted j.part
    match own, x.faultPeer with
    | true, _ => s1.wickFailure w
    | false, some v => s1.wickFailure v
    | false, none => s1

/-- A fault of a unit is reported in its Wick's page and on its Sconce's line (12 R313, 20 R482); a poisoned read is
reported by the memory that holds the mark (log entry 32). -/
def State.noteUnit (s : State) (w : Nat) (e : UnitErr) : State :=
  if e = .poisoned then s else s.captureLine (pgWck w) (UnitErrCode e) 0 (lineScn (sconceOf w))

/-- A unit ends with a fault (05 R151). An error the environment names is a detected error in storage the unit read; one
in the Wick's own storage is counted and captured in its page. -/
def State.unitFault (s : State) (w : Nat) (cause : UnitErr) (own : Bool) : State :=
  let x := s.wick w
  if x.st ≠ .running then s
  else match x.fault with
    | some .dataError => s.unitDataError w x.faultOwn
    | some e => (s.noteUnit w e).failWickJob x.tag (UnitErrCode e)
    | none =>
      if cause = .dataError then
        let t :=
          if own then (s.fadd (pgWck w) Reg.WCK_DET_COUNT 1).captureLine (pgWck w) .dataErrorDetected 0 (lineScn (sconceOf w))
          else s
        t.unitDataError w own
      else s

/-- A unit that has not reached END in its time (05 R128), or the root of a merge group that has not merged in it (08 R210);
a fault met before comes first (05 R151). -/
def State.durExpired (s : State) (w : Nat) : State :=
  let x := s.wick w
  if x.st = .running ∧ (!x.ended ∨ (x.apw.isSome ∧ x.engOut ≠ 0)) ∧ x.fault = none then
    (s.captureLine (pgWck w) .deadlineMissed 0 (lineScn (sconceOf w))).failWickJob x.tag .deadlineMissed
  else s

/-- A stopped Wick is free once its DMA requests are done (04 R106). -/
def State.stopDone (s : State) (w : Nat) : State :=
  let x := s.wick w
  if x.st = .stopping ∧ x.dmaIdle then s.setWick w { x.rest with sbuf := [], toks := [], engOut := 0 } else s

/-! ## The commands -/

/-- TILE_RUN. -/
def execTileRun (tag : Nat) (s : State) : Out :=
  onAwake s true (s.withJob tag fun j => if j.opc = .tileRun ∧ j.phase = .placed then s.tileStart j else s)

/-- SELECTOR_READ_DONE. -/
def execSelectorReadDone (tag : Nat) (chk : ReadCheck) (s : State) : Out :=
  onAwake s true (s.withJob tag fun j =>
    if j.opc = .tileRun ∧ j.phase = .placed ∧ j.selects ∧ j.aux = [] then s.selectorRead j chk else s)

/-- UNIT_PLACE. -/
def execUnitPlace (tag unit : Nat) (wicks : List Nat) (chk : ReadCheck) (s : State) : Out :=
  onAwake s true (s.withJob tag fun j => s.unitPlace j unit wicks chk)

/-- UNIT_REEXECUTE. -/
def execUnitReexecute (tag unit : Nat) (wicks : List Nat) (chk : ReadCheck) (s : State) : Out :=
  onAwake s true (s.withJob tag fun j => s.unitAgain j unit wicks chk)

/-- UNIT_COMPLETE. -/
def execUnitComplete (wick : Nat) (s : State) : Out := onLive s true (s.unitComplete wick)

/-- UNIT_FAULT. -/
def execUnitFault (wick : Nat) (cause : UnitErr) (own : Bool) (s : State) : Out := onLive s true (s.unitFault wick cause own)

/-- UNIT_DUR_EXPIRED. -/
def execUnitDurExpired (wick : Nat) (s : State) : Out := onLive s true (s.durExpired wick)

/-- WICK_STOP_DONE. -/
def execWickStopDone (wick : Nat) (s : State) : Out := onLive s true (s.stopDone wick)

end Sys2Proof.Machine
end

