-- ==== Sys2Proof/Machine/Attn.lean ====
section
/-!
DEFINITION. Attn.lean: ATTEND_PAGED and PAGE_SCORE: capture of sequence descriptors, coarse selection, the page walk, the
table check (08 R193 to R214).
-/

namespace Sys2Proof.Machine

open Sys2Proof

/-! ## Start and capture (08 R195, R197, R211) -/

/-- The sequences of a job before their capture. -/
def Job.openSeqs (j : Job) : List SeqCap :=
  (List.range j.nseq).map fun n =>
    { seq := n, st := .open_, tbase := 0, sbase := 0, len := 0, ver := 0, ents := [], rerun := false }

/-- The start of an attention job: its sequences are to be captured, and the units of ATTEND_PAGED are listed. -/
def State.attnStart (s : State) (j : Job) : State :=
  if j.attnEmpty then s.setJob (j.begin_ 0)
  else if s.unplaceable j then s.endUnplaceable j
  else
    s.setJob { j.list (j.nseq * j.rgs) with
      seqs := j.openSeqs
      units := if j.opc = .attendPaged then
          (List.range (j.nseq * j.rgs * j.nsplit)).map fun u => { idx := u, phase := .fresh, wick := 0, attempt := 0, own := false }
        else [] }

/-- Whether a job is an attention job that runs. -/
def Job.attnRuns (j : Job) : Bool :=
  (j.opc == .attendPaged || j.opc == .pageScore) && j.phase == .running && j.fail.isNone

/-- The master whose rights the page walks of a job use (02 R55; log entry 9). -/
def State.attnMaster (s : State) (j : Job) : Master := s.jobMaster j.opc j.part j.desc

/-- An error of an attention job outside its units: a detected error is tried again within RETRY (08 Table 7). -/
def State.attnRetry (s : State) (j : Job) : State :=
  if j.tries < j.retry then (s.setJob { j with tries := j.tries + 1, attempts := j.attempts + 1 }).trace 7 0 1
  else (s.failWickJob j.tag .recomputeExhausted).exhausted j.part

/-- The Lantern of a row group's root: that of the Wick of its range 0; for PAGE_SCORE the first Lantern allowed (log
entry 14). -/
def State.rootLantern (s : State) (j : Job) (n rg : Nat) : Nat :=
  let u := if j.opc = .attendPaged then (n * j.rgs + rg) * j.nsplit else 0
  lanternOf ((s.fillWick j u).getD 0)

/-- A read of an attention job outside its units, from the port of Lantern `n` (log entry 14) in the job's class: it waits for a
bank under test; a place that turns it away or poison fails the job, a stored error is tried again. -/
def State.attnRead (s : State) (j : Job) (ln a n : Nat) (chk : ReadCheck) (ok : State → State) : State :=
  if s.bondWait a n then s
  else match s.denied j.part a n false with
  | some e => s.failWickJob j.tag e
  | none =>
    let t := s.readMarks a n chk
    match s.readRes a n chk with
    | .poisoned _ => t.failWickJob j.tag .poisonedRead
    | .stored _ => t.attnRetry j
    | .data => ok ((t.guestIn a n).traffic (some (t.jobMaster j.opc j.part j.desc)) ln j.tc j.part a n false)

/-- A sequence descriptor of 64 bytes as captured. -/
def parseSeq (n : Nat) (old : SeqCap) (d : Nat) : SeqCap :=
  { seq := n, st := .held, tbase := df d 0 47 0, sbase := df d 1 47 0, len := df d 2 22 0
    ver := BitVec.ofNat 32 (df d 2 63 32), ents := [], rerun := old.rerun }

/-- Whether a reserved field of a sequence descriptor is nonzero (08 Table 3). -/
def seqReserved (d : Nat) : Bool :=
  df d 0 63 48 != 0 || df d 1 63 48 != 0 || df d 2 31 23 != 0 || !wordsZero d 4

/-- The fault of a captured descriptor, if any (08 Table 7, its rows in order). -/
def State.seqFault (s : State) (j : Job) (d : Nat) (c : SeqCap) : Option Err :=
  let m := s.attnMaster j
  if seqReserved d then some .reservedNonzero
  else if (j.opc == .attendPaged && c.tbase % 64 != 0) || (j.coarse && c.sbase % 128 != 0) then some .misaligned
  else if 4194304 < c.len then some .countExceedsLimit
  else if (j.opc == .attendPaged && c.np != 0 && !s.cfg.mayAccess m j.part c.tbase (8 * c.np) false) ||
      (j.coarse && c.np != 0 && !s.cfg.mayAccess m j.part c.sbase (128 * c.np) false) then some s.cfg.denyErr
  else none

/-- The job after the capture of a sequence: at a second capture the units of the sequence run again (08 R201). The first
unit of a PAGE_SCORE starts with its first captured sequence (log entry 12). -/
def Job.captured (j : Job) (old c : SeqCap) : Job :=
  let j := j.setSeq c
  let j := if j.opc = .pageScore then j.unitStarts else j
  if old.st = .again then
    { j with
      sels := j.sels.filter fun x => x.seq != c.seq
      units := j.units.map fun u => if j.unitSeq u.idx = c.seq then { u with phase := .fresh } else u }
  else j

/-- Whether a sequence may be captured now: at first, or again once every other sequence has been checked (08 R201,
R202). -/
def Job.capturable (j : Job) (c : SeqCap) : Bool :=
  c.st == .open_ || (c.st == .again && j.seqs.all fun x => x.st != .held || x.rerun)

/-- SEQ_DESCRIPTOR_CAPTURE. -/
def State.seqCapture (s : State) (j : Job) (n : Nat) (chk : ReadCheck) : State :=
  match j.seqOf n with
  | none => s
  | some old =>
    if !j.capturable old then s
    else if !s.readsLive j then s.staleWickJob j.tag
    else
      let a := (j.ref 0).addr + 64 * n
      s.attnRead j (s.rootLantern j n 0) a 64 chk fun t =>
        let d := t.loadLE a 64
        let c := parseSeq n old d
        match t.seqFault j d c with
        | some e => t.failWickJob j.tag e
        | none => t.setJob ({ j with tries := 0 }.captured old c)

/-! ## The coarse index (08 R213, R214) -/

/-- The candidates of a sequence, and the entries of its recent window. -/
def Job.candidates (j : Job) (c : SeqCap) : Nat := c.np - Nat.min j.win c.np
def Job.window (j : Job) (c : SeqCap) : List Nat := (List.range (Nat.min j.win c.np)).map (· + j.candidates c)

/-- The 128 element codes of a summary key. -/
def State.summaryKey (s : State) (c : SeqCap) (e : Nat) : List Nat :=
  (List.range 128).map fun d => s.loadLE (c.sbase + 128 * e + d) 1

/-- The ranked Sorter entries of a row group: key the FP32 score, payload the entry index (08 R213; 04 R115). -/
def State.ranked (s : State) (j : Job) (c : SeqCap) (rg : Nat) : List Nat :=
  let mean := meanQuery (s.qRows j c.seq rg)
  let es := (List.range (j.candidates c)).map fun e => (summaryScore mean (s.summaryKey c e)).toNat + e * 2 ^ 32
  (sortEntries 0 false es).take j.topk

/-- The selection of a row group: the ranked pages and the window, in ascending order. -/
def Job.selection (j : Job) (c : SeqCap) (ranked : List Nat) : List Nat :=
  let top := ranked.map (· / 2 ^ 32)
  ((List.range (j.candidates c)).filter fun e => top.contains e) ++ j.window c

/-- The counters a selection advances. -/
def State.countScore (s : State) (j : Job) (c : SeqCap) (rg : Nat) : State :=
  let n := s.rootLantern j c.seq rg
  let s := s.fwrap (pgAPW n) Reg.APW_SCORED_COUNT (j.candidates c)
  if j.candidates c = 0 ∨ j.topk = 0 then s else s.fwrap (pgScn (8 * n)) Reg.SCN_SORT_COUNT_COUNT 1

/-- A PAGE_SCORE list (08 Table 8). -/
def Job.scoreList (j : Job) (c : SeqCap) (ranked : List Nat) : List Byte :=
  toLE 4 c.ver.toNat ++ toLE 4 c.len ++ toLE 2 ranked.length ++ toLE 2 (j.window c).length ++ List.replicate 52 0 ++
    ranked.flatMap (toLE 8) ++ List.replicate (2048 - 8 * ranked.length) 0

/-- Where the list of a row group goes. -/
def Job.scoreAddr (j : Job) (c : SeqCap) (rg : Nat) : Nat := (j.ref 2).addr + 2112 * (c.seq * j.rgs + rg)

/-- What a selection leaves: ATTEND_PAGED keeps it, PAGE_SCORE writes it. -/
def State.selected (s : State) (j : Job) (c : SeqCap) (rg : Nat) : State :=
  let r := s.ranked j c rg
  let t := s.countScore j c rg
  if j.opc = .pageScore then
    t.attnWrite j (t.rootLantern j c.seq rg) (j.scoreAddr c rg) (j.scoreList c r) fun t => t.setJob (j.unitDone 1)
  else t.setJob { j with tries := 0, sels := j.sels ++ [{ seq := c.seq, rg := rg, pages := j.selection c r }] }

/-- Whether the selection of a row group is due: in ascending order for PAGE_SCORE (08 R214). -/
def Job.selectable (j : Job) (c : SeqCap) (rg : Nat) : Bool :=
  c.st == .held && decide (rg < j.rgs) && j.coarse &&
    (if j.opc = .pageScore then j.step == c.seq * j.rgs + rg else (j.attended c rg).isNone)

/-- Whether an access of a selection meets a bank under test (15 R368). -/
def State.selectWaits (s : State) (j : Job) (c : SeqCap) (rg : Nat) : Bool :=
  s.bondWait (j.rowAddr (j.ref 1) c.seq (256 * rg)) (256 * j.rgRows rg) || s.bondWait c.sbase (128 * j.candidates c) ||
    (j.opc == .pageScore && s.bondWait (j.scoreAddr c rg) 2112)

/-- COARSE_SELECTION_DONE. -/
def State.selectDone (s : State) (j : Job) (n rg : Nat) (chk : ReadCheck) : State :=
  match j.seqOf n with
  | none => s
  | some c =>
    if !j.selectable c rg then s
    else if !s.readsLive j then s.staleWickJob j.tag
    else if s.selectWaits j c rg then s
    else
      let ln := s.rootLantern j n rg
      s.attnRead j ln (j.rowAddr (j.ref 1) n (256 * rg)) (256 * j.rgRows rg) chk fun t =>
        t.attnRead j ln c.sbase (128 * j.candidates c) chk fun u => u.selected j c rg

/-! ## The page walk (08 R193, R194, R207 to R211) -/

/-- The reserved bits of a page-table entry. -/
def entReserved (w : Nat) : Bool := bitsOf 13 1 w != 0

/-- The page an entry names. -/
def entPage (w : Nat) : Nat := bitsOf 47 14 w * 2 ^ 14

/-- Whether position `pos` is attended by row `r` of a sequence (08 R207). -/
def Job.attends (j : Job) (c : SeqCap) (r pos : Nat) : Bool :=
  decide (pos < c.len) && (!j.causal || decide ((pos : Int) ≤ (c.len : Int) - j.nq + (r / j.heads : Nat)))

/-- The key of position `i` of a page, and its value (08 Table 1). -/
def State.pageKey (s : State) (a i : Nat) : List Nat := (List.range 128).map fun d => s.loadLE (a + 64 * d + i) 1
def State.pageValue (s : State) (a i : Nat) : List Nat := (List.range 128).map fun d => s.loadLE (a + 8192 + 128 * i + d) 1

/-- The partial of row `r` after the page of entry `e` at `a`. -/
def State.rowPage (s : State) (j : Job) (c : SeqCap) (x : ApwUnit) (w e a i : Nat) : List Word32 :=
  let q := qRow (x.rows.getD i [])
  let scale := BitVec.ofNat 32 (df j.desc 6 31 0)
  let pos := (List.range 64).filter fun k => j.attends c (x.row0 + i) (64 * e + k)
  foldPage (x.part.getD i emptyPart) (bitsOf 63 56 w)
    (pos.map fun k => (pageScore q (s.pageKey a k) (bitsOf 55 48 w) scale, s.pageValue a k))

/-- A unit after the page of entry `e`. -/
def State.apwPage (s : State) (j : Job) (c : SeqCap) (x : ApwUnit) (w e : Nat) : ApwUnit :=
  { x with left := x.left.drop 1
           part := (List.range x.rows.length).map fun i => s.rowPage j c x w e (entPage w) i }

/-- The unit goes on to its next page, or ends after its last. -/
def State.apwNext (s : State) (wick : Nat) (j : Job) (x : ApwUnit) : State :=
  let t := s.setWick wick { s.wick wick with apw := some x }
  if x.left.isEmpty then t.apwFinish wick j else t

/-- Record that a Lantern's APW has read an entry of a sequence (08 R201). -/
def State.noteEntry (s : State) (j : Job) (c : SeqCap) (n e w : Nat) : State :=
  s.setJob (j.setSeq { c with ents := c.ents ++ [(n, e, w)] })

/-- What a failed read of a unit does (08 Table 7). -/
def State.apwHurt (s : State) (wick : Nat) (r : ReadRes) : State :=
  s.setWick wick ((s.wick wick).hurt (match r with | .poisoned _ => .poisoned | _ => .dataError) false)

/-- The bytes of the page of entry `e` that hold positions below the captured LEN (08 Table 1, R197, R198): every key line holds
the page's first position; of the values only those below LEN are read. -/
def pageBytes (c : SeqCap) (e : Nat) : Nat := 8192 + 128 * Nat.min 64 (c.len - 64 * e)

/-- Whether the entry or the page of the next position of a unit meets a bank under test (15 R368). -/
def State.apwWaits (s : State) (c : SeqCap) (e : Nat) : Bool :=
  let w := s.loadLE (c.tbase + 8 * e) 8
  s.bondWait (c.tbase + 8 * e) 8 || (!entReserved w && w % 2 == 1 && s.bondWait (entPage w) (pageBytes c e))

/-- An error that ends a job of a built-in program, captured in the page of its APW (12 R313). -/
def State.apwFail (s : State) (wick : Nat) (j : Job) (a : Nat) (e : Err) : State :=
  (s.captureLine (pgAPW (lanternOf wick)) e a (lineApw (lanternOf wick))).failWickJob j.tag e

/-- The first byte of the ring of 4 pages in a Wick's scratchpad, and the place of the page after `left` others (08 R210). -/
def ringSlot (wick k : Nat) : Nat := padBase wick + Config.apwRing % (padSize - 0xFFFF) + 0x4000 * (k % 4)

/-- A page arrives in the ring of the unit's scratchpad (08 R210). -/
def State.ringFill (s : State) (wick : Nat) (x : ApwUnit) (a n : Nat) : State :=
  s.storeAt (ringSlot wick x.left.length) (s.load a n)

/-- The page of an entry that has been read. -/
def State.apwFetch (s : State) (wick : Nat) (j : Job) (c : SeqCap) (x : ApwUnit) (e w : Nat) (chk : ReadCheck) : State :=
  let n := lanternOf wick
  if entReserved w then s.apwFail wick j (c.tbase + 8 * e) .reservedNonzero
  else if w % 2 = 0 then
    (s.fadd (pgAPW n) Reg.APW_HOLES_COUNT 1).apwNext wick j { x with left := x.left.drop 1 }
  else if !s.cfg.mayAccess (.wick wick) j.part (entPage w) 0x4000 false then s.apwFail wick j (entPage w) s.cfg.denyErr
  else match s.denied j.part (entPage w) (pageBytes c e) false with
  | some d => s.apwFail wick j (entPage w) d
  | none =>
    let n' := pageBytes c e
    let t := s.readMarks (entPage w) n' chk
    match s.readRes (entPage w) n' chk with
    | .data =>
      let t := (t.guestIn (entPage w) n').traffic (some (.wick wick)) n j.tc j.part (entPage w) n' false
      ((t.ringFill wick x (entPage w) n').fwrap (pgAPW n) Reg.APW_PAGES_COUNT 1).apwNext wick j (t.apwPage j c x w e)
    | r => t.apwHurt wick r

/-- APW_PAGE_ARRIVE: the next page of a unit: its entry is read, and the page where the entry names one. -/
def State.apwArrive (s : State) (wick : Nat) (chk : ReadCheck) : State :=
  let y := s.wick wick
  match y.apw, s.job y.tag with
  | some x, some j =>
    match x.left, j.seqOf (j.unitSeq y.unit) with
    | e :: _, some c =>
      if y.st ≠ .running ∨ y.fault ≠ none ∨ s.apwWaits c e then s
      else
        let a := c.tbase + 8 * e
        match s.denied j.part a 8 false with
        | some d => s.apwFail wick j a d
        | none =>
          let t := s.readMarks a 8 chk
          match s.readRes a 8 chk with
          | .data =>
            let t := (t.guestIn a 8).traffic (some (.wick wick)) (lanternOf wick) j.tc j.part a 8 false
            let w := t.loadLE a 8
            let u := t.noteEntry j c (lanternOf wick) e w
            u.withJob j.tag fun k => u.apwFetch wick k c x e w chk
          | r => t.apwHurt wick r
    | _, _ => s
  | _, _ => s

/-! ## The table check (08 R201, R202, R212) -/

/-- The bytes of a list of table words. -/
def wordBytes (ws : List Nat) : List Byte := ws.flatMap (toLE 8)

/-- Whether the CRC-32C of the entries a Lantern read for a sequence differs from that of the same entries read again. -/
def State.crcMismatch (s : State) (c : SeqCap) (n : Nat) : Bool :=
  let es := c.ents.filter fun x => x.1 == n
  crc32c (wordBytes (es.map (·.2.2))) != crc32c (wordBytes (es.map fun x => s.loadLE (c.tbase + 8 * x.2.1) 8))

/-- A mismatch on a Lantern: counter, VERSION, the page interrupt, the code and its line (12 R313). -/
def State.mutated (s : State) (c : SeqCap) (n : Nat) : State :=
  (((s.fadd (pgAPW n) Reg.APW_MUTATED_COUNT 1).setReg (pgAPW n) 0 0x04C c.ver).event (pgAPW n)).captureLine (pgAPW n)
    .pageTableMutated 0 (lineApw n)

/-- The check of one sequence ends. -/
def State.checkSeq (s : State) (j : Job) (c : SeqCap) : State :=
  let bad := (List.range 8).filter fun n => s.crcMismatch c n
  if bad.isEmpty then s.setJob ({ j.unitDone j.rgs with tries := 0 }.setSeq { c with st := .passed })
  else
    let t := bad.foldl (fun t n => t.mutated c n) s
    if c.rerun then t.failWickJob j.tag .pageTableMutated
    else t.setJob ({ j with err := .pageTableMutated }.setSeq { c with st := .again, rerun := true })

/-- Whether every unit of a job has completed. -/
def Job.unitsDone (j : Job) : Bool := j.units.all fun u => u.phase == .done

/-- Whether the merges of a job have ended: no instance of it is in progress. -/
def State.mergesDone (s : State) (tag : Nat) : Bool := s.cmbs.all fun c => c.tag != tag

/-- The lines of the table that hold the entries the units of a sequence have read (08 R201). -/
def SeqCap.entLines (c : SeqCap) : List Nat := (c.ents.map fun x => (c.tbase + 8 * x.2.1) / 64).eraseDups

/-- Read lines one after another; the first that fails decides. -/
def State.attnReads (s : State) (j : Job) (ln : Nat) (ls : List Nat) (chk : ReadCheck) (ok : State → State) : State :=
  match ls with
  | [] => ok s
  | l :: rest => s.attnRead j ln (l * 64) 64 chk fun t => t.attnReads j ln rest chk ok

/-- APW_TABLE_REREAD_DONE. -/
def State.rereadDone (s : State) (j : Job) (n : Nat) (chk : ReadCheck) : State :=
  match j.seqOf n with
  | none => s
  | some c =>
    if c.st ≠ .held ∨ !j.unitsDone ∨ !s.mergesDone j.tag then s
    else if c.entLines.any fun l => s.bondWait (l * 64) 64 then s
    else s.attnReads j (s.rootLantern j n 0) c.entLines chk fun t => t.checkSeq j c

/-! ## The commands -/

/-- ATTEND_PAGED. -/
def execAttendPaged (tag : Nat) (s : State) : Out :=
  onAwake s true (s.withJob tag fun j => if j.opc = .attendPaged ∧ j.phase = .placed then s.attnStart j else s)

/-- PAGE_SCORE. -/
def execPageScore (tag : Nat) (s : State) : Out :=
  onAwake s true (s.withJob tag fun j => if j.opc = .pageScore ∧ j.phase = .placed then s.attnStart j else s)

/-- SEQ_DESCRIPTOR_CAPTURE. -/
def execSeqDescriptorCapture (tag seq : Nat) (chk : ReadCheck) (s : State) : Out :=
  onAwake s true (s.withJob tag fun j => if j.attnRuns then s.seqCapture j seq chk else s)

/-- COARSE_SELECTION_DONE. -/
def execCoarseSelectionDone (tag seq rg : Nat) (chk : ReadCheck) (s : State) : Out :=
  onAwake s true (s.withJob tag fun j => if j.attnRuns then s.selectDone j seq rg chk else s)

/-- APW_PAGE_ARRIVE. -/
def execApwPageArrive (wick : Nat) (chk : ReadCheck) (s : State) : Out := onLive s true (s.apwArrive wick chk)

/-- APW_TABLE_REREAD_DONE. -/
def execApwTableRereadDone (tag seq : Nat) (chk : ReadCheck) (s : State) : Out :=
  onAwake s true (s.withJob tag fun j =>
    if j.attnRuns ∧ j.opc = .attendPaged then s.rereadDone j seq chk else s)

end Sys2Proof.Machine
end

