-- ==== Sys2Proof/Machine/Dcd.lean ====
section
/-!
DEFINITION. Dcd.lean: Die Capability Descriptors (15 R384, R385).
-/

namespace Sys2Proof.Machine

open Sys2Proof

/-- Bytes [lo, hi) of a DCD as a number. -/
def dcdNum (d : List Byte) (lo hi : Nat) : Nat := ofLE ((d.drop lo).take (hi - lo))

/-- The fields the Chimney reads (15 Table 5). -/
def dcdFeat (d : List Byte) : Nat := dcdNum d 16 20
def dcdTpver (d : List Byte) : Nat := dcdNum d 40 44
def dcdFmt (d : List Byte) : Nat := dcdNum d 44 46

/-- A DCD with its fields up to byte 251, and its CRC. -/
def sealDcd (d : List Byte) : List Byte := d ++ toLE 4 (crc32c d).toNat

/-- The head of a DCD of a die of this generation: CLASS, PARTID, REV, adapter latency. -/
def dcdHead (cls partId rev lat : Nat) : List Byte :=
  toLE 4 0x44434457 ++ toLE 2 1 ++ toLE 1 cls ++ toLE 1 1 ++ toLE 2 1 ++ toLE 2 partId ++ toLE 4 rev ++ toLE 4 0x3FF ++ toLE 1 64 ++
    toLE 1 0x3F ++ toLE 2 0 ++ toLE 8 lat

/-- The Chimney's own DCD; its part number, revision and latencies the spec does not give (log entry 33). -/
def chimneyDcd : List Byte :=
  sealDcd (dcdHead 3 (Config.chimneyId 0) (Config.chimneyId 1) (Config.chimneyId 2) ++ List.replicate 220 0)

/-- The DCD of a Lantern of this generation. -/
def lanternDcd (partId rev lat : Nat) : List Byte :=
  sealDcd (dcdHead 1 partId rev lat ++ toLE 2 64 ++ toLE 1 8 ++ toLE 1 64 ++ toLE 2 8192 ++ toLE 2 700 ++ toLE 4 0x2 ++
    toLE 2 0x3FFF ++ List.replicate 206 0)

/-- The FEAT bits required on a Lantern's links, and on the guest port (15 Table 6). -/
def featLantern : List Nat := List.range 10
def featGuest : List Nat := [0, 1, 7, 9]

/-- The FEAT bits of the Chimney; those of later generations are ignored. -/
def chimneyFeat : Nat := 0x3FF

/-- Whether a DCD brings its link up: MAGIC and CRC are right, and every required feature is there (15 R385). -/
def dcdOk (need : List Nat) (d : List Byte) : Bool :=
  d.length == 256 && dcdNum d 0 4 == 0x44434457 && dcdNum d 252 256 == (crc32c (d.take 252)).toNat &&
    need.all fun i => (dcdFeat d).testBit i

/-- The features of a link between dies: those of both ends and of the Chimney. -/
def linkFeat (ds : List (List Byte)) : Nat := ds.foldl (fun f d => Nat.land f (dcdFeat d)) chimneyFeat

/-- What the Chimney takes from a guest's DCD. -/
def dcdGuest (d : List Byte) : GuestBoot :=
  { vendor := dcdNum d 8 10, partId := dcdNum d 10 12, rev := dcdNum d 12 16, feat := dcdFeat d, maxw := dcdNum d 20 21
    rates := dcdNum d 21 22, gwin := dcdNum d 128 136, gvec := dcdNum d 136 138 }

/-- The MMA FMT codes an image uses (05 R145). -/
def imageFmts (bs : List Byte) : List Nat :=
  ((List.range (hdrInsns (imgWord bs 0))).filterMap fun i =>
    let w := imgWord bs (insnWord (imgWord bs 0) i)
    if bitsOf 7 0 w = 0x50 then some (bitsOf 14 11 w) else none).eraseDups

/-- Whether a Lantern supports an image: its VER, and every FMT it uses (15 R385). -/
def dcdRuns (d bs : List Byte) : Bool :=
  (dcdTpver d).testBit (bitsOf 23 16 (imgWord bs 0)) && (imageFmts bs).all fun f => (dcdFmt d).testBit f

end Sys2Proof.Machine
end

