-- ==== Sys2Proof/Machine/Flit.lean ====
section
/-!
DEFINITION. Flit.lean: the native flit, and the transmitter of a direction of a die link: its replay buffer, credits and the flits
that wait for it (15 R372, R373, R375).
-/

namespace Sys2Proof.Machine

open Sys2Proof

/-! ## Links -/

/-- The key of a link. -/
def linkKey : LinkMod → Nat
  | .lc n m => 2 * n + m % 2
  | .ring n => 16 + n
  | .guest => 24

/-- A link's own state. -/
def State.link (s : State) (k : LinkMod) : LinkSt := aget LinkSt.zero s.links (linkKey k)

/-- The state with a link replaced. -/
def State.setLink (s : State) (k : LinkMod) (x : LinkSt) : State := { s with links := aset s.links (linkKey k) x }

/-- The Lantern at the far end of the ring link of Lantern `n`. -/
def ringTo (n : Nat) : Nat := (n + 1) % 8

/-- A direction of a link, and the link with it replaced. -/
def LinkSt.dir (x : LinkSt) (up : Bool) : LinkDir := if up then x.up else x.down
def LinkSt.setDir (x : LinkSt) (up : Bool) (d : LinkDir) : LinkSt := if up then { x with up := d } else { x with down := d }

/-- The other direction of a link. -/
def revLink (l : Link) : Link := { l with up := !l.up }

/-! ## The flit (15 Table 2) -/

/-- Bits [hi:lo] of a flit's header. -/
def hdrBits (f : List Byte) (hi lo : Nat) : Nat := bitsOf hi lo (ofLE (f.take 16))

/-- The header fields of a flit but for its sequence numbers and its CRC. -/
structure FlitHdr where
  ty : Nat
  tc : Nat
  part : Nat
  dst : Nat
  src : Nat
  tag : Nat
  addr : Nat
  boff : Nat
  blast : Nat
  err : Nat
  deriving DecidableEq, Repr

/-- The CRC-16 of a flit: over header bytes 0 to 13 and the payload (15 R373). -/
def flitCrc (f : List Byte) : Nat := crc16 (f.take 14 ++ f.drop 16)

/-- Whether a flit passes its CRC-16. -/
def flitGood (f : List Byte) : Bool := flitCrc f == hdrBits f 127 112

/-- A flit as a transmitter of a link, or a router on a die, sends it on: new LSEQ and ASEQ, and a CRC computed afresh (15 R373). -/
def recode (f : List Byte) (lseq aseq : Nat) : List Byte :=
  let g := f.take 12 ++ toLE 1 lseq ++ toLE 1 aseq
  g ++ toLE 2 (crc16 (g ++ f.drop 16)) ++ f.drop 16

/-- A flit with a header and a payload of 64 bytes. -/
def mkFlit (h : FlitHdr) (payload : List Byte) : List Byte :=
  let v := h.ty + h.tc % 8 * 2 ^ 3 + h.part % 8 * 2 ^ 6 + h.dst % 256 * 2 ^ 10 + h.src % 256 * 2 ^ 18 + h.tag % 1024 * 2 ^ 26 +
    h.addr / 64 % 2 ^ 42 * 2 ^ 36 + h.boff % 64 * 2 ^ 78 + h.blast % 64 * 2 ^ 84 + h.err % 32 * 2 ^ 90
  recode (toLE 16 v ++ payload) 0 0

/-- The payload of zeros that READ and WACK carry. -/
def noPayload : List Byte := List.replicate 64 0

/-- Bytes at their places in a line, zeros elsewhere. -/
def inLine (a : Nat) (bs : List Byte) : List Byte :=
  ((List.replicate (a % 64) 0 ++ bs) ++ noPayload).take 64

/-- The header of a request of the package network. A request holds the bytes of one line without a gap: a write whose bytes have
gaps is split at its port into requests of its own (15 R372). -/
def reqHdr (r : Req) (dst src : Nat) : FlitHdr :=
  { ty := if r.data.isSome then 2 else 1, tc := r.tc, part := r.part, dst := dst, src := src, tag := r.tag, addr := r.addr
    boff := if r.data.isSome then r.addr % 64 else 0, blast := if r.data.isSome then r.addr % 64 + r.len - 1 else 63, err := 0 }

/-- The flit of a request, and of its answer with an error code and data. -/
def reqFlit (r : Req) (dst src : Nat) : List Byte :=
  mkFlit (reqHdr r dst src) (match r.data with
    | some bs => inLine r.addr bs
    | none => noPayload)
def answerFlit (r : Req) (dst src err : Nat) (data : List Byte) : List Byte :=
  mkFlit { reqHdr r dst src with ty := if r.data.isSome then 4 else 3, boff := 0, blast := 63, err := err }
    (if r.data.isSome || err != 0 then noPayload else inLine r.addr data)

/-- An LCTL flit with a command (15 R374). -/
def lctlFlit (cmd : List Byte) : List Byte :=
  mkFlit { ty := 6, tc := 0, part := 0, dst := 0, src := 0, tag := 0, addr := 0, boff := 0, blast := 63, err := 0 }
    ((cmd ++ noPayload).take 64)

/-- The node of a Regulator port: its die, and its port on that die, which the spec does not number (log entry 33). -/
def portNode (port : Nat) : Nat :=
  if port < 8 then 16 * port + Config.nodePort port % 16
  else if port = 26 then 16 * 10 + Config.nodePort port % 16
  else 16 * 8 + Config.nodePort port % 16

/-! ## The transmitter (15 R375) -/

/-- Whether two flits are the same but for ASEQ and the CRC: what a transmitter sends again is. -/
def sameFlit (f g : List Byte) : Bool := f.take 13 == g.take 13 && f.drop 16 == g.drop 16

/-- How far a sequence number lies beyond the oldest flit that is not acknowledged. -/
def LinkDir.off (d : LinkDir) (q : Nat) : Nat := (q + 256 - d.acked) % 256

/-- Whether the transmitter may send a new flit of a class: it has a credit and fewer than 128 flits unacknowledged. -/
def LinkDir.maySend (d : LinkDir) (f : List Byte) : Bool :=
  decide (0 < d.credits.getD (hdrBits f 5 3) 0) && decide (d.off d.next < 128)

/-- A new flit enters the replay buffer against a credit of its class. -/
def LinkDir.keep (d : LinkDir) (q : Nat) (f : List Byte) : LinkDir :=
  let tc := hdrBits f 5 3
  { d with
    replay := d.replay ++ [(q, f)], credits := d.credits.set tc (d.credits.getD tc 0 - 1)
    next := if d.off q < d.off d.next then d.next else (q + 1) % 256 }

/-- The flit the transmitter keeps under a sequence number. -/
def LinkDir.kept (d : LinkDir) (q : Nat) : Option (List Byte) := (d.replay.find? fun p => p.1 == q).map (·.2)

/-- A flit of the device leaves for the guest: the block's only link with an end outside. -/
def State.onWire (s : State) (l : Link) (f : List Byte) : State := if l.mod = .guest ∧ !l.up then s.emit (.flit f) else s

/-- The first flit that waits and may be sent goes out: a stalled class blocks no other. At most `fuel` flits. -/
def State.pump (s : State) (l : Link) : Nat → State
  | 0 => s
  | fuel + 1 =>
    let x := s.link l.mod
    let d := x.dir l.up
    match d.queue.find? d.maySend with
    | none => s
    | some f =>
      let g := recode f d.next (((x.dir (!l.up)).expect + 255) % 256)
      let s := s.setLink l.mod (x.setDir l.up ({ d with queue := d.queue.erase f }.keep d.next g))
      (s.onWire l g).pump l fuel

/-- A transmitter takes a flit from its die's network. -/
def State.transmit (s : State) (l : Link) (f : List Byte) : State :=
  let x := s.link l.mod
  let d := x.dir l.up
  (s.setLink l.mod (x.setDir l.up { d with queue := d.queue ++ [f] })).pump l (d.queue.length + 1)

/-- Flits sent again from a sequence number onward, in order (15 R375). -/
def State.resend (s : State) (l : Link) (q : Nat) : State :=
  let d := (s.link l.mod).dir l.up
  let a := (((s.link l.mod).dir (!l.up)).expect + 255) % 256
  (d.replay.filter fun p => decide (d.off q ≤ d.off p.1)).foldl (fun t p => t.onWire l (recode p.2 p.1 a)) s

/-- A request for the guest window goes out on the guest port (15 R387), unless the Chimney answers it itself. -/
def State.toGuest (s : State) (r : Req) : State :=
  if s.region r.addr = .guest ∧ s.guestUp ∧ r.addr - 0xE000000000 + r.len ≤ s.gwin then
    s.transmit ⟨.guest, false⟩ (reqFlit r (portNode 26) (portNode r.port))
  else s

/-- The answer to a request of the guest goes out: `t` is the state after the request took effect. -/
def State.answerGuest (s t : State) (r : Req) : State :=
  if r.port ≠ 26 ∨ !s.guestUp then t
  else
    let last := if s.out.length < t.out.length then t.out.head? else none
    t.transmit ⟨.guest, false⟩ (match last with
      | some (.data bs) => answerFlit r (r.tag / 1024) (portNode 24) 0 bs
      | some (.memErr c) => answerFlit r (r.tag / 1024) (portNode 24) c []
      | _ => answerFlit r (r.tag / 1024) (portNode 24) 0 [])

end Sys2Proof.Machine
end

