-- ==== Sys2Proof/Machine/Request.lean ====
section
/-!
DEFINITION. Request.lean: memory requests at the Regulator's ports and the DDR-4 channels: slots, TC0, urgency, credits,
arbitration, responses, write buffers, refresh, monitoring (13 R324 to R345; 14 R351, R356).
-/

namespace Sys2Proof.Machine

open Sys2Proof

/-! ## Credits and waiting (13 R335, R336, R343; 14 R363) -/

/-- The cap of a credit, and its growth in one TCLK edge (5.6 NCLK cycles), in tenths of a byte, at bandwidth `bw`. -/
def creditCap (bw : Nat) : Nat := Nat.max 40960 (bw * 10000)
def creditStep (bw : Nat) : Nat := 4 * bw

/-- The guarantee entry of a request: a demoted read counts as TC1 (13 R331). -/
def Req.entry (r : Req) : Nat := 8 * r.part + r.servedTc

/-- Whether entry `e` has a DDR-4 request that waits, at its port or at its channel (13 R343). -/
def State.entryWaits (s : State) (e : Nat) : Bool :=
  s.rgl.reqs.any fun r => r.entry == e && s.region r.addr == .ddr && (!r.out || (r.data.isNone && !r.started))

/-- Every credit, and the time each entry has waited in its window, brought up to the present moment. A shed entry's credit
grows like any other; it is only never in-credit. -/
def State.creditNow (s : State) : State :=
  let k := s.now - s.rgl.creditAt
  let grow := fun (c bw : Nat) => Nat.min (creditCap bw) (c + k * creditStep bw)
  { s with rgl := { s.rgl with
    creditAt := s.now
    credits := (List.range 64).map fun e => (e, grow (aget 0 s.rgl.credits e) (gBw (s.gentry e)))
    waited := if k = 0 then s.rgl.waited else
      ((List.range 64).map fun e => (e, aget 0 s.rgl.waited e + if s.entryWaits e then k else 0)).filter fun x => x.2 != 0
    migCredit := grow s.rgl.migCredit (s.fget pgDMC Reg.DMC_MIG_RATE) } }

/-- Whether a request is migration traffic. -/
def Req.migration (r : Req) : Bool := r.port == 25 && r.tc == 5

/-- Whether a request is in-credit: a shed entry and one without bandwidth never are. -/
def State.inCredit (s : State) (r : Req) : Bool :=
  if r.migration then decide (640 ≤ s.rgl.migCredit)
  else !s.isShed r.entry && gBw (s.gentry r.entry) != 0 && decide (640 ≤ aget 0 s.rgl.credits r.entry)

/-- Serving a request takes 64 bytes of its credit. -/
def State.takeCredit (s : State) (r : Req) : State :=
  if r.migration then { s with rgl := { s.rgl with migCredit := s.rgl.migCredit - 640 } }
  else { s with rgl := { s.rgl with credits := aset s.rgl.credits r.entry (aget 0 s.rgl.credits r.entry - 640) } }

/-! ## Urgency (13 R334) -/

/-- The urgency master of a port (13 Table 2). -/
def urgMaster (port : Nat) : Option Nat :=
  if 13 ≤ port ∧ port ≤ 17 then some (port - 13)
  else if port = 21 then some 5
  else if port = 22 then some 6
  else none

/-- The level of an input buffer's fill: the highest level whose threshold it has reached. -/
def State.fillLevel (s : State) (m fill : Nat) : Nat :=
  if s.fgetI pgRGL m Reg.RGL_URGTHR_CRIT ≤ fill then 3
  else if s.fgetI pgRGL m Reg.RGL_URGTHR_URG ≤ fill then 2
  else if s.fgetI pgRGL m Reg.RGL_URGTHR_ELEV ≤ fill then 1
  else 0

/-- A Snuffer's level from its reading state and the time left to its cutoff, in TCLK edges: the lines it has asked for and
not read yet are the requests outstanding at its port (log entry 32). -/
def State.snLevel (s : State) (i : Sn) (port : Nat) : Nat :=
  if !(s.rgl.reqs.any fun r => r.port == port) then 0
  else match (s.sn i).tickLast with
    | some k =>
      let c := k + (s.cfg.snA.table.pubUs - s.cfg.snA.table.guard_) * edgesPerUs
      if c - s.snNow < 12500 then 3 else if c - s.snNow < 25000 then 2 else 1
    | none => 1

/-- Set the level of an input buffer's master from its fill in 1/256. -/
def State.setLevel (s : State) (port fill : Nat) : State :=
  match urgMaster port with
  | none => s
  | some m => s.fset pgRGL ⟨0x080, 2 * m + 1, 2 * m⟩ (s.fillLevel m fill)

/-- The Snuffers' levels as they stand now. -/
def State.snLevels (s : State) : State :=
  (s.fset pgRGL ⟨0x080, 11, 10⟩ (s.snLevel .a 21)).fset pgRGL ⟨0x080, 13, 12⟩ (s.snLevel .b 22)

/-- The level of a port's urgency master; other ports are at 0 (13 R335). -/
def State.level (s : State) (port : Nat) : Nat :=
  match urgMaster port with
  | some m => s.fget pgRGL ⟨0x080, 2 * m + 1, 2 * m⟩
  | none => 0

/-! ## Slots (13 R327, R330, R331) -/

/-- Whether a request goes to DDR-4. -/
def State.isDdr (s : State) (r : Req) : Bool := s.region r.addr == .ddr

/-- Whether a request is a TC0 read of DDR-4. -/
def State.tc0Read (s : State) (r : Req) : Bool := r.tc == 0 && r.data.isNone && s.isDdr r

/-- Slots held by a (port, class), reserved ones apart; and the reserved slots a port holds. -/
def State.slotsUsed (s : State) (port tc : Nat) : Nat :=
  (s.rgl.reqs.filter fun r => r.out && r.port == port && r.tc == tc && !r.reserved).length
def State.reservedUsed (s : State) (port : Nat) : Nat := (s.rgl.reqs.filter fun r => r.out && r.port == port && r.reserved).length

/-- Whether a waiting request is the next of its (port, class) and may leave: a slot is free, and a designated port has no
other TC0 read outstanding to the channel. -/
def State.mayLeave (s : State) (r : Req) : Bool :=
  (s.rgl.reqs.all fun q => q.out || q.port != r.port || q.tc != r.tc || decide (r.id ≤ q.id)) &&
    ((r.tc == 0 && decide (s.reservedUsed r.port < 2)) || decide (s.slotsUsed r.port r.tc < s.slots r.port r.tc)) &&
    (!s.tc0Read r || !s.designated r.port ||
      s.rgl.reqs.all fun q => !q.out || q.port != r.port || !s.tc0Read q || s.ddrChannel q.addr != s.ddrChannel r.addr)

/-- The state with a request replaced. -/
def State.setReq (s : State) (r : Req) : State :=
  { s with rgl := { s.rgl with reqs := s.rgl.reqs.map fun q => if q.id = r.id then r else q } }

/-- The time in which a request's (port, class) had it waiting since that was last counted is counted in NCLK cycles. -/
def State.countStall (s : State) (r : Req) : State :=
  let k := 8 * r.port + r.tc
  let off := 0x050 + 0x20 * r.tc
  let fifths := (s.now - Nat.max r.at_ (aget 0 s.rgl.leftAt k)) * 28 + aget 0 s.rgl.stallRem k
  { s with rgl := { s.rgl with leftAt := aset s.rgl.leftAt k s.now, stallRem := aset s.rgl.stallRem k (fifths % 5) } }.setCtr64
    (pgPort r.port) off (s.ctr64 (pgPort r.port) off + fifths / 5)

/-- The stall counters brought up to the present moment. -/
def State.stallNow (s : State) : State := s.rgl.reqs.foldl (fun t r => if r.out then t else t.countStall r) s

/-- A request leaves its port: it takes a reserved TC0 slot first, a TC0 read from a port that is not designated is demoted,
and the time in which the pair had a request waiting is counted. -/
def State.leave (s : State) (r : Req) : State :=
  let demoted := s.tc0Read r && !s.designated r.port
  let s := ((s.countStall r).setReq { r with
    out := true, reserved := r.tc == 0 && decide (s.reservedUsed r.port < 2), servedTc := if demoted then 1 else r.tc
    outAt := s.now }).toGuest r
  if demoted then s.fadd pgRGL Reg.RGL_TC0_DEMOTE_COUNT 1 else s

/-- Every waiting request that may leave does, oldest first. -/
def State.leaveAll (s : State) : State :=
  s.rgl.reqs.foldl (fun t r => if !r.out && t.mayLeave r then t.leave r else t) s

/-! ## Channel arbitration (13 R332; 14 R351) -/

/-- The tier of a request at its channel (13 Table 4). -/
def State.tier (s : State) (r : Req) : Nat :=
  let l := s.level r.port
  if s.tc0Read r && s.designated r.port then 1
  else if l = 3 then 2
  else if l = 2 then 3
  else if l = 1 ∨ s.inCredit r then 4
  else 5

/-- Whether one request is served before another: tier; in tiers 4 and 5 class; age. -/
def State.before (s : State) (x y : Req) : Bool :=
  let tx := s.tier x
  let ty := s.tier y
  let cx := if 4 ≤ tx then x.servedTc else 0
  let cy := if 4 ≤ ty then y.servedTc else 0
  decide (tx < ty) || (tx == ty && (decide (cx < cy) || (cx == cy && decide (x.id < y.id))))

/-- A channel's own state. -/
def State.ch (s : State) (c : Nat) : DmcCh := aget DmcCh.zero s.dmc c

/-- The state with a channel replaced. -/
def State.setCh (s : State) (c : Nat) (x : DmcCh) : State := { s with dmc := aset s.dmc c x }

/-- The reads that wait at a channel: writes are posted and wait for no activation (13 R332). -/
def State.atChannel (s : State) (c : Nat) : List Req :=
  s.rgl.reqs.filter fun r => r.out && r.data.isNone && s.isDdr r && !r.started && s.ddrChannel r.addr == c

/-- Whether a channel is free to take a read: none in service there, no retraining and no alert. -/
def State.chFree (s : State) (c : Nat) : Bool :=
  (s.rgl.reqs.all fun r => !(r.started && s.ddrChannel r.addr == c)) && (s.ch c).training.isNone && !(s.ch c).alert

/-- A free channel takes the first request in the order of Table 4. -/
def State.take (s : State) (c : Nat) : State :=
  if !s.chFree c then s
  else match (s.atChannel c).foldl (fun b r => match b with
    | none => some r
    | some q => if s.before r q then some r else some q) none with
    | some r => (s.setReq { r with started := true }).takeCredit r
    | none => s

/-- Whether a tier 1 read or a critical request waits for a rank. -/
def State.rankPressed (s : State) (c r : Nat) : Bool :=
  (s.atChannel c).any fun q => (s.tier q == 1 || s.level q.port == 3) && s.hitRank q.addr == r

/-- Postponed refreshes are repaid where no tier 1 read and no critical request waits (13 R333). -/
def State.repay (s : State) (c : Nat) : State :=
  let x := s.ch c
  if x.postponed.all fun p => p.2 == 0 then s
  else s.setCh c { x with postponed := x.postponed.map fun p => if s.rankPressed c p.1 then p else (p.1, 0) }

/-- Requests move on: those that may leave do, and every free channel takes one. The arbiters look at the levels as they
stood; a Snuffer's level that changes now counts from the next time on (13 R332). -/
def State.flow (s : State) : State :=
  let s := s.creditNow.leaveAll
  ((List.range 16).foldl (fun t c => (t.repay c).take c) s).snLevels

/-! ## Issue -/

/-- Whether a port carries traffic: it has slots, and the Lantern it belongs to is in service. -/
def State.portUpR (s : State) (n : Nat) : Bool := s.portCap n != 0 && (decide (8 ≤ n) || s.lanternUp n)

/-- A request arrives at its port with a transaction tag. -/
def State.enterTagged (s : State) (q : MemReq) (tag : Nat) : State :=
  let r : Req := { id := s.rgl.nextId, port := q.port, tc := q.tc, part := q.part, master := q.master, addr := q.addr
                   len := (q.data.map (·.length)).getD q.len, data := q.data, out := false, reserved := false, servedTc := q.tc
                   started := false, at_ := s.now, outAt := 0, tag := tag }
  let s := s.creditNow
  { s with rgl := { s.rgl with reqs := s.rgl.reqs ++ [r], nextId := r.id + 1 } }.flow

/-- A request arrives at its port; its tag is its number. -/
def State.enterPort (s : State) (q : MemReq) : State := s.enterTagged q (s.rgl.nextId % 1024)

/-- Whether a request is one the package network carries: a line or a part of one (15 R372). -/
def lineReq (a n : Nat) : Bool := decide (1 ≤ n) && decide (a % 64 + n ≤ 64) && decide (a < 2 ^ 48)

/-- The Lantern a master stands in. -/
def Master.lantern : Master → Option Nat
  | .wick w => some (lanternOf w)
  | .dma w => some (lanternOf w)
  | .sconce k => some (k / 8)
  | _ => none

/-- Whether some job of a partition in a class runs on what a port serves. -/
def State.jobSends (s : State) (p tc : Nat) (on : Job → Bool) : Bool :=
  s.jobs.any fun j => j.part == p && j.tc == tc && (j.phase == .running || j.phase == .taken) && on j

/-- Whether a Wick works for a partition in a class. -/
def State.wickSends (s : State) (w p tc : Nat) : Bool :=
  let x := s.wick w
  (x.st == .running || x.st == .stopping) && x.part == p && s.tcOf x.tag == tc

/-- Whether a unit of a Lantern works for a partition in a class: a Wick with its DMA engine, or a Sconce engine for a job of
its own or for one of its Wicks. -/
def State.unitSends (s : State) (m : Master) (p tc : Nat) : Bool :=
  match m with
  | .wick w => s.wickSends w p tc
  | .dma w => s.wickSends w p tc
  | .sconce k =>
    (s.jobSends p tc fun j => (j.opc == .sort || j.opc == .regroup || j.opc == .cropResize) && j.place == k) ||
      (List.range 8).any fun i => s.wickSends (8 * k + i) p tc
  | _ => false

/-- Whether a port's own masters send in a class for a partition (13 Tables 1 and 2): a Lantern's units and the engines in
the class of a job's descriptor; the Lamplighter in a queue's fetch class; ingest in TC1; transmit in its ring's class; PCIe in
TC4; the Snuffers and the gate loader in TC0, reading only; Flint and maintenance in TC5; the guest in TC7. -/
def State.sends (s : State) (q : MemReq) : Bool :=
  let n := q.port
  if n < 8 then q.master.lantern == some n && s.unitSends q.master q.part q.tc
  else if n = 8 then s.queues.any fun x => s.queueOwner x.1 == some q.part && x.2.ftc == q.tc
  else if n = 9 then s.jobSends q.part q.tc fun j => j.opc == .copy
  else if n = 10 then s.jobSends q.part q.tc fun j => j.opc == .ccuCheck || j.opc == .mapPublish
  else if n = 11 then s.jobSends q.part q.tc fun j => j.opc == .profile
  else if n = 12 then s.jobSends q.part q.tc fun j => j.opc == .xcuVote
  else if 13 ≤ n ∧ n ≤ 17 then q.tc == 1
  else if n = 18 then s.cfg.eth.rings.any fun r => r.tx && r.part == q.part && r.tc == q.tc
  else if n = 19 ∨ n = 20 then q.tc == 4
  else if 21 ≤ n ∧ n ≤ 23 then q.tc == 0 && q.data.isNone
  else if n = 24 ∨ n = 25 then q.tc == 5
  else if n = 26 then q.tc == 7 && q.part == s.fget pgGST Reg.GST_CFG_PART
  else false

/-- A Snuffer's port and the gate loader's choose a line whose channel has no read of theirs outstanding (13 R330). -/
def State.chooses (s : State) (q : MemReq) : Bool :=
  !(decide (21 ≤ q.port) && decide (q.port ≤ 23)) ||
    s.rgl.reqs.all fun r => r.port != q.port || s.ddrChannel r.addr != s.ddrChannel q.addr

/-- The Wick whose DMA engine, or whose own unit, a master is. -/
def Master.wick? : Master → Option Nat
  | .wick w => some w
  | .dma w => some w
  | _ => none

/-- The requests of a Wick that are outstanding; it holds at most 32, and the next waits in its channel (04 R100). -/
def State.wickRoom (s : State) (m : Master) : Bool :=
  match m.wick? with
  | some w => decide ((s.rgl.reqs.filter fun r => r.master.wick? == some w).length < 32)
  | none => true

/-- MEMORY_REQUEST_ISSUE. -/
def execMemoryRequestIssue (req : MemReq) (s : State) : Out :=
  onAwake s (s.portUpR req.port && decide (req.tc < 8) && decide (req.part < 8) &&
    lineReq req.addr ((req.data.map (·.length)).getD req.len) && s.sends req && s.chooses req && s.wickRoom req.master)
    (s.enterPort req)

/-! ## Responses -/

/-- Whether `n` bytes at `a` lie in some partition's DDR-4 region; in Cormer mode, in some window. -/
def Cfg.inSome (c : Cfg) (a n : Nat) : Bool :=
  if c.cormer then c.windows.any fun w => w.used && decide (w.base ≤ a / 4096) && decide ((a + (n - 1)) / 4096 ≤ w.limit)
  else c.regions.any fun r => decide (r.base ≤ a) && decide (a + n ≤ r.base + r.size)

/-- Whether a request may reach DDR-4 or a Reservoir: the partition's rights decide (02 R43, R55), except at the ports that
serve every partition: the Lamplighter's, the Snuffers' and the gate loader's reach what lies in some partition's region,
and only Flint and DRAM maintenance reach the lines outside every region (14 R358). -/
def State.portAllowed (s : State) (r : Req) : Bool :=
  if r.port = 24 ∨ r.port = 25 then true
  else if r.port = 8 ∨ (21 ≤ r.port ∧ r.port ≤ 23) then s.region r.addr != .ddr || s.cfg.inSome r.addr r.len
  else s.cfg.mayAccess r.master r.part r.addr r.len r.data.isSome

/-- Whether a request passes the partition rules at its target (02 R43, R55; 04 R108, R110; 20 R475). The scratchpad of a
quarantined Wick answers every master (04 R108). -/
def State.reqAllowed (s : State) (r : Req) : Bool :=
  match s.region r.addr with
  | .ddr => s.portAllowed r
  | .reservoir _ => s.portAllowed r
  | .pad w => !s.wickInService w || ((s.wick w).used && (s.wick w).part == r.part)
  | .sbuf k => s.rangeOwned k r.part (r.addr % 0x400000 : Nat) r.len
  | .mapSram => true
  | .mirror => true
  | .doorbell => true
  | .guest => true
  | .regs => false
  | .unmapped => false

/-- The code of a request that is turned away: in Cormer mode the windows replace only the regions and banks (02 R54), so a
Sconce buffer or a scratchpad answers PARTITION_VIOLATION (04 R110). -/
def State.reqDenyErr (s : State) (r : Req) : Err :=
  match s.region r.addr with
  | .pad _ => .partitionViolation
  | .sbuf _ => .partitionViolation
  | _ => s.cfg.denyErr

/-- The answer to a device master that reads the status mirror: the words of queues of its partition, else zero. -/
def State.mirrorRead (s : State) (p a n : Nat) : List Byte :=
  (List.range n).map fun i =>
    let q := (a + i - 0x8302000000) / 8
    if s.ownsQueue p q ∨ p = 0 then BitVec.ofNat 8 ((s.statusWord q).toNat / 2 ^ (8 * ((a + i) % 8))) else 0

/-- The answer to a read of the status mirror: a word that fails its check reads as all ones, and the LMP page captures the
error (12 R306). -/
def State.mirrorAnswer (s : State) (r : Req) (chk : ReadCheck) : State :=
  let bs := s.mirrorRead r.part r.addr r.len
  match s.checkEnd chk with
  | .stored x =>
    if r.addr / 8 ≤ x / 8 ∧ x < r.addr + r.len then
      (s.captureLine pgLMP .dataErrorDetected (x / 8 * 8) 370).emit
        (.data (bs.mapIdx fun i b => if (r.addr + i) / 8 = x / 8 then 0xFF else b))
    else s.emit (.data bs)
  | _ => s.emit (.data bs)

/-- A read's answer. -/
def State.readAnswer (s : State) (r : Req) (chk : ReadCheck) : State :=
  let t := s.readMarks r.addr r.len chk
  match (s.readRes r.addr r.len chk).err with
  | some e => t.emit (.memErr e.code)
  | none => t.emit (.data (s.load r.addr r.len))

/-- A write enters a channel's write buffer; writes of one line merge there. It takes its credit. -/
def State.buffer (s : State) (r : Req) : State :=
  let s := s.takeCredit r
  let c := s.ddrChannel r.addr
  let x := s.ch c
  let l := r.addr / 64
  let part := r.len != 64
  if s.lineOffline r.addr then s
  else match x.wbuf.find? fun b => b.1 == l with
    | some b => s.setCh c { x with wbuf := x.wbuf.map fun y => if y.1 = l then (l, Nat.min b.2.1 r.servedTc, b.2.2 && part) else y }
    | none => s.setCh c { x with wbuf := x.wbuf ++ [(l, r.servedTc, part)] }

/-- A write's effect: into a DDR-4 channel's buffer, or at its place; a write out of reach ends with PARTITION_VIOLATION
(04 R108, 15 R382). -/
def State.writeAnswer (s : State) (r : Req) (bs : List Byte) : State :=
  match s.region r.addr with
  | .ddr => (s.storePlain r.addr bs).buffer r
  | .pad w => if s.wickInService w then s.storeAt r.addr bs else s.emit (.memErr Err.partitionViolation.code)
  | .reservoir n => if s.lanternUp n then s.storeAt r.addr bs else s.emit (.memErr Err.partitionViolation.code)
  | .sbuf k => if s.lanternUp (k / 8) then s.storeAt r.addr bs else s.emit (.memErr Err.partitionViolation.code)
  | .doorbell =>
    if r.len = 8 ∧ r.addr % 8 = 0 then s.ringBell r.part ((r.addr - 0x8304000000) / 8) (BitVec.ofNat 64 (ofLE bs)) false
    else s.capture pgLMP .misaligned r.addr
  | .mirror => s.capture pgLMP .partitionViolation r.addr
  | _ => s.storeAt r.addr bs

/-- The answer for the guest window (15 R381, R387): beyond GWIN, LENGTH_EXCEEDS_EXTENT; a port that is down answers as an
unreachable unit; the bytes the guest delivers are the guest's, free here. -/
def State.guestAnswer (s : State) (r : Req) : State :=
  let lim := s.gwin
  if !s.guestUp then (if r.data.isNone then s.emit (.data (List.replicate r.len 0xFF)) else s)
  else if lim < r.addr - 0xE000000000 + r.len then s.emit (.memErr Err.lengthExceedsExtent.code)
  else if r.data.isNone then s.draw.emit (.data ((List.range r.len).map fun i => Config.freeByte s.draws i))
  else s

/-- What a request does at its target. -/
def State.reqEffect (s : State) (r : Req) (chk : ReadCheck) : State :=
  if !s.reqAllowed r then s.emit (.memErr (s.reqDenyErr r).code)
  else match s.region r.addr with
    | .guest => s.guestAnswer r
    | rg =>
      let s := s.keyed (some r.master) r.addr r.len
      match r.data with
      | some bs => s.writeAnswer r bs
      | none =>
        if rg = .doorbell then (s.capture pgLMP .partitionViolation r.addr).emit (.data (List.replicate r.len 0))
        else if rg = .mirror then s.mirrorAnswer r chk
        else s.readAnswer r chk

/-- Bytes moved are counted at the port and for the monitoring window, and the longest designated TC0 read is kept (13 R343
to R345). -/
def State.reqCount (s : State) (r : Req) : State :=
  let off := (if r.data.isNone then 0x040 else 0x048) + 0x20 * r.tc
  let s := s.setCtr64 (pgPort r.port) off (s.ctr64 (pgPort r.port) off + r.len)
  let s := if s.isDdr r && r.data.isNone then s.trace 5 (s.ddrChannel r.addr) 1 else s
  let s := if s.isDdr r then { s with rgl := { s.rgl with served := aset s.rgl.served r.entry (aget 0 s.rgl.served r.entry + r.len) } }
    else s
  if s.tc0Read r && s.designated r.port then
    s.fset pgRGL Reg.RGL_TC0_MAX_NS (Nat.max (s.fget pgRGL Reg.RGL_TC0_MAX_NS) (Nat.min 0xFFFF ((s.now - r.outAt) * 4)))
  else s

/-- A request is removed and its slot released. -/
def State.dropReq (s : State) (id : Nat) : State :=
  { s with rgl := { s.rgl with reqs := s.rgl.reqs.filter fun q => q.id != id } }

/-- Whether a request can be answered: it has left its port; at DDR-4 its channel has taken it or, for a write, the write
buffer has room; a Reservoir bank under bond test keeps it waiting (13 R332, 15 R368). -/
def State.answerable (s : State) (r : Req) : Bool :=
  r.out && (match s.region r.addr with
    | .ddr => if r.data.isNone then r.started else decide ((s.ch (s.ddrChannel r.addr)).wbuf.length < 64)
    | .reservoir n => !s.bonds.contains (n, rsvBank r.addr)
    | _ => true)

/-- MEMORY_RESPONSE. -/
def execMemoryResponse (id : Nat) (chk : ReadCheck) (e : Nat) (s : State) : Out :=
  onAwake s true (match s.rgl.reqs.find? fun r => r.id == id with
    | some r =>
      if s.answerable r then
        let u := ((elapse e s).creditNow.dropReq id).reqCount r
        ((u.answerGuest (u.reqEffect r chk) r).emit (.response r.port r.tc r.part)).flow
      else s
    | none => s)

/-! ## The write buffer (13 R332; 14 R356, R362) -/

/-- Whether a line lies in the row that migration is copying. -/
def State.copying (s : State) (a : Nat) : Bool :=
  let c := s.ddrChannel a
  s.rankSt c (s.ddrRank a) == 3 && s.rowIndex a == s.fget (pgDMCch c) Reg.DMC_WMARK_ROWS

/-- The entry the buffer drains next: TC0 writes first, then the oldest; lines of the row being copied are held. -/
def State.drainNext (s : State) (c : Nat) : Option (Nat × Nat × Bool) :=
  let es := (s.ch c).wbuf.filter fun b => !s.copying (b.1 * 64)
  (es.find? fun b => b.2.1 == 0).or es.head?

/-- One buffered line is written; where its rank has gone offline it is discarded and counted (14 R361). A partial write is merged by a read-modify-write; where the read fails it is discarded, the
line stays poisoned and the channel page captures the error (14 R356). -/
def State.drain (s : State) (c : Nat) (b : Nat × Nat × Bool) (chk : ReadCheck) : State :=
  let s := s.setCh c { s.ch c with wbuf := (s.ch c).wbuf.filter fun y => y.1 != b.1 }
  if s.lineOffline (b.1 * 64) then s.fadd (pgDMCch c) Reg.DMC_OFFLINE_WR_COUNT 1
  else if !b.2.2 then s
  else match s.readRes (b.1 * 64) 64 chk with
    | .poisoned l => s.capture (pgDMCch c) .poisonedRead (l * 64)
    | _ => s.readMarks (b.1 * 64) 64 chk

/-- WRITE_BUFFER_DRAIN: no line drains while a tier 1 read waits; otherwise one does when no request of tiers 1 to 3 waits or
48 entries are held (13 R332). -/
def execWriteBufferDrain (ch : Nat) (chk : ReadCheck) (s : State) : Out :=
  let waits := fun k => (s.atChannel ch).any fun r => decide (s.tier r ≤ k)
  onAwake s (decide (ch < 16) && !waits 1 && (!waits 3 || decide (48 ≤ (s.ch ch).wbuf.length)) && (s.ch ch).training.isNone &&
    !(s.ch ch).alert) (match s.drainNext ch with
      | some b => (s.drain ch b chk).flow
      | none => s)

/-! ## Refresh (13 R333) -/

/-- tREFI in TCLK edges (14 R350). -/
def State.trefi (s : State) : Nat := if s.flag pgDMC Reg.DMC_REFCFG_REF2X then 975 else 1950

/-- A refresh of a rank falls due: it is postponed while a tier 1 read or a critical request waits for the rank and fewer
than 8 are postponed; else it is performed. -/
def State.refresh (s : State) (c r : Nat) : State :=
  let x := s.ch c
  let n := aget 0 x.postponed r
  let x := { x with refAt := aset x.refAt r (aget 0 x.refAt r + s.trefi) }
  if s.rankPressed c r ∧ n < 8 then
    (s.setCh c { x with postponed := aset x.postponed r (n + 1) }).fset (pgDMCch c) Reg.DMC_REF_POSTMAX_COUNT
      (Nat.max (s.fget (pgDMCch c) Reg.DMC_REF_POSTMAX_COUNT) (n + 1))
  else s.setCh c x

/-- REFRESH_DUE. -/
def execRefreshDue (ch rank : Nat) (s : State) : Out :=
  onAwake s (decide (ch < 16) && decide (rank < 2) && s.rankSt ch rank != 0 && decide (aget 0 (s.ch ch).refAt rank ≤ s.now))
    (s.refresh ch rank)

/-! ## Monitoring (13 R343) -/

/-- The end of an entry's window: a miss where requests waited in at least 95 % of it and less than 95 % of the guarantee
was served; the next window begins. -/
def State.windowEnd (s : State) (e : Nat) : State :=
  let s := s.creditNow
  let bw := gBw (s.gentry e)
  let win := gWin (s.gentry e)
  let miss := !s.isShed e && decide (95 * (win * 2500) ≤ 100 * aget 0 s.rgl.waited e) &&
    decide (100 * aget 0 s.rgl.served e < 95 * (bw * win * 1000))
  let s := { s with rgl := { s.rgl with
    served := aset s.rgl.served e 0, waited := aset s.rgl.waited e 0, winAt := aset s.rgl.winAt e s.now } }
  if miss then
    let s := s.captureLine pgRGL .guaranteeMissed 0 (176 + e / 8)
    (s.fadd pgRGL Reg.RGL_MISS_COUNT 1).fset pgRGL Reg.RGL_MISS_LAST_ENTRY e
  else s

/-- GUARANTEE_WINDOW_END. -/
def execGuaranteeWindowEnd (p tc e : Nat) (s : State) : Out :=
  let k := 8 * p + tc
  let win := gWin (s.gentry k)
  onAwake s (decide (p < 8) && decide (tc < 8) && win != 0 && (s.rgl.winAt.any fun x => x.1 == k) &&
    s.dueNow e (aget 0 s.rgl.winAt k + win * 2500)) ((elapse e s).windowEnd k)

end Sys2Proof.Machine
end

