-- ==== Sys2Proof/Machine/Sampler.lean ====
section
/-!
DEFINITION. Sampler.lean: the Sampler of a Sconce: REGROUP and CROP_RESIZE over maps in the column-interleaved layout (04
R111; 07 R176 to R191).
-/

namespace Sys2Proof.Machine

open Sys2Proof

/-! ## The layout (07 R176) -/

/-- The bits a lane takes in a channel row. -/
def Geo.laneBits (g : Geo) : Nat := rowBytes g.fmt / 8

/-- The address of channel row `r` of block `j` (from −HALO) of row `y`. -/
def Geo.rowAddr (g : Geo) (base y : Nat) (j : Int) (r : Nat) : Nat :=
  base + y * g.rowStride + (j + g.halo).toNat * g.bs + r * rowBytes g.fmt

/-- Columns of a map. -/
def Geo.w (g : Geo) : Nat := 64 * g.xb

/-- The bits of element `c` of pixel (y, x). -/
def State.mapElem (s : State) (g : Geo) (base y x c : Nat) : Nat :=
  let cpr := if fmtBits g.fmt = 4 then 2 else 1
  let row := s.loadLE (g.rowAddr base y (x % g.xb : Nat) (c / cpr)) (rowBytes g.fmt)
  let v := row / 2 ^ (g.laneBits * (x / g.xb)) % 2 ^ g.laneBits
  if cpr = 2 then v / 2 ^ (4 * (c % 2)) % 16 else v

/-- Where the lane of element `c` of pixel (y, x) starts, in bytes. -/
def Geo.elemAddr (g : Geo) (base y x c : Nat) : Nat := g.rowAddr base y (x % g.xb : Nat) c + g.laneBits * (x / g.xb) / 8

/-- A channel row rotated by one lane: upward (lane m takes lane m − 1) or downward, an all-zero lane coming in. -/
def rotLane (lw : Nat) (up : Bool) (row : Nat) : Nat := if up then row * 2 ^ lw % 2 ^ (64 * lw) else row / 2 ^ lw

/-! ## The Sampler's jobs -/

/-- The job a Sampler runs: the first in its list. -/
def State.samplerJob (s : State) (scn : Nat) (o : Opc) : Option Job :=
  match (s.sconce scn).sampler with
  | t :: _ => (s.job t).bind fun j => if j.opc = o ∧ j.phase = .running ∧ j.fail = none then some j else none
  | [] => none

/-- The first job leaves a Sampler. -/
def State.popSampler (s : State) (scn : Nat) : State :=
  s.setSconce scn { s.sconce scn with sampler := (s.sconce scn).sampler.drop 1 }

/-- The start of a Sampler job of `total` units. -/
def State.samplerStart (s : State) (j : Job) (total : Nat) : State :=
  match s.pickScn j [.regroup, .cropResize] (fun c => c.sampler.isEmpty) with
  | none => s
  | some k =>
    (s.setJob { j.begin_ total with place := k }).setSconce k
      (if total = 0 then s.sconce k else { s.sconce k with sampler := (s.sconce k).sampler ++ [j.tag] })

/-- A unit of a Sampler job is done; with the last one the job leaves the Sampler and is counted (07 R192). -/
def State.samplerUnit (s : State) (scn : Nat) (j : Job) : State :=
  let s := s.setJob (j.unitDone 1)
  if j.total ≤ j.step + 1 then (s.popSampler scn).countSampler { j with place := scn } else s

/-- A place that turns an access of a Sampler's unit away fails its job, which leaves the Sampler (04 R110, 15 R382, R387). -/
def State.samplerDenied (s : State) (scn : Nat) (j : Job) (e : Err) : State :=
  (s.popSampler scn).setJob { j with fail := some e }

/-- What a failed read of a Sampler's unit does: a job that ends leaves the Sampler. -/
def State.samplerRead (s : State) (scn : Nat) (j : Job) (a n : Nat) (chk : ReadCheck) (r : ReadRes) : State :=
  let t := s.readMarks a n chk
  match r with
  | .poisoned _ => (t.popSampler scn).setJob { j with fail := some .poisonedRead }
  | _ => if j.tries < j.retry then t.unitRetry j else (t.popSampler scn).unitRetry j

/-! ## REGROUP (07 R183 to R185) -/

/-- The input row, block and channel row that output (row `y`, block `j` inside the map, channel row `r`) takes. -/
def regroupFrom (dir f nr nrOut y j r : Nat) : Nat × Nat × Nat :=
  if dir = 0 then
    let t := r / nr
    (f * y + t / f, f * j + t % f, r % nr)
  else (y / f, j / f, (y % f * f + j % f) * nrOut + r)

/-- The bits of an output channel row, halo blocks by lane rotation. -/
def State.regroupRow (s : State) (d base : Nat) (y : Nat) (j : Int) (r : Nat) : Nat :=
  let gi := geoOf (dw d 3)
  let go := regroupOut d
  let get := fun (jj : Nat) =>
    let p := regroupFrom (df d 0 25 25) (regroupF d) gi.nr go.nr y jj r
    s.loadLE (gi.rowAddr base p.1 (p.2.1 : Nat) p.2.2) (rowBytes gi.fmt)
  if j < 0 then rotLane gi.laneBits true (get (j + go.xb).toNat)
  else if (go.xb : Int) ≤ j then rotLane gi.laneBits false (get (j - go.xb).toNat)
  else get j.toNat

/-- Write output row `y` of a REGROUP, all read before any is written. -/
def State.regroupWrite (s : State) (d src dst y : Nat) : State :=
  let go := regroupOut d
  let blocks := (List.range (go.xb + 2 * go.halo)).map fun (k : Nat) => (k : Int) - (go.halo : Int)
  let rows := blocks.flatMap fun j => (List.range go.nr).map fun r =>
    (go.rowAddr dst y j r, s.regroupRow d src y j r)
  rows.foldl (fun t p => t.storeAt p.1 (toLE (rowBytes go.fmt) p.2)) s

/-- The input bytes an output row reads: its first byte and their number. -/
def regroupReads (d src y : Nat) : Nat × Nat :=
  let gi := geoOf (dw d 3)
  let f := regroupF d
  if df d 0 25 25 = 0 then (src + f * y * gi.rowStride, f * gi.rowStride) else (src + y / f * gi.rowStride, gi.rowStride)

/-- One output row of a REGROUP. -/
def State.regroupStep (s : State) (scn : Nat) (j : Job) (chk : ReadCheck) : State :=
  if !s.readsLive j then (s.popSampler scn).staleEnd j
  else
    let rd := regroupReads j.desc (j.ref 0).addr j.step
    let go := regroupOut j.desc
    let wa := (j.ref 1).addr + j.step * go.rowStride
    if s.bondWait rd.1 rd.2 || s.bondWait wa go.rowStride then s
    else match (s.denied j.part rd.1 rd.2 false).or (s.denied j.part wa go.rowStride true) with
    | some e => s.samplerDenied scn j e
    | none =>
      match s.readRes rd.1 rd.2 chk with
      | .data =>
        let t := ((s.readMarks rd.1 rd.2 chk).guestIn rd.1 rd.2).jobMoves { j with place := scn } rd.1 rd.2 false
        ((t.jobMoves { j with place := scn } wa go.rowStride true).regroupWrite j.desc (j.ref 0).addr (j.ref 1).addr
          j.step).samplerUnit scn j
      | r => s.samplerRead scn j rd.1 rd.2 chk r

/-! ## CROP_RESIZE (07 R186 to R188) -/

/-- One half and one in FP32. -/
def f32half : Word32 := 0x3F000000
def f32one : Word32 := 0x3F800000

/-- A sample coordinate (07 R187): `o` the output index, `n` the output count. -/
def sampleAt (align : Bool) (c0 c1 : Word32) (o n : Nat) : Word32 :=
  if align then
    if n = 1 then f32div (f32add c0 c1) (f32ofNat 2)
    else f32add c0 (f32div (f32mul (f32ofNat o) (f32sub c1 c0)) (f32ofNat (n - 1)))
  else
    f32sub (f32add c0 (f32div (f32mul (f32add (f32ofNat o) f32half) (f32sub c1 c0)) (f32ofNat n))) f32half

/-- A coordinate clamped to 0 to `hi`; of a NaN the spec states no clamp, so any place in range. -/
def clampCoord (v : Word32) (hi : Nat) : Word32 :=
  let x := fp32.decode v.toNat
  if x.isNan then f32ofNat (Config.freeNat v.toNat % (hi + 1))
  else if x.lt (Num.ofInt 0) then 0
  else if (Num.ofInt hi).lt x then f32ofNat hi
  else v

/-- The floor of a value as an integer, where it is finite. -/
def floorOf (v : Word32) : Option Int :=
  match fp32.decode v.toNat with
  | .fin n m e =>
    let t : Int := if n then -(m : Int) else (m : Int)
    some (if 0 ≤ e then t * (2 ^ e.toNat : Nat) else t.fdiv (2 ^ (-e).toNat : Nat))
  | _ => none

/-- Floor in FP32 and the fraction left. -/
def splitCoord (v : Word32) : Option Int × Word32 :=
  match floorOf v with
  | some i => (some i, f32sub v (BitVec.ofNat 32 (fp32.encode false (Num.ofInt i))))
  | none => (none, f32sub v v)

/-- An index held to the map, or none where it lies outside and reads as 0. -/
def pickIdx (oob : Bool) (hi : Nat) : Option Int → Int → Option Nat
  | some i, k => if 0 ≤ i + k ∧ i + k ≤ hi then some (i + k).toNat else if oob then none else some (if i + k < 0 then 0 else hi)
  | none, _ => none

/-- A source element exactly in FP32. -/
def elemF32 (fmt v : Nat) : Word32 :=
  BitVec.ofNat 32 (match cfmtOf fmt with
    | .flt f => fp32.encode false (f.decode v)
    | .int w sg => fp32.encode false (Num.ofInt (intVal w sg v))
    | .e8m0 => 0)

/-- A box of a CROP_RESIZE: y0, x0, y1, x1. -/
structure CropBox where
  y0 : Word32
  x0 : Word32
  y1 : Word32
  x1 : Word32
  deriving DecidableEq, Repr

/-- A box of 16 bytes. -/
def State.cropBox (s : State) (a : Nat) : CropBox :=
  { y0 := BitVec.ofNat 32 (s.loadLE a 4), x0 := BitVec.ofNat 32 (s.loadLE (a + 4) 4)
    y1 := BitVec.ofNat 32 (s.loadLE (a + 8) 4), x1 := BitVec.ofNat 32 (s.loadLE (a + 12) 4) }

/-- Whether an FP32 pattern is finite. -/
def f32finite (v : Word32) : Bool := v.toNat / 2 ^ 23 % 256 != 255

/-- Whether the first FP32 value is below the second. -/
def f32lt (a b : Word32) : Bool := (fp32.decode a.toNat).lt (fp32.decode b.toNat)

/-- A bad box (07 R188). -/
def CropBox.bad (b : CropBox) : Bool :=
  !(f32finite b.y0 && f32finite b.x0 && f32finite b.y1 && f32finite b.x1) || f32lt b.y1 b.y0 || f32lt b.x1 b.x0

/-- The four neighbours of a sample point and its fractions. -/
structure Sample where
  ya : Option Nat
  yb : Option Nat
  xa : Option Nat
  xb : Option Nat
  fy : Word32
  fx : Word32
  deriving DecidableEq, Repr

/-- The sample of output pixel (oy, ox) of a box. -/
def cropSample (d : Nat) (b : CropBox) (oy ox : Nat) : Sample :=
  let g := geoOf (dw d 3)
  let align := df d 0 25 25 == 1
  let oob := df d 0 26 26 == 1
  let sy := sampleAt align b.y0 b.y1 oy (df d 6 22 16)
  let sx := sampleAt align b.x0 b.x1 ox (df d 6 30 24)
  let sy := if oob then sy else clampCoord sy (g.h - 1)
  let sx := if oob then sx else clampCoord sx (g.w - 1)
  let y := splitCoord sy
  let x := splitCoord sx
  { ya := pickIdx oob (g.h - 1) y.1 0, yb := pickIdx oob (g.h - 1) y.1 1
    xa := pickIdx oob (g.w - 1) x.1 0, xb := pickIdx oob (g.w - 1) x.1 1, fy := y.2, fx := x.2 }

/-- A neighbour's element in FP32. -/
def State.cropVal (s : State) (g : Geo) (base c : Nat) : Option Nat → Option Nat → Word32
  | some y, some x => elemF32 g.fmt (s.mapElem g base y x c)
  | _, _ => 0

/-- One output channel (07 R187). -/
def State.cropChannel (s : State) (d base : Nat) (p : Sample) (c : Nat) : Nat :=
  let g := geoOf (dw d 3)
  let v := s.cropVal g base c
  let gx := f32sub f32one p.fx
  let gy := f32sub f32one p.fy
  let top := f32add (f32mul (v p.ya p.xa) gx) (f32mul (v p.ya p.xb) p.fx)
  let bot := f32add (f32mul (v p.yb p.xa) gx) (f32mul (v p.yb p.xb) p.fx)
  convertElem 0 (df d 6 35 32) false true (f32add (f32mul top gy) (f32mul bot p.fy)).toNat

/-- The bytes of one output pixel. -/
def State.cropPixel (s : State) (d base : Nat) (p : Sample) : List Byte :=
  let nr := (geoOf (dw d 3)).nr
  let k := fmtBits (df d 6 35 32) / 8
  (List.range nr).flatMap (fun c => toLE k (s.cropChannel d base p c)) ++ toLE (cropCB d - nr * k) 0

/-- The output pixels of a box, in order. -/
def cropGrid (d : Nat) : List (Nat × Nat) :=
  (List.range (df d 6 22 16)).flatMap fun oy => (List.range (df d 6 30 24)).map fun ox => (oy, ox)

/-- The addresses a box reads from the map, with their sizes. -/
def cropReads (d base : Nat) (b : CropBox) : List (Nat × Nat) :=
  let g := geoOf (dw d 3)
  (cropGrid d).flatMap fun o =>
    let p := cropSample d b o.1 o.2
    ([p.ya, p.yb].filterMap id).flatMap fun y => ([p.xa, p.xb].filterMap id).flatMap fun x =>
      (List.range g.nr).map fun c => (g.elemAddr base y x c, (g.laneBits + 7) / 8)

/-- The first read of a list that fails. -/
def State.firstBad (s : State) (chk : ReadCheck) : List (Nat × Nat) → Option (Nat × Nat × ReadRes)
  | [] => none
  | r :: rs =>
    match s.readRes r.1 r.2 chk with
    | .data => s.firstBad chk rs
    | e => some (r.1, r.2, e)

/-- One box of a CROP_RESIZE. -/
def State.cropStep (s : State) (scn : Nat) (j : Job) (chk : ReadCheck) : State :=
  if !s.readsLive j then (s.popSampler scn).staleEnd j
  else
    let d := j.desc
    let src := (j.ref 0).addr
    let ba := (j.ref 1).addr + 16 * j.step
    let n := df d 6 22 16 * df d 6 30 24 * cropCB d
    let dst := (j.ref 2).addr + j.step * n
    let sg := (geoOf (dw d 3)).size
    if s.bondWait ba 16 || s.bondWait src sg || s.bondWait dst n then s
    else match (s.denied j.part ba 16 false).or (s.denied j.part dst n true) with
    | some e => s.samplerDenied scn j e
    | none =>
      match s.readRes ba 16 chk with
      | .data =>
        let s := (s.guestIn ba 16).jobMoves { j with place := scn } ba 16 false
        let b := s.cropBox ba
        if b.bad then
          (((s.jobMoves { j with place := scn } dst n true).storeAt dst (List.replicate n 0)).fadd (pgScn scn) Reg.SCN_SMP_BADBOX_COUNT 1).samplerUnit scn j
        else
          match s.denied j.part src sg false, s.firstBad chk (cropReads d src b) with
          | some e, _ => s.samplerDenied scn j e
          | none, some (a, k, r) => s.samplerRead scn j a k chk r
          | none, none =>
            let s := (cropReads d src b).foldl (fun t r => t.jobMoves { j with place := scn } r.1 r.2 false) (s.guestIn src sg)
            let bs := (cropGrid d).flatMap fun o => s.cropPixel d src (cropSample d b o.1 o.2)
            let s := match s.checkEnd chk with
              | .reread a => if (cropReads d src b).any (fun r => a / 64 == r.1 / 64) || a / 64 == ba / 64 then s.countReread a else s
              | _ => s
            ((s.jobMoves { j with place := scn } dst n true).storeAt dst bs).samplerUnit scn j
      | r => s.samplerRead scn j ba 16 chk r

/-- The units of a CROP_RESIZE (07 R190). -/
def cropTotal (d : Nat) : Nat :=
  if (geoOf (dw d 3)).isEmpty || df d 6 22 16 == 0 || df d 6 30 24 == 0 then 0 else df d 6 12 0

/-! ## The commands -/

/-- REGROUP. -/
def execRegroup (tag : Nat) (s : State) : Out :=
  onAwake s true (s.withJob tag fun j =>
    if j.opc = .regroup ∧ j.phase = .placed then
      let g := regroupOut j.desc
      s.samplerStart j (if g.isEmpty then 0 else g.h)
    else s)

/-- REGROUP_ROW_DONE. -/
def execRegroupRowDone (scn : Nat) (chk : ReadCheck) (s : State) : Out :=
  onLive s true (match s.samplerJob scn .regroup with
    | some j => s.regroupStep scn j chk
    | none => s)

/-- CROP_RESIZE. -/
def execCropResize (tag : Nat) (s : State) : Out :=
  onAwake s true (s.withJob tag fun j =>
    if j.opc = .cropResize ∧ j.phase = .placed then
      s.samplerStart j (cropTotal j.desc)
    else s)

/-- CROP_BOX_DONE. -/
def execCropBoxDone (scn : Nat) (chk : ReadCheck) (s : State) : Out :=
  onLive s true (match s.samplerJob scn .cropResize with
    | some j => s.cropStep scn j chk
    | none => s)

end Sys2Proof.Machine
end

