-- ==== Sys2Proof/Machine/Ingest.lean ====
section
/-!
DEFINITION. Ingest.lean: input versions of camera and Ethernet streams: stamps, frames, slots, closing and late samples
(09 R216 to R224; 16 R393, R394, R402).
-/

namespace Sys2Proof.Machine

open Sys2Proof

/-! ## Frames and stamps -/

/-- The stream number of an Ethernet stream among all streams. -/
def ethKey (t : Nat) : Nat := 64 + t

/-- The frame a stamp taken now belongs to (09 R220). -/
def State.sampleFrame (s : State) (ns : Nat) : Word32 :=
  if s.epoch ≠ 0 ∧ ns ≤ s.tickNs then s.epoch else s.epoch + 1

/-- A stamp record (09 Table 2). -/
def stampRec (ns index kind seq : Nat) (late : Bool) : List Byte :=
  toLE 4 (ns % 1000000000) ++ toLE 4 (ns / 1000000000) ++
    toLE 8 (index % 4096 + kind * 2 ^ 12 + seq % 65536 * 2 ^ 16 + (if late then 2 ^ 32 else 0))

/-- The time stamp of tick `f` in ns, for the latest ticks. -/
def State.tickTime (s : State) (f : Word32) : Option Nat := (s.ing.ticks.find? fun p => p.1 == f).map (·.2)

/-- Note a tick for the samples of its frame: the latest four ticks are kept (09 R220, R221, R224). -/
def State.noteTick (s : State) (ns : Nat) (stepped : Bool) : State :=
  { s with ing := { s.ing with
    ticks := ((s.epoch, ns) :: s.ing.ticks).take 4
    stepped := if stepped then some s.epoch else s.ing.stepped } }

/-- Whether frame `f` of a stream has closed. -/
def State.isClosed (s : State) (key : Nat) (f : Word32) : Bool := !frameBelow (s.closedOf key) f

/-- Whether a late sample of frame `f` is discarded: its stamp lies before a stepped tick, or it completes more than two
frame periods after T_F (09 R221, R224). A tick too old to be kept lies further back; one still to come does not. -/
def State.tooLate (s : State) (f : Word32) : Bool :=
  (match s.ing.stepped with
   | some e => e == f || frameBelow f e
   | none => false) ||
  (match s.tickTime f with
   | some t => decide (t + 2 * s.frm.periodUs * 1000 < s.tbu.ns)
   | none => !frameBelow s.epoch f)

/-! ## Slots -/

/-- The buffers of a stream as (partition, handle): a camera's levels in one or both partitions, an Ethernet stream's one. -/
def Cfg.ingestBufs (c : Cfg) (key : Nat) : List (Nat × Nat) :=
  if key < 64 then
    match c.cams[key]? with
    | none => []
    | some m => m.lvls.flatMap fun l =>
        if l.factor = 0 then [] else (m.part0, l.h0) :: (if m.dual then [(m.part1, l.h1)] else [])
  else
    match c.eth.streams.find? fun x => x.t == key - 64 with
    | some x => [(x.part, x.handle)]
    | none => []

/-- The slot the version of frame `f` takes in a buffer: the one tagged so, else the one that does not hold the newest
version below it (02 R51). -/
def State.ingestSlot (s : State) (p h : Nat) (f : Word32) : Nat :=
  let v := s.vbuf p h
  match v.tagged f with
  | some i => i
  | none => match v.newestBelow f with
    | some i => 1 - i
    | none => 1

/-- Whether that slot is free (02 R51). -/
def State.ingestFree (s : State) (p h : Nat) (f : Word32) : Bool :=
  let v := s.vbuf p h
  match v.tagged f with
  | some _ => true
  | none =>
    let i := s.ingestSlot p h f
    (s.jobs.all fun k => k.phase == .ended || !s.readsSlot k p h i) &&
      (v.committed != some i || ((v.tagged (f - 1)).isSome && !s.unfinal (2 ^ 32) p h (f - 1)))

/-- Tag a buffer's slot with the frame; its write generation rises. -/
def State.ingestTag (s : State) (p h : Nat) (f : Word32) : State :=
  let i := s.ingestSlot p h f
  let v := s.vbuf p h
  let v := if v.tagged f = some i then v else v.retag i f
  s.setVbuf (v.setSlot i { v.slot i with gen := (v.slot i).gen + 1 })

/-- The open version of a stream's frame, if its slots are tagged. -/
def State.inVer (s : State) (key : Nat) (f : Word32) : Option InVer :=
  s.ing.vers.find? fun v => v.key == key && v.frame == f

/-- The state with an open version replaced. -/
def State.setInVer (s : State) (v : InVer) : State :=
  { s with ing := { s.ing with vers := s.ing.vers.map fun w => if w.key == v.key && w.frame == v.frame then v else w } }

/-- The master that writes what comes in at a Regulator port: the Pixel Engine or the Frame Engine (02 R55; log entry 9). -/
def ingestMaster (port : Nat) : Master := if port = 17 then .chimney 5 else .chimney 4

/-- The place of a slot in memory, address and size, if the buffer-table entry and the partition's rights let the ingest write it;
in Cormer mode the windows decide for the engine that writes (02 R43, R54, R55). -/
def State.ingestPlace (s : State) (port p h i : Nat) : Option (Nat × Nat) :=
  let e := s.entry p h
  let base := if i = 0 then e.base0 else e.base1
  if s.noTab p ∨ e.rsvd ∨ !e.versioned ∨ !e.w ∨ base % 64 ≠ 0 then none
  else if s.cfg.mayAccess (ingestMaster port) p base e.size true then some (base, e.size)
  else none

/-- Write bytes at an offset of one buffer of a version, within its SIZE; they leave through the port in TC1 (16 R398, R400). A
place that takes no writes turns them away (04 R108, R110; 15 R382). -/
def State.ingestWrite (s : State) (port : Nat) (b : Nat × Nat × Nat) (off : Nat) (bs : List Byte) : State :=
  match s.ingestPlace port b.1 b.2.1 b.2.2 with
  | some (base, size) =>
    if off + bs.length ≤ size ∧ (s.denied b.1 (base + off) bs.length true).isNone then
      (s.traffic (some (ingestMaster port)) port 1 b.1 (base + off) bs.length true).storeAt (base + off) bs
    else s
  | none => s

/-- Write bytes at an offset of every buffer of an Ethernet version. -/
def State.ingestWriteAll (s : State) (v : InVer) (off : Nat) (bs : List Byte) : State :=
  v.bufs.foldl (fun t b => t.ingestWrite 17 b off bs) s

/-- The head of a point-buffer version (16 Table 6). -/
def InVer.head (v : InVer) : List Byte :=
  toLE 4 v.frame.toNat ++ toLE 4 v.used ++ toLE 4 v.lateUsed ++ toLE 4 v.drops ++ List.replicate 48 0

/-- Open the version of a stream's frame at its first sample, if every slot it writes is free (16 R394); a point buffer's
head is written. -/
def State.openVer (s : State) (key : Nat) (f : Word32) : State :=
  if (s.inVer key f).isSome then s
  else
    let bs := s.cfg.ingestBufs key
    if bs.isEmpty ∨ !bs.all fun b => s.ingestFree b.1 b.2 f then s
    else
      let v : InVer := { key := key, frame := f, bufs := bs.map fun b => (b.1, b.2, s.ingestSlot b.1 b.2 f), image := none
                         used := 0, lateUsed := 0, drops := 0 }
      let s := bs.foldl (fun t b => t.ingestTag b.1 b.2 f) s
      let s := { s with ing := { s.ing with vers := s.ing.vers ++ [v] } }
      if key < 64 then s else s.ingestWriteAll v 0 v.head

/-- The oldest frame of a stream whose version has not closed. -/
def State.oldestOpen (s : State) (key : Nat) : Word32 := s.closedOf key + 1

/-- A version closes: it is never written again (09 R221). -/
def State.markClosed (s : State) (key : Nat) (f : Word32) : State :=
  { s with ing := { s.ing with
    closed := aset s.ing.closed key f
    vers := s.ing.vers.filter fun v => !(v.key == key && v.frame == f) } }

/-- Count a late sample that is discarded. -/
def State.lateDrop (s : State) : State := s.fadd pgXCU Reg.XCU_LATE_DROP_COUNT 1

/-- Count a late sample that an open version takes. -/
def State.lateFold (s : State) : State := s.fadd pgXCU Reg.XCU_LATE_FOLD_COUNT 1

end Sys2Proof.Machine
end

