-- ==== Sys2Proof/Machine/Camera.lean ====
section
/-!
DEFINITION. Camera.lean: CSI-2 receivers and the Pixel Engine (16 R389 to R398; 11 R296).
-/

namespace Sys2Proof.Machine

open Sys2Proof

/-! ## Streams and buffers -/

/-- The stream of a (receiver, virtual channel) pair (16 R390). -/
def Cfg.camOf (c : Cfg) (rx vc : Nat) : Option (Nat × CamCfg) :=
  ((List.range c.cams.length).findSome? fun i =>
    match c.cams[i]? with
    | some m => if m.en ∧ m.rx = rx ∧ m.vc = vc then some (i, m) else none
    | none => none)

/-- The frames on their way of stream `i`, oldest first. -/
def State.camFrames (s : State) (i : Nat) : List CamFrame := aget [] s.ing.cams i

/-- The state with the frames of a stream replaced. -/
def State.setCamFrames (s : State) (i : Nat) (fs : List CamFrame) : State :=
  { s with ing := { s.ing with cams := aset s.ing.cams i fs } }

/-- The bytes of a list of lines. -/
def linesBytes (ls : List (List Byte)) : Nat := ls.foldl (fun a l => a + l.length) 0

/-- The bytes of stream `i` that wait in its input-group buffer. -/
def State.camWaiting (s : State) (i : Nat) : Nat :=
  (s.camFrames i).foldl (fun a f => a + linesBytes (f.lines.drop f.done)) 0

/-- The fill of the buffer of input group `g` in bytes (16 R398). -/
def State.groupFill (s : State) (g : Nat) : Nat :=
  (List.range s.cfg.cams.length).foldl (fun a i =>
    match s.cfg.cams[i]? with
    | some m => if m.en ∧ m.rx / 4 = g then a + s.camWaiting i else a
    | none => a) 0

/-- Capacity of an input-group buffer, and the urgency levels it drives (13 R334; 16 R398). -/
def camGroupBytes : Nat := 512 * 1024
def State.groupLevel (s : State) (g : Nat) : State := s.setLevel (13 + g) (s.groupFill g * 256 / camGroupBytes)

/-- Count in a counter of stream `i`. -/
def State.pxeCount (s : State) (i : Nat) (f : Fld) : State := s.faddI pgPXE i f 1

/-- A discarded packet (16 R390, R391). -/
def State.pktErr (s : State) (rx vc : Nat) : State :=
  match s.cfg.camOf rx vc with
  | some (i, _) => s.pxeCount i Reg.PXE_PKTERR_COUNT
  | none => s.fadd pgPXE Reg.PXE_UNMATCHED_COUNT 1

/-- The frame that receives lines: the newest of the stream, while it has not ended. -/
def State.camCur (s : State) (i : Nat) : Option CamFrame :=
  match (s.camFrames i).getLast? with
  | some f => if f.ended then none else some f
  | none => none

/-- Replace the newest frame of a stream. -/
def State.setCamCur (s : State) (i : Nat) (f : CamFrame) : State := s.setCamFrames i ((s.camFrames i).dropLast ++ [f])

/-! ## The maps (16 R395; 07 R176) -/

/-- Rows and columns of a level. -/
def CamCfg.hOf (m : CamCfg) (l : LevelCfg) : Nat := (m.height + l.factor - 1) / l.factor
def CamCfg.wOf (m : CamCfg) (l : LevelCfg) : Nat := (m.width + l.factor - 1) / l.factor

/-- The Regulator port of a stream's input group (13 Table 2; 16 R398). -/
def CamCfg.port (m : CamCfg) : Nat := 13 + m.rx / 4

/-- The geometry of a level's map. -/
def CamCfg.geo (m : CamCfg) (l : LevelCfg) : Geo :=
  { h := m.hOf l, xb := (m.wOf l + 63) / 64, halo := l.halo, fmt := l.fmt, nr := if m.cfa = 8 then 1 else 3 }

/-- A quotient of the pixel stages: exact where the division is, else rounded to a neighbour that is free (log entry 7). -/
def pixelDiv (a b : Nat) : Nat := if a % b = 0 then a / b else a / b + (if Config.pixelUp a b then 1 else 0)

/-- Decompand: the piecewise-linear expansion through the knee points, which are (input, output) in rising order; before the
first and after the last it keeps that point's output (16 Table 4; log entry 21). -/
def decompand (v : Nat) : List (Nat × Nat) → Nat
  | [] => v
  | [k] => k.2
  | a :: b :: rest =>
    if v ≤ a.1 then a.2
    else if v ≤ b.1 then
      (if a.2 ≤ b.2 then a.2 + pixelDiv ((v - a.1) * (b.2 - a.2)) (b.1 - a.1)
       else a.2 - pixelDiv ((v - a.1) * (a.2 - b.2)) (b.1 - a.1))
    else decompand v (b :: rest)

/-- The colour-filter site of a pixel, 0 to 3 by the parities of its row and column. -/
def cfaSite (y x : Nat) : Nat := 2 * (y % 2) + x % 2

/-- Stages Unpack to Gains of one site: expansion to 24 bits, the black level of the site taken off with a clamp at 0, its U8.8
gain with a clamp to 24 bits. -/
def CamCfg.siteVal (m : CamCfg) (line : List Byte) (y x : Nat) : Nat :=
  let v := Nat.min (decompand (Config.rawSample m.dt line x).toNat m.pipe.knees) (2 ^ 24 - 1)
  let v := v - m.pipe.black.getD (cfaSite y x) 0
  Nat.min (pixelDiv (v * m.pipe.gains.getD (cfaSite y x) 0x100) 256) (2 ^ 24 - 1)

/-- The site values of the lines processed so far. -/
def CamCfg.sites (m : CamCfg) (lines : List (List Byte)) : List (List Nat) :=
  lines.mapIdx fun y l => (List.range m.width).map fun x => m.siteVal l y x

/-- Stage Demosaic: plane `c` of a pixel; a mono sensor has nothing to interpolate. -/
def CamCfg.planeVal (m : CamCfg) (sites : List (List Nat)) (y x c : Nat) : Nat :=
  if m.cfa = 8 then (sites.getD y []).getD x 0 else Config.demosaic m.cfa sites y x c

/-- Stage Colour: row `c` of the 3 × 3 matrix and its offset, in FP32 with every operation rounded to nearest even, the
products added in order (log entry 21). -/
def CamCfg.colourVal (m : CamCfg) (sites : List (List Nat)) (y x c : Nat) : Word32 :=
  let mul := fun (i : Nat) => f32mul (m.pipe.colour.getD (3 * c + i) 0) (f32ofNat (m.planeVal sites y x i))
  f32add (f32add (f32add (mul 0) (mul 1)) (mul 2)) (m.pipe.colour.getD (9 + c) 0)

/-- Stages up to Tone: the 16-bit v of plane `c` of a pixel at the sensor's resolution. -/
def CamCfg.toneVal (m : CamCfg) (sites : List (List Nat)) (y x c : Nat) : Nat :=
  (Config.tone m.pipe.tone (m.colourVal sites y x c)).toNat

/-- Stage Pyramid: `n` octaves of 2 × 2 averages, the last row and column replicated where the count is odd; `h` and `w` are
the rows and columns of the octave below. -/
def CamCfg.pyramid (m : CamCfg) (sites : List (List Nat)) : Nat → Nat → Nat → Nat → Nat
  | 0, y, x, c => m.toneVal sites y x c
  | n + 1, y, x, c =>
    let h := (m.height + 2 ^ n - 1) / 2 ^ n
    let w := (m.width + 2 ^ n - 1) / 2 ^ n
    let at_ := fun (i j : Nat) => m.pyramid sites n (Nat.min (2 * y + i) (h - 1)) (Nat.min (2 * x + j) (w - 1)) c
    pixelDiv (at_ 0 0 + at_ 0 1 + at_ 1 0 + at_ 1 1) 4

/-- The octaves of a pyramid factor. -/
def LevelCfg.octaves (l : LevelCfg) : Nat := if l.factor = 8 then 3 else if l.factor = 4 then 2 else if l.factor = 2 then 1 else 0

/-- Stage Convert: the 16-bit v in the level's format (16 Table 4). -/
def pixelConvert (fmt : Nat) (v : BitVec 16) : Nat :=
  match cfmtOf fmt with
  | .flt f => f.encode false (.fin false v.toNat (-16))
  | .int w sg => fitInt w sg true ((roundShift false v.toNat (-8) : Int) - (if sg then 128 else 0))
  | .e8m0 => 0

/-- The bits of channel row `c` of block `j` of row `y` of a level: lanes outside the level's columns are zero. -/
def CamCfg.rowBits (m : CamCfg) (l : LevelCfg) (lines : List (List Byte)) (y : Nat) (j : Int) (c : Nat) : Nat :=
  let g := m.geo l
  (List.range 64).foldl (fun a lane =>
    let x : Int := j + (g.xb * lane : Nat)
    if 0 ≤ x ∧ x < (m.wOf l : Nat) then
      a + pixelConvert l.fmt (BitVec.ofNat 16 (m.pyramid (m.sites lines) l.octaves y x.toNat c)) * 2 ^ (g.laneBits * lane)
    else a) 0

/-- Write rows `y0` to `y1 − 1` of a level into one buffer. -/
def State.pixelRows (s : State) (m : CamCfg) (l : LevelCfg) (lines : List (List Byte)) (y0 y1 : Nat)
    (b : Nat × Nat × Nat) : State :=
  let g := m.geo l
  let ys := (List.range (y1 - y0)).map (· + y0)
  let js := (List.range (g.xb + 2 * g.halo)).map fun (n : Nat) => (n : Int) - (g.halo : Int)
  ys.foldl (fun s y => js.foldl (fun s j => (List.range g.nr).foldl (fun s c =>
    s.ingestWrite m.port b (g.rowAddr 64 y j c) (toLE (rowBytes g.fmt) (m.rowBits l lines y j c))) s) s) s

/-- The levels in use with their numbers. -/
def CamCfg.levels (m : CamCfg) : List (Nat × LevelCfg) :=
  (List.range m.lvls.length).filterMap fun k =>
    match m.lvls[k]? with
    | some l => if l.factor = 0 then none else some (k, l)
    | none => none

/-- The buffers of a version that hold level `l`. -/
def InVer.ofLevel (v : InVer) (m : CamCfg) (l : LevelCfg) : List (Nat × Nat × Nat) :=
  v.bufs.filter fun b => (b.1 == m.part0 && b.2.1 == l.h0) || (m.dual && b.1 == m.part1 && b.2.1 == l.h1)

/-- Write what lines `a` to `b − 1`, the last of those processed, complete: the rows they complete and those whose 5 × 5
neighbourhood they touch; with the frame's last line every remaining row. -/
def State.pixelWrite (s : State) (m : CamCfg) (v : InVer) (lines : List (List Byte)) (a b : Nat) (last : Bool) : State :=
  m.levels.foldl (fun s kl =>
    let f := kl.2.factor
    let y0 := (a - 2) / f
    let y1 := Nat.min (m.hOf kl.2) (if last then (b + f - 1) / f else b / f)
    (v.ofLevel m kl.2).foldl (fun s bf => s.pixelRows m kl.2 (lines.take b) y0 y1 bf) s) s

/-! ## Records (16 Table 3) -/

/-- The frame record of a level. -/
def frameRec (stamp : List Byte) (status level lines : Nat) (f : Word32) : List Byte :=
  stamp ++ toLE 1 status ++ toLE 1 level ++ toLE 2 lines ++ toLE 4 f.toNat ++ List.replicate 40 0

/-- Write the frame records of every level. -/
def State.writeRecs (s : State) (m : CamCfg) (v : InVer) (stamp : List Byte) (status lines : Nat) : State :=
  m.levels.foldl (fun s kl =>
    (v.ofLevel m kl.2).foldl (fun s b => s.ingestWrite m.port b 0 (frameRec stamp status kl.1 lines v.frame)) s) s

/-! ## The end of a frame -/

/-- Whether a frame gets test lines: its stream is set in STREAMS and it has lost no line (16 R396). -/
def State.testDue (s : State) (i : Nat) (m : CamCfg) (f : CamFrame) : Bool :=
  s.cfg.snA.table.streams.getLsbD i && f.lines.length == m.height

/-- Whether everything of a frame has passed the Pixel Engine. -/
def State.camThrough (s : State) (i : Nat) (m : CamCfg) (f : CamFrame) : Bool :=
  f.ended && f.done == f.lines.length && (f.tested || !s.testDue i m f)

/-- STATUS of a frame that has ended (16 Table 3). -/
def CamFrame.status (f : CamFrame) (m : CamCfg) : Nat := if f.lines.length = m.height then 0 else 1

/-- The frame leaves the stream and is counted (16 Table 10). -/
def State.camGone (s : State) (i : Nat) (m : CamCfg) (f : CamFrame) : State :=
  let s := s.setCamFrames i ((s.camFrames i).drop 1)
  let s := s.fsetI pgPXE i Reg.PXE_FRAMES_COUNT (s.fgetI pgPXE i Reg.PXE_FRAMES_COUNT + 1)
  if f.status m = 0 then s else s.pxeCount i Reg.PXE_INCOMPLETE_COUNT

/-- A version takes a frame's image: its records are written, and an image it held before is discarded (09 R222). A frame
without any line brings no image: its record stands until the version closes (16 R393). -/
def State.camKeep (s : State) (i : Nat) (m : CamCfg) (v : InVer) (f : CamFrame) (late : Bool) : State :=
  if f.lines.isEmpty ∧ v.image.isSome then s.lateDrop
  else
    let s := if v.image.isSome then s.lateDrop else s
    let s := s.writeRecs m v (stampRec f.stamp i 0 f.ctr late) (f.status m) f.lines.length
    let s := s.setInVer { v with image := if f.lines.isEmpty then none else some f.stamp }
    if late then s.lateFold else s

/-- Whether the version holds the image of a sample with a later stamp. -/
def InVer.hasLater (v : InVer) (f : CamFrame) : Bool :=
  match v.image with
  | some t => decide (f.stamp < t)
  | none => false

/-- Whether a frame of the version's own interval is being written into it (09 R222). -/
def State.camTearing (s : State) (i : Nat) (v : InVer) : Bool :=
  (s.camFrames i).any fun g => g.frame == v.frame && g.done != 0 && v.image.isNone

/-- The oldest frame of a stream, once through the Pixel Engine, is written into its version or, late, into the oldest open
one in full, or discarded; while the slot is not free it waits (09 R221, R222; 16 R393). -/
def State.camFinish (s : State) (i : Nat) (m : CamCfg) (f : CamFrame) : State :=
  let key := i
  if !s.isClosed key f.frame then
    let s := s.openVer key f.frame
    match s.inVer key f.frame with
    | none => s
    | some v => if v.hasLater f then (s.camGone i m f).lateDrop else (s.camGone i m f).camKeep i m v f false
  else if s.tooLate f.frame then (s.camGone i m f).lateDrop
  else
    let s := s.openVer key (s.oldestOpen key)
    match s.inVer key (s.oldestOpen key) with
    | none => s
    | some v =>
      if v.hasLater f || s.camTearing i v then (s.camGone i m f).lateDrop
      else ((s.camGone i m f).pixelWrite m v f.lines 0 f.lines.length true).camKeep i m v f true

/-- Finish every frame of a stream that can be. -/
def State.camSettle (s : State) (i : Nat) (m : CamCfg) : Nat → State
  | 0 => s
  | n + 1 =>
    match s.camFrames i with
    | f :: _ =>
      if s.camThrough i m f then
        let t := s.camFinish i m f
        if (t.camFrames i).length < (s.camFrames i).length then t.camSettle i m n else t
      else s
    | [] => s

/-- Finish the frames of every stream that can be. -/
def State.camSettleAll (s : State) : State :=
  (List.range s.cfg.cams.length).foldl (fun s i =>
    match s.cfg.cams[i]? with
    | some m => s.camSettle i m 8
    | none => s) s

/-! ## Packets -/

/-- A frame in progress ends (16 R393). -/
def State.camEnd (s : State) (i : Nat) (m : CamCfg) : State :=
  match s.camCur i with
  | some f => (s.setCamCur i { f with ended := true }).camSettle i m 8
  | none => s

/-- An accepted frame start: the stream's new frame, stamped now; it retags its slot where that is free (16 R392, R394). A
frame still in progress has lost its end and ends here. With FCSRC = 1 the frame counter is a free value until an
embedded-data line gives it (log entry 7). -/
def State.camStart (s : State) (i : Nat) (m : CamCfg) (num : Nat) : State :=
  let s := s.camEnd i m
  let t := s.tbu.ns
  let num := if m.fcsrc = 0 then num else Config.freeNat s.draws
  let s := if m.fcsrc = 0 then s else s.draw
  let f : CamFrame := { frame := s.sampleFrame t, stamp := t, ctr := num % 65536, ctrSeen := m.fcsrc = 0, lines := []
                        done := 0, drop := false, ended := false, tested := false }
  let s := s.setCamFrames i (s.camFrames i ++ [f])
  if s.isClosed i f.frame then s else s.openVer i f.frame

/-- A line of the stream's data type: it joins the frame if it fits in the input-group buffer (16 R391, R398). -/
def State.camLine (s : State) (i : Nat) (m : CamCfg) (f : CamFrame) (bs : List Byte) : State :=
  if f.drop then s
  else if f.lines.length = m.height then s.pxeCount i Reg.PXE_PKTERR_COUNT
  else if camGroupBytes < s.groupFill (m.rx / 4) + bs.length then
    (s.setCamCur i { f with drop := true }).pxeCount i Reg.PXE_OVF_COUNT
  else (s.setCamCur i { f with lines := f.lines ++ [bs] }).groupLevel (m.rx / 4)

/-- The first embedded-data line gives the frame counter where FCSRC says so (16 R392). -/
def State.camEmbedded (s : State) (i : Nat) (m : CamCfg) (f : CamFrame) (bs : List Byte) : State :=
  if f.ctrSeen then s
  else if bs.length < m.fcoff + 2 then s.setCamCur i { f with ctrSeen := true }
  else s.setCamCur i { f with ctrSeen := true, ctr := ofLE ((bs.drop m.fcoff).take 2) }

/-- A long packet of a stream that passes its checks. -/
def State.camPacket (s : State) (i : Nat) (m : CamCfg) (dt : Nat) (bs : List Byte) : State :=
  if dt = m.dt ∨ dt = 0x12 then
    match s.camCur i with
    | none => s.pxeCount i Reg.PXE_PKTERR_COUNT
    | some f => if dt = 0x12 then s.camEmbedded i m f bs else s.camLine i m f bs
  else s

/-! ## The Pixel Engine (16 R396, R397) -/

/-- The oldest frame of a stream with work for the engine. -/
def State.camNext (s : State) (i : Nat) (m : CamCfg) : Option CamFrame :=
  (s.camFrames i).find? fun f => f.done < f.lines.length || (!f.tested && s.testDue i m f)

/-- The active lines of the next group of a frame: 8, or the rest of a frame that has all its lines or has ended; 0 where
the test lines are next or no group is complete. -/
def CamFrame.groupLines (f : CamFrame) (m : CamCfg) : Nat :=
  let left := f.lines.length - f.done
  if 8 ≤ left then 8 else if f.ended || f.lines.length == m.height then left else 0

/-- Whether the next group of a stream is complete and has a place to go: a version whose slot is free, or, for a frame whose
version has closed, none needed. -/
def State.camReady (s : State) (i : Nat) (m : CamCfg) : Bool :=
  match s.camNext i m with
  | none => false
  | some f =>
    (f.groupLines m != 0 || f.done == f.lines.length) &&
      (s.isClosed i f.frame || ((s.openVer i f.frame).inVer i f.frame).isSome)

/-- The stream the engine serves next: of those ready, the one whose input-group buffer is fullest, ties to the lower
number. -/
def State.pxePick (s : State) : Option Nat :=
  (List.range s.cfg.cams.length).foldl (fun best i =>
    match s.cfg.cams[i]? with
    | none => best
    | some m =>
      if m.en && s.camReady i m then
        match best with
        | none => some i
        | some b => if s.groupFill ((s.cfg.cams[b]?.map (·.rx / 4)).getD 0) < s.groupFill (m.rx / 4) then some i else some b
      else best) none

/-- Replace a frame of a stream. -/
def State.setCamFrame (s : State) (i : Nat) (f g : CamFrame) : State :=
  s.setCamFrames i ((s.camFrames i).map fun x => if x == f then g else x)

/-- The guard report of the test lines (16 R396). -/
def State.guardReport (s : State) (i : Nat) (m : CamCfg) (f : CamFrame) : State :=
  s.storeAt (s.cfg.guardBase + 16 * i)
    (toLE 4 f.frame.toNat ++ toLE 4 (Config.guardCrc m i (f.frame.toNat % 16)).toNat ++ toLE 2 f.ctr ++ List.replicate 6 0)

/-- A slice of active lines: their rows are written unless the frame is late or a later image is kept; the first slice over
an earlier image discards that one (09 R222). -/
def State.sliceLines (s : State) (i : Nat) (m : CamCfg) (f : CamFrame) (n : Nat) : State :=
  let b := f.done + n
  let last := b == f.lines.length && (f.ended || b == m.height)
  let g := { f with done := b }
  if s.isClosed i f.frame then s.setCamFrame i f g
  else
    let s := s.openVer i f.frame
    match s.inVer i f.frame with
    | none => s
    | some v =>
      if v.hasLater f then s.setCamFrame i f g
      else
        let s := if v.image.isSome then s.lateDrop else s
        let v := { v with image := none }
        ((s.setInVer v).pixelWrite m v f.lines f.done b last).setCamFrame i f g

/-- One slice of stream `i`: its cycles, its lines or test lines, and what can be finished after it. -/
def State.slice (s : State) (i : Nat) (m : CamCfg) (f : CamFrame) : State :=
  let n := f.groupLines m
  let test := decide (n = 0)
  let cyc := 16 + (m.width * (if test then 4 else n) + 3) / 4
  let s := s.fwrap pgPXE Reg.PXE_BUSY_COUNT cyc
  let s := { s with ing := { s.ing with freeAt := s.now + cyclesToEdges cyc 600 } }
  let s := if test then (s.guardReport i m f).setCamFrame i f { f with tested := true } else s.sliceLines i m f n
  (s.camSettle i m 8).groupLevel (m.rx / 4)

/-! ## Closing (09 R221; 16 R393) -/

/-- The camera version of frame `f` closes: where no image is whole in it, its records say ABSENT. -/
def State.camClose (s : State) (i : Nat) (m : CamCfg) (f : Word32) : State :=
  let s := s.openVer i f
  let s := match s.inVer i f with
    | some v => if v.image.isSome then s else s.writeRecs m v (List.replicate 16 0) 2 0
    | none => s
  (s.markClosed i f).camSettle i m 8

/-- Whether a stream's sample of frame `f` has completed and none of it is on its way. -/
def State.camAllDone (s : State) (i : Nat) (f : Word32) : Bool :=
  ((s.inVer i f).bind (·.image)).isSome && !(s.camFrames i).any fun g => g.frame == f

/-! ## Commands -/

/-- CSI2_PACKET (16 R391): a packet other than a frame start or end. `dt` is the RAW type by its bits, or 0x12. -/
def execCsi2Packet (rx vc dt : Nat) (eccOk crcOk : Bool) (payload : List Byte) (s : State) : Out :=
  onAwake s (decide (rx < 16)) <|
    match s.cfg.camOf rx vc with
    | none => s.pktErr rx vc
    | some (i, m) => if eccOk && crcOk then s.camPacket i m dt payload else s.pktErr rx vc

/-- CSI2_FRAME_START (09 R216, 16 R392). -/
def execCsi2FrameStart (rx vc num : Nat) (eccOk : Bool) (e : Nat) (s : State) : Out :=
  onAwake s (decide (rx < 16)) <|
    let s := elapse e s
    match s.cfg.camOf rx vc with
    | none => s.pktErr rx vc
    | some (i, m) => if eccOk then s.camStart i m num else s.pktErr rx vc

/-- CSI2_FRAME_END (16 R393). -/
def execCsi2FrameEnd (rx vc : Nat) (eccOk : Bool) (e : Nat) (s : State) : Out :=
  onAwake s (decide (rx < 16)) <|
    let s := elapse e s
    match s.cfg.camOf rx vc with
    | none => s.pktErr rx vc
    | some (i, m) => if eccOk then s.camEnd i m else s.pktErr rx vc

/-- PXE_SLICE (16 R397): the engine, once free, takes the next group. -/
def execPxeSlice (e : Nat) (s : State) : Out :=
  let t := elapse e s
  onAwake s (s.dueNow e s.ing.freeAt && t.pxePick.isSome) <|
    match t.pxePick with
    | none => s
    | some i =>
      match t.cfg.cams[i]? with
      | none => s
      | some m =>
        match t.camNext i m with
        | none => s
        | some f => t.slice i m f

end Sys2Proof.Machine
end

