-- ==== Sys2Proof/Machine/Lines.lean ====
section
/-!
DEFINITION. Lines.lean: the aggregator lines of the register pages, INT_FORCE, and step 4 of the start tests (20 R480, R482,
R485; 11 R299).
-/

namespace Sys2Proof.Machine

open Sys2Proof

/-- The aggregator lines of a page in the order of INT_FORCE (20 Table 4). -/
def pageLines : Block → Nat → List Nat
  | .lmpFrame, _ => [0, 1, 2, 368, 369, 370, 161]
  | .lmpSched, _ => [3]
  | .lmpQueue, _ => [4]
  | .wck, w => [lineScn (sconceOf w)]
  | .scn, k => [lineScn k]
  | .apw, n => [8 + 16 * n + 8]
  | .rsv, n => [8 + 16 * n + 10]
  | .lnk, n => [8 + 16 * n + 9, 8 + 16 * n + 11, 8 + 16 * n + 12, 8 + 16 * n + 13, 8 + 16 * n + 14]
  | .ccu, _ => [136, 137]
  | .xcu, _ => [152, 153, 154]
  | .pru, _ => [160]
  | .rgl, _ => (List.range 11).map (· + 176)
  | .dmcCh, c => (List.range 4).map (· + 208 + 4 * c)
  | .lnkC, _ => (List.range 16).map (· + 272)
  | .gst, _ => [288, 289, 290]
  | .pxe, _ => (List.range 32).map (· + 304)
  | .eth, p => [336 + p, 347]
  | .pch, i => [344 + i / 9, 349]
  | .tbu, _ => [346]
  | .etqTx, _ => [348]
  | .etqRx, _ => [348]
  | .flt, _ => [352]
  | .dbg, _ => [353]
  | .fus, _ => [354]
  | .trm, _ => (List.range 5).map (· + 356)
  | .sna, _ => (List.range 4).map (· + 384)
  | .snb, _ => (List.range 4).map (· + 384)
  | _, _ => []

/-- A pulse of a line from a page: a Snuffer's own lines reach that Snuffer alone. -/
def State.pulseFrom (s : State) (page line : Nat) : State :=
  if page = pgSNA then s.pulseOwn .a line else if page = pgSNB then s.pulseOwn .b line else s.pulse line

/-- Flint or JTAG forces lines of a page (20 R482): INT_STATUS.ERR sets, the captured error stays. -/
def State.forceLines (s : State) (page : Nat) (v : Word32) : State :=
  let ls := match pageInfo s.lanterns page with
    | some (b, i) => pageLines b i
    | none => []
  let hit := (List.range ls.length).filter fun k => decide (k < 16) && v.getLsbD k
  let s' := hit.foldl (fun t k => t.pulseFrom page (ls.getD k 0)) s
  if hit.isEmpty then s' else (s'.fset page Reg.INT_STATUS_ERR 1).pendRise page (s'.pend page)

/-- A W1C write of INT_STATUS: a further message goes out where another enabled bit is still set (20 R480, R485). -/
def State.intClear (s : State) (page : Nat) (v : Word32) : State :=
  let old := s.reg page 0 0x018
  let t := s.setReg page 0 0x018 (old &&& ~~~v)
  if (old &&& v) != 0#32 && t.pend page then
    t.msix (t.fget page Reg.INT_ROUTE_PORT) (t.fget page Reg.LOCK_OWNER) (t.fget page Reg.INT_ROUTE_VEC)
  else t

/-! ## Step 4 of the start tests (11 R299) -/

/-- Every page of the part. -/
def State.presentPages (s : State) : List Nat := (List.range 0x600).filter fun p => (pageInfo s.lanterns p).isSome

/-- The lines that step 4 tests: those of every present page, absent Lanterns' left out. -/
def State.testLines (s : State) : List Nat :=
  s.presentPages.flatMap fun p => match pageInfo s.lanterns p with
    | some (b, i) => pageLines b i
    | none => []

/-- Flint forces one line of a page and clears INT_STATUS.ERR again (20 Example 2). -/
def State.forceOne (s : State) (page k : Nat) : State := (s.forceLines page (BitVec.ofNat 32 (2 ^ k))).intClear page 1

/-- Flint forces every line of every present page in turn, one path at a time; a frozen device forces none (21 R490). -/
def State.forceAll (s : State) : State :=
  if s.live then
    s.presentPages.foldl (fun t p => match pageInfo s.lanterns p with
      | some (b, i) => (List.range (pageLines b i).length).foldl (fun u k => u.forceOne p k) t
      | none => t) s
  else s

end Sys2Proof.Machine
end

