-- ==== Sys2Proof/Machine/Signed.lean ====
section
/-!
DEFINITION. Signed.lean: the acceptance of signed objects by the die that verifies them (19 R455, R456, R458).
-/

namespace Sys2Proof.Machine

open Sys2Proof

/-! ## Signed objects (19 R455, R456, R458) -/

/-- Owner key slots programmed, bit k for slot k; a hash of zeros is unprogrammed (19 Table 3). -/
def Fuses.slotSet (f : Fuses) (k : Nat) : Bool := decide (k < 4) && f.okh.getD k 0 != 0

/-- A slot of a set of fuses that is programmed and not revoked. -/
def Fuses.slotGood (f : Fuses) (okrev k : Nat) : Bool := f.slotSet k && !okrev.testBit k

/-- The limit of BODYLEN for a kind (19 R456 check 2). -/
def bodyLimit (kind : Nat) : Nat :=
  match kind with
  | 1 => 8 * 2 ^ 20 - 3392
  | 2 => 4 * 2 ^ 20 - 3392
  | 3 => 64 * 2 ^ 10
  | 4 => 4 * 2 ^ 30
  | 5 => 64 * 2 ^ 10
  | _ => 0

/-- Whether TARGET and BIND hold only what the kind lets them hold (19 Table 4). -/
def targetOk (h : ObjHead) : Bool :=
  (match h.kind with
    | 4 => decide (h.target < 8)
    | 6 => decide (h.target < 32)
    | 7 => decide (h.target < 4)
    | _ => h.target == 0) && (h.kind == 3 || h.kind == 6 || h.bind == 0)

/-- The checks of 19 R456 in their order, with the revocations `okrev` of the die that verifies: the code of the first that
fails. `minSvn` is what check 7 asks. -/
def headErr (f : Fuses) (okrev kind minSvn : Nat) (h : ObjHead) : Option Err :=
  if h.magic ≠ 0x4F534C57 ∨ h.ver ≠ 1 ∨ h.kind ≠ kind ∨ !h.zerosOk ∨ !targetOk h then some .signatureInvalid
  else if bodyLimit kind < h.bodyLen then some .lengthExceedsExtent
  else if (h.serial ≠ 0 ∧ h.serial ≠ f.serial) ∨ (kind = 6 ∧ h.serial = 0) then some .signatureInvalid
  else if !f.slotGood okrev h.keyslot then some .signatureInvalid
  else if h.keyHash ≠ f.okh.getD h.keyslot 0 then some .signatureInvalid
  else if !h.sigOk then some .signatureInvalid
  else if h.svn < minSvn then some .signatureInvalid
  else none

end Sys2Proof.Machine
end

