-- ==== Sys2Proof/Machine/Snuffer.lean ====
section
/-!
DEFINITION. Snuffer.lean: the Snuffers, their comparisons, stops and lines, and the verdict gate (11 R276 to R298; 22
R500). A Snuffer is a die of its own: it runs on its own supply and clock, also while the rest is frozen or in reset.
-/

namespace Sys2Proof.Machine

open Sys2Proof

/-- The number of a Snuffer state in SNA_STATE.STATE (11 Table 10). -/
def SnState.code : SnState → Nat
  | .reset => 0
  | .testing => 1
  | .armed => 2
  | .running => 3
  | .stopped => 4
  | .failed => 5

/-- The other Snuffer. -/
def snOther : Sn → Sn
  | .a => .b
  | .b => .a

/-- The Snuffer table; the two tables are equal in every field (11 R277). -/
def State.snTable (s : State) : SnTable := s.cfg.snA.table

/-- Whether a Snuffer's clock runs: its supply is good and it is not frozen with the device (21 R491, 22 R500). -/
def State.snLive (s : State) (i : Sn) : Bool := (s.sn i).supply && !s.flag pgDBG Reg.DBG_FRZ_SNUFFERS

/-- Whether a Snuffer is ARMED or RUNNING. -/
def SnState.active : SnState → Bool
  | .armed => true
  | .running => true
  | _ => false

/-- Whether a Snuffer is in service: ARMED, RUNNING or STOPPED. -/
def SnState.inService : SnState → Bool
  | .stopped => true
  | x => x.active

/-- A command of one Snuffer. -/
def onSn (i : Sn) (s : State) (c : Bool) (t : State) : Out := .next (if s.snLive i && c then t else s)

/-- Change a Snuffer's state, as SNA_STATE shows it. -/
def State.snEnter (s : State) (i : Sn) (st : SnState) : State :=
  (s.setSn i { s.sn i with st := st }).fset (pgSn i) Reg.SNA_STATE_STATE st.code

/-! ## Stops (11 R289 to R292) -/

/-- A stop is commanded: it latches with its cause, the page interrupt rises and SAFE goes low (11 R291, R292). A Snuffer
that is STOPPED already keeps its cause; a further STOP line is recorded as the last one. -/
def State.commandStop (s : State) (i : Sn) (cause line : Nat) : State :=
  if (s.sn i).st.active then
    let s := s.setSn i { s.sn i with safe := false, stopFrame := some s.epoch }
    let s := (s.snEnter i .stopped).fset (pgSn i) Reg.SNA_STATE_CAUSE cause
    ((if cause = 3 then s.fset (pgSn i) Reg.SNA_STATE_LINE line else s).event (pgSn i))
  else if (s.sn i).st = .stopped ∧ cause = 3 then s.fset (pgSn i) Reg.SNA_STATE_LINE line
  else s

/-- The action of a line in the Snuffer table; lines 400 to 511 have none (11 R295). -/
def SnTable.actionOf (t : SnTable) (line : Nat) : Nat := if line < 400 then t.action.getD line 0 else 0

/-- A pulse is sampled (11 R295): it is counted and raises the page interrupt; action 1 marks the frame, action 2 commands
a stop. A Snuffer in RESET or TESTING samples nothing into its service. -/
def State.lineAct (s : State) (i : Sn) (line : Nat) : State :=
  if (s.sn i).st = .reset ∨ (s.sn i).st = .testing ∨ 400 ≤ line then s
  else
    let s := (s.fadd (pgSn i) Reg.SNA_LINES_COUNT 1).event (pgSn i)
    let a := s.snTable.actionOf line
    if a = 1 then s.setSn i { s.sn i with counted := true }
    else if a = 2 then s.commandStop i 3 line
    else s

/-- All pulses that wait at a Snuffer's aggregator are sampled. -/
def State.drainLines (s : State) (i : Sn) : State :=
  let ls := (s.sn i).lines
  ls.foldl (fun t l => t.lineAct i l) (s.setSn i { s.sn i with lines := [] })

/-! ## Submissions (11 R278, R280) -/

/-- Length of a block and offset of its SEAL line (11 Tables 3 and 4). -/
def blockLen (b : Bool) : Nat := if b then 2560 else 8064
def sealOff (b : Bool) : Nat := if b then 2496 else 8000

/-- `n` bytes of a block from `o`, as a little-endian number. -/
def leAt (bs : List Byte) (o n : Nat) : Nat := ofLE ((bs.drop o).take n)

/-- Base of channel A's block, or of channel B's. -/
def SnTable.sub (t : SnTable) (b : Bool) : Nat := if b then t.subB else t.subA

/-- Whether a sealed block's CRC matches. -/
def sealGood (b : Bool) (bs : List Byte) : Bool :=
  BitVec.ofNat 32 (leAt bs (sealOff b + 4) 4) == crc32c (bs.take (sealOff b))

/-- Port 21 or 22 (13 Table 1), at which a Snuffer reads, in TC0 only (11 R276). -/
def snPort : Sn → Nat
  | .a => 21
  | .b => 22

/-- A read at a Snuffer's port: what it leaves in the memory's counters, and its traffic. -/
def State.snRead (s : State) (i : Sn) (p a n : Nat) (chk : ReadCheck) : State :=
  (s.readMarks a n chk).traffic none (snPort i) 0 p a n false

/-- The partition of channel A, or of channel B. -/
def SnTable.chan (t : SnTable) (b : Bool) : Nat := if b then t.chanB else t.chanA

/-- One poll of one block: the SEAL line is read and, where it carries the present frame, the whole block; it has arrived
when no byte reads poisoned or in error and its CRC matches. The first arrived copy is kept. -/
def State.pollBlock (s : State) (i : Sn) (b : Bool) (chk : ReadCheck) (held : Option (List Byte)) :
    State × Option (List Byte) :=
  let a := s.snTable.sub b
  let p := s.snTable.chan b
  let sl := a + sealOff b
  if (s.readRes sl 64 chk).err = none ∧ BitVec.ofNat 32 (s.loadLE sl 4) = s.epoch ∧ held = none then
    let t := s.snRead i p a (blockLen b) chk
    if (s.readRes a (blockLen b) chk).err = none ∧ sealGood b (s.load a (blockLen b)) then
      (t, some (s.load a (blockLen b)))
    else (t, none)
  else (s.snRead i p sl 64 chk, held)

/-- Whether the poll that a Snuffer makes next comes after `e` edges, before the cutoff (11 R280). -/
def State.pollDue (s : State) (i : Sn) (e : Nat) : Bool :=
  let x := s.sn i
  let t := s.snTable
  match x.tickLast with
  | some k =>
    x.st.inService && !x.cut && s.dueSn e (k + (t.watch + x.polls * t.poll) * edgesPerUs) &&
      decide (s.snNow + e < k + (t.pubUs - t.guard_) * edgesPerUs)
  | none => false

/-- A poll of both blocks. -/
def State.poll (s : State) (i : Sn) (chkA chkB : ReadCheck) : State :=
  let (s1, a) := s.pollBlock i false chkA (s.sn i).copyA
  let (s2, b) := s1.pollBlock i true chkB (s.sn i).copyB
  s2.setSn i { s2.sn i with copyA := a, copyB := b, polls := (s.sn i).polls + 1 }

/-! ## The sensor-path guard (11 R296, R297) -/

/-- The guard report of stream `k` at the cutoff: a report of another frame or with another signature pulses line 304 + k; an
embedded counter that has not advanced by one since the last report pulses line 320 + k. -/
def State.guardCheck (s : State) (i : Sn) (k : Nat) : State :=
  let a := s.cfg.guardBase + 16 * k
  let s := s.snRead i 0 a 16 .ok
  let ok := (s.readRes a 16 .ok).err = none ∧ BitVec.ofNat 32 (s.loadLE a 4) = s.epoch
  let sig := s.snTable.sig.getD (16 * k + s.epoch.toNat % 16) 0
  if ok then
    let t := if BitVec.ofNat 32 (s.loadLE (a + 4) 4) = sig then s else s.pulseOwn i (304 + k)
    let n := s.loadLE (a + 8) 2
    let x := t.sn i
    let last := x.frames.find? fun p => p.1 == k
    let t := match last with
      | some p => if n = (p.2 + 1) % 65536 then t else t.pulseOwn i (320 + k)
      | none => t
    t.setSn i { t.sn i with frames := aset (t.sn i).frames k n }
  else s.pulseOwn i (304 + k)

/-- The cutoff: polling stops and the guard reports are judged. -/
def State.cutoff (s : State) (i : Sn) : State :=
  let s := s.setSn i { s.sn i with cut := true }
  (List.range 16).foldl (fun t k => if t.snTable.streams.getLsbD k then t.guardCheck i k else t) s

/-! ## The gate's loader (11 R281) -/

/-- The trajectory record of alternate `r` in channel A's block. -/
def altRecord (bs : List Byte) (r : Nat) : List Byte := (bs.drop (576 + 1856 * r)).take 1856

/-- Whether the gate may load: a Snuffer has both blocks or has passed its cutoff. -/
def Snuffer.settled (x : Snuffer) : Bool := x.st.inService && (x.cut || (x.copyA.isSome && x.copyB.isSome))

/-- The loader reads the alternates and their CRCs; a record that cannot be read stays empty. -/
def State.gateLoad (s : State) (chk : ReadCheck) : State :=
  let a := s.snTable.subA
  let n := if (s.readRes a 64 chk).err = none then Nat.min (s.loadLE (a + 4) 1) 4 else 0
  let recs := (List.range n).map fun r =>
    if (s.readRes (a + 576 + 1856 * r) 1856 chk).err = none then s.load (a + 576 + 1856 * r) 1856 else []
  let m := 576 + 1856 * n
  let t := (s.readMarks a m chk).traffic none 23 0 s.snTable.chanA a m false
  { t with gate := { t.gate with recs := recs, crcs := recs.map crc32c, loaded := true } }

/-! ## The comparisons (11 R282, R283) -/

/-- The 2-bit code of sector `k` of a near-field map (11 R278). -/
def nearCode (bs : List Byte) (k : Nat) : Nat := ((bs.getD (k / 4) 0).toNat / 4 ^ (k % 4)) % 4

/-- C1 of alternate `r` (11 Table 5). -/
def State.c1 (s : State) (a b : List Byte) (r : Nat) : Bool :=
  let rec_ := altRecord a r
  let crc := crc32c rec_
  let clr := fp32.decode (leAt b (576 + 16 * r) 4)
  decide (r < leAt a 4 1) && leAt rec_ 16 1 == 1 && BitVec.ofNat 32 (leAt rec_ 0 4) == s.epoch &&
    decide (r < leAt b 4 1) && BitVec.ofNat 32 (leAt b (580 + 16 * r) 4) == crc &&
    (s.gate.recs.getD r []).length == 1856 && s.gate.crcs.getD r 0 == crc &&
    Num.cmp 5 clr (fp32.decode s.snTable.m1.toNat)

/-- The sectors compared, those that agree, and whether a critical one fails (11 Table 5, C2). -/
def nearCounts (critR : Nat) (a b : List Byte) : Nat × Nat × Bool :=
  (List.range 1800).foldl (fun acc k =>
    let x := nearCode a k
    let y := nearCode b k
    if x = 1 ∨ y = 1 then acc
    else
      let same := (x == 0) == (y == 0)
      (acc.1 + 1, acc.2.1 + (if same then 1 else 0),
        acc.2.2 || (x == 0 && y != 0 && decide (k % 10 < critR)))) (0, 0, false)

/-- C2 from its counts. -/
def SnTable.c2 (t : SnTable) (n : Nat × Nat × Bool) : Bool :=
  decide (t.minCmp ≤ n.1) && decide (t.agreeMin * n.1 ≤ 65536 * n.2.1) && !n.2.2

/-- A Snuffer's verdict on the present frame from its two copies, with the alternates that pass C1; a block that has not
arrived fails every comparison. -/
def State.judge (s : State) (i : Sn) : Verdict × Nat :=
  match (s.sn i).copyA, (s.sn i).copyB with
  | some a, some b =>
    let m := ((List.range 4).filter fun r => s.c1 a b r).foldl (fun acc r => acc + 2 ^ r) 0
    let n := nearCounts s.snTable.critR ((a.drop 64).take 450) ((b.drop 64).take 450)
    let c2 := s.snTable.c2 n
    let c3 := BitVec.ofNat 32 (leAt a 0 4) == s.epoch && BitVec.ofNat 32 (leAt b 0 4) == s.epoch
    let ok := c2 && c3 && m != 0
    ({ frame := s.epoch, agreed := ok, mask := if ok then m else 0
       fail := (if m = 0 then 1 else 0) + (if c2 then 0 else 2) + (if c3 then 0 else 4)
       agree := n.2.1, compared := n.1 }, m)
  | _, _ => ({ frame := s.epoch, agreed := false, mask := 0, fail := 7, agree := 0, compared := 0 }, 0)

/-- Whether two verdicts differ in outcome or mask (11 R284, R290). -/
def Verdict.differs (x y : Verdict) : Bool := x.agreed != y.agreed || x.mask != y.mask

/-- A Snuffer that holds both verdicts commands a stop where they differ (11 R290). -/
def State.crossCheck (s : State) (i : Sn) : State :=
  match (s.sn i).verdict, (s.sn i).other with
  | some x, some y => if x.differs y then s.commandStop i 4 0 else s
  | _, _ => s

/-- The comparison ends: the verdict is recorded and sent. -/
def State.compareDone (s : State) (i : Sn) : State :=
  let (v, m) := s.judge i
  let pg := pgSn i
  let s := s.setSn i { s.sn i with verdict := some v }
  let s := ((s.fset pg Reg.SNA_VERDICT_MASK m).fset pg Reg.SNA_VERDICT_FAIL v.fail).setReg pg 0 0x048 v.frame
  ((s.fset pg Reg.SNA_NEAR_AGREE v.agree).fset pg Reg.SNA_NEAR_COMPARED v.compared).crossCheck i

/-! ## The verdict gate (11 R284 to R289) -/

/-- A time on the counter in the form of Table 7: seconds bits [31:0], then nanoseconds. -/
def timeBytes (ns : Nat) : List Byte := toLE 4 (ns / 1000000000) ++ toLE 4 (ns % 1000000000)

/-- TSTOP of a record in nanoseconds: whole nanoseconds; a fraction may round up (the spec names no rounding); a value that
is no time is free (log entry 18). -/
def tstopNs (bs : List Byte) : Nat :=
  match fp32.decode (leAt bs 20 4) with
  | .fin false m e =>
    let num := m * 1000000000
    if 0 ≤ e then num * 2 ^ e.toNat
    else
      let d := 2 ^ (-e).toNat
      num / d + (if num % d = 0 then 0 else Config.freeNat (leAt bs 20 4) % 2)
  | _ => Config.freeNat (leAt bs 20 4) % 2 ^ 62

/-- A gate frame without its FCS: HDR, the header of Table 7, the record (11 R285). -/
def gateFrame (hdr : List Byte) (kind flags seq : Nat) (frame src : Word32) (p : Nat) (valid : List Byte) (alt cause : Nat)
    (rec_ : List Byte) : List Byte :=
  let h := toLE 1 kind ++ toLE 1 flags ++ toLE 2 seq ++ toLE 4 frame.toNat ++ toLE 4 src.toNat ++ timeBytes p ++ valid ++
    toLE 1 alt ++ toLE 1 cause ++ List.replicate 30 0
  hdr ++ h ++ toLE 4 (crc32c (h ++ rec_)).toNat ++ rec_

/-- The gate takes the stop profile of the frame in which a stop was commanded, once: the STOP field of channel B's block
where one of the Snuffers has it (11 R286). -/
def State.captureStop (s : State) : State :=
  if s.gate.stopped then s
  else match s.snA.stopFrame.or s.snB.stopFrame with
    | some f =>
      let blk := s.snA.copyB.or s.snB.copyB
      { s with gate := { s.gate with
        stopped := true, stopFrame := f, stopP := s.tickNs + s.frm.pubUs * 1000
        stopRec := blk.map fun b => (b.drop 640).take 1856 } }
    | none => s

/-- The rows of Table 6 that do not depend on the history; `alt` is the alternate the CCU named. -/
def State.gateRow (s : State) (alt : Option Nat) (p : Nat) : Nat :=
  let down := fun (x : Snuffer) => x.st == .stopped || x.st == .failed
  match s.snA.verdict, s.snB.verdict with
  | some x, some y =>
    let row4 := x.agreed && y.agreed && (match alt with | some r => (x.mask / 2 ^ r) % 2 == 1 | none => false)
    if down s.snA || down s.snB then 1
    else if x.differs y then 2
    else if (s.snA.st = .armed ∨ s.snB.st = .armed) ∧ !row4 then 3
    else if row4 then 4
    else if s.gate.holdRec.isSome && decide (p ≤ s.gate.holdP + s.snTable.holdHzn * 1000000) then 5
    else 6
  | _, _ => 1

/-- The number of bits set in a word. -/
def histCount (w : Word32) : Nat := ((List.range 32).filter fun i => w.getLsbD i).length

/-- A Snuffer's part in the decision of row `row` (11 R288, R289): the history shifts unless the frame is not counted, a
DISPUTED frame is counted and captured, and the history may command a stop. -/
def State.snDecide (s : State) (i : Sn) (row : Nat) : State :=
  let x := s.sn i
  let pg := pgSn i
  if !x.st.inService then s
  else
    let dis := row == 5 || row == 6
    let hist := if row = 3 then x.hist else (x.hist <<< 1) ||| (if dis || x.counted then 1 else 0)
    let s := (s.setSn i { x with hist := hist, counted := false }).setReg pg 0 0x04C hist
    let s := if dis then (s.fadd pg Reg.SNA_DISPUTES_COUNT 1).capture pg .comparatorDispute 0 else s
    if hist.toNat % 4 = 3 then s.commandStop i 1 0
    else if 3 ≤ histCount hist then s.commandStop i 2 0
    else s

/-- Record the outcome of the decision in a Snuffer's page; the first AGREED decision makes it RUNNING (11 R298). -/
def State.snOutcome (s : State) (i : Sn) (row kind : Nat) (alt : Option Nat) : State :=
  let pg := pgSn i
  if !(s.sn i).st.inService then s
  else
    let oc := if row = 4 then 0 else if row = 5 ∨ row = 6 then 1 else if row = 3 then 3 else 2
    let s := ((s.fset pg Reg.SNA_VERDICT_OUTCOME oc).fset pg Reg.SNA_VERDICT_ALT (alt.getD 7)).fset pg Reg.SNA_VERDICT_KIND kind
    if row = 4 ∧ (s.sn i).st = .armed then s.snEnter i .running else s

/-- The stop cause a frame carries: the cause of the Snuffers that are STOPPED or FAILED; where the two differ, one of them
(the spec does not say which: log entry 18). -/
def State.gateCause (s : State) : Nat :=
  let cs := [Sn.a, Sn.b].filterMap fun i =>
    if (s.sn i).st = .stopped ∨ (s.sn i).st = .failed then some (s.fget (pgSn i) Reg.SNA_STATE_CAUSE) else none
  cs.getD (Config.freeNat s.draws % Nat.max cs.length 1) 0

/-- The gate frame of row `row`, made to launch at `p`. A frame without a profile states neither a source frame nor an end
of validity where no stop has been commanded: both are free (log entry 18). -/
def State.buildGate (s : State) (row : Nat) (alt : Option Nat) (p : Nat) : State :=
  let g := s.gate
  let hdr := s.snTable.hdr
  let zero := List.replicate 1856 (0 : Byte)
  let free8 := toLE 8 (Config.freeNat s.draws)
  let mk := gateFrame hdr
  let put := fun (t : State) (bs : List Byte) => { t with gate := { t.gate with out := some (p, bs), trajNext := none } }
  if row = 4 then
    let r := alt.getD 0
    let rec_ := g.recs.getD r []
    let bs := mk 1 0 g.seq s.epoch s.epoch p (timeBytes (p + tstopNs rec_)) r 0 rec_
    { s with gate := { g with out := some (p, bs), trajNext := some (rec_, s.epoch, p, r) } }
  else if row = 5 then
    put s (mk 2 0 g.seq s.epoch g.holdFrame p (timeBytes (g.holdP + s.snTable.holdHzn * 1000000)) g.holdAlt 0
      (g.holdRec.getD zero))
  else if row = 3 then
    put s.draw (mk 3 3 g.seq s.epoch (Config.freeWord s.draws) p free8 0xFF 0 zero)
  else if g.stopped then
    match g.stopRec with
    | some rec_ =>
      put s.draw (mk 3 0 g.seq s.epoch g.stopFrame p (timeBytes (g.stopP + tstopNs rec_)) 0xFF s.gateCause rec_)
    | none => put s.draw (mk 3 1 g.seq s.epoch g.stopFrame p free8 0xFF s.gateCause zero)
  else put s.draw (mk 3 1 g.seq s.epoch (Config.freeWord s.draws) p free8 0xFF s.gateCause zero)

/-- A gate frame that has not left by P + 8 ns cannot be sent at P: it is discarded and line 347 pulses (16 R405, R406). -/
def State.gateMissed (s : State) : State :=
  match s.gate.out with
  | some (t, _) => if t + 8 < s.tbu.ns then ({ s with gate := { s.gate with out := none, trajNext := none } }).pulse 347 else s
  | none => s

/-- The decision at P − 2 µs (11 Table 6). The pulses that wait are sampled first: they fall in this frame's window. -/
def State.gateDecide (s : State) : State :=
  let s := (s.gateMissed.drainLines .a).drainLines .b
  let p := s.tickNs + s.frm.pubUs * 1000
  let s := if s.snA.st.active ∧ s.snB.st.active then { s with gate := { s.gate with stopped := false } } else s
  let alt := if s.gate.namedFrame = s.epoch then s.gate.named else none
  let row := s.gateRow alt p
  let before := s.snA.st.active && s.snB.st.active
  let s := (s.snDecide .a row).snDecide .b row
  let s := if row = 2 then (s.commandStop .a 4 0).commandStop .b 4 0 else s
  let row := if before && !(s.snA.st.active && s.snB.st.active) && 3 ≤ row then 1 else row
  let s := if row = 6 then (s.commandStop .a 5 0).commandStop .b 5 0 else s
  let s := s.captureStop
  let kind := if row = 4 then 1 else if row = 5 then 2 else 3
  let s := s.buildGate row alt p
  let s := (s.snOutcome .a row kind alt).snOutcome .b row kind alt
  { s with gate := { s.gate with decided := true } }

/-! ## The tick (11 R280, R294) -/

/-- The tick check of one Snuffer: an interval that differs from PERIOD by more than TICK_TOL raises its tick line; the
first tick after ENABLE is not measured. -/
def State.snTickCheck (s : State) (i : Sn) (first : Bool) : State :=
  match (s.sn i).tickLast with
  | some k =>
    let d : Int := ((s.snNow - k) * 4 : Nat) - (s.snTable.periodUs * 1000 : Nat)
    if !first && decide (s.snTable.periodUs * 1000 * s.snTable.tickTol < d.natAbs * 1000000) then s.pulseOwn i 385 else s
  | none => s

/-- A tick reaches one Snuffer: the frame's copies and verdicts are new. -/
def State.snTick (s : State) (i : Sn) (first : Bool) : State :=
  let x := s.sn i
  if x.st.inService then
    let s := s.snTickCheck i first
    s.setSn i { s.sn i with
      copyA := none, copyB := none, polls := 0, cut := false, verdict := none, other := none, tickLast := some s.snNow }
  else
    s.setSn i { x with
      copyA := none, copyB := none, polls := 0, cut := false, verdict := none, other := none, tickLast := none }

/-- The tick reaches the Snuffers and the gate; `first` marks the first tick after ENABLE was set. It is called before the
frame's values change, so that a stop commanded after the last decision keeps its frame's profile. -/
def State.snuffersTick (s : State) (first : Bool) : State :=
  let s := s.gateMissed.captureStop
  let s := (s.snTick .a first).snTick .b first
  { s with gate := { s.gate with recs := [], crcs := [], loaded := false, decided := false } }

/-! ## Resets and supplies (11 R291, R298; 22 R500) -/

/-- A Snuffer page's own registers at their reset values, TBL_VER as it is (11 R300). -/
def State.snPageReset (s : State) (i : Sn) : State :=
  (List.range 9).foldl (fun t k => t.setReg (pgSn i) 0 (0x040 + 4 * k) (regReset (pgSn i) (0x040 + 4 * k))) s

/-- The gate forgets the stop once neither Snuffer holds one (11 R286, R291). -/
def State.gateRearm (s : State) : State :=
  if s.snA.stopFrame.isNone && s.snB.stopFrame.isNone then
    { s with gate := { s.gate with stopped := false, stopRec := none } }
  else s

/-- A Snuffer goes into RESET: a latched stop clears, SAFE is low. -/
def State.snReset (s : State) (i : Sn) : State :=
  ((s.setSn i { Snuffer.zero with supply := (s.sn i).supply, okrev := (s.sn i).okrev, hbIn := (s.sn i).hbIn }).snPageReset i).gateRearm

/-- The table object a configuration carries for a Snuffer. -/
def State.snObj (s : State) : Sn → SnObj
  | .a => s.cfg.snA
  | .b => s.cfg.snB

/-- Whether a Snuffer accepts its table: a signed object of KIND 5 with the SVN of the configuration (11 R276; 19 R458). -/
def State.tableOk (s : State) (i : Sn) : Bool :=
  let v := s.fget pgFLT Reg.FLT_FW_CFGSVN
  (headErr s.fuses (s.sn i).okrev 5 v (s.snObj i).head).isNone && (s.snObj i).head.svn == v

/-- A Snuffer begins its start tests (11 R298, R299): step 4 reaches both Snuffers, and one that is in service acts on what
it hears (log entry 18). -/
def State.snTest (s : State) (i : Sn) : State :=
  ((s.setSn i { s.sn i with startedAt := s.snNow }).snEnter i .testing).forceAll

/-- A Snuffer leaves RESET (11 R276, R298, R300): it verifies its table, shows its version and begins its start tests, or it
fails. -/
def State.snStart (s : State) (i : Sn) : State :=
  if s.tableOk i then (s.setReg (pgSn i) 0 0x064 (s.snObj i).table.tblVer).snTest i
  else (s.snEnter i .failed).fset (pgSn i) Reg.SNA_STATE_CAUSE 7

/-- Whether a Snuffer may leave RESET: its supply is good, boot has reached step 7 and the device is not in Ember, Dark or
on the way there, where it is held; an exit from Ember releases it (18 R430, R432; 19 Table 1). -/
def State.snReleased (s : State) (i : Sn) : Bool :=
  (s.sn i).supply && s.powered && decide (7 ≤ s.fget pgFLT Reg.FLT_BOOT_STEP) &&
    (s.pwr.exiting.isSome || (s.pwr.entering.isNone && decide (s.fget pgPWR Reg.PWR_CTRL_STATE ≤ 1)))

/-- A Snuffer reset: RESET, then its start where it may leave it. -/
def State.snRestart (s : State) (i : Sn) : State :=
  let s := s.snReset i
  if s.snReleased i then s.snStart i else s

/-! ## The commands -/

/-- SNUFFER_POLL. -/
def execSnufferPoll (sn : Sn) (e : Nat) (chkA chkB : ReadCheck) (s : State) : Out :=
  onSn sn s (s.pollDue sn e) ((elapse e s).poll sn chkA chkB)

/-- SNUFFER_CUTOFF: C = P − GUARD on the Snuffer's own clock. -/
def execSnufferCutoff (sn : Sn) (e : Nat) (s : State) : Out :=
  let x := s.sn sn
  onSn sn s (x.st.inService && !x.cut && (match x.tickLast with
    | some k => s.dueSn e (k + (s.snTable.pubUs - s.snTable.guard_) * edgesPerUs)
    | none => false)) ((elapse e s).cutoff sn)

/-- GATE_LOAD. -/
def execGateLoad (chk : ReadCheck) (s : State) : Out :=
  onAwake s (s.frm.tickAt.isSome && !s.gate.loaded && (s.snA.settled || s.snB.settled)) (s.gateLoad chk)

/-- SNUFFER_COMPARE_DONE. -/
def execSnufferCompareDone (sn : Sn) (s : State) : Out :=
  let x := s.sn sn
  onSn sn s (x.tickLast.isSome && x.settled && s.gate.loaded && x.verdict.isNone) (s.compareDone sn)

/-- The other Snuffer commands a stop too, as the other's stop tells it (11 R290). -/
def State.otherStops (s : State) (i : Sn) : State :=
  if s.snLive (snOther i) then s.commandStop (snOther i) 6 0 else s

/-- A cross-link error at a Snuffer: its line, its stop, and the other's (11 R289, R290). -/
def State.bothStop (s : State) (i : Sn) (cause line : Nat) : State :=
  ((s.lineAct i line).commandStop i cause line).otherStops i

/-- CROSSLINK_MESSAGE: a message that fails its CRC raises the cross-link line and stops both (11 R289, R290). -/
def execCrosslinkMessage (sn : Sn) (msg : XMsg) (crcOk : Bool) (s : State) : Out :=
  let o := s.sn (snOther sn)
  onSn sn s ((s.sn sn).st.inService) (
    if !crcOk then s.bothStop sn 3 386
    else match msg with
      | .verdict =>
        match o.verdict with
        | some v => (s.setSn sn { s.sn sn with other := some v }).crossCheck sn
        | none => s
      | .safeState => if o.st = .stopped then s.commandStop sn 6 0 else s)

/-- Whether the moment P − 4 µs of a Snuffer's frame comes after `e` edges. -/
def State.silentDue (s : State) (e : Nat) (x : Snuffer) : Bool :=
  match x.tickLast with
  | some k => s.dueSn e (k + s.snTable.pubUs * edgesPerUs - 1000)
  | none => false

/-- A Snuffer that has no verdict message at P − 4 µs commands a stop, and the other with it (11 R290). -/
def State.silentStop (s : State) (i : Sn) : State :=
  if s.snLive i && (s.sn i).st.active && (s.sn i).tickLast.isSome && (s.sn i).other.isNone then
    (s.commandStop i 6 0).otherStops i
  else s

/-- VERDICT_TIMEOUT. -/
def execVerdictTimeout (e : Nat) (s : State) : Out :=
  .next (if s.silentDue e s.snA || s.silentDue e s.snB then ((elapse e s).silentStop .a).silentStop .b else s)

/-- GATE_DECISION. -/
def execGateDecision (e : Nat) (s : State) : Out :=
  onAwake s (s.frm.tickAt.isSome && !s.gate.decided && s.dueCtr e (s.tickNs + s.frm.pubUs * 1000 - 2000)) (elapse e s).gateDecide

/-- SAFE_TOGGLE: every 0.5 ms while ARMED or RUNNING (11 R292). -/
def execSafeToggle (sn : Sn) (e : Nat) (s : State) : Out :=
  let x := s.sn sn
  let t := elapse e s
  onSn sn s (x.st.active && s.dueSn e (x.safeAt + 125000)) (t.setSn sn { t.sn sn with safe := !x.safe, safeAt := t.snNow })

/-- The glitch filter on HB_IN in edges: 10 µs (11 R293). -/
def hbFilter : Nat := 10 * edgesPerUs

/-- HEARTBEAT_EDGE: HB_IN changes its level after `e` edges and keeps it for `width`; the filter passes a level that lasts
10 µs, and the filtered edge restarts the watch of a Snuffer in service (11 R293). -/
def execHeartbeatEdge (sn : Sn) (e width : Nat) (s : State) : Out :=
  let t := elapse (e + Nat.min width hbFilter) s
  let x := { t.sn sn with hbIn := !(t.sn sn).hbIn }
  onSn sn s true <|
    if width < hbFilter then t
    else if s.snTable.hbEn && (s.sn sn).st.inService then t.setSn sn { x with hbStarted := true, hbLast := t.snNow }
    else t.setSn sn x

/-- HEARTBEAT_TIMEOUT: a gap longer than HB_TMO raises line 384 and commands a stop (11 R289, R293). -/
def execHeartbeatTimeout (sn : Sn) (e : Nat) (s : State) : Out :=
  let x := s.sn sn
  let t := elapse e s
  onSn sn s (s.snTable.hbEn && x.st.inService && x.hbStarted && s.dueSn e (x.hbLast + s.snTable.hbTmo * 250000 + 1))
    ((((t.setSn sn { t.sn sn with hbStarted := false }).fadd (pgSn sn) Reg.SNA_HB_MISS_COUNT 1).lineAct sn 384).commandStop
      sn 3 384)

/-- AGGREGATOR_PULSE: a pulse is sampled; one that waits there is taken from the waiting ones. -/
def execAggregatorPulse (sn : Sn) (line : Nat) (s : State) : Out :=
  onSn sn s true ((s.setSn sn { s.sn sn with lines := (s.sn sn).lines.erase line }).lineAct sn line)

/-- SNUFFER_RESET. -/
def execSnufferReset (sn : Sn) (s : State) : Out := .next (s.snRestart sn)

/-- SNUFFER_SUPPLY_FAIL: the Snuffer is held in reset and the other stops through its cross-link line (22 R500). -/
def execSnufferSupplyFail (sn : Sn) (s : State) : Out :=
  if (s.sn sn).supply then
    let t := (s.setSn sn { s.sn sn with supply := false }).snReset sn
    .next (if t.snLive (snOther sn) then (t.lineAct (snOther sn) 386).commandStop (snOther sn) 3 386 else t)
  else .next s

/-- SNUFFER_SUPPLY_RETURN: the Snuffer is released and runs its start tests (22 R500). -/
def execSnufferSupplyReturn (sn : Sn) (s : State) : Out :=
  if (s.sn sn).supply then .next s
  else .next ((s.setSn sn { s.sn sn with supply := true }).snRestart sn)

end Sys2Proof.Machine
end

