-- ==== Sys2Proof/Machine/Eth.lean ====
section
/-!
DEFINITION. Eth.lean: the Ethernet Frame Engine: reception, classification, streams, host queues, transmit queues, the gate's
launch, links (16 R399 to R406; 17 R418), and the closing of input versions (09 R221).
-/

namespace Sys2Proof.Machine

open Sys2Proof

/-! ## Frames on the wire -/

/-- A big-endian number of `n` bytes at offset `o`. -/
def beAt (bs : List Byte) (o n : Nat) : Nat := ((bs.drop o).take n).foldl (fun a b => a * 256 + b.toNat) 0

/-- What classification reads of a frame (16 R401): EtherType, VLAN ID of the outer tag, IP version (0 none), source address,
whether it is a first or only fragment, and the UDP ports with the payload. -/
structure EthHdr where
  etype : Nat
  vlan : Option Nat
  ipver : Nat
  src : Nat
  first : Bool
  udp : Option (Nat × Nat × List Byte)
  deriving DecidableEq, Repr

/-- Whether a type field is that of an 802.1Q tag. -/
def isTag (t : Nat) : Bool := t == 0x8100 || t == 0x88A8

/-- Where the EtherType stands: up to two tags are passed over. -/
def etypeOff (bs : List Byte) : Nat :=
  if isTag (beAt bs 12 2) then (if isTag (beAt bs 16 2) then 20 else 16) else 12

/-- The UDP ports and payload at offset `o`. -/
def udpAt (bs : List Byte) (o : Nat) : Nat × Nat × List Byte :=
  (beAt bs o 2, beAt bs (o + 2) 2, (bs.drop (o + 8)).take (beAt bs (o + 4) 2 - 8))

/-- The header of a frame (formats of IEEE 802.3, IPv4, IPv6 and UDP). -/
def parseEth (bs : List Byte) : EthHdr :=
  let o := etypeOff bs
  let ty := beAt bs o 2
  let vlan := if o = 12 then none else some (beAt bs 14 2 % 4096)
  let p := o + 2
  if ty = 0x0800 then
    let frag := beAt bs (p + 6) 2 % 8192
    let l4 := p + 4 * (beAt bs p 1 % 16)
    { etype := ty, vlan := vlan, ipver := 4, src := beAt bs (p + 12) 4, first := frag == 0
      udp := if beAt bs (p + 9) 1 = 17 ∧ frag = 0 then some (udpAt bs l4) else none }
  else if ty = 0x86DD then
    let nh := beAt bs (p + 6) 1
    let frag := if nh = 44 then beAt bs (p + 42) 2 / 8 else 0
    let proto := if nh = 44 then beAt bs (p + 40) 1 else nh
    let l4 := if nh = 44 then p + 48 else p + 40
    { etype := ty, vlan := vlan, ipver := 6, src := beAt bs (p + 20) 4, first := frag == 0
      udp := if proto = 17 ∧ frag = 0 then some (udpAt bs l4) else none }
  else { etype := ty, vlan := vlan, ipver := 0, src := 0, first := true, udp := none }

/-- Whether an enabled field agrees. -/
def fieldIs (want : Option Nat) (have_ : Option Nat) : Bool :=
  match want with
  | none => true
  | some x => have_ == some x

/-- Whether a rule matches a frame on a port (16 R401). -/
def EthRule.hits (r : EthRule) (port : Nat) (h : EthHdr) : Bool :=
  r.ports.getLsbD port && fieldIs r.etype (some h.etype) && fieldIs r.vlan h.vlan &&
    fieldIs r.ipver (if h.ipver = 0 then none else some h.ipver) &&
    (r.srcMask == 0 || (h.ipver != 0 && Nat.land h.src r.srcMask == Nat.land r.src r.srcMask)) &&
    fieldIs r.dport (h.udp.map (·.2.1)) && fieldIs r.sport (h.udp.map (·.1))

/-! ## Streams (16 R402; 09 R221, R223, R224) -/

/-- The entry of an Ethernet stream. -/
def Cfg.ethStream (c : Cfg) (t : Nat) : Option EthStream := c.eth.streams.find? fun x => x.t == t

/-- A slot of a point buffer (16 Table 6). -/
def EthPkt.slot (k : EthPkt) (x : EthStream) (late : Bool) : List Byte :=
  let n := Nat.min k.payload.length (x.slot - 32)
  stampRec k.stamp k.t 1 k.seq late ++ toLE 2 n ++ toLE 1 k.port ++
    toLE 1 (if x.slot - 32 < k.payload.length then 1 else 0) ++ toLE 4 k.src ++ List.replicate 8 0 ++ k.payload.take n

/-- A packet enters an open version: an own packet takes the next slot or is dropped; a late one the next late slot or is
discarded. -/
def State.ethInto (s : State) (x : EthStream) (v : InVer) (k : EthPkt) (late : Bool) : State :=
  if late then
    if v.lateUsed < x.nlate then
      let w := { v with lateUsed := v.lateUsed + 1 }
      (((s.ingestWriteAll v (64 + x.slot * (x.nslot + v.lateUsed)) (k.slot x true)).ingestWriteAll v 0 w.head).setInVer w).lateFold
    else s.lateDrop
  else if v.used < x.nslot then
    let w := { v with used := v.used + 1 }
    ((s.ingestWriteAll v (64 + x.slot * v.used) (k.slot x false)).ingestWriteAll v 0 w.head).setInVer w
  else
    let w := { v with drops := v.drops + 1 }
    (s.ingestWriteAll v 0 w.head).setInVer w

/-- Place a packet: in its own version, or, late, in the oldest open one of its stream; `none` while the slot is not
free. -/
def State.ethPlace (s : State) (k : EthPkt) : Option State :=
  match s.cfg.ethStream k.t with
  | none => some s
  | some x =>
    let key := ethKey k.t
    let late := s.isClosed key k.frame
    if late && s.tooLate k.frame then some s.lateDrop
    else
      let f := if late then s.oldestOpen key else k.frame
      let s := s.openVer key f
      (s.inVer key f).map fun v => s.ethInto x v k late

/-- The bytes that wait in the receive buffer, its capacity and its urgency level (13 R334; 16 R400). -/
def State.ethFill (s : State) : Nat := s.ing.waiting.foldl (fun a k => a + k.payload.length + 32) 0
def ethBufBytes : Nat := 1024 * 1024
def State.ethLevel (s : State) : State := s.setLevel 17 (s.ethFill * 256 / ethBufBytes)

/-- Place every waiting packet that can be, in order of arrival; a packet does not pass an earlier one of its stream. -/
def State.ethDrain (s : State) : State :=
  let ks := s.ing.waiting
  (ks.foldl (fun (t : State) (k : EthPkt) =>
    let wait := fun (t : State) => { t with ing := { t.ing with waiting := t.ing.waiting ++ [k] } }
    if t.ing.waiting.any fun q => q.t == k.t then wait t
    else match t.ethPlace k with
      | some u => u
      | none => wait t) { s with ing := { s.ing with waiting := [] } }).ethLevel

/-- A packet of stream `t` (16 R402). -/
def State.ethStreamRx (s : State) (t port stamp : Nat) (f : Word32) (h : EthHdr) : State :=
  let seq := aget 0 s.ing.seqs t
  let k : EthPkt := { t := t, frame := f, stamp := stamp, seq := seq % 65536, port := port, src := h.src
                      payload := (h.udp.map (·.2.2)).getD [] }
  { s with ing := { s.ing with seqs := aset s.ing.seqs t (seq + 1), waiting := s.ing.waiting ++ [k] } }.ethDrain

/-! ## Rings (16 R403, R404) -/

/-- The ring of a transmit queue, or of a host receive queue. -/
def State.ring (s : State) (tx : Bool) (idx : Nat) : Option EtqCfg := s.cfg.eth.rings.find? fun r => r.tx == tx && r.idx == idx

/-- The base of a ring: the unversioned buffer of its partition (03 Table 8). -/
def State.ringBase (s : State) (r : EtqCfg) : Option Nat :=
  let e := s.entry r.part r.handle
  if s.noTab r.part ∨ e.rsvd ∨ e.versioned ∨ e.base0 % 64 ≠ 0 then none
  else if s.cfg.mayAccess (.chimney 5) r.part e.base0 (2 ^ r.log2n * (if r.tx then 32 else 2048)) true then some e.base0
  else none

/-- Raise the vector of a ring on the port its page routes to. -/
def State.ringVec (s : State) (page : Nat) (r : EtqCfg) : State := s.msix (s.fget page Reg.INT_ROUTE_PORT) r.part r.vec

/-- Advance ETQ_HW. -/
def State.ringNext (s : State) (page : Nat) : State := s.fset page Reg.ETQ_HW_INDEX (s.fget page Reg.ETQ_HW_INDEX + 1)

/-- Entries between ETQ_SW and ETQ_HW: filled receive slots, or waiting transmit descriptors. -/
def State.rxUsed (s : State) (page : Nat) : Nat := (s.fget page Reg.ETQ_HW_INDEX + 65536 - s.fget page Reg.ETQ_SW_INDEX) % 65536
def State.txLeft (s : State) (page : Nat) : Nat := (s.fget page Reg.ETQ_SW_INDEX + 65536 - s.fget page Reg.ETQ_HW_INDEX) % 65536

/-- A frame for host receive queue `q` (16 R403). Its stamp record's INDEX and SEQ are free values: the spec numbers no stream
for it (log entry 7). -/
def State.hostRx (s : State) (q port stamp : Nat) (bs : List Byte) : State :=
  let pg := pgRxq q
  match (s.ring false q).bind fun r => (s.ringBase r).map fun b => (r, b) with
  | none => s.fadd pg Reg.ETQ_DROP_COUNT 1
  | some (r, base) =>
    if s.rxUsed pg = 2 ^ r.log2n then s.fadd pg Reg.ETQ_DROP_COUNT 1
    else
      let slot := stampRec stamp (Config.freeNat s.draws) 1 (Config.freeNat (s.draws + 1)) false ++ toLE 2 bs.length ++
        toLE 1 port ++ List.replicate 13 0 ++ bs.take 2016
      let a := base + 2048 * (s.fget pg Reg.ETQ_HW_INDEX % 2 ^ r.log2n)
      (((s.draw.draw.traffic (some (.chimney 5)) 17 1 r.part a slot.length true).storeAt a slot).ringNext pg).ringVec pg r

/-! ## Reception -/

/-- A frame that passed its FCS, stamped at `stamp`, of frame `f` (16 R400, R401; 17 R418). -/
def State.ethRx (s : State) (port stamp : Nat) (f : Word32) (bs : List Byte) : State :=
  let pg := pgETH port
  let n := bs.length + 4
  let h := parseEth bs
  if n < 64 ∨ s.fget pg Reg.ETH_PORT_MAXLEN < n ∨ h.etype = 0x8808 ∨ ethBufBytes < s.ethFill + bs.length then
    s.fadd pg Reg.ETH_RX_DROP_COUNT 1
  else if h.etype = 0x88F7 then
    if s.flag pgTBU Reg.TBU_SERVO_OWNER then s.hostRx (s.fget pgTBU Reg.TBU_SERVO_HOSTQ) port stamp bs else s
  else
    match s.cfg.eth.rules.find? fun r => r.hits port h with
    | none => s.fadd pg Reg.ETH_RX_NOMATCH_COUNT 1
    | some r =>
      match r.act with
      | .drop => s
      | .stream t => s.ethStreamRx t port stamp f h
      | .hostq q => s.hostRx q port stamp bs

/-- Whether a port's link is up (16 Table 10). -/
def State.ethUp (s : State) (p : Nat) : Bool := s.fget (pgETH p) Reg.ETH_PORT_RATE != 0

/-- ETH_RX_FRAME (16 R401): `bytes` without the FCS; the start-frame delimiter falls `e` edges from now, and the frame is
complete `dur` edges later. -/
def execEthRxFrame (port : Nat) (bytes : List Byte) (fcsOk : Bool) (e dur : Nat) (s : State) : Out :=
  onAwake s (decide (port < 8) && s.ethUp port) <|
    let s := elapse e s
    let stamp := s.tbu.ns
    let f := s.sampleFrame stamp
    let s := elapse dur s
    if fcsOk then s.ethRx port stamp f bytes else s.fadd (pgETH port) Reg.ETH_RX_FCSERR_COUNT 1

/-! ## Closing (09 R221) -/

/-- The Ethernet version of frame `f` closes. -/
def State.ethClose (s : State) (t : Nat) (f : Word32) : State :=
  ((s.openVer (ethKey t) f).markClosed (ethKey t) f).ethDrain

/-- CLOSE of a stream in ns. -/
def Cfg.closeNs (c : Cfg) (key : Nat) : Nat :=
  1000 * (if key < 64 then (c.cams[key]?.map (·.close)).getD 0 else ((c.ethStream (key - 64)).map (·.close)).getD 0)

/-- Whether T_F + CLOSE of frame `f` is reached after `e` edges. -/
def State.closeDue (s : State) (key : Nat) (f : Word32) (e : Nat) : Bool :=
  match s.tickTime f with
  | some t => s.dueCtr e (t + s.cfg.closeNs key)
  | none => !frameBelow s.epoch f && e == 0

/-- Whether an Ethernet stream's packets of frame `f` have been written, none of it waiting. -/
def State.ethAllDone (s : State) (t : Nat) (f : Word32) : Bool :=
  (match s.inVer (ethKey t) f with
   | some v => v.used + v.drops != 0
   | none => false) && !s.ing.waiting.any fun k => k.t == t && k.frame == f

/-- INPUT_VERSION_CLOSE (09 R221): the oldest open version of a stream closes, at T_F + CLOSE, or before that at the
completion of what the environment names its last sample. -/
def execInputVersionClose (kind stream e : Nat) (s : State) : Out :=
  if kind = 0 then
    let f := s.oldestOpen stream
    match s.cfg.cams[stream]? with
    | some m => onAwake s (m.en && (s.closeDue stream f e || s.camAllDone stream f)) ((elapse e s).camClose stream m f)
    | none => .next s
  else
    let f := s.oldestOpen (ethKey stream)
    onAwake s (decide (kind = 1) && (s.cfg.ethStream stream).isSome &&
      (s.closeDue (ethKey stream) f e || s.ethAllDone stream f)) ((elapse e s).ethClose stream f)

/-! ## Transmission (16 R404, R405) -/

/-- The time of one byte on the wire in tenths of a ns, by ETH_PORT.RATE. -/
def byteTime (rate : Nat) : Nat :=
  match rate with
  | 1 => 800
  | 2 => 80
  | 3 => 32
  | 4 => 16
  | _ => 8

/-- The transmission in progress on a port. -/
def State.macBusy (s : State) (p : Nat) : Option EthTx := (s.ethTx.find? fun x => x.1 == p).map (·.2)

/-- Whether (port, queue) is the designated queue of the Snuffer table (11 R285). -/
def State.designatedQ (s : State) (p q : Nat) : Bool := s.snTable.gatePort == p && s.snTable.gateQ == q

/-- The head descriptor of a transmit queue: its ring and address. -/
def State.txHead (s : State) (p q : Nat) : Option (EtqCfg × Nat) :=
  let pg := pgTxq p q
  if s.designatedQ p q || s.txLeft pg == 0 then none
  else (s.ring true (8 * p + q)).bind fun r => (s.ringBase r).map fun b =>
    (r, b + 32 * (s.fget pg Reg.ETQ_HW_INDEX % 2 ^ r.log2n))

/-- Fields of a transmit descriptor (16 Table 7). -/
def txLen (w1 : Nat) : Nat := bitsOf 13 0 w1
def txLt (w1 : Nat) : Bool := bitsOf 14 14 w1 == 1
def txTs (w1 : Nat) : Bool := bitsOf 15 15 w1 == 1
def txIrq (w1 : Nat) : Bool := bitsOf 16 16 w1 == 1

/-- The transmit engine moves bytes for a queue: port 18, in the queue's class (16 R404). -/
def State.txMoves (s : State) (p q a n : Nat) (write : Bool) : State :=
  match s.ring true (8 * p + q) with
  | some r => s.traffic (some (.chimney 5)) 18 r.tc r.part a n write
  | none => s

/-- The transmit engine looks at the rings of a port under the key that its accesses have (02 R55). -/
def State.txOpen (s : State) (p : Nat) : State :=
  (List.range 8).foldl (fun t q => match (t.ring true (8 * p + q)).bind fun r => (t.ringBase r).map fun b => (r, b) with
    | some (r, b) => t.keyed (some (.chimney 5)) b (32 * 2 ^ r.log2n)
    | none => t) s

/-- LAUNCH in ns, with the seconds above bit 31 of the counter's. -/
def State.txLaunch (s : State) (a : Nat) : Nat :=
  let w := s.loadLE (a + 16) 8
  (s.tbu.sec / 2 ^ 32 * 2 ^ 32 + w / 2 ^ 32) * 1000000000 + w % 2 ^ 32

/-- The error of a transmit descriptor (16 R404; log entry 21): its reference, LEN, its extent, a poisoned line. -/
def State.txErr (s : State) (p : Nat) (r : EtqCfg) (a : Nat) : Option Err :=
  let ref := s.loadLE a 8
  let n := txLen (s.loadLE (a + 8) 8)
  let e := s.entry r.part (refHandle ref)
  match s.refErr (.chimney 5) r.part { word := ref, rd := true, wr := false, vsels := [0], align := 1, ext := n } with
  | some x => some x
  | none =>
    if n < 60 ∨ s.fget (pgETH p) Reg.ETH_PORT_MAXLEN < n + 4 ∨ e.size < refOff ref + n then some .lengthExceedsExtent
    else match s.denied r.part (e.base0 + refOff ref) n false with
      | some x => some x
      | none => match s.readRes (e.base0 + refOff ref) n .ok with
        | .data => none
        | r => r.err

/-- Write back the head descriptor of a queue: STATE and ERR of word 1, and TXSTAMP where it is asked for; the head advances
and the vector is raised if asked for. -/
def State.txBack (s : State) (p q : Nat) (st err : Nat) (stamp : Option Nat) : State :=
  match s.txHead p q with
  | none => s
  | some (r, a) =>
    let s := s.txMoves p q a 32 false
    let w1 := s.loadLE (a + 8) 8
    let s := s.txMoves p q (a + 8) 8 true
    let s := s.storeAt (a + 8) (toLE 8 (w1 % 2 ^ 32 + st % 4 * 2 ^ 32 + err % 256 * 2 ^ 40 + w1 / 2 ^ 48 * 2 ^ 48))
    let s := match stamp with
      | some ns => if txTs w1 then s.storeAt (a + 24) (toLE 4 (ns % 1000000000) ++ toLE 4 (ns / 1000000000)) else s
      | none => s
    let s := s.ringNext (pgTxq p q)
    let s := if st = 1 then s else s.fadd (pgTxq p q) Reg.ETQ_DROP_COUNT 1
    if txIrq w1 then s.ringVec (pgTxq p q) r else s

/-- Write back the failing descriptors at the head of a queue. -/
def State.txErrors (s : State) (p q : Nat) : Nat → State
  | 0 => s
  | n + 1 =>
    match s.txHead p q with
    | none => s
    | some (r, a) =>
      match s.txErr p r a with
      | some e => (s.txBack p q 3 e.code none).txErrors p q n
      | none => s

/-- Every queue of a port without a failing head. -/
def State.txClean (s : State) (p : Nat) : State := (List.range 8).foldl (fun t q => t.txErrors p q (t.txLeft (pgTxq p q))) s

/-- The time of a frame of `n` bytes without FCS from its start-frame delimiter on: with FCS and gap, in tenths of a ns (16
Example 1). -/
def wireTime (rate n : Nat) : Nat := (n + 16) * byteTime rate

/-- The launch the designated queue counts as holding: the gate's frame, or P from the cutoff C on (16 R405). -/
def State.gateHold (s : State) (p : Nat) : Option Nat :=
  if s.snTable.gatePort ≠ p then none
  else match s.gate.out with
    | some (t, _) => some t
    | none =>
      let pub := s.tickNs + s.frm.pubUs * 1000
      if s.frm.tickAt.isSome ∧ pub - s.snTable.guard_ * 1000 ≤ s.tbu.ns ∧ s.tbu.ns < pub then some pub else none

/-- The launch times still to come at the heads of the queues ranked above queue `q`. -/
def State.txHolds (s : State) (p q : Nat) : List Nat :=
  (s.gateHold p).toList ++ ((List.range 8).filterMap fun k =>
    if k ≤ q then none
    else match s.txHead p k with
      | some (_, a) => if txLt (s.loadLE (a + 8) 8) ∧ s.tbu.ns < s.txLaunch a then some (s.txLaunch a) else none
      | none => none)

/-- Whether the head of queue `q` may start now (16 R405): at its LAUNCH, or within the tolerance after it; and done, gap
included, before the preamble of every launch above it. -/
def State.txMay (s : State) (p q : Nat) : Bool :=
  match s.txHead p q with
  | none => false
  | some (_, a) =>
    let w1 := s.loadLE (a + 8) 8
    let rate := s.fget (pgETH p) Reg.ETH_PORT_RATE
    (!txLt w1 || (decide (s.txLaunch a ≤ s.tbu.ns) &&
      decide (s.tbu.ns ≤ s.txLaunch a + s.fget (pgETH p) Reg.ETH_LATETOL_NS))) &&
      (s.txHolds p q).all fun h => decide (s.tbu.ns * 10 + wireTime rate (txLen w1) + 7 * byteTime rate ≤ h * 10)

/-- The queue to serve: the highest-ranked whose head may start. -/
def State.txPick (s : State) (p : Nat) : Option Nat := (List.range 8).reverse.find? fun q => s.txMay p q

/-- A frame starts on a MAC. -/
def State.txStart (s : State) (p : Nat) (q : Option Nat) (bs : List Byte) : State :=
  let t := wireTime (s.fget (pgETH p) Reg.ETH_PORT_RATE) bs.length
  { s with ethTx := aset s.ethTx p { queue := q, bytes := bs, startNs := s.tbu.ns, endAt := s.now + (t + 39) / 40 } }

/-- The gate with its frame launched: a trajectory becomes the hold record (11 R286). -/
def Gate.launched (g : Gate) : Gate :=
  let g := { g with seq := g.seq + 1 }
  match g.trajNext with
  | some (r, f, p, a) => { g with holdRec := some r, holdFrame := f, holdP := p, holdAlt := a, trajNext := none }
  | none => g

/-- The gate's frame launches at P, or is discarded with line 347 where its port is down (16 R406). -/
def State.gateLaunch (s : State) (p : Nat) (bs : List Byte) : State :=
  let s := { s with gate := { s.gate with out := none } }
  if s.ethUp p then
    ({ s with gate := s.gate.launched }.emit (.gateFrame p s.snTable.gateQ s.tbu.ns bs)).txStart p none bs
  else ({ s with gate := { s.gate with trajNext := none } }).pulse 347

/-- Whether the gate's frame is due on a port after `e` edges: at P, within the 8 ns of a launch (16 R405). -/
def State.gateDue (s : State) (p e : Nat) : Option (List Byte) :=
  match s.gate.out with
  | some (t, bs) =>
    if s.snTable.gatePort = p ∧ s.dueCtr e t ∧ s.tbu.after e / nsUnit ≤ t + 8 then some bs else none
  | none => none

/-- The head of queue `q` starts. -/
def State.txQueueStart (s : State) (p q : Nat) : State :=
  match s.txHead p q with
  | none => s
  | some (_, a) =>
    let ref := s.loadLE a 8
    let n := txLen (s.loadLE (a + 8) 8)
    let e := s.entry ((s.ring true (8 * p + q)).map (·.part) |>.getD 0) (refHandle ref)
    let t := s.txMoves p q (e.base0 + refOff ref) n false
    let bs := t.load (e.base0 + refOff ref) n
    (t.emit (.ethFrame p bs)).txStart p (some q) bs

/-- ETH_TX_START (16 R405), the instant of the start-frame delimiter: the gate's frame at its time, else the highest-ranked head that may start; heads that fail their
check are written back on the way. -/
def execEthTxStart (port e : Nat) (s : State) : Out :=
  let t := ((elapse e s).gateMissed.txOpen port).txClean port
  let idle := decide (port < 8) && (s.macBusy port).isNone
  match s.gateDue port e with
  | some bs => onAwake s idle ((elapse e s).gateLaunch port bs)
  | none =>
    match (if t.ethUp port then t.txPick port else none) with
    | some q => onAwake s idle (t.txQueueStart port q)
    | none => onAwake s (idle && (List.range 8).any fun q => t.txLeft (pgTxq port q) != s.txLeft (pgTxq port q)) t

/-- A transmission ends: a queue's descriptor is written back, SENT or, after a failure, ERROR with a code the spec does not
give; a gate frame that fails pulses line 347 (16 R404, R406). -/
def State.txEnd (s : State) (p : Nat) (x : EthTx) (good : Bool) : State :=
  let s := { s with ethTx := s.ethTx.filter fun y => y.1 != p }
  match x.queue with
  | some q => if good then s.txBack p q 1 0 (some x.startNs) else s.draw.txBack p q 3 (Config.freeNat s.draws) none
  | none => if good then s else s.pulse 347

/-- A transmission ends on time; a gate frame it kept from leaving at P is discarded. -/
def State.txOver (s : State) (p : Nat) (x : EthTx) (good : Bool) : State := (s.txEnd p x good).gateMissed

/-- ETH_TX_DONE (16 R404). -/
def execEthTxDone (port : Nat) (good : Bool) (e : Nat) (s : State) : Out :=
  match s.macBusy port with
  | none => .next s
  | some x => onAwake s (s.dueNow e x.endAt) ((elapse e s).txOver port x good)

/-- ETH_TX_LATE (16 R405): the head of a queue that cannot start by LAUNCH + ETH_LATETOL. -/
def execEthTxLate (port q e : Nat) (s : State) : Out :=
  let s := s.txOpen port
  match s.txHead port q with
  | none => .next s
  | some (_, a) =>
    onAwake s (decide (port < 8) && decide (q < 8) && txLt (s.loadLE (a + 8) 8) &&
        (s.macBusy port).all (fun x => x.queue != some q) &&
        s.dueCtr e (s.txLaunch a + s.fget (pgETH port) Reg.ETH_LATETOL_NS + 1)) <|
      ((elapse e s).fadd (pgETH port) Reg.ETH_TX_LATE_COUNT 1).txBack port q 2 0 none

/-- ETH_LINK_DOWN (16 R406): the line pulses; a transmission in progress fails. -/
def execEthLinkDown (port : Nat) (s : State) : Out :=
  onAwake s (decide (port < 8) && s.ethUp port) <|
    let s := (s.fset (pgETH port) Reg.ETH_PORT_RATE 0).pulse (336 + port)
    match s.macBusy port with
    | some x => s.txEnd port x false
    | none => s

/-- ETH_LINK_UP (16 R399): the port comes up at a rate of Table 10. -/
def execEthLinkUp (port rate : Nat) (s : State) : Out :=
  onAwake s (decide (port < 8) && decide (1 ≤ rate) && decide (rate ≤ 5)) (s.fset (pgETH port) Reg.ETH_PORT_RATE rate)

end Sys2Proof.Machine
end

