-- ==== Sys2Proof/Machine/Geom.lean ====
section
/-!
DEFINITION. Geom.lean: lengths and angles of the collision checker as integers in units of 2⁻⁹⁶ m or rad: poses, boxes,
the sweep and the distance from a voxel centre to a box (10 R240, R252 to R255). The spec gives the formulas and no
sequence of FP32 operations: log entry 15.
-/

namespace Sys2Proof.Machine

open Sys2Proof

/-- One metre, or one radian. -/
def fxOne : Int := 2 ^ 96

/-- The FP32 value of a pattern in units of 2⁻⁹⁶; 0 for what is not finite. -/
def fxOf (w : Nat) : Int :=
  match fp32.decode w with
  | .fin n m e =>
    let k := e + 96
    let v : Int := if 0 ≤ k then (m * 2 ^ k.toNat : Nat) else (m / 2 ^ (-k).toNat : Nat)
    if n then -v else v
  | _ => 0

/-- Whether an FP32 pattern is finite. -/
def finite32 (w : Nat) : Bool := w / 2 ^ 23 % 256 != 255

/-- π in units of 2⁻²⁵⁶. -/
def piFx : Int := 0x3243f6a8885a308d313198a2e03707344a4093822299f31d0082efa98ec4e6c89

/-- An angle held to one turn around 0, in units of 2⁻¹²⁸, from units of 2⁻⁹⁶. -/
def wrapAngle (a : Int) : Int :=
  let r := (a * 2 ^ 160).emod (2 * piFx)
  (if piFx < r then r - 2 * piFx else r) / 2 ^ 128

/-- The Taylor terms of sine (`k` odd) or cosine (`k` even) from the term `t` of degree `k`, in units of 2⁻¹²⁸. -/
def taylor (r2 : Int) : Nat → Nat → Int → Int
  | 0, _, t => t
  | n + 1, k, t => t + taylor r2 n (k + 2) (-(t * r2 / 2 ^ 128) / (((k + 1) * (k + 2) : Nat) : Int))

/-- Cosine and sine of an angle, in units of 2⁻⁹⁶. -/
def cosSin (a : Int) : Int × Int :=
  let r := wrapAngle a
  let r2 := r * r / 2 ^ 128
  (taylor r2 30 0 (2 ^ 128) / 2 ^ 32, taylor r2 30 1 r / 2 ^ 32)

/-- The product of two numbers in units of 2⁻⁹⁶. -/
def fxMul (a b : Int) : Int := a * b / 2 ^ 96

/-- The length of a vector. -/
def fxHypot (x y : Int) : Int := (isqrt (x * x + y * y).toNat : Nat)

/-- The least natural number whose square is at least `v`. -/
def ceilSqrt (v : Nat) : Nat :=
  let r := isqrt v
  if r * r = v then r else r + 1

/-- A pose: X, Y, YAW, Z. -/
structure Pose where
  x : Int
  y : Int
  yaw : Int
  z : Int
  deriving DecidableEq, Repr

/-- A box of a footprint in the vehicle frame (10 R253). -/
structure FBox where
  cx : Int
  cy : Int
  hx : Int
  hy : Int
  yaw : Int
  z0 : Int
  z1 : Int
  deriving DecidableEq, Repr

/-- A box from its eight words. -/
def fboxOf (ws : List Nat) : FBox :=
  let g := fun i => fxOf (ws.getD i 0)
  { cx := g 0, cy := g 1, hx := g 2, hy := g 3, yaw := g 4, z0 := g 5, z1 := g 6 }

/-- The largest distance of a corner of a box from the vehicle reference point. -/
def FBox.reach (b : FBox) : Int :=
  let cs := cosSin b.yaw
  let corner := fun (i j : Int) =>
    let lx := i * b.hx
    let ly := j * b.hy
    fxHypot (b.cx + fxMul lx cs.1 - fxMul ly cs.2) (b.cy + fxMul lx cs.2 + fxMul ly cs.1)
  max (max (corner 1 1) (corner 1 (-1))) (max (corner (-1) 1) (corner (-1) (-1)))

/-- RMAX of a footprint. -/
def rmax (bs : List FBox) : Int := bs.foldl (fun m b => max m b.reach) 0

/-- Whether a footprint is refused (10 R253); a box is eight FP32 words, the last of them padding. -/
def badFootprint (bs : List (List Nat)) : Bool :=
  (bs.any fun ws => !((ws.take 7).all finite32) || decide (fxOf (ws.getD 2 0) < 0) || decide (fxOf (ws.getD 3 0) < 0) ||
    decide (fxOf (ws.getD 6 0) < fxOf (ws.getD 5 0)) || ws.getD 7 0 != 0) ||
  decide (128 * fxOne < 10 * rmax (bs.map fboxOf))

/-! ## The sweep (10 R254) -/

/-- The shorter way from one yaw to another. -/
def yawStep (a b : Int) : Int := wrapAngle (b - a) / 2 ^ 32

/-- The smallest natural number at or above a / b. -/
def ceilDiv (a b : Nat) : Nat := (a + b - 1) / b

/-- S between two poses. -/
def sweepSteps (r : Int) (p q : Pose) : Nat :=
  let dx := q.x - p.x
  let dy := q.y - p.y
  let l := ceilSqrt (ceilDiv (100 * (dx * dx + dy * dy).toNat) (2 ^ 192))
  let w := ceilDiv (10 * (yawStep p.yaw q.yaw).natAbs * r.toNat) (2 ^ 192)
  Nat.max 1 (Nat.max l w)

/-- Sample `k` of `n` between two poses. -/
def between (p q : Pose) (k n : Nat) : Pose :=
  let f := fun (a b : Int) => a + (b - a) * k / (n : Int)
  { x := f p.x q.x, y := f p.y q.y, z := f p.z q.z, yaw := p.yaw + yawStep p.yaw q.yaw * k / (n : Int) }

/-- The samples of a path, none where a step exceeds its cap of 64. -/
def sweep (r : Int) : List Pose → Option (List Pose)
  | [] => some []
  | [p] => some [p]
  | p :: q :: rest =>
    let n := sweepSteps r p q
    if 64 < n then none
    else (sweep r (q :: rest)).map fun l => ((List.range n).map fun k => between p q k n) ++ l

/-! ## Voxels near a box (10 R240, R255, R257) -/

/-- A box placed at a sample: its centre, its axes and its z extent. -/
structure PBox where
  x : Int
  y : Int
  c : Int
  s : Int
  hx : Int
  hy : Int
  z0 : Int
  z1 : Int
  deriving DecidableEq, Repr

/-- A box of the footprint at a pose. -/
def FBox.at_ (b : FBox) (p : Pose) : PBox :=
  let v := cosSin p.yaw
  let w := cosSin (p.yaw + b.yaw)
  { x := p.x + fxMul b.cx v.1 - fxMul b.cy v.2, y := p.y + fxMul b.cx v.2 + fxMul b.cy v.1
    c := w.1, s := w.2, hx := b.hx, hy := b.hy, z0 := p.z + b.z0, z1 := p.z + b.z1 }

/-- Index of the voxel that holds a coordinate. -/
def voxIdx (a : Int) : Int := (10 * a).fdiv fxOne

/-- The integers from `a` to `b`. -/
def intRange (a b : Int) : List Int := (List.range (b + 1 - a).toNat).map fun (i : Nat) => a + (i : Int)

/-- The horizontal distance from the centre of voxel column (ix, iy) to a box, 0 inside it. -/
def PBox.dist (b : PBox) (ix iy : Int) : Int :=
  let dx := (2 * ix + 1) * fxOne / 20 - b.x
  let dy := (2 * iy + 1) * fxOne / 20 - b.y
  let lx := fxMul dx b.c + fxMul dy b.s
  let ly := fxMul dy b.c - fxMul dx b.s
  fxHypot (max 0 ((lx.natAbs : Int) - b.hx)) (max 0 ((ly.natAbs : Int) - b.hy))

/-- The voxel columns within 1.13 m of a box, with their distances. -/
def PBox.columns (b : PBox) : List (Int × Int × Int) :=
  let r := fxHypot b.hx b.hy + 113 * fxOne / 100
  (intRange (voxIdx (b.x - r)) (voxIdx (b.x + r))).flatMap fun ix =>
    ((intRange (voxIdx (b.y - r)) (voxIdx (b.y + r))).map fun iy => (ix, iy, b.dist ix iy)).filter
      fun c => decide (100 * c.2.2 ≤ 113 * fxOne)

/-- The voxel layers a box's z extent overlaps. -/
def PBox.layers (b : PBox) : List Int := intRange (voxIdx b.z0) (voxIdx b.z1)

/-- How far CLR may lie from the formula's value, 2⁻¹² m (log entry 15), and the clearance above which it is 1.0 m whatever the
sequence of operations. -/
def clrTol : Int := 2 ^ 84
def clrCap : Int := fxOne + clrTol

/-- The least distance of a set of placed boxes to the voxels that are obstacles, less 0.12 m, as far as it lies below
`clrCap` (10 R255): negative where a box comes nearer than 0.12 m. -/
def clearance (obstacle : Int → Int → Int → Bool) (bs : List PBox) : Int :=
  bs.foldl (fun m b =>
    let zs := b.layers
    b.columns.foldl (fun m c =>
      let d := c.2.2 - 12 * fxOne / 100
      if d < m && zs.any (fun iz => obstacle c.1 c.2.1 iz) then d else m) m) clrCap

/-- The voxels within 1.0 m of a box, inside the map (10 R257). -/
def PBox.near (b : PBox) : List (Nat × Nat × Nat) :=
  (b.columns.filter fun c => decide (c.2.2 ≤ fxOne)).flatMap fun c =>
    b.layers.filterMap fun iz =>
      if 0 ≤ c.1 ∧ c.1 < 2048 ∧ 0 ≤ c.2.1 ∧ c.2.1 < 2048 ∧ 0 ≤ iz ∧ iz < 64 then
        some (c.1.toNat, c.2.1.toNat, iz.toNat)
      else none

/-- The block and the brick of a voxel (10 Table 1). -/
def blockOf (ix iy iz : Nat) : Nat := 4096 * (iz / 16) + 64 * (iy / 32) + ix / 32
def brickOf (ix iy iz : Nat) : Nat := 64 * (iz % 16 / 4) + 8 * (iy % 32 / 4) + ix % 32 / 4
def voxelOf (ix iy iz : Nat) : Nat := 16 * (iz % 4) + 4 * (iy % 4) + ix % 4

/-- A number inserted into a rising list, once. -/
def insertUniq (k : Nat) : List Nat → List Nat
  | [] => [k]
  | x :: xs => if k < x then k :: x :: xs else if k = x then x :: xs else x :: insertUniq k xs

/-- The bricks a placed box reaches, as block × 256 + brick, rising. -/
def PBox.bricks (b : PBox) : List Nat :=
  b.near.foldl (fun l v => insertUniq (blockOf v.1 v.2.1 v.2.2 * 256 + brickOf v.1 v.2.1 v.2.2) l) []

end Sys2Proof.Machine
end

