-- ==== Sys2Proof/Machine/Xcu.lean ====
section
/-!
DEFINITION. Xcu.lean: the Cross-check Unit: sector voting, trust and the ego check (09 R225 to R239).
-/

namespace Sys2Proof.Machine

open Sys2Proof

/-! ## The vote state (09 R234) -/

/-- A sensor's entry of the vote state. -/
structure VoteEnt where
  out : Bool
  run : Nat
  ring : Nat
  cs : List (Nat × Nat)
  deriving DecidableEq, Repr

/-- A sensor's entry at an address. -/
def State.voteEnt (s : State) (a : Nat) : VoteEnt :=
  let w := s.loadLE a 4
  { out := w % 2 == 1, run := w / 2 % 32, ring := w / 256 % 8
    cs := (List.range 8).map fun i => (s.loadLE (a + 8 + 4 * i) 2, s.loadLE (a + 10 + 4 * i) 2) }

/-- The 64 bytes of a sensor's entry. -/
def VoteEnt.bytes (e : VoteEnt) : List Byte :=
  toLE 8 ((if e.out then 1 else 0) + e.run * 2 + e.ring * 256) ++ (e.cs.flatMap fun c => toLE 2 c.1 ++ toLE 2 c.2) ++
    List.replicate 24 0

/-- A sensor's entry with nothing counted. -/
def VoteEnt.clear (out : Bool) : VoteEnt := { out := out, run := 0, ring := 0, cs := List.replicate 8 (0, 0) }

/-! ## Voting (09 R229, R230) -/

/-- The sectors of the polar grid. -/
def sectors : Nat := 11520

/-- The claim of sector `k` in a map held as one number. -/
def claimAt (m k : Nat) : Nat := m / 4 ^ k % 4

/-- Whether a claim covers its sector. -/
def covers (c : Nat) : Bool := c == 0 || c == 2

/-- The result of a sector with `f` voters that claim free and `o` that claim occupied (09 Table 6). -/
def sectorResult (f o : Nat) : Nat :=
  if f + o = 0 then 1
  else if f + o = 1 then (if o = 1 then 2 else 0)
  else if f + o = 2 then (if f = o then 3 else if o = 2 then 2 else 0)
  else if o < f then 0 else if f < o then 2 else 3

/-- A sector's vote: voters claiming free and occupied. -/
def sectorVotes (maps : List Nat) (ents : List VoteEnt) (k : Nat) : Nat × Nat :=
  let cs := (List.range maps.length).filterMap fun s =>
    if (ents.getD s (VoteEnt.clear false)).out then none else some (claimAt (maps.getD s 0) k)
  ((cs.filter (· == 0)).length, (cs.filter (· == 2)).length)

/-- The counts C and O of a trusted sensor (09 R231), or of one voted out (R232), over the sectors' votes. -/
def sensorCounts (m : Nat) (out : Bool) (votes : List (Nat × Nat)) : Nat × Nat :=
  (List.range votes.length).foldl (fun a k =>
    let v := votes.getD k (0, 0)
    let r := sectorResult v.1 v.2
    let c := claimAt m k
    if !covers c then a
    else if out then
      (if (r == 0 || r == 2) && decide (2 ≤ v.1 + v.2) then (a.1 + 1, a.2 + (if c = r then 0 else 1)) else a)
    else (a.1 + 1, a.2 + (if decide (3 ≤ v.1 + v.2) && r != 3 && c != r then 1 else 0))) (0, 0)

/-- A sensor's entry after a vote, with its event: 0 none, 1 voted out, 2 readmitted. -/
def VoteEnt.after (e : VoteEnt) (co : Nat × Nat) : VoteEnt × Nat :=
  if e.out then
    let run := if co.1 = 0 then e.run else if 5 * co.2 ≤ co.1 then e.run + 1 else 0
    if 16 ≤ run then (VoteEnt.clear false, 2) else ({ e with run := run }, 0)
  else
    let cs := e.cs.set e.ring co
    if sumL (cs.map (·.1)) < 5 * sumL (cs.map (·.2)) then (VoteEnt.clear true, 1)
    else ({ e with cs := cs, ring := (e.ring + 1) % 8 }, 0)

/-! ## The ego check (09 R226) -/

/-- Whether two FP32 values differ by more than a tolerance; NaN counts as a difference. -/
def differs (a b tol : Nat) : Bool :=
  let d := (fp32.decode a).add false (fp32.decode b).neg
  let t := fp32.decode tol
  d.isNan || t.isNan || t.lt d || t.lt d.neg

/-- Whether the frame disagrees, from the ego record at `a`. -/
def State.egoDisagrees (s : State) (a : Nat) : Bool :=
  let v := s.loadLE (a + 40) 1
  (v % 2 == 1 && differs (s.loadLE a 4) (s.loadLE (a + 24) 4) (s.loadLE (a + 32) 4)) ||
    (v / 2 % 2 == 1 && differs (s.loadLE (a + 4) 4) (s.loadLE (a + 28) 4) (s.loadLE (a + 36) 4))

/-! ## XCU_VOTE (09 R235 to R239) -/

/-- NSENS and EGOCHK. -/
def Job.nsens (j : Job) : Nat := df j.desc 7 5 0
def Job.egoChk (j : Job) : Bool := df j.desc 0 24 24 == 1

/-- What a vote computes: the sectors' votes, each sensor's counts, new entry and event. -/
structure VoteRes where
  votes : List (Nat × Nat)
  sens : List ((Nat × Nat) × VoteEnt × Nat)
  ego : Bool
  egorun : Nat
  deriving DecidableEq, Repr

/-- The vote of a job. -/
def State.voteOf (s : State) (j : Job) : VoteRes :=
  let sin := (j.ref 1).addr
  let maps := (List.range j.nsens).map fun i => s.loadLE ((j.ref 0).addr + 2880 * i) 2880
  let ents := (List.range j.nsens).map fun i => s.voteEnt (sin + 64 + 64 * i)
  let votes := (List.range sectors).map (sectorVotes maps ents)
  let run := s.loadLE (sin + 4) 1 % 16
  let dis := j.egoChk && s.egoDisagrees (j.ref 4).addr
  { votes := votes
    sens := (List.range j.nsens).map fun i =>
      let e := ents.getD i (VoteEnt.clear false)
      let co := sensorCounts (maps.getD i 0) e.out votes
      (co, e.after co)
    ego := dis
    egorun := if !j.egoChk then run else if dis then Nat.min 15 (run + 1) else 0 }

/-- Whether EGORUN reached 3 in this vote. -/
def VoteRes.egoThree (v : VoteRes) : Bool := v.ego && v.egorun == 3

/-- The results of the sectors. -/
def VoteRes.results (v : VoteRes) : List Nat := v.votes.map fun x => sectorResult x.1 x.2

/-- The new vote state (09 Table 7). -/
def VoteRes.state (v : VoteRes) (f : Word32) : List Byte :=
  toLE 4 f.toNat ++ toLE 1 v.egorun ++ List.replicate 59 0 ++ (v.sens.flatMap fun x => x.2.1.bytes) ++
    List.replicate (64 * (32 - v.sens.length)) 0

/-- The number of sectors with a result. -/
def VoteRes.count (v : VoteRes) (r : Nat) : Nat := (v.results.filter (· == r)).length

/-- Four 2-bit codes to a byte. -/
def pack2 : List Nat → List Byte
  | a :: b :: c :: d :: rest => BitVec.ofNat 8 (a + 4 * b + 16 * c + 64 * d) :: pack2 rest
  | _ => []

/-- The report of one sensor (09 Table 10). -/
def sensorReport (x : (Nat × Nat) × VoteEnt × Nat) : List Byte :=
  toLE 8 (x.1.1 + x.1.2 * 2 ^ 16 + (if x.2.1.out then 2 ^ 32 else 0) + x.2.2 * 2 ^ 33 + x.2.1.run * 2 ^ 35)

/-- The output and report (09 Table 10). -/
def VoteRes.report (v : VoteRes) (f : Word32) : List Byte :=
  pack2 v.results ++ toLE 4 f.toNat ++ toLE 4 (v.count 0) ++ toLE 4 (v.count 1) ++ toLE 4 (v.count 2) ++
    toLE 4 (v.count 3) ++ toLE 1 ((if v.ego then 1 else 0) + (if v.egoThree then 2 else 0)) ++ List.replicate 43 0 ++
    v.sens.flatMap sensorReport

/-- The registers, interrupts and lines of a vote (09 R226, R231, R232, R239). -/
def State.voteMarks (s : State) (v : VoteRes) (bad : Nat) : State :=
  let outs := (v.sens.filter fun x => x.2.2 == 1).length
  let ins := (v.sens.filter fun x => x.2.2 == 2).length
  let mask := (List.range v.sens.length).foldl (fun m i =>
    m + (if (v.sens[i]?).any fun x => x.2.1.out then 2 ^ i else 0)) 0
  let s := s.fwrap pgXCU Reg.XCU_JOBS_COUNT 1
  let s := s.setReg pgXCU 0 0x044 (BitVec.ofNat 32 mask)
  let s := s.fset pgXCU Reg.XCU_CONTESTED_COUNT (v.count 3)
  let s := s.fadd pgXCU Reg.XCU_BADCLAIM_COUNT bad
  let s := (List.range outs).foldl (fun t _ => ((t.fadd pgXCU Reg.XCU_VOTEOUT_COUNT 1).event pgXCU).pulse 152) s
  let s := (List.range ins).foldl (fun t _ => (t.fadd pgXCU Reg.XCU_READMIT_COUNT 1).event pgXCU) s
  if v.egoThree then ((s.fadd pgXCU Reg.XCU_EGO_DISAGREE_COUNT 1).event pgXCU).pulse 153 else s

/-- The invalid claims in the maps of a job. -/
def State.badClaims (s : State) (j : Job) : Nat :=
  sumL ((List.range j.nsens).map fun i =>
    let m := s.loadLE ((j.ref 0).addr + 2880 * i) 2880
    ((List.range sectors).filter fun k => claimAt m k == 3).length)

/-- The vote is done: the new state and the report are written. -/
def State.voteWrite (s : State) (j : Job) : State :=
  let v := s.voteOf j
  let bad := s.badClaims j
  s.unitWrite j (j.ref 2).addr 2112 fun t => t.unitWrite j (j.ref 3).addr (2944 + 8 * j.nsens) fun u =>
    (((u.storeAt (j.ref 2).addr (v.state j.f)).storeAt (j.ref 3).addr (v.report j.f)).voteMarks v bad).setJob (j.unitDone 1)

/-- The sensors with OUT = 1 in SIN, X of 09 R238. -/
def State.sensorsOut (s : State) (j : Job) : Nat :=
  ((List.range j.nsens).filter fun i => (s.voteEnt ((j.ref 1).addr + 64 + 64 * i)).out).length

/-- The VCLK cycles of a vote (09 R238), 1.0 GHz, and the TCLK edge at which it ends. -/
def State.voteCycles (s : State) (j : Job) : Nat := 256 + 180 * (j.nsens + 1 + s.sensorsOut j)
def State.voteEnd (s : State) (j : Job) : Nat := j.since + cyclesToEdges (s.voteCycles j) 1000

/-- XCU_VOTE_DONE of the job the XCU runs; one that is executed again begins again now. -/
def State.voteDone (s : State) (j : Job) (chk : ReadCheck) : State :=
  let j := { j with since := s.now }
  if !s.readsLive j then s.staleEnd j
  else
    s.unitRead j (j.ref 0).addr (2880 * j.nsens) chk fun t =>
      t.unitRead j (j.ref 1).addr 2112 chk fun u =>
        u.unitRead j (j.ref 4).addr (if j.egoChk then 64 else 0) chk fun v => v.voteWrite j

/-- The running job in a place of an engine that has units to do. -/
def State.engineJob (s : State) (e : Engine) (k : Nat) : Option Job :=
  (s.inPlace e k).bind fun j => if j.phase = .running ∧ j.step < j.total ∧ j.fail = none then some j else none

/-- XCU_VOTE: the job taken by the XCU begins; with no sensor it does nothing (09 R236). -/
def execXcuVote (tag : Nat) (s : State) : Out :=
  onAwake s true (s.withJob tag fun j =>
    if j.opc = .xcuVote ∧ j.phase = .taken then
      s.setJob { j.begin_ (if j.nsens = 0 then 0 else 1) with since := s.now }
    else s)

/-- XCU_VOTE_DONE: at the end of the vote's cycles (09 R238). -/
def execXcuVoteDone (chk : ReadCheck) (e : Nat) (s : State) : Out :=
  match s.engineJob .xcu 0 with
  | some j => onAwake s (s.dueNow e (s.voteEnd j)) ((elapse e s).voteDone j chk)
  | none => .next s

end Sys2Proof.Machine
end

