-- ==== Sys2Proof/Machine/Map.lean ====
section
/-!
DEFINITION. Map.lean: the occupancy map of the CCU and its publication (10 R240 to R251).
-/

namespace Sys2Proof.Machine

open Sys2Proof

/-! ## Index tables and slots (10 R240 to R244) -/

/-- The entry of a block that is unallocated and unknown: FILL 0b01. -/
def entUnknown : Nat := 0x4000

/-- The entry of block `k`. -/
def tabGet (t : List (Nat × Nat)) (k : Nat) : Nat := aget entUnknown t k

/-- A table with the entry of block `k` replaced. -/
def tabSet (t : List (Nat × Nat)) (k e : Nat) : List (Nat × Nat) :=
  if e = entUnknown then t.filter fun p => p.1 != k else aset t k e

/-- ALLOC, SLOT and FILL of an entry (10 R242). -/
def entAlloc (e : Nat) : Bool := bitsOf 13 13 e == 1
def entSlot (e : Nat) : Nat := bitsOf 12 0 e
def entFill (e : Nat) : Nat := bitsOf 15 14 e

/-- The slots a table names. -/
def slotsOf (t : List (Nat × Nat)) : List Nat := (t.filter fun p => entAlloc p.2).map fun p => entSlot p.2

/-- The slots in use: those some table names (10 R244). -/
def Ccu.used (c : Ccu) : List Nat := (slotsOf c.newTab ++ slotsOf (c.oldTab.getD [])).eraseDups

/-- A block-index table of free entries. -/
def freeTab (d : Nat) : List (Nat × Nat) :=
  ((List.range 16384).map fun b => (b, Config.freeNat (d + b) % 2 ^ 16)).filter fun p => p.2 != entUnknown

/-- The CCU with undefined content in its storage, as free values of the draws from `d`: the tables, the images, the origin and the
changed-block masks. -/
def Ccu.undef (c : Ccu) (d : Nat) : Ccu :=
  { c with
    newTab := freeTab d, oldTab := c.oldTab.map fun _ => freeTab (d + 16384)
    sram := writeBytes c.sram 0 ((List.range 0x2000000).map fun k => Config.freeByte d k), bad := []
    orgX := Config.freeWord d, orgY := Config.freeWord (d + 1), orgZ := Config.freeWord (d + 2)
    masks := c.masks.map fun m => (m.1, Config.freeNat (d + 32768 + m.1.toNat % 8) % 2 ^ 16384) }

/-- The state of the voxel (ix, iy, iz) under a table; outside the map box unknown (10 R240, R241). -/
def Ccu.voxel (c : Ccu) (t : List (Nat × Nat)) (ix iy iz : Int) : Nat :=
  if 0 ≤ ix ∧ ix < 2048 ∧ 0 ≤ iy ∧ iy < 2048 ∧ 0 ≤ iz ∧ iz < 64 then
    let e := tabGet t (blockOf ix.toNat iy.toNat iz.toNat)
    if entAlloc e then
      let v := voxelOf ix.toNat iy.toNat iz.toNat
      let b := readByte c.sram (entSlot e * 4096 + 16 * brickOf ix.toNat iy.toNat iz.toNat + v / 4)
      b.toNat / 4 ^ (v % 4) % 4
    else entFill e
  else 1

/-- The table of an epoch that a check holds: the newest, or the one before it. -/
def State.tabOf (s : State) (e : Word32) : List (Nat × Nat) :=
  if e = s.mepoch then s.ccu.newTab else s.ccu.oldTab.getD s.ccu.newTab

/-- CCU_NALLOC and CCU_FREE follow the tables. -/
def State.mapRegs (s : State) : State :=
  (s.fset pgCCU Reg.CCU_NALLOC_COUNT (slotsOf s.ccu.newTab).length).fset pgCCU Reg.CCU_FREE_COUNT (8192 - s.ccu.used.length)

/-! ## MAP_PUBLISH (10 R248, R249) -/

/-- NUPD, NIMG and ORIGIN. -/
def Job.nupd (j : Job) : Nat := df j.desc 5 14 0
def Job.nimg (j : Job) : Nat := df j.desc 5 45 32
def Job.origin (j : Job) : Bool := df j.desc 0 24 24 == 1

/-- The update records of a job. -/
def State.updRecs (s : State) (j : Job) : List Nat :=
  (List.range j.nupd).map fun i => s.loadLE ((j.ref 0).addr + 8 * i) 8

/-- The fields of an update record. -/
def updBlock (r : Nat) : Nat := bitsOf 13 0 r
def updUniform (r : Nat) : Bool := bitsOf 14 14 r == 1
def updState (r : Nat) : Nat := bitsOf 16 15 r
def updImg (r : Nat) : Nat := bitsOf 44 32 r

/-- Whether a record has a field nonzero that must be zero. -/
def updBad (r : Nat) : Bool :=
  bitsOf 31 17 r != 0 || bitsOf 63 45 r != 0 || (if updUniform r then updImg r != 0 else updState r != 0)

/-- The record that wins for each block: the last that names it. -/
def updWinners : List Nat → List (Nat × Nat)
  | [] => []
  | r :: rs =>
    let w := updWinners rs
    if w.any fun p => p.1 == updBlock r then w else (updBlock r, r) :: w

/-- The records that write an image. -/
def imgRecs (w : List (Nat × Nat)) : List (Nat × Nat) := w.filter fun p => !updUniform p.2

/-- The run-time fault of a publication, if any (10 Table 3). -/
def State.pubFault (s : State) (j : Job) (recs : List Nat) : Option Err :=
  if recs.any updBad then some .reservedNonzero
  else if recs.any fun r => !updUniform r && decide (j.nimg ≤ updImg r) then some .lengthExceedsExtent
  else if 8192 - (slotsOf s.ccu.newTab).length < (imgRecs (updWinners recs)).length then some .countExceedsLimit
  else if j.origin && !((List.range 3).all fun i => finite32 (if i < 2 then df j.desc 6 (32 * i + 31) (32 * i) else df j.desc 7 31 0))
    then some .unsupportedOpcode
  else none

/-- The images a publication reads, as ranges. -/
def imgRanges (j : Job) (w : List (Nat × Nat)) : List (Nat × Nat) :=
  (imgRecs w).map fun p => ((j.ref 1).addr + 4096 * updImg p.2, 4096)

/-- Read a list of ranges for a unit of a job. -/
def State.unitReads (s : State) (j : Job) (chk : ReadCheck) (ok : State → State) : List (Nat × Nat) → State
  | [] => ok s
  | r :: rs => s.unitRead j r.1 r.2 chk fun t => t.unitReads j chk ok rs

/-- The update list is valid: the other table is released, and the publication builds its epoch in it. -/
def State.pubBuild (s : State) (j : Job) (w : List (Nat × Nat)) : State :=
  ({ s with ccu := { s.ccu with pub := some { tag := j.tag, recs := w }, oldTab := none } }).mapRegs

/-- MAP_PUBLISH: the map writer reads and validates the update list (10 R249). -/
def State.publish (s : State) (j : Job) (chk : ReadCheck) : State :=
  let j := if j.phase = .taken then j.begin_ 1 else j
  if s.oldHeld then s
  else if !s.readsLive j then s.staleEnd j
  else
    (s.setJob j).unitRead j (j.ref 0).addr (8 * j.nupd) chk fun t =>
      let recs := t.updRecs j
      match t.pubFault j recs with
      | some e =>
        ((if e = .countExceedsLimit then t.fadd pgCCU Reg.CCU_PUB_FAIL_COUNT 1 else t).captureLine pgCCU e 0 137).setJob
          { j with fail := some e }
      | none =>
        let w := updWinners recs
        t.unitReads j chk (fun u => u.pubBuild j w) (imgRanges j w)

/-! ## Completion (10 R245, R247, R250) -/

/-- The lowest slot that is not in use. -/
def freeSlot (used : List Nat) : Nat := (lowestFree used 0 8192).getD 0

/-- Apply one winning record to the table being built: an image goes to a fresh slot. -/
def State.applyUpd (s : State) (j : Job) (t : List (Nat × Nat)) (c : Ccu) (p : Nat × Nat) : List (Nat × Nat) × Ccu :=
  if updUniform p.2 then (tabSet t p.1 (updState p.2 * 2 ^ 14), c)
  else
    let k := freeSlot (slotsOf t ++ slotsOf c.newTab).eraseDups
    (tabSet t p.1 (2 ^ 13 + k),
     { c with sram := writeBytes c.sram (k * 4096) (s.load ((j.ref 1).addr + 4096 * updImg p.2) 4096)
              bad := c.bad.filter fun l => l / 64 != k })

/-- The table and the images after every winning record. -/
def State.applyUpds (s : State) (j : Job) (w : List (Nat × Nat)) : List (Nat × Nat) × Ccu :=
  w.foldl (fun a p => s.applyUpd j a.1 a.2 p) (s.ccu.newTab, s.ccu)

/-- The changed-block mask of a publication (10 R247). -/
def pubMask (j : Job) (w : List (Nat × Nat)) : Nat :=
  if j.origin then 2 ^ 16384 - 1 else w.foldl (fun m p => m + 2 ^ p.1) 0

/-- The set bits of a mask of `n` bits. -/
def popCount : Nat → Nat → Nat
  | 0, _ => 0
  | n + 1, m => m % 2 + popCount n (m / 2)

/-- The publication record (10 R250). -/
def State.pubRecord (s : State) (j : Job) (mask : Nat) : List Byte :=
  toLE 4 s.mepoch.toNat ++ toLE 4 j.f.toNat ++ toLE 4 s.ccu.orgX.toNat ++ toLE 4 s.ccu.orgY.toNat ++
    toLE 4 s.ccu.orgZ.toNat ++ toLE 4 (slotsOf s.ccu.newTab).length ++ toLE 4 (popCount 16384 mask) ++
    List.replicate 36 0 ++ toLE 2048 mask

/-- The new table becomes the newest epoch. -/
def State.newEpoch (s : State) (j : Job) (w : List (Nat × Nat)) : State :=
  let (t, c) := s.applyUpds j w
  let e := s.mepoch + 1
  let s := { s with ccu := { c with
    newTab := t, oldTab := some s.ccu.newTab, pub := none, masks := ((e, pubMask j w) :: c.masks).take 8
    orgX := if j.origin then BitVec.ofNat 32 (df j.desc 6 31 0) else c.orgX
    orgY := if j.origin then BitVec.ofNat 32 (df j.desc 6 63 32) else c.orgY
    orgZ := if j.origin then BitVec.ofNat 32 (df j.desc 7 31 0) else c.orgZ } }
  (s.setReg pgCCU 0 0x044 e).mapRegs

end Sys2Proof.Machine
end

