-- ==== Sys2Proof/Machine/Ccu.lean ====
section
/-!
DEFINITION. Ccu.lean: collision checking: candidates, verdicts, the registry and the probe pipes, the planning deadline
and the final check (10 R246, R252 to R264, R270, R271).
-/

namespace Sys2Proof.Machine

open Sys2Proof

/-! ## One check (10 R252 to R258) -/

/-- The NaN of results. -/
def nan32 : Nat := 0x7FC00000

/-- A result without a verdict. -/
def ChkRes.none_ (v : Nat) : ChkRes := { verdict := v, overflow := false, touch := [], clr := nan32, nsamp := 0, cycles := 0 }

/-- A result whose NSAMP and CYCLES the spec does not state: a check that made no sweep (log entry 7). -/
def ChkRes.opened (r : ChkRes) (n : Nat) : ChkRes :=
  { r with nsamp := Config.freeNat (2 * n) % 2 ^ 32, cycles := Config.freeNat (2 * n + 1) % 2 ^ 16 }

/-- CLR from the exact clearance `c` in units of 2⁻⁹⁶ m (10 R255): 0 where a box comes nearer than 0.12 m, 1.0 m where no
obstacle lies within it; between, the spec gives no sequence of FP32 operations, so the value is the device's own within
2⁻¹² m of the formula (log entry 15); `key` is the check's input. -/
def clrWord (c : Int) (key : Nat) : Nat :=
  if c + clrTol ≤ 0 then 0
  else if clrCap ≤ c then 0x3F800000
  else
    let off := Config.approx 17 (key * 2 ^ 128 + c.toNat)
    let v := c + (if off.natAbs ≤ 2 ^ 84 then off else 0)
    fp32.encode false (.fin false (min (max v 0) fxOne).toNat (-96))

/-- The verdict of a clearance (10 Table 4). -/
def verdictOf (clr : Nat) : Nat :=
  match fp32.decode clr with
  | .fin _ m e =>
    if m = 0 then 1
    else
      let below := fun (num den : Nat) => ltFin false (m * den) e false num 0
      if below 1 5 then 2 else if below 1 2 then 3 else if below 1 1 then 4 else 5
  | _ => 6

/-- Whether a verdict satisfies REQ. -/
def selectable (req v : Nat) : Bool := decide (2 + req ≤ v) && decide (v ≤ 5)

/-- KEY of a candidate with a current verdict (10 R256): SCORE + WCLR × CLR rounded once, else NaN. -/
def keyOf (req wclr score : Nat) (r : ChkRes) : Nat :=
  if selectable req r.verdict then
    fp32.encode false ((fp32.decode score).add false ((fp32.decode wclr).mul (fp32.decode r.clr)))
  else nan32

/-- Whether a voxel is an obstacle. -/
def isObstacle (unk : Bool) (v : Nat) : Bool := v == 2 || v == 3 || (v == 1 && !unk)

/-- The declared cycles of a check (10 R260). -/
def checkCycles (t : List (Nat × Nat)) (nsamp nbox : Nat) (reached : List (List Nat)) (blocks : List Nat) : Nat :=
  let counts := reached.foldl (fun acc l => l.foldl (fun a b => aset a b (aget 0 a b + 1)) acc) []
  let alloc := counts.filter fun p => entAlloc (tabGet t (p.1 / 256))
  32 + (nsamp * nbox + 7) / 8 + 4 * (blocks.filter fun k => !entAlloc (tabGet t k)).length +
    alloc.foldl (fun a p => a + (p.2 + 7) / 8) 0

/-- A check of a path of poses against a table (10 R254 to R257). -/
def Ccu.checkPath (c : Ccu) (t : List (Nat × Nat)) (boxes : List (List Nat)) (unk : Bool) (key : Nat) (path : List Pose) :
    ChkRes :=
  let bs := boxes.map fboxOf
  match sweep (rmax bs) path with
  | none => ChkRes.none_ 6
  | some ss =>
    let placed := ss.flatMap fun p => bs.map fun b => b.at_ p
    let clr := clrWord (clearance (fun x y z => isObstacle unk (c.voxel t x y z)) placed) key
    let reached := placed.map PBox.bricks
    let blocks := reached.foldl (fun acc l => l.foldl (fun a b => insertUniq (b / 256) a) acc) []
    { verdict := verdictOf clr, overflow := decide (32 < blocks.length), touch := blocks.take 32, clr := clr
      nsamp := ss.length, cycles := checkCycles t ss.length bs.length reached blocks }

/-- A pose of 16 bytes: X, Y, YAW, Z. -/
def State.poseWords (s : State) (a : Nat) : Nat × Nat × Nat × Nat :=
  (s.loadLE a 4, s.loadLE (a + 4) 4, s.loadLE (a + 8) 4, s.loadLE (a + 12) 4)

/-- A pose from its patterns. -/
def poseOf (w : Nat × Nat × Nat × Nat) : Pose := { x := fxOf w.1, y := fxOf w.2.1, yaw := fxOf w.2.2.1, z := fxOf w.2.2.2 }

/-- NPOSE of a candidate record. -/
def State.npose (s : State) (a : Nat) : Nat := s.loadLE (a + 4) 2

/-- The poses of a candidate record. -/
def State.candPoses (s : State) (a : Nat) : List (Nat × Nat × Nat × Nat) :=
  (List.range (s.npose a)).map fun i => s.poseWords (a + 64 + 16 * i)

/-- Whether a candidate is INVALID by its record alone (10 R252). -/
def State.candBad (s : State) (a : Nat) : Bool :=
  s.npose a == 0 || decide (64 < s.npose a) || !finite32 (s.loadLE a 4) ||
    (s.candPoses a).any fun p => !(finite32 p.1 && finite32 p.2.1 && finite32 p.2.2.1 && finite32 p.2.2.2)

/-- The check of the candidate record at `a`. -/
def State.checkCand (s : State) (t : List (Nat × Nat)) (boxes : List (List Nat)) (unk : Bool) (a : Nat) : ChkRes :=
  if s.candBad a then ChkRes.none_ 6
  else s.ccu.checkPath t boxes unk (s.loadLE a 1088) ((s.candPoses a).map poseOf)

/-! ## The registry (10 R259, R261 to R263) -/

/-- NCAND, NBOX, BASEIDX, REQ, UNK and WCLR. -/
def Job.ncand (j : Job) : Nat := df j.desc 6 12 0
def Job.nboxC (j : Job) : Nat := df j.desc 6 19 16
def Job.baseIdx (j : Job) : Nat := df j.desc 7 12 0
def Job.req (j : Job) : Nat := df j.desc 0 26 25
def Job.unkC (j : Job) : Bool := df j.desc 0 24 24 == 1
def Job.wclr (j : Job) : Nat := df j.desc 6 63 32

/-- The address of a job's candidate record. -/
def Job.candAddr (j : Job) (i : Nat) : Nat := (j.ref 0).addr + 1088 * i

/-- Eight words a box. -/
def cutBoxes : Nat → List Nat → List (List Nat)
  | 0, _ => []
  | n + 1, l => l.take 8 :: cutBoxes n (l.drop 8)

/-- The words of a footprint. -/
def State.footWords (s : State) (a n : Nat) : List Nat := (List.range (8 * n)).map fun i => s.loadLE (a + 4 * i) 4

/-- The state with a candidate replaced. -/
def State.setCand (s : State) (c : Cand) : State :=
  { s with ccu := { s.ccu with cands := s.ccu.cands.map fun d => if d.tag = c.tag ∧ d.idx = c.idx then c else d } }

/-- A registered candidate. -/
def State.cand (s : State) (tag i : Nat) : Option Cand := s.ccu.cands.find? fun c => c.tag == tag && c.idx == i

/-- Whether a verdict is current on the newest epoch (10 R262). -/
def State.current (s : State) (c : Cand) : Bool :=
  let d := (s.mepoch - c.mepoch).toNat
  d == 0 ||
    (decide (d ≤ 8) && !c.res.overflow &&
      (List.range d).all fun i =>
        match s.ccu.masks.find? fun m => m.1 == c.mepoch + 1 + BitVec.ofNat 32 i with
        | some m => c.res.touch.all fun k => !m.2.testBit k
        | none => false)

/-- Revalidate the frame's verdicts against the newest epoch, until the planning deadline (10 R263, R264). -/
def State.revalidate (s : State) : State :=
  if s.ccu.deadline then s
  else { s with ccu := { s.ccu with cands := s.ccu.cands.map fun c =>
      if c.st = .has then (if s.current c then { c with mepoch := s.mepoch } else { c with st := .recheck }) else c } }

/-- The result record of a candidate (10 Table 5). -/
def Cand.record (c : Cand) : List Byte :=
  toLE 1 c.res.verdict ++ toLE 1 ((if c.res.overflow then 1 else 0) + (if c.rechecked then 2 else 0)) ++
    toLE 2 c.res.touch.length ++ toLE 4 c.mepoch.toNat ++ toLE 4 c.res.clr ++ toLE 4 c.key ++ toLE 4 c.res.nsamp ++
    toLE 4 c.res.cycles ++ List.replicate 40 0 ++ c.res.touch.flatMap (toLE 2) ++
    List.replicate (2 * (32 - c.res.touch.length)) 0xFF

/-- Write a candidate's result record and key entry (10 R258), each unless its place turns the write away. -/
def State.writeCand (s : State) (j : Job) (c : Cand) : State :=
  let put := fun (t : State) (a : Nat) (bs : List Byte) =>
    if (t.denied j.part a bs.length true).isSome then t else (t.jobMoves j a bs.length true).storeAt a bs
  put (put s ((j.ref 2).addr + 128 * c.idx) c.record) ((j.ref 3).addr + 8 * c.idx) (toLE 4 c.key ++ toLE 4 (j.baseIdx + c.idx))

/-- The candidates of a job as it registers. -/
def Job.newCands (j : Job) : List Cand :=
  (List.range j.ncand).map fun i =>
    { tag := j.tag, idx := i, st := .first, got := false, rechecked := false, mepoch := 0, key := nan32
      res := ChkRes.none_ 0 }

/-! ## The planning deadline (10 R264) -/

/-- A candidate at the deadline: NOT_CHECKED where it never had a verdict (an epoch of which the spec does not state), STALE
where its verdict is not current. -/
def State.atDeadline (s : State) (c : Cand) : Cand :=
  if !c.got then
    { c with
      st := .has
      key := nan32
      res := (ChkRes.none_ 0).opened (s.draws + 4096 * c.tag + c.idx)
      mepoch := Config.freeWord (s.draws + 4096 * c.tag + c.idx) }
  else if s.current c then { c with st := .has, mepoch := s.mepoch }
  else { c with st := .has, key := nan32, res := { c.res with verdict := 7, clr := nan32 } }

/-- Whether a candidate ended without a current verdict. -/
def Cand.lost (c : Cand) : Bool := c.res.verdict == 0 || c.res.verdict == 7

/-- The jobs of the frame's registry complete: the final records are written, ERR tells whether a candidate was lost. -/
def State.closeJob (s : State) (tag : Nat) : State :=
  s.withJob tag fun j =>
    let cs := s.ccu.cands.filter fun c => c.tag == tag
    let lost := (cs.filter Cand.lost).length
    let t := cs.foldl (fun t c => t.writeCand j c) s
    (t.fadd pgCCU Reg.CCU_STALE_COUNT lost).setJob
      { j with step := j.total, progress := j.ncand - lost, err := if lost = 0 then .ok else .deadlineMissed }

/-- The error of a deadline in the CCU page (12 Table 2, R313): a verdict that became STALE, else a candidate left
unchecked. -/
def State.deadlineErr (s : State) (tags : List Nat) : State :=
  let cs := s.ccu.cands.filter fun c => tags.contains c.tag
  if cs.any fun c => c.res.verdict == 7 then s.captureLine pgCCU .staleMapEpoch 0 137
  else if cs.any Cand.lost then s.captureLine pgCCU .deadlineMissed 0 137
  else s

/-- The work of the planning deadline on the registry's jobs `tags`. -/
def State.closeJobs (s : State) (tags : List Nat) : State :=
  let c := s.ccu
  let s1 := { s with draws := s.draws + 2 ^ 21, ccu := { c with
    pipes := c.pipes.filter fun p => match p.2 with
      | .cand t _ _ _ _ => !tags.contains t
      | .fin _ _ _ => true
    cands := c.cands.map fun x => if tags.contains x.tag then s.atDeadline x else x } }
  State.deadlineErr (tags.foldl (fun t g => t.closeJob g) s1) tags

/-- A CCU_CHECK ends FAILED before it has registered. -/
def State.checkFail (s : State) (j : Job) (e : Err) : State := (s.setJob (j.finish .failed e)).retagSweep

/-- The read of a CCU_CHECK's footprint: a stored error is read again within RETRY, the job not begun (12 R307). -/
def State.footRead (s : State) (j : Job) (a n : Nat) (chk : ReadCheck) (ok : State → State) : State :=
  if s.bondWait a n then s
  else match s.denied j.part a n false with
  | some e => s.checkFail j e
  | none =>
    let t := s.readMarks a n chk
    match s.readRes a n chk with
    | .poisoned _ => t.checkFail j .poisonedRead
    | .stored _ =>
      if j.tries < j.retry then (t.setJob { j with tries := j.tries + 1, attempts := j.attempts + 1 }).trace 7 0 1
      else (t.exhausted j.part).checkFail j .recomputeExhausted
    | .data => ok ((t.guestIn a n).jobMoves j a n false)

/-- CCU_CHECK: the footprint is read, and the job registers its candidates (10 R253, R259, R261); after the planning
deadline it completes at once (10 R264). -/
def State.checkStart (s : State) (j : Job) (chk : ReadCheck) : State :=
  let a := (j.ref 1).addr
  let n := j.nboxC
  if !s.readsLive j then s.staleEnd j
  else s.footRead j a (32 * n) chk fun s =>
    let ws := s.footWords a n
    if badFootprint (cutBoxes n ws) then (s.captureLine pgCCU .unsupportedOpcode 0 137).checkFail j .unsupportedOpcode
    else if 4096 < s.ccu.cands.length + j.ncand then (s.captureLine pgCCU .countExceedsLimit 0 137).checkFail j .countExceedsLimit
    else
      let j := { j.list (Nat.max j.ncand 1) with aux := ws }
      let t := { s.setJob j with ccu := { s.ccu with cands := s.ccu.cands ++ j.newCands } }
      if s.ccu.deadline then t.closeJobs [j.tag] else t

/-- The CCU_CHECK jobs of the frame: those with registered candidates, and those that run without any. -/
def State.checkTags (s : State) : List Nat :=
  (s.ccu.cands.map (·.tag) ++ (s.jobs.filter fun j => j.opc == .ccuCheck && j.phase == .running).map (·.tag)).eraseDups

/-- The planning deadline of the frame. -/
def State.planDeadline (s : State) : State :=
  let tags := s.checkTags
  let t := s.closeJobs tags
  { t with ccu := { t.ccu with deadline := true } }

/-- The planning deadline on the counter, in nanoseconds (17 R423). -/
def State.planNs (s : State) : Nat := s.tickNs + s.frm.planUs * 1000

/-- The publication deadline on the counter, in nanoseconds. -/
def State.pubNs (s : State) : Nat := s.tickNs + s.frm.pubUs * 1000

/-! ## The pipes (10 R260) -/

/-- Whether the registry's job `a` comes before job `b` at the checker: by class, then by the order of placement
(03 R81). -/
def State.jobBefore (s : State) (a b : Nat) : Bool :=
  match s.job a, s.job b with
  | some x, some y => decide (x.tc < y.tc) || (x.tc == y.tc && decide (x.seqNo < y.seqNo))
  | _, _ => false

/-- The first candidate of a kind in the order of jobs and indices. -/
def State.nextCand (s : State) (k : CandSt) : Option Cand :=
  (s.ccu.cands.filter fun c => c.st == k && (s.job c.tag).any fun j => j.nboxC != 0 && j.phase == .running).foldl (fun b c =>
    match b with
    | none => some c
    | some d => if s.jobBefore c.tag d.tag || (c.tag == d.tag && decide (c.idx < d.idx)) then some c else some d) none

/-- The state with a pipe's work replaced. -/
def State.setPipe (s : State) (p : Nat) (w : PipeWork) : State :=
  { s with ccu := { s.ccu with pipes := aset s.ccu.pipes p w } }

/-- The state with a pipe free. -/
def State.freePipe (s : State) (p : Nat) : State :=
  { s with ccu := { s.ccu with pipes := s.ccu.pipes.filter fun x => x.1 != p } }

/-- The work of a pipe. -/
def State.pipe (s : State) (p : Nat) : Option PipeWork := (s.ccu.pipes.find? fun x => x.1 == p).map (·.2)

/-- A pipe takes a candidate, as its first check or as a recheck; its job reads RUNNING from its first check on. -/
def State.takeCand (s : State) (p : Nat) (c : Cand) (re : Bool) : State :=
  let s := s.withJob c.tag fun j => s.setJob j.unitStarts
  let t := (s.setCand { c with st := .busy, rechecked := c.rechecked || re }).setPipe p (.cand c.tag c.idx s.mepoch false re)
  if re then t.fwrap pgCCU Reg.CCU_RECHECK_COUNT 1 else t

/-- PIPE_CHECK_START: a free pipe takes its next work. -/
def State.pipeStart (s : State) (p : Nat) : State :=
  match s.ccu.fin with
  | some f =>
    match f.todo with
    | x :: rest =>
      { s with ccu := { s.ccu with fin := some { f with todo := rest }, pipes := aset s.ccu.pipes p (.fin x.1 x.2 false) } }
    | [] =>
      match s.nextCand .first with
      | some c => s.takeCand p c false
      | none => match s.nextCand .recheck with
        | some c => s.takeCand p c true
        | none => s
  | none =>
    match s.nextCand .first with
    | some c => s.takeCand p c false
    | none => match s.nextCand .recheck with
      | some c => s.takeCand p c true
      | none => s

/-- The check of a candidate ends with a result. -/
def State.candDone (s : State) (p : Nat) (j : Job) (c : Cand) (e : Word32) (r : ChkRes) : State :=
  let r := if r.verdict = 6 ∧ r.cycles = 0 then r.opened s.draws else r
  let s := s.draw
  let c := { c with st := .has, got := true, mepoch := e, res := r, key := keyOf j.req j.wclr (s.loadLE (j.candAddr c.idx) 4) r }
  let t := (((s.freePipe p).setCand c).fwrap pgCCU Reg.CCU_CHECKED_COUNT 1).revalidate.trace 4 0 1
  match t.cand c.tag c.idx with
  | some d => t.writeCand j d
  | none => t

/-- A candidate whose data cannot be read is INVALID, and the CCU page records why (10 R261). -/
def State.candFail (s : State) (p : Nat) (j : Job) (c : Cand) (e : Word32) (code : Err) (a : Nat) : State :=
  (s.candDone p j c e (ChkRes.none_ 6)).captureLine pgCCU code a 137

/-- The result of the candidate check in a pipe. -/
def State.candRes (s : State) (j : Job) (c : Cand) (e : Word32) : ChkRes :=
  s.checkCand (s.tabOf e) (cutBoxes j.nboxC j.aux) j.unkC (j.candAddr c.idx)

/-- The cap of a check in cycles. -/
def checkCap : Nat := 65536

/-- The lines of the Map SRAM, counted from its start, that placed boxes make a check read: those of the bricks they reach
in allocated blocks (10 R240, R242, R260). -/
def mapLines (t : List (Nat × Nat)) (bs : List PBox) : List Nat :=
  ((bs.flatMap PBox.bricks).map fun b =>
    let e := tabGet t (b / 256)
    if entAlloc e then some ((entSlot e * 4096 + 16 * (b % 256)) / 64) else none).filterMap id

/-- The map lines a candidate's check reads. -/
def State.candLines (s : State) (j : Job) (c : Cand) (e : Word32) : List Nat :=
  let a := j.candAddr c.idx
  let bs := (cutBoxes j.nboxC j.aux).map fboxOf
  if s.candBad a then []
  else match sweep (rmax bs) ((s.candPoses a).map poseOf) with
    | none => []
    | some ss => mapLines (s.tabOf e) (ss.flatMap fun p => bs.map fun b => b.at_ p)

/-- The address of a Map SRAM line. -/
def mapAddr (l : Nat) : Nat := 0x8300000000 + 64 * l

/-- How the map lines of a check read: a poisoned one, one with a stored error, or all well (12 R303, R304). -/
def State.mapRes (s : State) (ls : List Nat) (chk : ReadCheck) : ReadRes :=
  match ls.find? fun l => s.ccu.bad.contains l with
  | some l => .poisoned l
  | none =>
    match s.checkEnd chk with
    | .stored x => match ls.find? fun l => mapAddr l == x / 64 * 64 with
      | some l => .stored l
      | none => .data
    | .poison x => match ls.find? fun l => mapAddr l == x / 64 * 64 with
      | some l => .poisoned l
      | none => .data
    | _ => .data

/-- A stored error in a map line: the line is poisoned, and the CCU page captures its address (12 R303). -/
def State.mapHurt (s : State) (l : Nat) : State :=
  { s with ccu := { s.ccu with bad := s.ccu.bad ++ [l] } }.captureLine pgCCU .dataErrorDetected (mapAddr l) 137

/-- A candidate check finishes (10 R261, R263). -/
def State.candCheck (s : State) (p : Nat) (j : Job) (c : Cand) (e : Word32) (again re : Bool) (chk : ReadCheck) : State :=
  let a := j.candAddr c.idx
  if s.bondWait a 1088 then s
  else match s.denied j.part a 1088 false with
  | some d => s.candFail p j c e d a
  | none =>
  let t := s.readMarks a 1088 chk
  match s.readRes a 1088 chk with
  | .poisoned l => t.candFail p j c e .poisonedRead (l * 64)
  | .stored l =>
    if again then t.candFail p j c e .dataErrorDetected (l * 64) else t.setPipe p (.cand c.tag c.idx e true re)
  | .data =>
    let t := (t.guestIn a 1088).jobMoves j a 1088 false
    match t.mapRes (t.candLines j c e) chk with
    | .poisoned l => t.candFail p j c e .poisonedRead (mapAddr l)
    | .stored l =>
      if again then (t.mapHurt l).candFail p j c e .dataErrorDetected (mapAddr l)
      else (t.mapHurt l).setPipe p (.cand c.tag c.idx e true re)
    | .data =>
      let r := t.candRes j c e
      if r.cycles < checkCap then t.candDone p j c e r else t

/-- The samples of an alternate of the final check: its output points as poses. -/
def FinReg.samples (g : FinReg) (alt : Nat) : Option (List Pose) :=
  match g.alts[alt]? with
  | some (_, pts) => sweep (rmax (g.boxes.map fboxOf)) (pts.map poseOf)
  | none => none

/-- The boxes of run `k` of an alternate: a sixteenth of its samples (10 R270). -/
def FinReg.runBoxes (g : FinReg) (alt k : Nat) : List PBox :=
  match g.samples alt with
  | some ss =>
    let n := (ss.length + 15) / 16
    ((ss.drop (k * n)).take n).flatMap fun p => (g.boxes.map fboxOf).map fun b => b.at_ p
  | none => []

/-- The cycles of a run. -/
def State.runCycles (s : State) (f : FinCheck) (g : FinReg) (alt k : Nat) : Nat :=
  let bs := g.runBoxes alt k
  let reached := bs.map PBox.bricks
  checkCycles (s.tabOf f.epoch) (bs.length / Nat.max 1 g.boxes.length) g.boxes.length reached
    (reached.foldl (fun acc l => l.foldl (fun a b => insertUniq (b / 256) a) acc) [])

/-- A run of the final check ends, with its clearance or without one. -/
def State.runDone (s : State) (p alt k : Nat) (f : FinCheck) (c : Option Int) : State :=
  let f' := match c with
    | some v => { f with done := f.done ++ [(alt, k, v)] }
    | none => { f with bad := f.bad ++ [alt] }
  let t := { s.freePipe p with ccu := { (s.freePipe p).ccu with fin := some f' } }
  if c.isSome ∧ (f'.done.filter fun x => x.1 == alt).length = 16 then (t.fwrap pgCCU Reg.CCU_CHECKED_COUNT 1).trace 4 0 1 else t

/-- A run of the final check finishes. -/
def State.runCheck (s : State) (p alt k : Nat) (again : Bool) (f : FinCheck) (g : FinReg) (chk : ReadCheck) : State :=
  match s.mapRes (mapLines (s.tabOf f.epoch) (g.runBoxes alt k)) chk with
  | .poisoned l => (s.runDone p alt k f none).captureLine pgCCU .poisonedRead (mapAddr l) 137
  | .stored l =>
    if again then ((s.mapHurt l).runDone p alt k f none).captureLine pgCCU .dataErrorDetected (mapAddr l) 137
    else (s.mapHurt l).setPipe p (.fin alt k true)
  | .data =>
    if s.runCycles f g alt k < checkCap then
      s.runDone p alt k f (some (clearance (fun x y z => isObstacle g.unk (s.ccu.voxel (s.tabOf f.epoch) x y z)) (g.runBoxes alt k)))
    else s

/-- PIPE_CHECK_DONE. -/
def State.pipeDone (s : State) (p : Nat) (chk : ReadCheck) : State :=
  match s.pipe p with
  | some (.cand tag i e again re) =>
    match s.job tag, s.cand tag i with
    | some j, some c =>
      if !s.readsLive j then
        ({ s.freePipe p with ccu := { (s.freePipe p).ccu with cands := s.ccu.cands.filter fun d => d.tag != tag } }).staleEnd j
      else s.candCheck p j c e again re chk
    | _, _ => s.freePipe p
  | some (.fin alt k again) =>
    match s.ccu.fin with
    | some f =>
      match f.reg with
      | some g => s.runCheck p alt k again f g chk
      | none => s.freePipe p
    | none => s.freePipe p
  | none => s

/-- CHECK_CAP_EXPIRED: a check that reaches the cap is stopped and its candidate is INVALID (10 R260). -/
def State.capExpired (s : State) (p : Nat) : State :=
  match s.pipe p with
  | some (.cand tag i e _ _) =>
    match s.job tag, s.cand tag i with
    | some j, some c =>
      let r := s.candRes j c e
      if r.cycles < checkCap then s
      else (s.candDone p j c e { ChkRes.none_ 6 with nsamp := r.nsamp, cycles := checkCap }).fadd pgCCU Reg.CCU_LONG_COUNT 1
    | _, _ => s
  | some (.fin alt k _) =>
    match s.ccu.fin with
    | some f =>
      match f.reg with
      | some g =>
        if s.runCycles f g alt k < checkCap then s
        else (s.runDone p alt k f none).fadd pgCCU Reg.CCU_LONG_COUNT 1
      | none => s
    | none => s
  | none => s

/-! ## The final check (10 R270, R271) -/

/-- The alternates the final check covers: those that are OK; a footprint without boxes leaves nothing to check. -/
def FinReg.alternates (g : FinReg) : List Nat :=
  if g.boxes.isEmpty then []
  else (List.range g.alts.length).filter fun r => (g.alts[r]?).any fun a => a.1 == 1

/-- The newest epoch is captured, and the runs of every OK alternate wait for pipes; one whose sweep exceeds the cap
fails. -/
def State.finalStart (s : State) : State :=
  let g := s.ccu.finReg.bind fun g => if g.frame = s.epoch then some g else none
  let alts := (g.map FinReg.alternates).getD []
  let good := alts.filter fun r => g.any fun x => (x.samples r).isSome
  { s with ccu := { s.ccu with fin := some {
      frame := s.epoch, epoch := s.mepoch, reg := g
      todo := good.flatMap fun r => (List.range 16).map fun k => (r, k)
      done := [], bad := alts.filter fun r => !good.contains r, named := false } } }

/-- Whether an alternate has passed: all runs finished, with a verdict of at least REQ. -/
def FinCheck.passed (f : FinCheck) (r : Nat) : Bool :=
  match f.reg with
  | some g =>
    let ds := f.done.filter fun x => x.1 == r
    g.alternates.contains r && !f.bad.contains r && ds.length == 16 &&
      selectable g.req (verdictOf (clrWord (ds.foldl (fun m x => min m x.2.2) clrCap) r))
  | none => false

/-- The outcome of the final check is named to the verdict gate. -/
def State.finalName (s : State) (f : FinCheck) : State :=
  let ok := (List.range 4).filter f.passed
  let alt := ok.head?
  let s := s.fset pgCCU Reg.CCU_FINAL_ALT (alt.getD 7)
  let s := s.fset pgCCU Reg.CCU_FINAL_REG (if f.reg.isSome then 1 else 0)
  let s := s.fset pgCCU Reg.CCU_FINAL_PASS (ok.foldl (fun m r => m + 2 ^ r) 0)
  let s := (s.setReg pgCCU 0 0x070 f.frame).setReg pgCCU 0 0x074 f.epoch
  let c := s.ccu
  let s := { s with
    ccu := { c with
      fin := some { f with named := true, todo := [] }
      pipes := c.pipes.filter fun p => match p.2 with
        | .fin _ _ _ => false
        | _ => true }
    gate := { s.gate with named := alt, namedFrame := f.frame } }
  if alt.isNone then s.pulse 136 else s

/-! ## The commands -/

/-- MAP_PUBLISH. -/
def execMapPublish (tag : Nat) (chk : ReadCheck) (s : State) : Out :=
  onAwake s true (s.withJob tag fun j =>
    if j.opc = .mapPublish ∧ j.fail = none ∧ s.ccu.pub = none ∧ (j.phase = .taken ∨ (j.phase = .running ∧ j.step < j.total)) then
      s.publish j chk
    else s)

/-- The publication's write of its record: one that is turned away fails the job and leaves the newest epoch as it was. -/
def State.pubWrite (s : State) (j : Job) (a n : Nat) (ok : State → State) : State :=
  match s.denied j.part a n true with
  | some e => { s with ccu := { s.ccu with pub := none } }.setJob { j with fail := some e }
  | none => s.unitWrite j a n ok

/-- PUBLISH_COMPLETE: the new table becomes the newest epoch, the record is written and the verdicts are revalidated
(10 R245, R250, R263). -/
def execPublishComplete (s : State) : Out :=
  onAwake s true (match s.ccu.pub with
    | some p =>
      match s.job p.tag with
      | some j =>
        if !s.readsLive j then ({ s with ccu := { s.ccu with pub := none } }).staleEnd j
        else
          let a := (j.ref 2).addr
          s.pubWrite j a 2112 fun u =>
            let t := u.newEpoch j p.recs
            ((t.storeAt a (t.pubRecord j (pubMask j p.recs))).setJob (j.unitDone 1)).revalidate
      | none => { s with ccu := { s.ccu with pub := none } }
    | none => s)

/-- CCU_CHECK. -/
def execCcuCheck (tag : Nat) (chk : ReadCheck) (s : State) : Out :=
  onAwake s true (s.withJob tag fun j => if j.opc = .ccuCheck ∧ j.phase = .placed then s.checkStart j chk else s)

/-- PIPE_CHECK_START. -/
def execPipeCheckStart (pipe : Nat) (s : State) : Out :=
  onAwake s (decide (pipe < 64) && (s.pipe pipe).isNone && !s.engineTesting .ccu) (s.pipeStart pipe)

/-- PIPE_CHECK_DONE. -/
def execPipeCheckDone (pipe : Nat) (chk : ReadCheck) (s : State) : Out := onAwake s true (s.pipeDone pipe chk)

/-- CHECK_CAP_EXPIRED. -/
def execCheckCapExpired (pipe : Nat) (s : State) : Out := onAwake s true (s.capExpired pipe)

/-- PLANNING_DEADLINE. -/
def execPlanningDeadline (e : Nat) (s : State) : Out :=
  onAwake s (s.frm.tickAt.isSome && !s.ccu.deadline && s.dueCtr e s.planNs) (elapse e s).planDeadline

/-- FINAL_CHECK_START: at P − 50 µs. -/
def execFinalCheckStart (e : Nat) (s : State) : Out :=
  onAwake s (s.frm.tickAt.isSome && s.ccu.fin.isNone && s.dueCtr e (s.pubNs - 50000)) (elapse e s).finalStart

/-- FINAL_ALTERNATE_NAMED: at P − 2 µs. -/
def execFinalAlternateNamed (e : Nat) (s : State) : Out :=
  onAwake s true (match s.ccu.fin with
    | some f => if !f.named && s.dueCtr e (s.pubNs - 2000) then (elapse e s).finalName f else s
    | none => s)

end Sys2Proof.Machine
end

