-- ==== Sys2Proof/Machine/Pru.lean ====
section
/-!
DEFINITION. Pru.lean: the Profile Unit: trajectories from ranked candidates (10 R265 to R270).
-/

namespace Sys2Proof.Machine

open Sys2Proof

/-! ## Square root and arctangent to 2 ulp (10 R267) -/

/-- √x of a positive finite value: a close value. -/
def sqrtApx (m : Nat) (e : Int) : Num :=
  let (m, e) := if e % 2 = 0 then (m, e) else (2 * m, e - 1)
  .fin false (isqrt (m * 2 ^ 256)) (e / 2 - 128)

/-- √x in FP32, within 2 ulp where it is not exact. -/
def f32sqrt (a : Word32) : Word32 :=
  BitVec.ofNat 32 (match fp32.decode a.toNat with
    | .nan => fp32.nan
    | .inf n => if n then fp32.nan else fp32.infMag
    | .fin n m e => if m = 0 then fp32.withSign n 0 else if n then fp32.nan else fp32.approxCode 18 a.toNat 2 (sqrtApx m e))

/-- Taylor terms of the arctangent of `t` in units of 2⁻²⁵⁶: `k` the degree, `t` the power. -/
def atanTaylor (t2 : Nat) : Nat → Nat → Int → Int → Int
  | 0, _, _, acc => acc
  | n + 1, k, p, acc =>
    atanTaylor t2 n (k + 2) (-(p * t2 / 2 ^ 256)) (acc + p / ((k : Nat) : Int))

/-- arctan t for 0 ≤ t ≤ 1 in units of 2⁻²⁵⁶: the argument halved three times. -/
def atanFx (t : Nat) : Nat :=
  let half := fun (t : Nat) => t * 2 ^ 256 / (2 ^ 256 + isqrt (2 ^ 512 + t * t))
  let u := half (half (half t))
  (8 * atanTaylor (u * u / 2 ^ 256) 60 1 u 0).toNat

/-- The angle of (x, y) with y ≥ 0 and not both 0, as integers of one scale: a close value in units of 2⁻²⁵⁶. -/
def angleFx (x : Int) (y : Nat) : Nat :=
  let a := x.natAbs
  let base := if y ≤ a then atanFx (y * 2 ^ 256 / a) else (piFx / 2).toNat - atanFx (a * 2 ^ 256 / y)
  if 0 ≤ x then base else piFx.toNat - base

/-- atan2 in FP32, within 2 ulp; of (0, 0) the spec states no result. -/
def f32atan2 (y x : Word32) : Word32 :=
  match fp32.decode y.toNat, fp32.decode x.toNat with
  | .fin n1 m1 e1, .fin n2 m2 e2 =>
    if m1 = 0 ∧ m2 = 0 then Config.freeWord 0
    else
      let e := min e1 e2
      let yi := m1 * 2 ^ (e1 - e).toNat
      let xi : Int := (m2 * 2 ^ (e2 - e).toNat : Nat)
      let tiny := m1 != 0 && !n2 && decide (yi * 2 ^ 100 < xi.natAbs)
      let close : Num := if tiny then .fin n1 (yi * 2 ^ 256 / xi.natAbs) (-256)
        else .fin n1 (angleFx (if n2 then -xi else xi) yi) (-256)
      if m1 = 0 ∧ !n2 then BitVec.ofNat 32 (fp32.withSign n1 0)
      else BitVec.ofNat 32 (fp32.approxCode 19 (y.toNat * 2 ^ 32 + x.toNat) 2 close)
  | _, _ => BitVec.ofNat 32 fp32.nan

/-! ## FP32 vocabulary -/

def f32min (a b : Word32) : Word32 := f32op (fun x y => x.minMax false y) a b
def f32abs (a : Word32) : Word32 := a &&& 0x7FFFFFFF
def f32sq (a : Word32) : Word32 := f32mul a a
def f32gt (a b : Word32) : Bool := (fp32.decode b.toNat).lt (fp32.decode a.toNat)
def f32two : Word32 := 0x40000000
def f32quarter : Word32 := 0x3E800000
def f32tenth : Word32 := 0x3DCCCCCD
def f32pi : Word32 := 0x40490FDB
def f32tau : Word32 := 0x40C90FDB

/-- An angle difference held to one turn. -/
def f32wrap (a : Word32) : Word32 :=
  if f32gt a f32pi then f32sub a f32tau else if f32gt (f32sub 0 f32pi) a then f32add a f32tau else a

/-- The length of a vector. -/
def f32len (x y : Word32) : Word32 := f32sqrt (f32add (f32sq x) (f32sq y))

/-! ## The sequence of R267 -/

/-- The limits table (10 R266). -/
structure Lim where
  vmax : Word32
  amax : Word32
  dmax : Word32
  jmax : Word32
  alat : Word32
  kmax : Word32
  krmax : Word32
  v0 : Word32
  a0 : Word32
  devmax : Word32
  deriving DecidableEq, Repr

/-- The limits from ten words. -/
def limOf (ws : List Nat) : Lim :=
  let g := fun i => BitVec.ofNat 32 (ws.getD i 0)
  { vmax := g 0, amax := g 1, dmax := g 2, jmax := g 3, alat := g 4, kmax := g 5, krmax := g 6, v0 := g 7, a0 := g 8
    devmax := g 9 }

/-- Whether a limits table of 16 words is refused: a value not finite or negative, or padding that is not zero. -/
def badLim (ws : List Nat) : Bool :=
  ((ws.take 10).any fun w => !finite32 w || (decide (2 ^ 31 < w))) || (ws.drop 10).any (· != 0)

/-- A point of a path: X, Y, and Z of its pose. -/
structure PPt where
  x : Word32
  y : Word32
  z : Word32
  deriving DecidableEq, Repr

/-- One smoothing pass. -/
def smooth (ps : List PPt) : List PPt :=
  (List.range ps.length).map fun i =>
    let d : PPt := { x := 0, y := 0, z := 0 }
    let p := ps.getD i d
    if i = 0 ∨ i + 1 = ps.length then p
    else
      let a := ps.getD (i - 1) d
      let b := ps.getD (i + 1) d
      let f := fun (l r m : Word32) => f32add m (f32mul f32quarter (f32sub (f32add l r) (f32mul f32two m)))
      { p with x := f a.x b.x p.x, y := f a.y b.y p.y }

/-- `n` smoothing passes. -/
def smoothN : Nat → List PPt → List PPt
  | 0, ps => ps
  | n + 1, ps => smoothN n (smooth ps)

/-- Hold a point's displacement to DEVMAX; whether it was held. -/
def holdDev (l : Lim) (o p : PPt) : PPt × Bool :=
  let dx := f32sub p.x o.x
  let dy := f32sub p.y o.y
  let d := f32len dx dy
  if f32gt d l.devmax then
    ({ p with x := f32add o.x (f32div (f32mul dx l.devmax) d), y := f32add o.y (f32div (f32mul dy l.devmax) d) }, true)
  else (p, false)

/-- The path after smoothing and holding; the end points stay. -/
def holdAll (l : Lim) (os ps : List PPt) : List (PPt × Bool) :=
  (List.range ps.length).map fun i =>
    let d : PPt := { x := 0, y := 0, z := 0 }
    if i = 0 ∨ i + 1 = ps.length then (ps.getD i d, false) else holdDev l (os.getD i d) (ps.getD i d)

/-- The distance between two points. -/
def ppLen (a b : PPt) : Word32 := f32len (f32sub b.x a.x) (f32sub b.y a.y)

/-- The points without those that a step of zero length leads to (10 R267; log entry 16). -/
def dropRepeats : List PPt → List PPt
  | [] => []
  | [p] => [p]
  | p :: q :: rest =>
    match dropRepeats (q :: rest) with
    | [] => [p]
    | r :: rs => if ppLen p r &&& 0x7FFFFFFF = 0 then p :: rs else p :: r :: rs

/-- Element `i` of a list of FP32 values. -/
def fAt (l : List Word32) (i : Nat) : Word32 := l.getD i 0

/-- Running sums: s[0] = 0, s[i] = s[i−1] + the i-th step. -/
def runSums (acc : Word32) : List Word32 → List Word32
  | [] => [acc]
  | d :: ds => acc :: runSums (f32add acc d) ds

/-- The path's arc lengths, yaws and curvatures, and the limits of speed (10 R267). -/
structure PathGeo where
  ps : List PPt
  s : List Word32
  yaw : List Word32
  k : List Word32
  vb : List Word32
  deriving DecidableEq, Repr

/-- The yaws of a path of at least two points. -/
def pathYaw (ps : List PPt) : List Word32 :=
  let n := ps.length
  (List.range n).map fun i =>
    let d : PPt := { x := 0, y := 0, z := 0 }
    let a := ps.getD (if i = 0 then 0 else i - 1) d
    let b := ps.getD (if i + 1 < n then i + 1 else i) d
    f32atan2 (f32sub b.y a.y) (f32sub b.x a.x)

/-- The curvatures: k[0] = k[1] and k[n − 1] = k[n − 2]; with two points none is defined (a free value). -/
def pathCurv (s yaw : List Word32) : List Word32 :=
  let n := yaw.length
  let k := fun i => f32div (f32wrap (f32sub (fAt yaw (i + 1)) (fAt yaw (i - 1)))) (f32sub (fAt s (i + 1)) (fAt s (i - 1)))
  (List.range n).map fun i =>
    if n ≤ 2 then Config.freeWord 1 else if i = 0 then k 1 else if i + 1 = n then k (n - 2) else k i

/-- The speed limits vc. -/
def pathVc (l : Lim) (s k : List Word32) : List Word32 :=
  let n := k.length
  (List.range n).map fun i =>
    if i + 1 = n then 0
    else
      let dk := f32div (f32abs (f32sub (fAt k (i + 1)) (fAt k i))) (f32sub (fAt s (i + 1)) (fAt s i))
      f32min (f32min l.vmax (f32sqrt (f32div l.alat (f32abs (fAt k i))))) (f32div l.krmax dk)

/-- The backward pass vb over (vc, s), last point first. -/
def backPass (l : Lim) : List (Word32 × Word32) → List Word32
  | [] => []
  | [_] => [0]
  | p :: q :: rest =>
    let bs := backPass l (q :: rest)
    let nb := bs.headD 0
    f32min p.1 (f32sqrt (f32add (f32sq nb) (f32mul (f32mul f32two l.dmax) (f32sub q.2 p.2)))) :: bs

/-- The geometry of a path. -/
def pathGeo (l : Lim) (ps : List PPt) : PathGeo :=
  let s := runSums 0 (List.zipWith ppLen ps (ps.drop 1))
  let yaw := pathYaw ps
  let k := pathCurv s yaw
  { ps := ps, s := s, yaw := yaw, k := k, vb := backPass l ((pathVc l s k).zip s) }

/-- The forward pass: speeds, from the previous speed, the acceleration so far and the points still to come as
(vb, step). -/
def forwardPass (l : Lim) (v a : Word32) : List (Word32 × Word32) → List Word32
  | [] => [v]
  | p :: rest =>
    let floor_ := if f32gt f32tenth v then f32tenth else v
    let a1 := f32min l.amax (f32add a (f32div (f32mul l.jmax p.2) floor_))
    let sq := f32add (f32sq v) (f32mul (f32mul f32two a1) p.2)
    let v1 := f32min p.1 (f32sqrt (if f32gt 0 sq then 0 else sq))
    let a2 := f32div (f32sub (f32sq v1) (f32sq v)) (f32mul f32two p.2)
    v :: forwardPass l v1 a2 rest

/-- The steps of a list of running sums. -/
def stepsOf (s : List Word32) : List Word32 := List.zipWith (fun a b => f32sub b a) s (s.drop 1)

/-- The times from speeds and steps. -/
def runTimes (v s : List Word32) : List Word32 :=
  runSums 0 ((List.range (s.length - 1)).map fun i =>
    f32div (f32mul f32two (f32sub (fAt s (i + 1)) (fAt s i))) (f32add (fAt v i) (fAt v (i + 1))))

/-- An output point: X, Y, Z, YAW, V, A, K. -/
abbrev OutPt := List Word32

/-- The segment that holds time `t`: the last `i` with t[i] ≤ t. -/
def segOf (ts : List Word32) (t : Word32) : Nat :=
  ((List.range (ts.length - 1)).filter fun i => !f32gt (fAt ts i) t).foldl Nat.max 0

/-- The output point at time `t` (10 R267). -/
def outPoint (g : PathGeo) (v ts : List Word32) (t : Word32) : OutPt :=
  let n := g.ps.length
  let d : PPt := { x := 0, y := 0, z := 0 }
  if f32gt (fAt ts (n - 1)) t then
    let i := segOf ts t
    let ds := f32sub (fAt g.s (i + 1)) (fAt g.s i)
    let u := f32sub t (fAt ts i)
    let a := f32div (f32sub (f32sq (fAt v (i + 1))) (f32sq (fAt v i))) (f32mul f32two ds)
    let s := f32add (f32mul (fAt v i) u) (f32mul (f32mul 0x3F000000 a) (f32sq u))
    let q := f32div s ds
    let mix := fun (x y : Word32) => f32add x (f32mul q (f32sub y x))
    let p := g.ps.getD i d
    let r := g.ps.getD (i + 1) d
    [mix p.x r.x, mix p.y r.y, mix p.z r.z, mix (fAt g.yaw i) (fAt g.yaw (i + 1)), f32add (fAt v i) (f32mul a u), a,
     mix (fAt g.k i) (fAt g.k (i + 1))]
  else
    let p := g.ps.getD (n - 1) d
    [p.x, p.y, p.z, fAt g.yaw (n - 1), 0, 0, fAt g.k (n - 1)]

/-- An alternate: STATUS, FLAGS, TSTOP, SEND and the output points. -/
structure Alternate where
  status : Nat
  flags : Nat
  tstop : Word32
  send : Word32
  pts : List OutPt
  deriving DecidableEq, Repr

/-- An alternate that is not OK. -/
def Alternate.not_ (status flags : Nat) : Alternate := { status := status, flags := flags, tstop := 0, send := 0, pts := [] }

/-- Whether two consecutive output points differ in A by more than JMAX × 0.1 s. -/
def jerky (l : Lim) : List OutPt → Bool
  | p :: q :: rest => f32gt (f32abs (f32sub (q.getD 5 0) (p.getD 5 0))) (f32mul l.jmax f32tenth) || jerky l (q :: rest)
  | _ => false

/-- The alternate of a path of poses (10 R267). -/
def alternateOf (l : Lim) (nit : Nat) (os : List PPt) : Alternate :=
  if os.length < 2 then Alternate.not_ 2 0
  else
    let held := holdAll l os (smoothN nit os)
    let cf := if held.any (·.2) then 2 else 0
    let g := pathGeo l (dropRepeats (held.map (·.1)))
    if (g.k.any fun k => f32gt (f32abs k) l.kmax) || f32gt l.v0 (fAt g.vb 0) then Alternate.not_ 2 cf
    else
      let v := forwardPass l l.v0 l.a0 ((g.vb.drop 1).zip (stepsOf g.s))
      let ts := runTimes v g.s
      let pts := (List.range 64).map fun j => outPoint g v ts (f32mul f32tenth (f32ofNat j))
      { status := 1, flags := cf + (if jerky l pts then 1 else 0), tstop := fAt ts (g.ps.length - 1)
        send := fAt g.s (g.ps.length - 1), pts := pts }

/-! ## PROFILE (10 R265 to R269) -/

/-- NALT, NIT, NBOX and FINAL. -/
def Job.nalt (j : Job) : Nat := df j.desc 7 2 0
def Job.nit (j : Job) : Nat := df j.desc 7 7 4
def Job.nboxP (j : Job) : Nat := df j.desc 7 11 8
def Job.final (j : Job) : Bool := df j.desc 0 24 24 == 1

/-- The registration of a PROFILE job with FINAL = 1 (10 R270), its alternates as they were written. -/
def State.regOf (s : State) (j : Job) : FinReg :=
  { frame := j.f, tag := j.tag, req := j.req, unk := df j.desc 0 27 27 == 1, boxes := cutBoxes j.nboxP (j.aux.drop 16)
    alts := (List.range j.nalt).map fun r =>
      let a := (j.ref 3).addr + 1856 * r
      (s.loadLE (a + 16) 1, (List.range 64).map fun p =>
        let b := a + 64 + 28 * p
        (s.loadLE b 4, s.loadLE (b + 4) 4, s.loadLE (b + 12) 4, s.loadLE (b + 8) 4)) }

/-- Registration at the completion of the job, before P − 50 µs of its frame (10 R270): the registration of the present frame,
or, by a job that runs ahead, that of the next one, which its tick brings into force. -/
def State.registerFinal (s : State) (j : Job) : State :=
  if !j.final then s
  else if j.f ≠ s.epoch then { s with ccu := { s.ccu with finNext := some (s.regOf j) } }
  else if s.ccu.fin.isNone ∧ s.tbu.ns < s.pubNs - 50000 then { s with ccu := { s.ccu with finReg := some (s.regOf j) } }
  else s

/-- The PROFILE job begins: limits and footprint are read and tested. -/
def State.profileStart (s : State) (j : Job) (chk : ReadCheck) : State :=
  let j := if j.phase = .taken then j.begin_ j.nalt else j
  if !s.readsLive j then s.staleEnd j
  else
    let lim := (j.ref 2).addr
    let foot := (j.ref 4).addr
    let nb := if j.final then j.nboxP else 0
    (s.setJob j).unitRead j lim 64 chk fun t => t.unitRead j foot (32 * nb) chk fun t =>
      let ws := (List.range 16).map fun i => t.loadLE (lim + 4 * i) 4
      let bs := t.footWords foot nb
      if badLim ws || badFootprint (cutBoxes nb bs) then
        (t.captureLine pgPRU .unsupportedOpcode 0 160).setJob { j with fail := some .unsupportedOpcode }
      else
        let j := { j with aux := ws ++ bs, tries := 0 }
        if j.nalt = 0 then (t.setJob j).registerFinal j else t.setJob j

/-- The epoch of the candidate's result record: that of the frame's registry, where it holds the candidate. -/
def State.candEpoch (s : State) (f : Word32) (c : Nat) : Word32 :=
  match s.ccu.cands.find? fun x => (s.job x.tag).any fun j => j.f == f && j.baseIdx + x.idx == c with
  | some x => x.mepoch
  | none => Config.freeWord s.draws

/-- A trajectory record (10 Table 8); of an alternate that is not OK the spec states neither TSTOP, SEND nor points, which
are free bytes. -/
def trajBytes (f e : Word32) (cand key n : Nat) (a : Alternate) : List Byte :=
  let head := toLE 4 f.toNat ++ toLE 4 e.toNat ++ toLE 4 cand ++ toLE 4 key ++ toLE 1 a.status ++ toLE 1 a.flags ++
    toLE 2 (if a.status = 1 then 64 else 0)
  if a.status = 1 then
    head ++ toLE 4 a.tstop.toNat ++ toLE 4 a.send.toNat ++ List.replicate 36 0 ++
      a.pts.flatMap fun p => p.flatMap fun w => toLE 4 w.toNat
  else
    head ++ (List.range 8).map (Config.freeByte n) ++ List.replicate 36 0 ++
      (List.range 1792).map fun i => Config.freeByte n (8 + i)

/-- The points of a candidate record. -/
def State.candPts (s : State) (a : Nat) : List PPt :=
  if 64 < s.npose a then []
  else (s.candPoses a).map fun p => { x := BitVec.ofNat 32 p.1, y := BitVec.ofNat 32 p.2.1, z := BitVec.ofNat 32 p.2.2.2 }

/-- Whether a candidate's record lies within CAND's extent. -/
def Job.candIn (j : Job) (c : Nat) : Bool := decide ((j.ref 1).off + 1088 * c + 1088 ≤ (j.ref 1).ent.size)

/-- The alternate of rank entry `w`. -/
def State.alternate (s : State) (j : Job) (w : Nat) : Alternate :=
  if (fp32.decode (w % 2 ^ 32)).isNan then Alternate.not_ 0 0
  else if !j.candIn (w / 2 ^ 32) then Alternate.not_ 2 0
  else alternateOf (limOf j.aux) j.nit (s.candPts ((j.ref 1).addr + 1088 * (w / 2 ^ 32)))

/-- One alternate is written. -/
def State.altWrite (s : State) (j : Job) (w : Nat) : State :=
  let a := s.alternate j w
  let bs := trajBytes j.f (s.candEpoch j.f (w / 2 ^ 32)) (w / 2 ^ 32) (w % 2 ^ 32) s.draws a
  s.unitWrite j ((j.ref 3).addr + 1856 * j.step) 1856 fun s =>
  let t := ((s.storeAt ((j.ref 3).addr + 1856 * j.step) bs).draw).setJob (j.unitDone 1)
  let t := if a.status = 2 then t.fadd pgPRU Reg.PRU_INFEAS_COUNT 1 else t
  let t := if a.flags % 2 = 1 then t.fadd pgPRU Reg.PRU_JERK_COUNT 1 else t
  if j.step + 1 = j.total then (t.fwrap pgPRU Reg.PRU_JOBS_COUNT 1).registerFinal j else t

/-- PROFILE_ALTERNATE_DONE of the job the Profile Unit runs. -/
def State.altDone (s : State) (j : Job) (chk : ReadCheck) : State :=
  if !s.readsLive j then s.staleEnd j
  else
    let ra := (j.ref 0).addr + 8 * j.step
    s.unitRead j ra 8 chk fun t =>
      let w := t.loadLE ra 8
      let c := w / 2 ^ 32
      let n := if (fp32.decode (w % 2 ^ 32)).isNan || !j.candIn c then 0 else 1088
      t.unitRead j ((j.ref 1).addr + 1088 * c) n chk fun u => u.altWrite j w

/-- PROFILE: the job taken by the Profile Unit begins; a read that failed is tried again. -/
def execProfile (tag : Nat) (chk : ReadCheck) (s : State) : Out :=
  onAwake s true (s.withJob tag fun j =>
    if j.opc = .profile ∧ j.fail = none ∧ j.aux = [] ∧ (j.phase = .taken ∨ j.phase = .running) then
      s.profileStart j chk
    else s)

/-- PROFILE_ALTERNATE_DONE. -/
def execProfileAlternateDone (chk : ReadCheck) (s : State) : Out :=
  onAwake s true (match s.engineJob .pru 0 with
    | some j => if j.aux ≠ [] then s.altDone j chk else s
    | none => s)

end Sys2Proof.Machine
end

