-- ==== Sys2Proof/Machine/SelfTest.lean ====
section
/-!
DEFINITION. SelfTest.lean: SELFTEST jobs and their chunks (12 R316 to R320).
-/

namespace Sys2Proof.Machine

open Sys2Proof

/-! ## Chunks (12 R316, R317) -/

/-- The duration of a chunk in nanoseconds (12 Table 3). -/
def chunkNs (kind chunk : Nat) : Nat :=
  match kind, chunk with
  | 0, 0 => 140000
  | 0, 1 => 90000
  | 0, _ => 117000
  | 1, 0 => 60000
  | 1, _ => 80000
  | 2, _ => 40000
  | _, _ => 20000

/-- The Lantern of a target. -/
def tgtLantern (kind tgt : Nat) : Nat := match kind with | 0 => tgt / 64 | 1 => tgt / 8 | _ => tgt

/-- Whether `ns` fit in the rest of the KIND 1 window that a Lantern's group is in. -/
def State.testWindow (s : State) (n ns : Nat) : Option Bool :=
  match s.window (s.groupOf n) with
  | some (st, len, _, kind) => if kind = 1 then some (decide (s.frameNs + ns ≤ (st + len) * 1000)) else none
  | none => none

/-- Whether no KIND 1 window of a Lantern's group follows in this frame. -/
def State.lastTestWindow (s : State) (n : Nat) : Bool :=
  (s.sched (s.groupOf n)).all fun w => w.2.2.2 != 1 || decide (w.1 * 1000 ≤ s.frameNs)

/-- The time a chunk takes from its start, the clearing of a Wick included. -/
def State.chunkTime (s : State) (kind tgt chunk : Nat) : Nat :=
  chunkNs kind chunk + (if kind = 0 ∧ (s.wick tgt).clears 3 then s.lclkNs (tgt / 64) 1024 else 0)

/-- Whether a target is free to take a chunk. -/
def State.targetIdle (s : State) (kind tgt : Nat) : Bool :=
  match kind with
  | 0 => (s.wick tgt).st == .idle
  | 1 => (s.sconce tgt).sorter.isEmpty && (s.sconce tgt).sampler.isEmpty && s.cmbGroups tgt == 0
  | 2 => s.wicks.all fun x => lanternOf x.1 != tgt || x.2.apw.isNone
  | _ =>
    match tgt with
    | 0 => (List.range 8).all fun k => (s.inPlace .copy k).isNone
    | 1 => (s.inPlace .ccu 0).isNone && s.ccu.pub.isNone && s.ccu.pipes.isEmpty &&
        !(s.frm.tickAt.isSome && decide (s.planNs ≤ s.tbu.ns) && decide (s.tbu.ns < s.pubNs))
    | 2 => (s.inPlace .pru 0).isNone
    | _ => (s.inPlace .xcu 0).isNone

/-- Whether a target cannot run chunks: a quarantined Wick, or a unit of a Lantern out of service (log entry 17). -/
def State.targetOut (s : State) (kind tgt : Nat) : Bool :=
  match kind with
  | 0 => !s.wickInService tgt
  | 1 => !s.lanternUp (tgt / 8)
  | 2 => !s.lanternUp tgt
  | _ => false

/-- Whether a chunk may start, and whether the window refuses it. -/
def State.chunkStart (s : State) (kind tgt chunk : Nat) : Bool × Bool :=
  if kind = 3 then (s.targetIdle kind tgt, false)
  else match s.testWindow (tgtLantern kind tgt) (s.chunkTime kind tgt chunk) with
    | some true => (s.targetIdle kind tgt && s.fget pgPWR Reg.PWR_CTRL_STATE == 0, false)
    | some false => (false, true)
    | none => (false, false)

/-! ## The job (12 R318, R320) -/

/-- KIND of a SELFTEST. -/
def Job.stKind (j : Job) : Nat := df j.desc 2 1 0

/-- The address of the record of a chunk: targets in ascending order, the chunks of each in ascending order. -/
def Job.stAddr (j : Job) (tgt chunk : Nat) : Nat :=
  let ts := stTargets j.desc
  let cs := stSelected j.desc
  (j.ref 0).addr + 16 * ((ts.idxOf tgt) * cs.length + cs.idxOf chunk)

/-- A result record (12 R320): 0 PASS, 1 FAIL, 2 SKIPPED. -/
def stRecord (tgt kind chunk res : Nat) (sig epoch : Word32) : List Byte :=
  toLE 2 tgt ++ toLE 1 kind ++ toLE 1 chunk ++ toLE 1 res ++ [0, 0, 0] ++ toLE 4 sig.toNat ++ toLE 4 epoch.toNat

/-- The job with a target replaced. -/
def Job.setTgt (j : Job) (t : StTarget) : Job := { j with sts := j.sts.map fun x => if x.tgt = t.tgt then t else x }

/-- A target's chunks are skipped: every record is written; the signature of a chunk that did not run is free. -/
def State.skipTarget (s : State) (tag : Nat) (t : StTarget) : State :=
  s.withJob tag fun j =>
    s.unitWrite j (j.stAddr t.tgt (t.left.headD 0)) (16 * t.left.length) fun s =>
      let u := t.left.foldl (fun u c =>
        u.storeAt (j.stAddr t.tgt c) (stRecord t.tgt j.stKind c 2 (Config.freeWord (u.draws + c)) u.epoch)) s
      ({ u with draws := u.draws + 4 }).setJob ((j.unitDone t.left.length).setTgt { t with left := [] })

/-- A target starts its next chunk. -/
def State.beginChunk (s : State) (tag : Nat) (t : StTarget) : State :=
  s.withJob tag fun j =>
    let u := s.setJob (j.unitStarts.setTgt
      { t with running := true, epoch := s.epoch })
    if j.stKind = 0 then
      let x := u.wick t.tgt
      let u := if x.clears 3 then u.zero (padBase t.tgt) padSize else u
      u.setWick t.tgt { x with
        st := .testing, used := true, part := 3
        sregs := if x.clears 3 then [] else x.sregs, vregs := if x.clears 3 then [] else x.vregs
        pregs := if x.clears 3 then [] else x.pregs, tiles := if x.clears 3 then [] else x.tiles }
    else u

/-- One target of a job takes a turn: it is skipped, starts its next chunk, or is refused by the last window. -/
def State.turnTarget (s : State) (tag : Nat) (t : StTarget) : State :=
  match s.job tag, t.left with
  | some j, c :: _ =>
    if t.running then s
    else if s.targetOut j.stKind t.tgt then s.skipTarget tag t
    else
      let r := s.chunkStart j.stKind t.tgt c
      if r.1 then s.beginChunk tag t
      else if r.2 && s.stKinds.contains j.stKind && s.lastFrame && s.lastTestWindow (tgtLantern j.stKind t.tgt) && !s.covered j.stKind t.tgt then s.lapse
      else s
  | _, _ => s

/-- The targets of a job take their turns. -/
def State.turnTargets (s : State) (tag : Nat) (ts : List StTarget) : State := ts.foldl (fun u t => u.turnTarget tag t) s

/-- A placed SELFTEST begins. -/
def Job.stBegin (j : Job) : Job :=
  let ts := stTargets j.desc
  let cs := stSelected j.desc
  { j.list (ts.length * cs.length) with
    sts := if cs = [] then [] else ts.map fun t => { tgt := t, left := cs, running := false, epoch := 0 } }

/-- What a chunk leaves of its target's storage: undefined content, as free values (12 R317). The Combine unit, a Sampler, the APW,
the copy engine, the Profile Unit and the XCU hold nothing while they are idle (log entry 17). -/
def State.destroy (s : State) (kind tgt chunk : Nat) : State :=
  let d := s.draws
  let s := { s with draws := s.draws + 65536 }
  match kind, chunk with
  | 0, 0 =>
    s.setWick tgt ((s.wick tgt).undefTiles d)
  | 0, 1 =>
    s.setWick tgt { (s.wick tgt).undefRegs d with image := none, sbuf := [] }
  | 0, _ =>
    (List.range 1024).foldl (fun t i =>
      t.store (padBase tgt + 1024 * i + (if chunk = 2 then 0 else 512))
        ((List.range 512).map fun k => Config.freeByte d (512 * i + k))) s
  | 1, 1 =>
    (List.range 8).foldl (fun t g =>
      if t.segOwned tgt g 3 then
        t.store (sbufBase tgt + 0x80000 * g) ((List.range 0x80000).map fun k => Config.freeByte d (0x80000 * g + k))
      else t) s
  | 3, _ => if tgt = 1 then ({ s with ccu := s.ccu.undef d }).mapRegs else s
  | _, _ => s

/-- The aggregator line of a target that is no Wick. -/
def targetLine (kind tgt : Nat) : Nat :=
  match kind with
  | 1 => lineScn tgt
  | 2 => lineApw tgt
  | _ => match tgt with
    | 0 => 161
    | 1 => 137
    | 2 => 160
    | _ => 154

/-- A chunk fails: a Wick is quarantined, any other target pulses its line; the first failure names the job's ERR. -/
def State.chunkFail (s : State) (tag kind tgt : Nat) : State :=
  let t := if kind = 0 then s.quarantine tgt else s.pulse (targetLine kind tgt)
  t.withJob tag fun j =>
    if j.err = .ok then t.setJob { j with err := if kind = 0 then .unitQuarantined else .dataErrorDetected } else t

/-- SELFTEST_CHUNK_DONE. -/
def State.chunkDone (s : State) (j : Job) (t : StTarget) (c : Nat) (sig : Word32) (same : Bool) : State :=
  let kind := j.stKind
  s.unitWrite j (j.stAddr t.tgt c) 16 fun s =>
  let u := s.destroy kind t.tgt c
  let u := if kind = 0 then u.setWick t.tgt { u.wick t.tgt with st := .idle } else u
  let u := u.storeAt (j.stAddr t.tgt c) (stRecord t.tgt kind c (if same then 0 else 1) sig t.epoch)
  let u := u.setJob ((j.unitDone 1).setTgt { t with left := t.left.drop 1, running := false })
  let u := u.coverChunk kind t.tgt c
  if same then u else u.chunkFail j.tag kind t.tgt

/-- SELFTEST: the job begins, and each of its targets that is free starts its next chunk where it may. -/
def execSelftest (tag : Nat) (s : State) : Out :=
  onAwake s true (s.withJob tag fun j =>
    if j.opc = .selftest ∧ (j.phase = .placed ∨ j.phase = .running) then
      let j := if j.phase = .placed then j.stBegin else j
      (s.setJob j).turnTargets tag j.sts
    else s)

/-- SELFTEST_CHUNK_DONE. -/
def execSelftestChunkDone (tag tgt chunk : Nat) (sig : Word32) (same : Bool) (s : State) : Out :=
  onAwake s true (s.withJob tag fun j =>
    if j.opc = .selftest ∧ j.phase = .running then
      match j.sts.find? fun t => t.tgt == tgt && t.running && t.left.head? == some chunk with
      | some t => s.chunkDone j t chunk sig same
      | none => s
    else s)

end Sys2Proof.Machine
end

