-- ==== Sys2Proof/Machine/Tbu.lean ====
section
/-!
DEFINITION. Tbu.lean: the servo of the time base: increments, offsets, Sync and Announce, holdover, the alarm
(17 R414 to R424).
-/

namespace Sys2Proof.Machine

open Sys2Proof

/-- TBU_STATE.STATE. -/
def State.tbuSt (s : State) : Nat := s.fget pgTBU Reg.TBU_STATE_STATE

/-- Whether an increment in units of 2⁻³² ns lies within ±1,000 ppm of 4.0 ns (17 R415). -/
def incrOk (i : Nat) : Bool := decide (3 * 2 ^ 32 + 0xFEF9DB23 ≤ i) && decide (i ≤ 4 * 2 ^ 32 + 0x010624DD)

/-- Who may steer the counter (17 R417): Flint, or PF0, as OWNER says. -/
def State.servoOwner (s : State) (w : Writer) : Bool :=
  match w with
  | .flint => !s.flag pgTBU Reg.TBU_SERVO_OWNER
  | .host _ fn => s.flag pgTBU Reg.TBU_SERVO_OWNER && fn == 0
  | .jtag => false

/-- A write of INCR or ADJ takes effect only from the owner and outside HOLDOVER; otherwise it is discarded with the code
of R417 or R419. -/
def State.servoWrite (s : State) (w : Writer) (t : State) : State :=
  if !s.servoOwner w then s.capture pgTBU .partitionViolation 0
  else if s.tbuSt = 2 then s.capture pgTBU .timebaseHoldover 0
  else t

/-- A write of TBU_INCR_FRAC is staged (17 R415). -/
def State.incrFrac (s : State) (w : Writer) (v : Word32) : State :=
  s.servoWrite w { s with tbu := { s.tbu with fracStage := v.toNat } }

/-- A write of TBU_INCR_INT commits it with the staged fraction at the next edge, or is discarded out of range; a
grandmaster's increment stays (17 R415, R418). -/
def State.incrInt (s : State) (w : Writer) (v : Word32) : State :=
  let i := v.toNat % 256 * 2 ^ 32 + s.tbu.fracStage
  s.servoWrite w <|
    if !incrOk i then s.capture pgTBU .countExceedsLimit 0
    else if s.flag pgTBU Reg.TBU_SERVO_GM then s
    else { s with tbu := { s.tbu with incrNext := some i } }

/-- The offset of a write of TBU_ADJ_NS: signed seconds and nanoseconds (17 R420). -/
def State.adjOffset (s : State) (v : Word32) : Int :=
  (s.reg pgTBU 0 0x058).toInt * 1000000000 + v.toInt

/-- A write of TBU_ADJ_NS commits the offset as a slew or as a step pending for the next tick; it replaces any slew or step
before it (17 R420). -/
def State.adjCommit (s : State) (w : Writer) (v : Word32) : State :=
  s.servoWrite w <|
    if s.reg pgTBU 0 0x058 = 0 ∧ v.toInt.natAbs ≤ 1000 then
      let s := { s with tbu := { s.tbu with slew := v.toInt * (nsUnit : Nat), step := none } }
      let s := s.fset pgTBU Reg.TBU_STATE_STEP 0
      if v = 0 then (s.fset pgTBU Reg.TBU_STATE_SLEW 0).fset pgTBU Reg.TBU_STATE_STATE 1
      else s.fset pgTBU Reg.TBU_STATE_SLEW 1
    else
      let s := { s with tbu := { s.tbu with slew := 0, step := some (s.adjOffset v * (nsUnit : Nat)) } }
      (s.fset pgTBU Reg.TBU_STATE_SLEW 0).fset pgTBU Reg.TBU_STATE_STEP 1

/-- Entry into HOLDOVER (17 R419). -/
def State.holdover (s : State) : State :=
  let s := { s with tbu := { s.tbu with slew := 0, step := none } }
  let s := (s.fset pgTBU Reg.TBU_STATE_SLEW 0).fset pgTBU Reg.TBU_STATE_STEP 0
  let s := (s.fset pgTBU Reg.TBU_STATE_STATE 2).fadd pgTBU Reg.TBU_HOLDS_COUNT 1
  s.captureLine pgTBU .timebaseHoldover 0 346

/-- The interval of a logMessageInterval in TCLK edges. -/
def syncInterval (l : Int) : Nat := if 0 ≤ l then 250000000 * 2 ^ l.toNat else 250000000 / 2 ^ (-l).toNat

/-- Whether the servo port's link is up. -/
def State.servoPortUp (s : State) : Bool :=
  s.fget (pgETH (s.fget pgTBU Reg.TBU_SERVO_PORT)) Reg.ETH_PORT_RATE != 0

/-- Whether the device is the grandmaster: then no holdover rule applies (17 R418). -/
def State.isGm (s : State) : Bool := s.flag pgTBU Reg.TBU_SERVO_GM

/-- PTP_SYNC (17 R419, R420): the miss count restarts; the first Sync of a holdover starts the recovery. -/
def execPtpSync (e : Nat) (logInt : Int) (s : State) : Out :=
  onAwake s (s.servoPortUp && !s.isGm) <|
    let s := elapse e s
    let s := { s with tbu := { s.tbu with lastSync := some s.now, syncEdges := syncInterval logInt } }
    if s.tbuSt = 2 then s.fset pgTBU Reg.TBU_STATE_STATE 3 else s

/-- PTP_ANNOUNCE (17 R419): another grandmaster than the last puts the time base into HOLDOVER. -/
def execPtpAnnounce (gm : Word64) (s : State) : Out :=
  onAwake s (s.servoPortUp && !s.isGm) <|
    let t := { s with tbu := { s.tbu with gm := some gm } }
    match s.tbu.gm with
    | some g => if g ≠ gm ∧ s.tbuSt ≠ 2 then t.holdover else t
    | none => t

/-- SYNC_TIMEOUT (17 R419): no Sync within MISS intervals of the last; MISS 0 is read as 1. -/
def execSyncTimeout (e : Nat) (s : State) : Out :=
  match s.tbu.lastSync with
  | none => .next s
  | some t =>
    onAwake s (!s.isGm && s.tbuSt != 2 &&
      s.dueNow e (t + Nat.max 1 (s.fget pgTBU Reg.TBU_SERVO_MISS) * s.tbu.syncEdges)) (elapse e s).holdover

/-- SLEW_DONE (17 R420): the edge that adds a slew's remainder. -/
def execSlewDone (e : Nat) (s : State) : Out :=
  onLive s (s.tclkOn && s.tbu.slew != 0 && e == (s.tbu.slew.natAbs + slewStep - 1) / slewStep) (elapse e s)

/-- The alarm time in ns, with the seconds above bit 31 of the counter's (17 R424). -/
def State.alarmNs (s : State) : Nat :=
  (s.tbu.sec / 2 ^ 32 * 2 ^ 32 + (s.reg pgTBU 0 0x074).toNat) * 1000000000 + (s.reg pgTBU 0 0x070).toNat

/-- The alarm fires: ARM clears and the page interrupt is raised. -/
def State.alarmFire (s : State) : State := (s.fset pgTBU Reg.TBU_ALARM_CTRL_ARM 0).event pgTBU

/-- ALARM_FIRE (17 R424). -/
def execAlarmFire (e : Nat) (s : State) : Out :=
  onLive s (s.tclkOn && s.flag pgTBU Reg.TBU_ALARM_CTRL_ARM && s.dueCtr e s.alarmNs) (elapse e s).alarmFire

/-- A pending step is applied at edge 0 of a tick (17 R421): the counter and TBU_NEXT move by it, SEC modulo 2⁴⁸, the step completes, and an
alarm it carries the counter past fires (17 R424). -/
def State.stepApply (s : State) : State :=
  match s.tbu.step with
  | none => s
  | some d =>
    let move := fun (x : Nat) => (((x : Int) + d) % (2 ^ 48 * 1000000000 * nsUnit : Nat)).toNat
    let s := { s with tbu := { s.tbu with ctr := move s.tbu.ctr, next := move s.tbu.next, step := none, stepped := true } }
    let s := ((s.fset pgTBU Reg.TBU_STATE_STEP 0).fset pgTBU Reg.TBU_STATE_STATE 1).fset pgTBU Reg.TBU_STATE_PHASEOK 0
    let s := s.fadd pgTBU Reg.TBU_STEPS_COUNT 1
    if s.flag pgTBU Reg.TBU_ALARM_CTRL_ARM ∧ s.alarmNs ≤ s.tbu.ns then s.alarmFire else s

end Sys2Proof.Machine
end

