-- ==== Sys2Proof/Machine/Dmc.lean ====
section
/-!
DEFINITION. Dmc.lean: rank migration, write CRC and parity alerts, retraining (14 R357, R360, R362; 02 R42).
-/

namespace Sys2Proof.Machine

open Sys2Proof

/-! ## Migration (14 R361, R362) -/

/-- The rank of a channel that is being migrated. -/
def State.retiring (s : State) (c : Nat) : Option Nat := (List.range 2).find? fun r => s.rankSt c r == 3

/-- Whether a line lies on rank `r` of channel `c`, in rank row `w`. -/
def State.onRow (s : State) (c r w l : Nat) : Bool :=
  s.ddrChannel (l * 64) == c && s.ddrRank (l * 64) == r && s.rowIndex (l * 64) == w

/-- The last write of a rank row is acknowledged: lines of the row that failed or were poisoned go over poisoned and are
counted, W advances, and at the end of the rank the spare takes its place; the idle time begins then (14 R363). -/
def State.rowDone (s : State) (c r : Nat) (bad : List Nat) : State :=
  let w := s.fget (pgDMCch c) Reg.DMC_WMARK_ROWS
  let failed := bad.eraseDups.filter fun l => s.onRow c r w l && !s.poison.contains l
  let s := failed.foldl (fun t l => t.storedError (l * 64)) s
  let n := (s.poison.filter fun l => s.onRow c r w l).length
  let s := (List.range n).foldl (fun t _ => (t.fadd (pgDMCch c) Reg.DMC_MIG_POISON_COUNT 1).pulse (211 + 4 * c)) s
  if s.rankSt c r ≠ 3 then s
  else
    let s := s.fset (pgDMCch c) Reg.DMC_WMARK_ROWS (w + 1)
    if w + 1 = s.rankRows then
      ((((s.setRankSt c r 4).setRankSt c (1 - r) 1).captureLine (pgDMCch c) .rankRetired 0 (208 + 4 * c)).readmit .rankRetired).touch
    else s

/-- MIGRATION_ROW_DONE: `bad` lists the line numbers of the row whose check failed twice. -/
def execMigrationRowDone (ch : Nat) (bad : List Nat) (s : State) : Out :=
  onAwake s (decide (ch < 16) && (s.ch ch).training.isNone) (match s.retiring ch with
    | some r => (s.rowDone ch r bad).flow
    | none => s)

/-! ## Alerts (14 R357) -/

/-- DDR_ALERT: the channel stops. -/
def execDdrAlert (ch e : Nat) (s : State) : Out :=
  let t := elapse e s
  onLive s (decide (ch < 16) && !(s.ch ch).alert) (t.setCh ch { t.ch ch with alert := true, alerts := (t.ch ch).alerts ++ [t.now] })

/-- The alert has gone: the commands of its window are replayed; a fourth alert within 1 ms of the first of three that were
replayed retires the ranks that received a command. -/
def State.alertDone (s : State) (c : Nat) (wcrc : Bool) (ranks : List Nat) : State :=
  let x := s.ch c
  let n := x.alerts.length
  if 4 ≤ n ∧ x.alerts.getD (n - 1) 0 - x.alerts.getD (n - 4) 0 ≤ 250000 then
    let s := (s.setCh c { x with alert := false, alerts := [] }).pulse (210 + 4 * c)
    (ranks.eraseDups.filter (· < 2)).foldl (fun t r => t.rankError c r 0 true) s
  else
    let s := s.setCh c { x with alert := false, alerts := x.alerts.drop (n - 3) }
    s.fadd (pgDMCch c) (if wcrc then Reg.DMC_WCRC_RETRY_COUNT else Reg.DMC_CAPAR_RETRY_COUNT) 1

/-- DDR_ALERT_DEASSERT: `ranks` are the ranks that received a command in the alert window. -/
def execDdrAlertDeassert (ch : Nat) (wcrc : Bool) (ranks : List Nat) (s : State) : Out :=
  onLive s (decide (ch < 16) && (s.ch ch).alert) (s.alertDone ch wcrc ranks).flow

/-! ## Retraining (14 R360) -/

/-- When a channel became due: by the drift of its PHY temperature, or by its age. -/
def State.dueAt (s : State) (c : Nat) : Option Nat :=
  let x := s.ch c
  let age := x.trainedAt + s.fget pgDMC Reg.DMC_RETRAIN_INTERVAL * 250000000
  match x.dueSince with
  | some t => some (Nat.min t age)
  | none => if age ≤ s.now then some age else none

/-- Whether a PHY temperature is a drift of DMC_RETRAIN.DRIFT or more from the value at the last training. -/
def State.drifted (s : State) (c temp : Nat) : Bool :=
  let t0 := s.fget (pgDMCch c) Reg.DMC_TRAIN_T_TEMP
  let d := s.fget pgDMC Reg.DMC_RETRAIN_DRIFT
  decide (t0 + d ≤ temp) || decide (temp + d ≤ t0)

/-- The PHY temperature of a channel as it stands now. -/
def State.phyTemp (s : State) (c temp : Nat) : State :=
  let x := s.ch c
  s.setCh c { x with temp := temp, dueSince := if s.drifted c temp then x.dueSince.or (some s.now) else x.dueSince }

/-- Start retraining the lowest-numbered due channel, where 120 µs of the window remain. -/
def State.maintOpen (s : State) : State :=
  let s := { s with frm := { s.frm with maintSeen := true } }
  if s.frameNs + 120000 ≤ (s.frm.maintStart + s.frm.maintLen) * 1000 then
    match (List.range 16).find? fun c => (s.dueAt c).isSome with
    | some c => (s.setCh c { s.ch c with training := some s.now }).fset (pgDMCch c) Reg.DMC_CHSTATE_TRAINING 1
    | none => s
  else s

/-- MAINT_WINDOW_OPEN. -/
def execMaintWindowOpen (e : Nat) (s : State) : Out :=
  onAwake s (s.frm.tickAt.isSome && !s.frm.maintSeen && s.dueCtr e (s.tickNs + s.frm.maintStart * 1000)) (elapse e s).maintOpen

/-- Retraining ends: the new settings count from now; with too small a margin the previous ones stay. -/
def State.retrained (s : State) (c temp : Nat) (good : Bool) : State :=
  let pg := pgDMCch c
  let s := (s.setCh c { s.ch c with training := none }).fset pg Reg.DMC_CHSTATE_TRAINING 0
  if good then
    ((s.setCh c { s.ch c with trainedAt := s.now, temp := temp, dueSince := none, overdue := false }).fset pg
      Reg.DMC_TRAIN_T_TEMP temp).fwrap pg Reg.DMC_RETRAINS_COUNT 1
  else (s.fadd pg Reg.DMC_TRAIN_FAIL_COUNT 1).pulse (209 + 4 * c)

/-- RETRAIN_DONE: at most 120 µs after its start. -/
def execRetrainDone (ch e temp : Nat) (good : Bool) (s : State) : Out :=
  onLive s (match (s.ch ch).training with
    | some t => decide (ch < 16) && decide (s.now + e ≤ t + 30000)
    | none => false) ((elapse e s).retrained ch temp good).flow

/-- RETRAIN_OVERDUE: a due channel has waited 60 s. -/
def execRetrainOverdue (ch e : Nat) (s : State) : Out :=
  let t := elapse e s
  onAwake s (decide (ch < 16) && !(s.ch ch).overdue && (match t.dueAt ch with
    | some k => s.dueNow e (k + 15000000000)
    | none => false)) ((t.setCh ch { t.ch ch with overdue := true }).pulse (209 + 4 * ch))

end Sys2Proof.Machine
end

