-- ==== Sys2Proof/Machine/Links.lean ====
section
/-!
DEFINITION. Links.lean: die links: flits, replay, lanes, width steps, failure; Lanterns that leave service; Reservoir bonds;
the guest port (15 R368 to R387).
-/

namespace Sys2Proof.Machine

open Sys2Proof

/-! ## Modules and their registers -/

/-- The register pages of a link's module, with the offset its registers are moved by (15 R388): one Lantern page for a
Lantern–Chimney module, both Lanterns' pages for a ring link. -/
def linkPages : LinkMod → List (Nat × Nat)
  | .lc n m => [(pgLNK n, 0x20 * (m % 2))]
  | .ring n => [(pgLNK n, 0x40), (pgLNK (ringTo n), 0x60)]
  | .guest => []

/-- Move a field of module 0 to a module. -/
def Fld.at_ (f : Fld) (d : Nat) : Fld := { f with off := f.off + d }

/-- Write a field of every page of a link: the fields of a Lantern's LNK page, or of the guest page. -/
def State.lnkSet (s : State) (k : LinkMod) (f g : Fld) (v : Nat) : State :=
  if k = .guest then s.fset pgGST g v else (linkPages k).foldl (fun t p => t.fset p.1 (f.at_ p.2) v) s

/-- Count in a field of every page of a link. -/
def State.lnkAdd (s : State) (k : LinkMod) (f g : Fld) : State :=
  if k = .guest then s.fadd pgGST g 1 else (linkPages k).foldl (fun t p => t.fadd p.1 (f.at_ p.2) 1) s

/-- Fields of module 0 of a Lantern's LNK page (15 Table 7). -/
def fldLnkState : Fld := ⟨0x040, 2, 0⟩
def fldLnkGroup : Fld := ⟨0x040, 4, 3⟩
def fldLnkSpares : Fld := ⟨0x040, 10, 8⟩
def fldLnkRetLo : Fld := ⟨0x044, 31, 0⟩
def fldLnkRetHi : Fld := ⟨0x048, 31, 0⟩
def fldLnkReplay : Fld := ⟨0x04C, 31, 0⟩
def fldLnkProto : Fld := ⟨0x050, 31, 0⟩
def fldLnkSteps : Fld := ⟨0x054, 15, 0⟩

/-- LNK_STATE.STATE of a link, and its spares in use. -/
def State.linkState (s : State) (k : LinkMod) : Nat :=
  match k with
  | .guest => s.fget pgGST Reg.GST_STATE_STATE
  | k => match linkPages k with
    | p :: _ => s.fget p.1 (fldLnkState.at_ p.2)
    | [] => 0
def State.linkSpares (s : State) (k : LinkMod) : Nat :=
  match k with
  | .guest => s.fget pgGST Reg.GST_STATE_SPARES
  | k => match linkPages k with
    | p :: _ => s.fget p.1 (fldLnkSpares.at_ p.2)
    | [] => 0

/-- Whether a link carries flits: FULL, HALF or QUARTER. -/
def State.linkUp (s : State) (k : LinkMod) : Bool := decide (2 ≤ s.linkState k) && decide (s.linkState k ≤ 4)

/-- The aggregator lines of a link: for a retirement or width step, or for a failure (15 R380). -/
def linkLines (fail : Bool) : LinkMod → List Nat
  | .lc n m => [8 + 16 * n + 11 + m % 2, 272 + 2 * n + m % 2]
  | .ring n => [8 + 16 * n + 13, 8 + 16 * ringTo n + 14]
  | .guest => [if fail then 289 else 288]

/-- The pages that capture a link's errors. -/
def linkErrPages : LinkMod → List Nat
  | .lc n _ => [pgLNK n, pgLNKC]
  | .ring n => [pgLNK n, pgLNK (ringTo n)]
  | .guest => [pgGST]

/-- A retirement, width step or failure pulses the link's lines and is recorded in the lifetime log (15 R380). -/
def State.linkEvent (s : State) (k : LinkMod) (fail : Bool) (kind v : Nat) : State :=
  let s := (linkLines fail k).foldl (fun t l => t.pulse l) s
  { s with flog := s.flog ++ [(kind, 64 * linkKey k + v)] }

/-! ## Lanterns that leave service (15 R382) -/

/-- A job on an engine of a Sconce that leaves service runs again elsewhere while RETRY allows. -/
def State.scnJobLost (s : State) (j : Job) : State :=
  if j.tries < j.retry then (s.setJob { j with phase := .placed, tries := j.tries + 1, attempts := j.attempts + 1 }).trace 7 0 1
  else (s.setJob { j with fail := some .recomputeExhausted }).exhausted j.part

/-- The Sconces of a Lantern drop their requests. -/
def State.sconceLost (s : State) (k : Nat) : State :=
  let c := s.sconce k
  let s := s.setSconce k { c with sorter := [], sampler := [] }
  ((c.sorter.filter fun r => r.wick.isNone).map (·.tag) ++ c.sampler).foldl (fun t g =>
    t.withJob g fun j => if j.phase = .running then t.scnJobLost j else t) s

/-- The requests of a Regulator that a lost place ends. -/
def State.reqsLost (s : State) (p : Req → Bool) : State :=
  let lost := s.rgl.reqs.filter p
  lost.foldl (fun t r => (t.dropReq r.id).emit (.memErr Err.dataErrorDetected.code)) s

/-- Whether a request goes to the memories of Lantern `n`. -/
def State.toLantern (s : State) (n : Nat) (r : Req) : Bool :=
  match s.region r.addr with
  | .reservoir k => k == n
  | .pad w => lanternOf w == n
  | .sbuf k => k / 8 == n
  | _ => false

/-- Whether a request meets Lantern `n`: it comes from its port or goes to its memories. -/
def State.meetsLantern (s : State) (n : Nat) (r : Req) : Bool := r.port == n || s.toLantern n r

/-- Whether a request is in flight on the ring link of Lantern `n`: between that Lantern and the next (01 R21). -/
def State.onRing (s : State) (n : Nat) (r : Req) : Bool :=
  r.out && ((r.port == n && s.toLantern (ringTo n) r) || (r.port == ringTo n && s.toLantern n r))

/-- A Lantern leaves service: its bit of LNK_INSVC clears, requests in flight and units on it end with
DATA_ERROR_DETECTED and are run again elsewhere, jobs that can no longer be placed end, and admission runs again. -/
def State.lanternOut (s : State) (n : Nat) : State :=
  if !s.lanternUp n then s
  else
    let m := s.fget pgLNKC Reg.LNK_INSVC_MASK
    let s := s.reqsLost (s.meetsLantern n)
    let s := s.fset pgLNKC Reg.LNK_INSVC_MASK (m - 2 ^ n)
    let s := (List.range 64).foldl (fun t i =>
      if (t.wick (64 * n + i)).st = .running then t.unitDataError (64 * n + i) false else t) s
    let s := (List.range 8).foldl (fun t i => t.sconceLost (8 * n + i)) s
    (s.sweepUnplaceable.roundCheck.readmit .linkFailed).flow

/-! ## What is in flight on a link that fails (12 R305; 15 R381) -/

/-- The die that holds a place: a Lantern, the guest, else the Chimney. -/
def State.placeDie (s : State) (a : Nat) : Nat :=
  match s.placeLantern a with
  | some n => n
  | none => if s.region a = .guest then 10 else 8

/-- Whether two Lanterns talk over a ring link of their own. -/
def State.ringed (s : State) (a b : Nat) : Bool :=
  decide (a < 8) && decide (b < 8) && ((ringTo a == b && s.linkUp (.ring a)) || (ringTo b == a && s.linkUp (.ring b)))

/-- Whether an access of `n` bytes at `a` from a die crosses a link. -/
def State.crosses (s : State) (k : LinkMod) (src a n : Nat) : Bool :=
  let d := s.placeDie a
  n != 0 && (match k with
    | .ring m => (src == m && d == ringTo m) || (src == ringTo m && d == m)
    | .lc m _ => (src == m) != (d == m) && !s.ringed src d
    | .guest => d == 10)

/-- The command a DMA channel works on ends where one of its requests is in flight on a link: its unit has a detected error. -/
def State.dmaLost (s : State) (k : LinkMod) (w ch : Nat) : State :=
  let x := s.wick w
  match x.chan ch with
  | [] => s
  | c :: rest =>
    if c.rows.any fun r => s.crosses k (lanternOf w) (c.base + r.1.toNat) r.2.2 then
      s.setWick w ((x.setChan ch rest).hurtStored w none)
    else s

/-- The die an engine's job runs on. -/
def Job.engineDie (j : Job) : Option Nat :=
  match j.opc with
  | .copy => some 8
  | .ccuCheck => some 8
  | .mapPublish => some 8
  | .profile => some 8
  | .xcuVote => some 8
  | .sort => some (j.place / 8)
  | .regroup => some (j.place / 8)
  | .cropResize => some (j.place / 8)
  | _ => none

/-- Whether an engine's job has an access in flight on a link: it runs, has units to do and refers to a place beyond the link
(log entry 33). -/
def State.jobOnLink (s : State) (k : LinkMod) (j : Job) : Bool :=
  j.phase == .running && j.fail.isNone && decide (j.step < j.total) &&
    (j.engineDie.any fun d => j.refs.any fun c => s.crosses k d c.addr c.ent.size)

/-- The DMA commands and the units of engines that have requests in flight on a link end with DATA_ERROR_DETECTED. -/
def State.flightsLost (s : State) (k : LinkMod) : State :=
  let tags := (s.jobs.filter (s.jobOnLink k)).map (·.tag)
  let s := (s.wicks.map (·.1)).foldl (fun t w => (List.range 4).foldl (fun t ch => t.dmaLost k w ch) t) s
  tags.foldl (fun t g => t.withJob g fun j => t.unitRetry j) s

/-! ## Failure, width steps, lanes (15 R378 to R381) -/

/-- A link fails: what is in flight on it ends; a Lantern whose module failed leaves service; the guest window answers as an
unreachable unit from then on. -/
def State.linkFail (s : State) (k : LinkMod) : State :=
  let s := s.flightsLost k
  let s := s.lnkSet k fldLnkState Reg.GST_STATE_STATE 5
  let x := s.link k
  let s := s.setLink k { x with step := none, test := none, up := { x.up with queue := [] }, down := { x.down with queue := [] } }
  let s := (linkErrPages k).foldl (fun t p => t.capture p .linkFailed 0) (s.linkEvent k true 4 5)
  match k with
  | .lc n _ => s.lanternOut n
  | .ring n => (s.reqsLost (s.onRing n)).flow
  | .guest => (s.reqsLost fun r => r.port == 26 || s.region r.addr == .guest).flow

/-- The lanes of a group at a width state: the whole module, a half, a quarter. -/
def groupSize (lanes st : Nat) : Nat := if st = 2 then lanes else if st = 3 then lanes / 2 else lanes / 4

/-- The retired lanes in a group. -/
def LinkSt.retIn (x : LinkSt) (st g : Nat) : Nat :=
  let n := groupSize x.lanes st
  (x.retired.filter fun l => decide (g * n ≤ l) && decide (l < (g + 1) * n)).length

/-- The group a step to a width chooses: the fewest retired lanes, the lowest on a tie; none with more than 4. -/
def LinkSt.bestGroup (x : LinkSt) (st : Nat) : Option Nat :=
  let gs := List.range (if st = 2 then 1 else if st = 3 then 2 else 4)
  match gs.foldl (fun b g => match b with
    | none => some g
    | some h => if x.retIn st g < x.retIn st h then some g else some h) none with
  | some g => if x.retIn st g ≤ 4 then some g else none
  | none => none

/-- The step that follows state `st`: the next narrower width among the negotiated features with a usable group; none where
the module fails. -/
def LinkSt.nextStep (x : LinkSt) (st : Nat) : Option (Nat × Nat) :=
  let try_ := fun w => if x.feat.testBit (w - 1) then (x.bestGroup w).map fun g => (w, g) else none
  if st = 2 then (try_ 3).or (try_ 4) else if st = 3 then try_ 4 else none

/-- The module must step, or fails. -/
def State.needStep (s : State) (k : LinkMod) (st : Nat) : State :=
  match (s.link k).nextStep st with
  | some (w, g) => s.setLink k { s.link k with step := some (w, g, false) }
  | none => s.linkFail k

/-- A lane is retired (15 Table 4); in both directions (15 R371). -/
def State.retireLane (s : State) (k : LinkMod) (l : Nat) : State :=
  let x := s.link k
  if x.lanes ≤ l ∨ x.retired.contains l ∨ !s.linkUp k then s
  else
    let s := s.setLink k { x with retired := x.retired ++ [l] }
    let s := if l < 32 then s.lnkSet k ⟨0x044, l, l⟩ ⟨0x05C, l, l⟩ 1 else s.lnkSet k ⟨0x048, l - 32, l - 32⟩ ⟨0x060, l - 32, l - 32⟩ 1
    let s := s.linkEvent k false 3 l
    let st := s.linkState k
    let n := groupSize x.lanes st
    match x.step with
    | some (_, _, true) => if st = 4 ∧ l / n = x.group then s.linkFail k else s
    | some (_, _, false) => s.needStep k st
    | none =>
      if l / n ≠ x.group then s
      else if st = 4 then s.linkFail k
      else if s.linkSpares k < 4 ∧ x.feat.testBit 4 then s.lnkSet k fldLnkSpares Reg.GST_STATE_SPARES (s.linkSpares k + 1)
      else s.needStep k st

/-- The two ends have agreed on the step: both directions switch, the group's retired lanes take spares. -/
def State.switchWidth (s : State) (k : LinkMod) (st g : Nat) : State :=
  let x := s.link k
  let s := s.setLink k { x with group := g, step := some (st, g, true) }
  let s := s.lnkSet k fldLnkState Reg.GST_STATE_STATE st
  let s := s.lnkSet k fldLnkSpares Reg.GST_STATE_SPARES (x.retIn st g)
  if k = .guest then s else (linkPages k).foldl (fun t p => t.fset p.1 (fldLnkGroup.at_ p.2) g) s

/-- A direction starts over at the new width: its flits that are not acknowledged are sent again, in order. -/
def LinkDir.restart (d : LinkDir) : LinkDir := { d with nak := false, rewound := false, raws := [], fails := 0 }
def State.replayAll (s : State) (k : LinkMod) : State :=
  let x := s.link k
  let s := s.setLink k { x with up := x.up.restart, down := x.down.restart }
  (s.resend ⟨k, true⟩ x.up.acked).resend ⟨k, false⟩ x.down.acked

/-- A width step completes: it is counted and reported, admission runs again for a Lantern–Chimney module, and lanes retired
in the meantime are looked at. -/
def State.stepDone (s : State) (k : LinkMod) : State :=
  let x := s.link k
  let s := (s.setLink k { x with step := none }).replayAll k
  let s := if k = .guest then s else s.lnkAdd k fldLnkSteps fldLnkSteps
  let s := (linkErrPages k).foldl (fun t p => t.capture p .linkDegraded 0) (s.linkEvent k false 4 (s.linkState k))
  let s := match k with
    | .lc _ _ => s.readmit .linkDegraded
    | _ => s
  let y : LinkSt := s.link k
  let st := s.linkState k
  if 4 < y.retIn st y.group then s.needStep k st
  else s.lnkSet k fldLnkSpares Reg.GST_STATE_SPARES (y.retIn st y.group)

/-! ## Flits (15 R372 to R375) -/

/-- Whether a flit is refused (15 R374): TYPE 7, a reserved field nonzero, a MSG from a guest other than INTERRUPT. -/
def flitRefused (guestUp : Bool) (f : List Byte) : Bool :=
  hdrBits f 2 0 == 7 || hdrBits f 9 9 == 1 || hdrBits f 95 95 == 1 ||
    (guestUp && hdrBits f 2 0 == 5 && ofLE ((f.drop 16).take 2) != 1)

/-- The lanes in which two copies of a flit differ, at a width of `w` lanes from lane `base` (15 R372). -/
def diffLanes (w base : Nat) (f g : List Byte) : List Nat :=
  let n := 640 / w
  let a := ofLE f
  let b := ofLE g
  ((List.range w).filter fun l => bitsOf (n * (l + 1) - 1) (n * l) a != bitsOf (n * (l + 1) - 1) (n * l) b).map (· + base)

/-- One attribution to a lane: it is counted, and a lane that reaches the threshold in the window is retired (15 R378). -/
def State.attribute_ (s : State) (k : LinkMod) (l : Nat) : State :=
  let x := s.link k
  let n := aget 0 x.wcnt l + 1
  let s := s.setLink k { x with wcnt := aset x.wcnt l n }
  let s := (linkPages k).foldl (fun t p => t.faddI p.1 l ⟨0x05C + p.2, 31, 16⟩ 1) s
  if s.fget pgLNKC Reg.LNK_THR_THR ≤ n then s.retireLane k l else s

/-- The receiver of a direction sends a NAK naming the LSEQ it expects: visible outside where the Chimney answers the guest. -/
def State.sendNak (s : State) (l : Link) (q : Nat) : State :=
  let l' := revLink l
  s.onWire l' (recode (lctlFlit [1, BitVec.ofNat 8 q]) 0 ((q + 255) % 256))

/-- An intact flit out of sequence: one NAK is sent, and the flit is discarded; nothing of it is compared with another flit. -/
def State.flitSkipped (s : State) (k : LinkMod) (up : Bool) : State :=
  let x := s.link k
  let d := x.dir up
  if d.nak then s else (s.setLink k (x.setDir up { d with nak := true, rewound := false })).sendNak ⟨k, up⟩ d.expect

/-- A flit has failed at its receiver: the first failure sends a NAK and keeps the bits; a replay that fails is counted, and
after 8 the link asks for a lane test; other flits are discarded until the expected one arrives. -/
def State.flitFailed (s : State) (k : LinkMod) (up : Bool) (f : List Byte) : State :=
  let x := s.link k
  let d := x.dir up
  if d.nak && !d.rewound then s
  else
    let s := s.sendNak ⟨k, up⟩ d.expect
    let x := s.link k
    let n := if d.rewound then d.fails + 1 else d.fails
    let x := x.setDir up { d with nak := true, rewound := false, raws := d.raws ++ [f], fails := n }
    if n < 8 then s.setLink k x
    else if x.feat.testBit 5 then s.setLink k { x with test := x.test.or (some false) }
    else (s.setLink k x).linkFail k

/-- The expected flit has arrived intact: it is accepted, its transmitter keeps it until it is acknowledged, and the failed copies
of it are compared with it lane by lane. -/
def State.flitAccepted (s : State) (k : LinkMod) (up : Bool) (f : List Byte) : State :=
  let x := s.link k
  let d := x.dir up
  let w := groupSize x.lanes (s.linkState k)
  let lanes := d.raws.flatMap fun g => diffLanes w (x.group * w) f g
  let s := s.setLink k (x.setDir up { d with expect := (d.expect + 1) % 256, nak := false, rewound := false, raws := [], fails := 0 })
  lanes.foldl (fun t l => t.attribute_ k l) s

/-- ASEQ acknowledges the flits of the other direction up to it, which leave the replay buffer; it names none that has not been
sent. -/
def LinkDir.ack (d : LinkDir) (aseq : Nat) : LinkDir :=
  let a := (aseq + 1) % 256
  if d.off a ≤ d.off d.next then
    { d with acked := a, expect := if d.off d.expect < d.off a then a else d.expect
             replay := d.replay.filter fun p => decide (d.off a ≤ d.off p.1) }
  else d

/-- A replay on a link of a Lantern is traced, on a ring link for both (21 R496). -/
def State.traceLink (s : State) : LinkMod → State
  | .lc n _ => s.trace 6 n 1
  | .ring n => (s.trace 6 n 1).trace 6 (ringTo n) 1
  | .guest => s

/-- A NAK reaches the transmitter of a direction: it goes back to the flit named and sends what it keeps from there onward, in
order (15 R375, R377). What the guest has failed to receive only its NAK tells. -/
def State.lnkNak (s : State) (l : Link) (lseq : Nat) : State :=
  let x := s.link l.mod
  let d := x.dir l.up
  if (d.nak ∧ !d.rewound ∧ lseq = d.expect) ∨ (l.mod = .guest ∧ !l.up ∧ !d.nak ∧ d.off lseq < d.off d.next) then
    ((s.setLink l.mod (x.setDir l.up { d with rewound := d.nak })).lnkAdd l.mod fldLnkReplay Reg.GST_REPLAY_COUNT
      |>.traceLink l.mod).resend l lseq
  else s

/-- A CREDIT flit returns buffers to the transmitter of a direction; it never holds more than 32 of a class. -/
def State.lnkCredit (s : State) (l : Link) (cs : List Nat) : State :=
  let x := s.link l.mod
  let d := x.dir l.up
  (s.setLink l.mod (x.setDir l.up { d with
    credits := (List.range 8).map fun c => Nat.min 32 (d.credits.getD c 0 + cs.getD c 0) })).pump l d.queue.length

/-- A WIDTH flit agrees the pending step. -/
def State.lnkWidth (s : State) (l : Link) (st g : Nat) : State :=
  match (s.link l.mod).step with
  | some (w, h, false) => if w = st ∧ h = g then s.switchWidth l.mod st g else s
  | _ => s

/-- A LANETEST flit starts the test that the link has asked for. -/
def State.lnkTest (s : State) (l : Link) : State :=
  let x := s.link l.mod
  if x.test = some false then
    let s := s.setLink l.mod { x with test := some true }
    if l.mod = .guest then s else s.lnkAdd l.mod fldLnkSteps fldLnkSteps
  else s

/-- The lanes of a mask are retired. -/
def State.retireMask (s : State) (k : LinkMod) (mask : Nat) : State :=
  (List.range 64).foldl (fun t l => if mask.testBit l then t.retireLane k l else t) s

/-- A TESTRES flit reports failing lanes during a test. -/
def State.lnkTestres (s : State) (l : Link) (mask : Nat) : State :=
  if (s.link l.mod).test = some true then s.retireMask l.mod mask else s

/-- An LCTL flit that arrives on a direction (15 R374): NAK and CREDIT speak of the other direction's flits. -/
def State.lctl (s : State) (l : Link) (p : List Byte) : State :=
  let b := fun i => (p.getD i 0).toNat
  match b 0 with
  | 1 => s.lnkNak (revLink l) (b 1)
  | 2 => s.lnkWidth l (b 1) (b 2)
  | 3 => s.lnkTest l
  | 4 => s.lnkTestres l (ofLE ((p.drop 8).take 8))
  | 5 => s.lnkCredit (revLink l) ((List.range 8).map fun c => b (8 + c))
  | _ => s

/-! ## Flits on their way (15 R372 to R374, R387; 01 R21) -/

/-- The die of a node (15 Table 2), and the die at which a direction of a link ends: 8 is the Chimney, 10 the guest. -/
def nodeDie (node : Nat) : Nat := node / 16
def linkEnd : Link → Nat
  | ⟨.lc n _, up⟩ => if up then 8 else n
  | ⟨.ring n, up⟩ => if up then ringTo n else n
  | ⟨.guest, up⟩ => if up then 8 else 10

/-- The link on which a die passes on a flit for another die: the guest port, the ring link of a neighbour, else the LC module of
the half of the Lantern's ports that the node belongs to (which half is which the spec does not say: log entry 33). -/
def State.route (s : State) (here dst src : Nat) : Option Link :=
  let d := nodeDie dst
  if here = 8 then
    if d = 10 then some ⟨.guest, false⟩
    else if d < 8 then some ⟨.lc d (Config.lcHalf (dst % 16) % 2), false⟩
    else none
  else if d = ringTo here ∧ s.linkUp (.ring here) then some ⟨.ring here, true⟩
  else if d < 8 ∧ ringTo d = here ∧ s.linkUp (.ring d) then some ⟨.ring d, false⟩
  else some ⟨.lc here (Config.lcHalf (src % 16) % 2), true⟩

/-- A flit that is not for the die it has reached is re-coded and sent on (15 R373). -/
def State.passOn (s : State) (here : Nat) (f : List Byte) : State :=
  match s.route here (hdrBits f 17 10) (hdrBits f 25 18) with
  | some l => if s.linkUp l.mod then s.transmit l f else s
  | none => s

/-- A request of the guest that is turned away: it is answered with PARTITION_VIOLATION and no data. -/
def State.guestReject (s : State) : State := s.fadd pgGST Reg.GST_REJECT_COUNT 1

/-- Whether an access lies in the DDR-4 regions or Reservoir banks of a partition itself. -/
def Cfg.ownRange (c : Cfg) (p a n : Nat) (write : Bool) : Bool :=
  if c.cormer then
    c.windows.any fun w => w.used && w.part == p && (if write then w.wr else w.rd) && decide (w.base ≤ a / 4096) &&
      decide ((a + (n - 1)) / 4096 ≤ w.limit)
  else (c.regions.any fun r => r.owner == p && decide (r.base ≤ a) && decide (a + n ≤ r.base + r.size)) || c.inBanks p a n

/-- A request of the guest with its tag: one of its partition in TC7 enters the Regulator at port 26, any other is refused. -/
def State.guestAccess (s : State) (tag tc part addr len : Nat) (data : Option (List Byte)) : State :=
  let p := s.fget pgGST Reg.GST_CFG_PART
  let n := (data.map (·.length)).getD len
  let q : MemReq := { port := 26, tc := tc, part := part, master := .chimney 26, addr := addr, data := data, len := n }
  if tc = 7 ∧ part = p ∧ s.cfg.ownRange p addr n data.isSome ∧ lineReq addr n then s.enterTagged q tag
  else
    let r : Req := { id := 0, port := 26, tc := tc, part := part, master := .chimney 26, addr := addr, len := n, data := data, out := true
                     reserved := false, servedTc := tc, started := false, at_ := s.now, outAt := s.now, tag := tag }
    let t := s.guestReject.emit (.memErr Err.partitionViolation.code)
    s.answerGuest t r

/-- What the guest sends: a request, or an interrupt, which below GVEC is raised on its partition's function and else refused. A
request given without its flit has tag 0. -/
def State.guestSends (s : State) (q : GuestReq) : State :=
  let p := s.fget pgGST Reg.GST_CFG_PART
  match q with
  | .interrupt v =>
    if v < (s.guestDie.map (·.gvec)).getD 0 then s.msix (s.fget pgGST Reg.INT_ROUTE_PORT) p v else s.guestReject
  | .access tc part addr len data => s.guestAccess 0 tc part addr len data

/-- An answer of the guest completes the request it names; a late one finds none and is discarded (15 R387). -/
def State.guestAnswers (s : State) (tag err : Nat) (data : List Byte) : State :=
  match s.rgl.reqs.find? fun r => r.out && s.region r.addr == .guest && r.tag == tag with
  | none => s
  | some r =>
    let t := (s.creditNow.dropReq r.id).reqCount r
    let t := if err ≠ 0 then t.emit (.memErr err)
      else if r.data.isNone then t.emit (.data ((data.drop (r.addr % 64)).take r.len)) else t
    (t.emit (.response r.port r.tc r.part)).flow

/-- A flit from the guest takes effect at the Chimney, its fields as Table 2 has them (15 R372, R374, R387). A WRITE whose BLAST lies
below its BOFF, which the rule forbids, is refused like any other request the guest may not send (log entry 33). -/
def State.fromGuest (s : State) (f : List Byte) : State :=
  let tag := hdrBits f 35 26 + 1024 * hdrBits f 25 18
  let tc := hdrBits f 5 3
  let part := hdrBits f 8 6
  let addr := hdrBits f 77 36 * 64
  let pay := f.drop 16
  match hdrBits f 2 0 with
  | 1 => s.guestAccess tag tc part addr 64 none
  | 2 =>
    let b0 := hdrBits f 83 78
    let b1 := hdrBits f 89 84
    if b0 ≤ b1 then s.guestAccess tag tc part (addr + b0) 0 (some ((pay.drop b0).take (b1 - b0 + 1)))
    else s.guestAccess tag 0 part addr 0 (some [])
  | 3 => s.guestAnswers (tag % 1024) (hdrBits f 94 90) pay
  | 4 => s.guestAnswers (tag % 1024) (hdrBits f 94 90) []
  | 5 => s.guestSends (.interrupt (ofLE ((pay.drop 2).take 2)))
  | _ => s

/-- An accepted flit goes on in the receiving die's network: from the guest it takes effect or is passed on, between the device's
own dies it is passed on towards its node; what it asks for there MEMORY_RESPONSE and the units' own commands do (log entry 33). -/
def State.deliver (s : State) (l : Link) (f : List Byte) : State :=
  let here := linkEnd l
  if here = 10 then s
  else if l.mod = .guest then s.fromGuest f
  else if nodeDie (hdrBits f 17 10) = here then s
  else s.passOn here f

/-- Whether a flit can be the one the transmitter of a direction sends under its LSEQ: the one it keeps, or a new one that it may
send. -/
def LinkDir.mayArrive (d : LinkDir) (f : List Byte) : Bool :=
  let q := hdrBits f 103 96
  match d.kept q with
  | some g => sameFlit f g
  | none => decide (d.off q < 128) && decide (d.off d.expect ≤ d.off q) && decide (0 < d.credits.getD (hdrBits f 5 3) 0)

/-- A flit arrives at the receiver of a direction (15 R375). One that its transmitter does not send does not arrive. -/
def State.flit (s : State) (l : Link) (f : List Byte) : State :=
  let k := l.mod
  if !flitGood f then s.flitFailed k l.up f
  else if flitRefused (k == .guest && l.up) f then (s.lnkAdd k fldLnkProto Reg.GST_REJECT_COUNT).flitFailed k l.up f
  else
    let ty := hdrBits f 2 0
    let q := hdrBits f 103 96
    let x := s.link k
    let s := (s.setLink k (x.setDir (!l.up) ((x.dir (!l.up)).ack (hdrBits f 111 104)))).pump (revLink l) (x.dir (!l.up)).queue.length
    let x := s.link k
    let d := x.dir l.up
    if ty = 0 then s
    else if ty = 6 then s.lctl l (f.drop 16)
    else if d.off d.next ≤ d.off q ∧ 128 ≤ d.off q then s.flitSkipped k l.up
    else if !d.mayArrive f then (if (d.kept q).isNone && decide (d.off q < d.off d.expect) then s.flitSkipped k l.up else s)
    else
      let s := if (d.kept q).isSome then s else s.setLink k (x.setDir l.up (d.keep q f))
      if q = d.expect then (s.flitAccepted k l.up f).deliver l f else s.flitSkipped k l.up

/-- Whether traffic moves on a link: it is up and neither a width step nor a lane test holds it. -/
def State.linkMoves (s : State) (k : LinkMod) : Bool :=
  s.linkUp k && (s.link k).test != some true && (match (s.link k).step with
    | some (_, _, true) => false
    | _ => true)

/-- Whether the commands of a link act: the block runs and the link exists. -/
def onLink (l : Link) (s : State) (c : Bool) (t : State) : Out := onLive s (s.linkUp l.mod && c) t

/-! ## The commands -/

/-- FLIT_RECEIVE. -/
def execFlitReceive (link : Link) (flit : List Byte) (e : Nat) (s : State) : Out :=
  onLink link s (s.linkMoves link.mod && flit.length == 80) ((elapse e s).flit link flit)

/-- LCTL_NAK: `link` is the direction whose transmitter is told. -/
def execLctlNak (link : Link) (lseq : Nat) (s : State) : Out := onLink link s true (s.lnkNak link lseq)

/-- LCTL_WIDTH. -/
def execLctlWidth (link : Link) (st grp : Nat) (s : State) : Out := onLink link s true (s.lnkWidth link st grp)

/-- LCTL_LANETEST. -/
def execLctlLanetest (link : Link) (s : State) : Out := onLink link s true (s.lnkTest link)

/-- LCTL_TESTRES. -/
def execLctlTestres (link : Link) (mask : Word64) (s : State) : Out := onLink link s true (s.lnkTestres link mask.toNat)

/-- LCTL_CREDIT: `link` is the direction whose transmitter takes the credits. -/
def execLctlCredit (link : Link) (credits : List Nat) (s : State) : Out := onLink link s true (s.lnkCredit link credits)

/-- LANE_WINDOW_EXPIRE: the counts of the window are cleared and the next window begins (15 R378). -/
def execLaneWindowExpire (e : Nat) (s : State) : Out :=
  let t := elapse e s
  onLive s (s.dueNow e (s.lnkWin + s.fget pgLNKC Reg.LNK_THR_WIN * 250000))
    { t with lnkWin := t.now, links := t.links.map fun p => (p.1, { p.2 with wcnt := [] }) }

/-- LANE_TEST_DONE: failing lanes are retired; a flit that still fails, or no usable group, fails the link. -/
def execLaneTestDone (link : Link) (mask : Word64) (fails : Bool) (s : State) : Out :=
  onLink link s ((s.link link.mod).test == some true) (
    let t := s.retireMask link.mod mask.toNat
    let x := t.link link.mod
    let t := t.setLink link.mod { x with test := none, up := { x.up with fails := 0 }, down := { x.down with fails := 0 } }
    if fails && t.linkUp link.mod then t.linkFail link.mod else t)

/-- WIDTH_STEP_DONE. -/
def execWidthStepDone (link : Link) (s : State) : Out :=
  onLink link s (match (s.link link.mod).step with
    | some (_, _, true) => true
    | _ => false) (s.stepDone link.mod)

/-! ## Reservoir bonds (15 R368, R369) -/

/-- The bond test of a bank ends. -/
def State.bondDone (s : State) (n k : Nat) (res : BondRes) : State :=
  let s := ({ s with bonds := s.bonds.erase (n, k) }).fadd (pgRSV n) Reg.RSV_BONDTEST_COUNT 1
  match res with
  | .pass => s
  | .bank =>
    let s := if k < 32 then s.fset (pgRSV n) ⟨0x04C, k, k⟩ 1 else s.fset (pgRSV n) ⟨0x050, k - 32, k - 32⟩ 1
    ({ s with flog := s.flog ++ [(2, 64 * n + k)] }.event (pgRSV n)).pulse (8 + 16 * n + 10)
  | .shared => s.lanternOut n

/-- RESERVOIR_BOND_TEST_DONE. -/
def execReservoirBondTestDone (lantern bank : Nat) (res : BondRes) (s : State) : Out :=
  onLive s (s.bonds.contains (lantern, bank)) (s.bondDone lantern bank res).flow

/-! ## The guest port (15 R387) -/

/-- GUEST_REQUEST. -/
def execGuestRequest (req : GuestReq) (s : State) : Out := onAwake s s.guestUp (s.guestSends req)

/-- GUEST_REQUEST_TIMEOUT: a request to the guest not answered within GST_TMO. -/
def execGuestRequestTimeout (id e : Nat) (s : State) : Out :=
  onAwake s true (match s.rgl.reqs.find? fun r => r.id == id with
    | some r =>
      if r.out && s.region r.addr == .guest && s.guestUp && s.dueNow e (r.outAt + s.fget pgGST Reg.GST_TMO_TMO * 25) then
        ((((elapse e s).dropReq id).fadd pgGST Reg.GST_TIMEOUT_COUNT 1).emit (.memErr Err.dataErrorDetected.code)).flow
      else s
    | none => s)

end Sys2Proof.Machine
end

