-- ==== Sys2Proof/Machine/Trimmer.lean ====
section
/-!
DEFINITION. Trimmer.lean: thermal control: samples, forecasts, grants, the fast rules, coolant demand and the lifetime
counters (18 R436 to R448; 22 R500, R510).
-/

namespace Sys2Proof.Machine

open Sys2Proof

/-! ## The forecast (18 R438, R439) -/

/-- Element `n` of a list of numbers, 0 past its end. -/
def at0 (l : List Nat) (n : Nat) : Nat := l.getD n 0

/-- A Lantern's temperature code and its grant in 25 MHz. -/
def State.tcode (s : State) (n : Nat) : Nat := s.fgetI pgTRM n Reg.TRM_LANTERN_T
def State.grant (s : State) (n : Nat) : Nat := s.fgetI pgTRM n Reg.TRM_LANTERN_GRANT

/-- The declared Wick-cycles on Lantern `n` of a job's units that are placed there or wait; a waiting unit counts on each
Lantern in proportion to its Wicks the job may use (log entry 22). -/
def State.jobCycles (s : State) (n : Nat) (j : Job) : Nat :=
  let ws := s.allowedWicks j.part j.lmask
  let here := (ws.filter fun w => lanternOf w == n).length
  sumL (j.units.map fun u =>
    match u.phase with
    | .fresh => s.unitCycles j u.idx (64 * n) * here / Nat.max 1 ws.length
    | .retry => s.unitCycles j u.idx (64 * n) * here / Nat.max 1 ws.length
    | _ => if lanternOf u.wick = n then s.unitCycles j u.idx u.wick else 0)

/-- The larger of two fractions. -/
def maxFrac (a b : Nat × Nat) : Nat × Nat := if a.1 * b.2 < b.1 * a.2 then b else a

/-- b of R438 as a fraction: of the next frame the planned fraction where a job of it has been dequeued; of the others the
measured one. -/
def State.busyFrac (s : State) (n : Nat) : Nat × Nat :=
  let meas := (at0 s.trm.busy n, 1000000)
  let js := s.jobs.filter fun j => j.frameJob && j.f == s.epoch + 1
  if js.isEmpty then meas else maxFrac (sumL (js.map (s.jobCycles n)), 64 * 700 * Nat.max 1 s.frm.periodUs) meas

/-- tp(f) of R438 at a grant of `g` × 25 MHz, exactly, as a numerator in °C and its denominator. -/
def State.tp (s : State) (n g : Nat) : Int × Nat :=
  let b := s.busyFrac n
  let cnt := Nat.max 1 s.trm.pnLastCnt
  let rth := s.fgetI pgTRM n Reg.TRM_LANTERN_RTH
  let t : Int := (s.tcode n : Int) - 64
  let dyn := at0 s.fuses.pd n * Nat.min (28 * b.1 * g) (g * g * b.2)
  let tcool : Int := (t * 100000 * (cnt : Nat) - (rth * at0 s.trm.pnLast n : Nat)) * (784 * b.2 : Nat)
  (tcool + (rth * cnt * (Config.leakage n (s.tcode n) * 784 * b.2 + dyn) : Nat), 100000 * 784 * b.2 * cnt)

/-- p(f) of R438 in mW, rounded down. -/
def State.pf (s : State) (n g : Nat) : Nat :=
  let b := s.busyFrac n
  Config.leakage n (s.tcode n) + at0 s.fuses.pd n * Nat.min (28 * b.1 * g) (g * g * b.2) / (784 * b.2)

/-- Whether a forecast is above, or at most, a temperature in tenths of a °C. -/
def tpAbove (x : Int × Nat) (tenths : Int) : Bool := decide (tenths * (x.2 : Nat) < x.1 * 10)
def tpAtMost (x : Int × Nat) (tenths : Int) : Bool := !tpAbove x tenths

/-- Whether one forecast is below another. -/
def tpLt (x y : Int × Nat) : Bool := decide (x.1 * (y.2 : Nat) < y.1 * (x.2 : Nat))

/-- The Lanterns the Trimmer controls. -/
def State.trmLanterns (s : State) : List Nat := (List.range 8).filter s.lanternUp

/-- The Lantern with the highest, or lowest, value of an order; ties go to the lower number. -/
def pickBest (lt : Nat → Nat → Bool) (ls : List Nat) : Option Nat :=
  ls.foldl (fun best n => match best with | none => some n | some b => if lt b n then some n else some b) none

/-- The Lantern with the highest TPRED. -/
def State.hottest (s : State) : Option Nat :=
  pickBest (fun a b => tpLt (s.tp a (s.grant a)) (s.tp b (s.grant b))) s.trmLanterns

/-- T of a Lantern 1 s ago: the latest sample at least that old, else the oldest kept (log entry 22). -/
def State.t1s (s : State) (n : Nat) : Option Nat :=
  match s.trm.hist.find? fun h => decide (h.1 + 250000000 ≤ s.now) with
  | some h => some (at0 h.2 n)
  | none => s.trm.hist.getLast?.map fun h => at0 h.2 n

/-- FMIN and the ramp ceiling of a Lantern in 25 MHz (18 R441). -/
def State.fmin (s : State) : Nat := s.fget pgTRM Reg.TRM_RAMP_FMIN
def State.ramp (s : State) (n : Nat) : Nat :=
  match s.t1s n with
  | none => 28
  | some t =>
    let lim : Int := ((t : Int) - 64) * 10 + (s.fget pgTRM Reg.TRM_RAMP_RATE : Nat)
    (List.range 29).foldl (fun best g => if s.fmin ≤ g ∧ tpAtMost (s.tp n g) lim then g else best) s.fmin

/-! ## Grants (18 R437, R440, R443) -/

/-- Set a Lantern's grant. -/
def State.setGrant (s : State) (n g : Nat) : State := s.fsetI pgTRM n Reg.TRM_LANTERN_GRANT g

/-- Lower a Lantern's grant by one step; at FMIN it stays, which sets FLOOR and pulses line 357. -/
def State.lowerGrant (s : State) (n : Nat) : State :=
  if s.grant n ≤ s.fmin then (s.fset pgTRM Reg.TRM_STATUS_FLOOR 1).pulse 357
  else (s.setGrant n (s.grant n - 1)).fadd pgTRM Reg.TRM_STEPS_COUNT 1

/-- A temperature limit of TRM_TJ in tenths of a °C. -/
def State.tjSoft (s : State) : Int := ((s.fget pgTRM Reg.TRM_TJ_SOFT : Int) - 64) * 10

/-- Whether rule 1 of R440 applies. -/
def State.rule1 (s : State) : Bool :=
  s.trmLanterns.any fun n => tpAbove (s.tp n (s.grant n)) s.tjSoft || decide (s.fget pgTRM Reg.TRM_TJ_SOFT ≤ s.tcode n)

/-- The package power as the 10 ms running average, in mW (18 R436). -/
def State.pkgPower (s : State) : Nat := sumL s.trm.pkg / Nat.max 1 s.trm.pkg.length

/-- The mean power of a Lantern over the last frame, in mW. -/
def State.pnMean (s : State) (n : Nat) : Nat := at0 s.trm.pnLast n / Nat.max 1 s.trm.pnLastCnt

/-- Whether rule 4 of R440 would raise a Lantern. -/
def State.mayRaise (s : State) (n : Nat) : Bool :=
  let g := s.grant n
  decide (g < 28) &&
    tpAtMost (s.tp n (g + 1)) (s.tjSoft - (s.fget pgTRM Reg.TRM_TJ_HYST : Int) * 10) &&
    decide (g + 1 ≤ s.ramp n) &&
    decide (s.pkgPower - s.pnMean n + s.pf n (g + 1) ≤ s.fget pgTRM Reg.TRM_PLIMIT_W * 1000)

/-- The rules of R440: the first that applies changes one Lantern at most. While the coolant alert stands, rule 1 is applied
at every sample and not at the tick (18 R443; log entry 22). How late a job is enters none of them (18 R442). -/
def State.grantRules (s : State) : State :=
  let s := (s.fset pgTRM Reg.TRM_STATUS_SOFT 0).fset pgTRM Reg.TRM_STATUS_FLOOR 0
  if s.rule1 then
    if s.flag pgTRM Reg.TRM_STATUS_ALERT then s
    else match s.hottest with
    | some n => ((s.fset pgTRM Reg.TRM_STATUS_SOFT 1).pulse 356).lowerGrant n
    | none => s
  else if s.fget pgTRM Reg.TRM_PLIMIT_W * 1000 < s.pkgPower then
    match pickBest (fun a b => decide (s.pnMean a < s.pnMean b)) s.trmLanterns with
    | some n => ((s.fset pgTRM Reg.TRM_STATUS_SOFT 1).pulse 356).lowerGrant n
    | none => s
  else
    match s.trmLanterns.find? fun n => decide (s.ramp n < s.grant n) with
    | some n => (s.setGrant n (s.ramp n)).fadd pgTRM Reg.TRM_STEPS_COUNT 1
    | none =>
      match pickBest (fun a b => tpLt (s.tp b (s.grant b)) (s.tp a (s.grant a))) (s.trmLanterns.filter s.mayRaise) with
      | some n => s.setGrant n (s.grant n + 1)
      | none => s

/-! ## Forecast registers and coolant demand (18 R444, R449) -/

/-- A rational held to 0 to `top` in whole steps: the step below or the one above, a free value (log entry 7). -/
def State.roundFree (s : State) (num : Int) (den top : Nat) : State × Nat :=
  if num ≤ 0 then (s, 0)
  else
    let q := num.toNat / Nat.max 1 den
    let r := num.toNat % Nat.max 1 den
    if r = 0 then (s, Nat.min q top) else (s.draw, Nat.min (q + Config.freeNat s.draws % 2) top)

/-- TPRED of every Lantern, and HOT. -/
def State.tpredRegs (s : State) : State :=
  let s := s.trmLanterns.foldl (fun s n =>
    let x := s.tp n (s.grant n)
    let r := s.roundFree (x.1 + (64 * x.2 : Nat)) x.2 255
    r.1.fsetI pgTRM n Reg.TRM_LANTERN_TPRED r.2) s
  match s.hottest with
  | some n => s.fset pgTRM Reg.TRM_STATUS_HOT n
  | none => s

/-- COOL_DMD follows its target: up at once, down by at most 1 % in a second. -/
def State.dutyStep (s : State) : State :=
  match s.hottest with
  | none => s
  | some n =>
    let x := s.tp n (s.grant n)
    let lo : Int := (s.fget pgTRM Reg.TRM_COOL_LO : Int) - 64
    let hi : Int := (s.fget pgTRM Reg.TRM_COOL_HI : Int) - 64
    let r := s.roundFree ((x.1 - lo * (x.2 : Nat)) * 100) ((hi - lo).toNat * x.2) 100
    let t := Nat.max r.2 (s.fget pgTRM Reg.TRM_COOL_MIN)
    let s := r.1
    let d := s.fget pgTRM Reg.TRM_STATUS_DUTY
    if d ≤ t then { s.fset pgTRM Reg.TRM_STATUS_DUTY t with trm := { s.trm with dutyAt := s.now } }
    else if s.trm.dutyAt + 250000000 ≤ s.now then
      { s.fset pgTRM Reg.TRM_STATUS_DUTY (d - 1) with trm := { s.trm with dutyAt := s.now } }
    else s

/-- What the Trimmer does at a tick, and at each period while no frame runs (18 R437): the forecasts, one change of a grant,
coolant demand; the means start afresh. -/
def State.trimmerTick (s : State) : State :=
  let s := if s.trm.pnCnt = 0 then s else { s with trm := { s.trm with pnLast := s.trm.pnSum, pnLastCnt := s.trm.pnCnt } }
  let s := (if s.trm.tripped then s else s.grantRules.tpredRegs).dutyStep
  { s with trm := { s.trm with pnSum := [], pnCnt := 0, perAt := s.tbu.ns } }

/-- TRIMMER_PERIOD (18 R437): every 50 ms of counter time while ENABLE = 0. -/
def execTrimmerPeriod (e : Nat) (s : State) : Out :=
  onAwake s (!s.flag pgLMP Reg.LMP_FRAME_CTRL_ENABLE && s.dueCtr e (s.trm.perAt + 50000000)) (elapse e s).trimmerTick

/-! ## Samples (18 R436, R443; 22 R500) -/

/-- Samples in a row: those named count on, others are forgotten. -/
def inRow (old : List (Nat × Nat)) (ks : List Nat) : List (Nat × Nat) := ks.eraseDups.map fun k => (k, aget 0 old k + 1)

/-- VDD_Ln of every Lantern follows its grant: the setpoint is that of the step above it (22 R498). -/
def State.followVolts (s : State) : State := s.trmLanterns.foldl (fun t n => t.setVolt n (voltStep (t.grant n))) s

/-- Every Lantern rail off (18 R430, R443). -/
def State.railsOff (s : State) : State := (List.range 8).foldl (fun t n => t.setVolt n 0) s

/-- The trip (18 R443): every Lantern rail off without saving, READY clears, line 359. -/
def State.trip (s : State) : State :=
  if s.trm.tripped then s
  else
    let s := { s.railsOff with trm := { s.railsOff.trm with tripped := true } }
    let s := (s.fset pgFLT Reg.FLT_BOOT_READY 0).pulse 359
    (List.range 8).foldl (fun t n => t.lanternOut n) s

/-- The hard limit on one Lantern. -/
def State.hardStep (s : State) (n : Nat) : State :=
  if s.fget pgTRM Reg.TRM_TJ_HARD ≤ s.tcode n then
    ((if s.grant n ≤ s.fmin then s.fset pgTRM Reg.TRM_STATUS_FLOOR 1
      else (s.setGrant n (s.grant n - 1)).fadd pgTRM Reg.TRM_STEPS_COUNT 1).captureLine pgTRM .thermalLimit 0 357).fset pgTRM
      Reg.TRM_STATUS_HARD 1
  else s

/-- The registers and histories of a sample. -/
def State.sampleRegs (s : State) (t : TrimIn) : State :=
  let s := s.trmLanterns.foldl (fun s n => s.fsetI pgTRM n Reg.TRM_LANTERN_T (Nat.min (at0 t.temps n) 255)) s
  let pkg := (t.pkg :: s.trm.pkg).take 10
  let s := { s with trm := { s.trm with
    sampleAt := s.now
    hist := (s.now, t.temps) :: s.trm.hist.filter (fun h => decide (s.now < h.1 + 250250000))
    pkg := pkg
    pnSum := (List.range 8).map fun n => at0 s.trm.pnSum n + at0 t.powers n
    pnCnt := s.trm.pnCnt + 1
    busy := t.busy
    crit := inRow s.trm.crit t.crit
    rails := inRow s.trm.rails t.rails } }
  let r := s.roundFree (sumL pkg : Nat) (1000 * pkg.length) 1023
  let s := r.1.fset pgTRM Reg.TRM_PKGPWR_W r.2
  (List.range t.phys.length).foldl (fun s c => s.phyTemp c (at0 t.phys c)) s

/-- One sample: the readings, the trip, the supplies, which follow the grants changed since the last sample within 1 ms (22 R498),
the hard limit, and rule 1 while the coolant alert stands. -/
def State.trmSample (s : State) (t : TrimIn) : State :=
  let s := s.sampleRegs t
  if s.trm.tripped then s
  else if (s.trm.crit.any fun x => decide (3 ≤ x.2)) || s.trm.rails.any fun x => decide (3 ≤ x.2) then s.trip
  else
    let s := s.followVolts.fset pgTRM Reg.TRM_STATUS_HARD 0
    let s := s.trmLanterns.foldl State.hardStep s
    let s := if s.flag pgTRM Reg.TRM_STATUS_ALERT ∧ s.rule1 then
        match s.hottest with
        | some n => (s.pulse 356).lowerGrant n
        | none => s
      else s
    s.tpredRegs.dutyStep

/-- TRIMMER_SAMPLE (18 R436): once per millisecond. -/
def execTrimmerSample (e : Nat) (t : TrimIn) (s : State) : Out :=
  onAwake s (s.dueNow e (s.trm.sampleAt + 250000)) ((elapse e s).trmSample t)

/-- COOL_ALERT (18 R443, R445): COOL_ALERT_N has been low for its filter time. -/
def execCoolAlert (s : State) : Out :=
  onAwake s (!s.flag pgTRM Reg.TRM_STATUS_ALERT) ((s.fset pgTRM Reg.TRM_STATUS_ALERT 1).pulse 358)

/-- COOL_ALERT_DEASSERT (18 R445). -/
def execCoolAlertDeassert (s : State) : Out :=
  onAwake s (s.flag pgTRM Reg.TRM_STATUS_ALERT) (s.fset pgTRM Reg.TRM_STATUS_ALERT 0)

/-! ## Lifetime counters (18 R446 to R448; 22 Table 8) -/

/-- The bin of a half-cycle, if it is counted. -/
def cycBin (r : Nat) : Option Nat :=
  if r < 5 then none else if r < 10 then some 0 else if r < 20 then some 1 else if r < 40 then some 2
  else if r < 80 then some 3 else some 4

/-- The search after a sample, with the half-cycle it ends: a change of direction by more than 2 K is a reversal. -/
def CycSt.next (x : CycSt) (t : Nat) : CycSt × Option Nat :=
  let rangeFrom := fun (a : Nat) => x.rev.map fun r => if r < a then a - r else r - a
  if x.dir ≠ 2 ∧ t + 2 < x.hi then
    ({ dir := 2, lo := t, hi := t, rev := if x.dir = 1 then some x.hi else none }, if x.dir = 1 then rangeFrom x.hi else none)
  else if x.dir ≠ 1 ∧ x.lo + 2 < t then
    ({ dir := 1, lo := t, hi := t, rev := if x.dir = 2 then some x.lo else none }, if x.dir = 2 then rangeFrom x.lo else none)
  else ({ x with lo := Nat.min x.lo t, hi := Nat.max x.hi t }, none)

/-- The limits of the part's grade: operating hours, then the bins (22 Table 8). -/
def hoursLimit (grade : Nat) : Nat := if grade = 0 then 100000 else 50000
def binLimit (grade bin : Nat) : Nat :=
  let a := at0 [3000000, 1000000, 200000, 30000, 3000, 60000, 200000] bin
  if grade = 0 then a else a / 2

/-- A limit of the mission profile is passed: its bit sets and line 360 pulses, once (18 R447). -/
def State.lifeBit (s : State) (f : Fld) (passed : Bool) : State :=
  if passed ∧ s.fget pgTRM f = 0 then (s.fset pgTRM f 1).pulse 360 else s

/-- TRM_LIFE_HRS, TRM_CYC and TRM_LIFE_STATUS follow the counters: a bin shows the highest count over the Lanterns. -/
def State.lifeRegs (s : State) : State :=
  let s := s.setReg pgTRM 0 0x064 (BitVec.ofNat 32 (s.trm.opSec / 3600))
  let s := (List.range 7).foldl (fun s b =>
    s.fsetI pgTRM b Reg.TRM_CYC_COUNT
      (Nat.min ((List.range 8).foldl (fun m n => Nat.max m (aget 0 s.trm.counts (8 * n + b))) 0) (2 ^ 32 - 1))) s
  let g := s.fget pgFUS Reg.FUS_CAPS_GRADE
  let s := s.lifeBit Reg.TRM_LIFE_STATUS_HOURS (decide (hoursLimit g * 3600 < s.trm.opSec))
  s.lifeBit Reg.TRM_LIFE_STATUS_CYCLES ((List.range 7).any fun b => decide (binLimit g b < s.fgetI pgTRM b Reg.TRM_CYC_COUNT))

/-- Count in a bin of a Lantern; bins 5 and 6 stand under Lantern 0. -/
def State.countBin (s : State) (n b : Nat) : State :=
  { s with trm := { s.trm with counts := aset s.trm.counts (8 * n + b) (aget 0 s.trm.counts (8 * n + b) + 1) } }

/-- The cycle sample of one Lantern. -/
def State.cycLantern (s : State) (n : Nat) : State :=
  let t := s.tcode n
  let r := (aget { dir := 0, lo := t, hi := t, rev := none } s.trm.cyc n).next t
  let s := { s with trm := { s.trm with cyc := aset s.trm.cyc n r.1 } }
  match r.2.bind cycBin with
  | some b => s.countBin n b
  | none => s

/-- CYCLE_SAMPLE (18 R446): once per second in Flame or Glow. -/
def execCycleSample (e : Nat) (s : State) : Out :=
  onAwake s (s.dueNow e (s.trm.cycAt + 250000000)) <|
    let s := elapse e s
    let s := { s with trm := { s.trm with cycAt := s.now, opSec := s.trm.opSec + 1 } }
    (s.trmLanterns.foldl State.cycLantern s).lifeRegs

/-- The lifetime registers and events written to the lifetime log (18 R448; 19 R453). -/
def State.saveLife (s : State) : State :=
  { s with
    flash := { s.flash with
      events := s.flash.events ++ s.flog
      life := { opSec := s.trm.opSec, counts := s.trm.counts, status := (s.reg pgTRM 0 0x070).toNat } }
    flog := []
    trm := { s.trm with saveAt := s.now } }

/-- LIFETIME_LOG_SAVE (18 R448): every 600 s. -/
def execLifetimeLogSave (e : Nat) (s : State) : Out :=
  onAwake s (s.dueNow e (s.trm.saveAt + 150000000000)) ((elapse e s).saveLife)

end Sys2Proof.Machine
end

