-- ==== Sys2Proof/Machine/Tick.lean ====
section
/-!
DEFINITION. Tick.lean: the frame tick: its sources, what takes effect at it, cancellation, commit, validation, the tick
record, and the write of ENABLE (02 R33 to R42, R49 to R52; 09 R219; 17 R421, R422).
-/

namespace Sys2Proof.Machine

open Sys2Proof

/-! ## Frame registers (02 R35, R38, R39, R42; 17 R422) -/

/-- Window `k` of group `g` as its schedule page holds it (02 Table 4): start, length, partition, kind. -/
def State.winReg (s : State) (g k : Nat) : Win :=
  let lo := (s.reg (pgSched g) 0 (0x040 + 8 * k)).toNat
  let hi := (s.reg (pgSched g) 0 (0x044 + 8 * k)).toNat
  (lo % 2 ^ 20, lo / 2 ^ 20 + hi % 2 ^ 8 * 2 ^ 12, hi / 2 ^ 8 % 8, hi / 2 ^ 11 % 4)

/-- The used windows of a group. -/
def State.winRegs (s : State) (g : Nat) : List Win := ((List.range 64).map (s.winReg g)).filter fun w => w.2.1 != 0

/-- Whether two windows overlap. -/
def winsOverlap (a b : Win) : Bool := decide (a.1 < b.1 + b.2.1) && decide (b.1 < a.1 + a.2.1)

/-- Whether some two windows of a list overlap. -/
def anyOverlap : List Win → Bool
  | [] => false
  | w :: ws => ws.any (winsOverlap w) || anyOverlap ws

/-- The four conditions of R39, in their order. -/
def schedErr (ws : List Win) (period : Nat) : Option Err :=
  if ws.any fun w => decide (2 ≤ w.2.2.2) then some .reservedNonzero
  else if ws.any fun w => w.2.2.2 == 1 && w.2.2.1 != 3 then some .partitionViolation
  else if ws.any fun w => decide (period < w.1 + w.2.1) then some .lengthExceedsExtent
  else if anyOverlap ws then some .partitionViolation
  else none

/-- The conditions of R38 on the deadlines. -/
def deadlinesOk (pub plan period : Nat) : Bool := decide (plan + 1000 ≤ pub) && decide (pub + 1000 ≤ period)

/-- The schedules take effect group by group; one that fails leaves its group on the previous one (02 R39). -/
def State.takeScheds (s : State) : State :=
  (List.range 8).foldl (fun s g =>
    let ws := s.winRegs g
    match schedErr ws s.frm.periodUs with
    | some e => s.captureLine (pgSched g) e 0 3
    | none => { s with frm := { s.frm with scheds := aset s.frm.scheds g ws } }) s

/-- TBU_PERIOD and TBU_PHASE take effect; a value outside its range is discarded (17 R422, R425). -/
def State.takePeriod (s : State) : State :=
  let per := s.fget pgTBU Reg.TBU_PERIOD_US
  let ph := s.fget pgTBU Reg.TBU_PHASE_US
  if 10000 ≤ per ∧ per ≤ 200000 ∧ ph < per then { s with frm := { s.frm with periodUs := per, phaseUs := ph } }
  else
    ((s.fset pgTBU Reg.TBU_PERIOD_US s.frm.periodUs).fset pgTBU Reg.TBU_PHASE_US s.frm.phaseUs).capture pgTBU
      .lengthExceedsExtent 0

/-- The deadlines take effect as a pair, or the last valid pair stays (02 R38). -/
def State.takeDeadlines (s : State) : State :=
  let pub := s.fget pgLMP Reg.LMP_PUB_OFFSET_OFFSET
  let plan := s.fget pgLMP Reg.LMP_PLAN_OFFSET_OFFSET
  if deadlinesOk pub plan s.frm.periodUs then { s with frm := { s.frm with pubUs := pub, planUs := plan } }
  else
    ((s.fset pgLMP Reg.LMP_PUB_OFFSET_OFFSET s.frm.pubUs).fset pgLMP Reg.LMP_PLAN_OFFSET_OFFSET s.frm.planUs).capture pgLMP
      .lengthExceedsExtent 0

/-- The maintenance window takes effect, or the previous one stays (02 R42). -/
def State.takeMaint (s : State) : State :=
  let a := s.fget pgLMP Reg.LMP_MAINT_WIN_START
  let n := s.fget pgLMP Reg.LMP_MAINT_WIN_LEN
  if a + n ≤ s.frm.periodUs then { s with frm := { s.frm with maintStart := a, maintLen := n } }
  else
    ((s.fset pgLMP Reg.LMP_MAINT_WIN_START s.frm.maintStart).fset pgLMP Reg.LMP_MAINT_WIN_LEN s.frm.maintLen).capture pgLMP
      .lengthExceedsExtent 0

/-- Every RWL field of the frame registers takes effect (02 R35). -/
def State.takeFrameRegs (s : State) : State :=
  let s := s.takePeriod
  let s := { s with frm := { s.frm with
    tickSrc := s.flag pgLMP Reg.LMP_FRAME_CTRL_TICK_SRC
    tickEdge := s.flag pgLMP Reg.LMP_FRAME_CTRL_FTICK_EDGE
    ftickOutEn := s.flag pgLMP Reg.LMP_FRAME_CTRL_FTICK_OUT_EN
    groupMap := (s.reg pgLMP 0 0x058).toNat } }
  s.takeDeadlines.takeMaint.takeScheds

/-- The frame registers with the values of a frame record (19 Table 5, TYPE 0x03). -/
def State.putFrameRegs (s : State) (f : FrameCfg) : State :=
  let s := s.fset pgLMP Reg.LMP_FRAME_CTRL_TICK_SRC (if f.tickSrc then 1 else 0)
  let s := s.fset pgLMP Reg.LMP_FRAME_CTRL_FTICK_EDGE (if f.tickEdge then 1 else 0)
  let s := s.fset pgLMP Reg.LMP_FRAME_CTRL_FTICK_OUT_EN (if f.ftickOutEn then 1 else 0)
  let s := (s.fset pgLMP Reg.LMP_PUB_OFFSET_OFFSET f.pubUs).fset pgLMP Reg.LMP_PLAN_OFFSET_OFFSET f.planUs
  let s := (s.fset pgLMP Reg.LMP_MAINT_WIN_START f.maintStart).fset pgLMP Reg.LMP_MAINT_WIN_LEN f.maintLen
  let s := (s.fset pgTBU Reg.TBU_PERIOD_US f.periodUs).fset pgTBU Reg.TBU_PHASE_US f.phaseUs
  let s := s.setReg pgLMP 0 0x058 (BitVec.ofNat 32 f.groupMap)
  (List.range 8).foldl (fun s g => (List.range 64).foldl (fun s k =>
    let w := (f.wins.find? fun w => w.group == g && w.k == k).getD { group := g, k := k, start := 0, len := 0, part := 0, kind := 0 }
    (s.setReg (pgSched g) 0 (0x040 + 8 * k) (BitVec.ofNat 32 (w.start % 2 ^ 20 + w.len % 2 ^ 12 * 2 ^ 20))).setReg (pgSched g) 0
      (0x044 + 8 * k) (BitVec.ofNat 32 (w.len / 2 ^ 12 % 2 ^ 8 + w.part % 8 * 2 ^ 8 + w.kind % 4 * 2 ^ 11))) s) s

/-- An admitted configuration update takes effect (19 R464). -/
def State.takeUpdate (s : State) : State :=
  match s.updFrame with
  | some f => { s.putFrameRegs f with updFrame := none }
  | none => s

/-- Admitted guarantee entries take effect, those of a signed update no longer shed (13 R339, R342). The change was admitted
before; where the capacity has shrunk since, it is admitted against the new limits, and discarded where it fails them. -/
def State.takeGuars (s : State) : State :=
  let s := s.creditNow
  let t := if s.rgl.guarNext.isEmpty ∨ s.bwsFit (s.bwsAdmit fun _ => none) then
      s.rgl.guarNext.foldl (fun s x =>
        let u := s.setReg pgRGL x.1 0x054 x.2
        if s.rgl.guarUpd.contains x.1 then u.setShed x.1 false else u) s
    else s.capture pgRGL .guaranteeRejected 0
  { t with rgl := { t.rgl with guarNext := [], guarUpd := [] } }.admittedReg

/-- Guarantee windows start afresh at a tick (13 R343). -/
def State.guarTick (s : State) : State :=
  { s with rgl := { s.rgl with
    served := []
    waited := []
    winAt := ((List.range 64).filter fun e => gWin (s.gentry e) != 0).map fun e => (e, s.now) } }

/-! ## Jobs at the tick (02 R49 to R52) -/

/-- The work of a job stops on the Wicks and engines. -/
def State.haltJob (s : State) (j : Job) : State :=
  let s := s.stopUnits j.tag
  { s with
    sconces := s.sconces.map fun kc =>
      (kc.1, { kc.2 with sorter := kc.2.sorter.filter (fun r => r.tag != j.tag), sampler := kc.2.sampler.filter (· != j.tag) })
    ccu := { s.ccu with pub := match s.ccu.pub with
      | some p => if p.tag = j.tag then none else some p
      | none => none } }

/-- A frame job that did not complete is cancelled, and its versions are discarded in each buffer it wrote (02 R50): a job
that has not started has written none, so its slots stay where another job of its frame writes them; one that has started
counts as having written every buffer it writes (log entry 23). -/
def State.epochCancel (s : State) (j : Job) : State :=
  let t := (s.haltJob j).setJob (j.stopAll.finish .cancelled .cancelledByEpoch)
  if j.notStarted then t.dropTags j else t.discard j

/-- A job as it was when it was dequeued, to be run again as an ordinary job (02 R52). -/
def Job.fresh (j : Job) : Job :=
  { j with
    runAhead := false, phase := .waiting, st := .queued, err := .ok, progress := 0, place := 0, step := 0, total := 0, tries := 0
    fail := none, prog := if j.opc = .tileRun then df j.desc 2 15 0 else 0, progGen := 0, image := none, units := []
    lanterns := [], sts := [], seqs := [], sels := [], aux := [], since := 0 }

/-- A run-ahead job fails validation: its writes are discarded and it is to be run once more, its outputs in the same slots
(02 R52); one that has not started has written nothing. At the last tick it is cancelled instead (02 R35). -/
def State.runAheadFail (s : State) (last : Bool) (j : Job) : State :=
  let s := { s with ccu := { s.ccu with finNext := s.ccu.finNext.filter fun g => g.tag != j.tag } }
  if last then s.epochCancel j
  else
    let t := s.haltJob j
    (if j.notStarted then t else t.restart j).setJob j.fresh

/-- Every buffer commits frame `n`. -/
def State.commitAll (s : State) (n : Word32) : State := { s with vbufs := s.vbufs.map fun v => v.commit n }

/-- The jobs at the tick that closes frame `n`: cancellation, commit, validation of the next frame's run-ahead jobs. At the
last tick every run-ahead job is cancelled, one that still waits or has not begun among them: R35 does not say whether those
are among 'the run-ahead jobs it would validate' (DESIGN CHOICE, log entry 23). -/
def State.jobsTick (s : State) (n : Word32) (last : Bool) : State :=
  let s := s.jobs.foldl (fun (t : State) (j : Job) => if j.frameJob && j.f == n && j.phase != .ended then t.epochCancel j else t) s
  let s := s.commitAll n
  let ra := s.jobs.filter fun (j : Job) => j.runAhead && j.f == n + 1
  let bad := s.failing (n + 1) (ra.length + 1) []
  ra.foldl (fun (t : State) (j : Job) =>
    if (j.phase != .ended || j.st == .done) && (last || bad.contains j.tag) then t.runAheadFail last j
    else t.setJob { j with runAhead := false }) s

/-! ## The tick -/

/-- The tick record of the epoch just opened (09 Table 3). -/
def State.tickRecord (s : State) (subst stepped : Bool) : State :=
  let ns := s.tickNs
  s.storeAt (s.cfg.tickLog + 16 * (s.epoch.toNat % 256))
    (toLE 4 (ns % 1000000000) ++ toLE 4 (ns / 1000000000) ++
      toLE 8 (s.epoch.toNat + (if subst then 2 ^ 32 else 0) + (if s.tbuSt = 2 then 2 ^ 33 else 0) +
        (if stepped then 2 ^ 34 else 0)))

/-- The CCU at a tick: the registry is cleared and what was published is committed (10 R261, R245). -/
def State.ccuTick (s : State) : State :=
  let s := { s with ccu := { s.ccu with
    cands := [], deadline := false, fin := none, finNext := none
    finReg := s.ccu.finNext.filter fun g => g.frame == s.epoch
    pipes := s.ccu.pipes.filter fun p => match p.2 with
      | .cand _ _ _ _ _ => false
      | .fin _ _ _ => true } }
  s.setReg pgCCU 0 0x048 s.mepoch

/-- TBU_NEXT after a tick whose time stamp has been taken (17 R422): it advances by the period; a new period counts from the
tick's time; PHASEOK then clears unless the phase still holds, and likewise where a new phase does not hold. -/
def State.nextTick (s : State) (oldPeriod oldPhase : Nat) : State :=
  let per := s.frm.periodUs * 1000 * nsUnit
  let anew := s.frm.tickSrc || s.frm.periodUs != oldPeriod
  let next := if anew then s.tbu.stamp + per else s.tbu.next + per
  let s := { s with tbu := { s.tbu with next := next } }
  if (anew || s.frm.phaseUs != oldPhase) && next / nsUnit % (s.frm.periodUs * 1000) != s.frm.phaseUs * 1000 then
    s.fset pgTBU Reg.TBU_STATE_PHASEOK 0
  else s

/-- A tick (02 R36, R37, R49 to R52): the step of the time base, the Snuffers, the jobs of the frame it closes, the epoch, the
values that take effect, the records, and what starts afresh with the frame it opens. -/
def State.tick (s : State) (subst : Bool) : State :=
  let first := s.frm.firstPending
  let last := s.frm.stopPending
  let stepped := s.tbu.step.isSome
  let n := s.epoch
  let period := s.frm.periodUs
  let phase := s.frm.phaseUs
  let s := (s.snuffersTick first).stepApply
  let s := { s with tbu := { s.tbu with stamp := s.tbu.ctr } }
  let s := s.jobsTick n last
  let s := s.setReg pgLMP 0 0x044 (n + 1)
  let s := (s.takeUpdate.takeFrameRegs).takeGuars
  let s := s.nextTick period phase
  let s := { s with frm := { s.frm with firstPending := false, stopPending := false, tickAt := some s.now, maintSeen := false } }
  let s := if last then s.fset pgLMP Reg.LMP_FRAME_CTRL_ENABLE 0 else s
  let s := if s.frm.ftickOutEn then s.emit .ftickOut else s
  let s := (s.tickRecord subst stepped).noteTick s.tickNs stepped
  let s := ((s.ccuTick.coverageTick s.epoch).trimmerTick).guarTick
  let s := (s.camSettleAll.ethDrain).retagSweep
  s.flow

/-! ## Sources (02 R33, R34; 17 R422) -/

/-- Whether ticks are generated. -/
def State.ticking (s : State) : Bool := s.flag pgLMP Reg.LMP_FRAME_CTRL_ENABLE

/-- TBU_TICK: the counter reaches TBU_NEXT with the TBU as the source. -/
def execTbuTick (e : Nat) (s : State) : Out :=
  onAwake s (s.ticking && !s.frm.tickSrc && s.dueCtr e (s.tbu.next / nsUnit)) ((elapse e s).tick false)

/-- The moment the period of R34 counts from: the previous tick, or the edge at which ENABLE took effect. -/
def State.tickBase (s : State) : Nat := if s.frm.firstPending then s.frm.enabledAt else s.frm.tickAt.getD s.frm.enabledAt

/-- An ignored early edge is counted (02 R34). -/
def State.tickEarly (s : State) : State := ((s.fadd pgLMP Reg.LMP_TICK_EARLY_COUNT 1).event pgLMP).pulse 0

/-- FTICK_IN_EDGE (02 R34): the first edge after ENABLE is a tick; a later one is early, or a tick from 0.9 to 1.1 periods
after the previous tick. An edge not selected, or with another source, generates none. -/
def execFtickInEdge (e : Nat) (rising : Bool) (s : State) : Out :=
  onAwake s (s.ticking && s.frm.tickSrc && rising == !s.frm.tickEdge) <|
    let s := elapse e s
    let d := s.now - s.tickBase
    let per := s.frm.periodUs * edgesPerUs
    if s.frm.firstPending then s.tick false
    else if d * 10 < per * 9 then s.tickEarly
    else if d * 10 ≤ per * 11 then s.tick false
    else s

/-- SUBSTITUTE_TICK (02 R34): no edge by 1.1 periods. -/
def execSubstituteTick (e : Nat) (s : State) : Out :=
  onAwake s (s.ticking && s.frm.tickSrc && s.dueNow e (s.tickBase + s.frm.periodUs * edgesPerUs * 11 / 10)) <|
    ((((elapse e s).fadd pgLMP Reg.LMP_TICK_SUBST_COUNT 1).event pgLMP).pulse 1).tick true

/-! ## ENABLE (02 R35, R38; 17 R422) -/

/-- The first TBU_NEXT after ENABLE: the smallest time in ns at least 1 ms ahead that is congruent to the phase. -/
def firstNext (ns period phase : Nat) : Nat :=
  let a := ns + 1000000
  let r := a % period
  if r ≤ phase then a + (phase - r) else a + (period - r) + phase

/-- ENABLE becomes 1: the frame registers take effect and the first tick is set up. -/
def State.enableTicks (s : State) : State :=
  let s := s.takeUpdate.takeFrameRegs
  let nx := firstNext s.tbu.ns (s.frm.periodUs * 1000) (s.frm.phaseUs * 1000)
  let s := { s with
    tbu := { s.tbu with next := nx * nsUnit }
    frm := { s.frm with enabledAt := s.now, firstPending := true, stopPending := false } }
  let s := s.fset pgLMP Reg.LMP_FRAME_CTRL_ENABLE 1
  if s.tbu.stepped then s else s.fset pgTBU Reg.TBU_STATE_PHASEOK 1

/-- A write of the bit ENABLE. -/
def State.writeEnable (s : State) (b : Bool) : State :=
  if b then
    if s.ticking then { s with frm := { s.frm with stopPending := false } }
    else if deadlinesOk (s.takeUpdate.takeFrameRegs).frm.pubUs (s.takeUpdate.takeFrameRegs).frm.planUs
        (s.takeUpdate.takeFrameRegs).frm.periodUs then s.enableTicks
    else s.capture pgLMP .lengthExceedsExtent 0
  else if s.ticking then { s with frm := { s.frm with stopPending := true } }
  else s

end Sys2Proof.Machine
end

