-- ==== Sys2Proof/Machine/Debug.lean ====
section
/-!
DEFINITION. Debug.lean: freezing, SRAM read-out, scan dump and the JTAG instructions that reach no register page (21 R487 to
R495; 11 R298).
-/

namespace Sys2Proof.Machine

open Sys2Proof

/-- Bit `k` of the debug scope granted (19 R472). -/
def State.scope (s : State) (k : Nat) : Bool := (s.fget pgFLT Reg.FLT_DEBUG_SCOPE).testBit k

/-! ## Freezing (21 R487 to R491) -/

/-- Whether a freeze request is present: the ball, the register bit, or EXTEST or CLAMP. -/
def State.freezeAsked (s : State) : Bool :=
  s.flag pgDBG Reg.DBG_FRZ_BALL || s.flag pgDBG Reg.DBG_CTRL_FREEZE || s.dbg.hold

/-- The freeze wire reaches a Snuffer that keeps running: line 387 and a stop, whatever the line's action (21 R491). -/
def State.freezeWire (s : State) (i : Sn) : State :=
  if s.snLive i then (s.lineAct i 387).commandStop i 3 387 else s

/-- A freeze request arrives: the first one starts the stopping of the domains and reaches the Snuffers, which freeze with the
device only under scope bit 3. -/
def State.freezeStart (s : State) : State :=
  if s.dbg.asked.isSome ∨ s.flag pgDBG Reg.DBG_FRZ_FROZEN then s
  else
    let s := { s with dbg := { s.dbg with asked := some s.now } }
    if s.scope 3 then s else (s.freezeWire .a).freezeWire .b

/-- Every affected domain has stopped after `lat` units of 10 ns. A freeze during an Ember entry aborts it: the device is in
Flame when it resumes (21 R490), and the Snuffers that the entry held are released. -/
def State.freezeDone (s : State) (lat : Nat) : State :=
  let s := { s with dbg := { s.dbg with asked := none } }
  let s := (s.fset pgDBG Reg.DBG_FRZ_FROZEN 1).fset pgDBG Reg.DBG_FRZ_SNUFFERS (if s.scope 3 then 1 else 0)
  let s := (s.fset pgDBG Reg.DBG_FRZ_LAT lat).fadd pgDBG Reg.DBG_FRZ_COUNT_COUNT 1
  if s.pwr.entering.isSome then
    let s := { s with pwr := { s.pwr with entering := none, since := s.realNow, lastAct := s.now } }
    ((s.fset pgPWR Reg.PWR_CTRL_STATE 0).snRestart .a).snRestart .b
  else s

/-- Every die but the always-on domain and the Snuffers goes back to its state before power good (19 R450; 22 R500): what stays
is the environment's (with the level of FREEZE_N), fuses and flash, the Snuffers, the RS values with the last-wake record and the wake enables. -/
def State.chipReset (s : State) : State :=
  let t : State := { State.reset with
    pending := s.pending, now := s.now, out := s.out, draws := s.draws, fuses := s.fuses
    flash := { s.flash with events := s.flash.events ++ s.flog }
    snA := s.snA, snB := s.snB, hUp0 := s.hUp0, hUp1 := s.hUp1, cfg := s.cfg
    trm := { Trm.zero with opSec := s.trm.opSec, counts := s.trm.counts }
    dbg := { Dbg.zero with frz := s.dbg.frz, frzSn := s.dbg.frzSn }
    pwr := { Pwr.zero with lastAct := s.now, since := s.realNow, dark := s.pwr.dark }
    regs := s.regs.filter fun r =>
      let page := r.1 / 2 ^ 20
      let off := r.1 % 2 ^ 12
      (page == pgPWR && decide (0x050 ≤ off) && decide (off ≤ 0x060)) ||
        (page == pgTRM && (off == 0x064 || off == 0x06C || off == 0x070)) || page == pgSNA || page == pgSNB }
  let t := t.variantRegs
  if s.flag pgDBG Reg.DBG_FRZ_BALL then t.fset pgDBG Reg.DBG_FRZ_BALL 1 else t

/-- A frozen device resumes: refresh resumes within 1.0 µs (21 R494). -/
def State.resume (s : State) : State :=
  let s := (s.fset pgDBG Reg.DBG_FRZ_FROZEN 0).fset pgDBG Reg.DBG_FRZ_SNUFFERS 0
  { s with
    dbg := { s.dbg with asked := none }
    dmc := s.dmc.map fun c => (c.1, { c.2 with refAt := c.2.refAt.map fun r => (r.1, Nat.max r.2 s.now) }) }

/-- The requests have changed: with none left, a scanned device takes a cold-boot reset and waits for boot step 1, and another
resumes (21 R493, R494). -/
def State.freezeEnd (s : State) : State :=
  if s.freezeAsked then s
  else if s.flag pgDBG Reg.DBG_FRZ_SCANNED then s.chipReset
  else s.resume

/-- A write of DBG_CTRL (21 R487, R493): FREEZE = 1 needs scope bit 0, and SCAN a write through JTAG while the device is frozen
and scope bits 0 and 2. -/
def State.dbgCtrl (s : State) (w : Writer) (v : Word32) : State :=
  let s :=
    if v.getLsbD 0 then
      if s.scope 0 then (s.fset pgDBG Reg.DBG_CTRL_FREEZE 1).freezeStart
      else s.capture pgDBG .partitionViolation 0
    else if s.flag pgDBG Reg.DBG_CTRL_FREEZE then (s.fset pgDBG Reg.DBG_CTRL_FREEZE 0).freezeEnd
    else s
  if v.getLsbD 1 && w == .jtag && s.flag pgDBG Reg.DBG_FRZ_FROZEN && s.scope 0 && s.scope 2 then
    s.fset pgDBG Reg.DBG_FRZ_SCANNED 1
  else s

/-- FREEZE_REQUEST: FREEZE_N goes low. -/
def execFreezeRequest (s : State) : Out :=
  .next (if s.powered then (s.fset pgDBG Reg.DBG_FRZ_BALL 1).freezeStart else s)

/-- FREEZE_COMPLETE: at most 1.2 µs after the request. -/
def execFreezeComplete (lat : Nat) (s : State) : Out :=
  .next (if s.powered && s.dbg.asked.isSome && decide (lat ≤ 120) then s.freezeDone lat else s)

/-- FREEZE_RELEASE: FREEZE_N goes high. -/
def execFreezeRelease (s : State) : Out :=
  .next (if s.powered && s.flag pgDBG Reg.DBG_FRZ_BALL then (s.fset pgDBG Reg.DBG_FRZ_BALL 0).freezeEnd else s)

/-! ## JTAG (21 R492, R495) -/

/-- The instruction register takes a code. -/
def State.setIr (s : State) (c : Nat) : State := { s with dbg := { s.dbg with ir := c } }

/-- A private instruction without its scope bits acts as BYPASS. -/
def State.noScope (s : State) : State := (s.setIr 0xFF).capture pgDBG .partitionViolation 0

/-- EXTEST: freezes the device as FREEZE_N does, until a cold-boot reset, and drives the balls from the boundary register. -/
def execExtest (s : State) : Out :=
  .next (if s.powered then { (s.setIr 0x00) with dbg := { (s.setIr 0x00).dbg with hold := true } }.freezeStart else s)

/-- CLAMP: as EXTEST, with the boundary outputs held. -/
def execClamp (s : State) : Out :=
  .next (if s.powered then { (s.setIr 0x03) with dbg := { (s.setIr 0x03).dbg with hold := true } }.freezeStart else s)

/-- The part code of IDCODE by variant. -/
def State.partCode (s : State) : Nat :=
  if s.lanterns = 8 then 0x5880 else if s.lanterns = 4 then 0x5440 else 0x5220

/-- The identification code. -/
def State.idcode (s : State) : Nat :=
  s.fget pgFUS Reg.BLOCK_VER_MAJOR % 16 * 2 ^ 28 + s.partCode * 2 ^ 12 + Config.jep106.toNat * 2 + 1

/-- IDCODE. -/
def execIdcode (s : State) : Out := .next (if s.powered then (s.setIr 0x01).answer 4 s.idcode else s)

/-- SAMPLE/PRELOAD: a preload puts levels into the boundary register; a sample changes nothing. -/
def execSamplePreload (pins : Option (List Bool)) (s : State) : Out :=
  let t := s.setIr 0x02
  .next (if s.powered then (match pins with
    | some l => { t with dbg := { t.dbg with bsr := l } }
    | none => t) else s)

/-- The parity bits of 64 bytes, one a byte, and of an address (12 R301); which sense they have is free (log entry 25). -/
def ones (v : Nat) : Nat := ((List.range 48).filter fun i => v.testBit i).length
def parityBit (v : Nat) : Nat := (ones v + (if Config.parityOdd then 1 else 0)) % 2
def byteParity (bs : List Byte) : Nat := bs.foldr (fun b acc => parityBit b.toNat + 2 * acc) 0

/-- The status words of 8 queues in a row as the mirror holds them. -/
def State.mirrorWord (s : State) (a : Nat) : List Byte :=
  (List.range 8).flatMap fun k => toLE 8 (s.statusWord ((a - 0x8302000000) / 8 + k)).toNat

/-- The word of SRAM at a line address (21 R492): a poisoned word has every byte-parity bit inverted and a correct
address parity (12 R304); the data behind the mark are free. -/
def State.sramWord (s : State) (a : Nat) : DbgWord :=
  let mk := fun (bs : List Byte) (bad : Bool) =>
    let bs := if bad then (List.range 64).map (Config.freeByte s.draws) else bs
    ({ data := bs, parity := if bad then byteParity bs ^^^ (2 ^ 64 - 1) else byteParity bs, apar := parityBit a == 1
       poisoned := bad, valid := true } : DbgWord)
  let bad := s.poison.contains (a / 64)
  match s.region a with
  | .reservoir _ => mk (s.load a 64) bad
  | .pad _ => mk (s.load a 64) bad
  | .sbuf _ => mk (s.load a 64) bad
  | .mapSram => mk (readBytes s.ccu.sram (a - 0x8300000000) 64) (s.ccu.bad.contains ((a - 0x8300000000) / 64))
  | .mirror => mk (s.mirrorWord a) false
  | _ => DbgWord.invalid

/-- DBG_MEM: one scan. It shifts out the word fetched before, none after the instruction is loaded, and fetches the next. -/
def execDbgMem (addr : Nat) (s : State) : Out :=
  .next (if !s.powered then s
    else if !(s.scope 0 && s.scope 1) then s.noScope
    else
      let t := s.emit (.dbgWord (if s.dbg.ir = 0x21 then s.dbg.word else DbgWord.invalid))
      let w := if s.flag pgDBG Reg.DBG_FRZ_FROZEN then s.sramWord (addr % 2 ^ 48 / 64 * 64) else DbgWord.invalid
      { t with draws := t.draws + 1, dbg := { t.dbg with ir := 0x21, word := w } })

/-- The codes of instructions other than BYPASS. -/
def jtagCodes : List Nat := [0x00, 0x01, 0x02, 0x03, 0x20, 0x21]

/-- BYPASS: a code that is no other instruction, or a private one without its scope. -/
def execBypass (code : Nat) (s : State) : Out :=
  .next (if !s.powered then s
    else if code = 0x20 ∧ !s.scope 0 then s.noScope
    else if code = 0x21 ∧ !(s.scope 0 && s.scope 1) then s.noScope
    else if jtagCodes.contains (code % 256) then s
    else s.setIr (code % 256))

end Sys2Proof.Machine
end

