-- ==== Sys2Proof/Machine/Pcie.lean ====
section
/-!
DEFINITION. Pcie.lean: apertures, function-level reset and link state of the PCIe host ports (16 R407 to R412; 02 R53).
-/

namespace Sys2Proof.Machine

open Sys2Proof

/-- The number of an aperture among all ports and functions. -/
def apKey (port fn ap : Nat) : Nat := (9 * port + fn) * 64 + ap

/-- A buffer-table entry of zeros. -/
def BufEntry.zero : BufEntry :=
  { base0 := 0, r := false, w := false, versioned := false, host := false, base1 := 0, size := 0, rsvd := false }

/-- A write of PCH_AP_LO captures the buffer-table entry of its handle for the aperture selected (16 R409); a partition
without a buffer table has none to capture (03 R60). -/
def State.apCapture (s : State) (port fn : Nat) : State :=
  let pg := pgPCH port fn
  let ap := s.fget pg Reg.PCH_APSEL_AP
  let p := fn - 1
  let e := if fn = 0 ∨ s.noTab p then BufEntry.zero else s.entry p (s.fgetI pg ap Reg.PCH_AP_LO_HANDLE)
  { s with aps := aset s.aps (apKey port fn ap) e }

/-- What an access of an aperture meets (16 R409): its address; a slot that does not hold the committed version (02 R53);
another failure with its code. -/
inductive ApRes where
  | at_ (a : Nat)
  | stale
  | fail (e : Err)
  deriving DecidableEq, Repr

/-- The outcome of an access of `n` bytes at offset `off` of an aperture. -/
def State.apResolve (s : State) (port fn ap off n : Nat) (write : Bool) : ApRes :=
  let pg := pgPCH port fn
  let p := fn - 1
  let e := aget BufEntry.zero s.aps (apKey port fn ap)
  let slot := s.fgetI pg ap Reg.PCH_AP_LO_SLOT
  let o := s.fgetI pg ap Reg.PCH_AP_HI_BASE * 2 ^ 30 + off
  let base := if slot = 0 then e.base0 else e.base1
  if s.fgetI pg ap Reg.PCH_AP_LO_VALID = 0 ∨ !e.host ∨ e.rsvd ∨ !(if write then e.w else e.r) ∨ (!e.versioned ∧ slot ≠ 0) then
    .fail .partitionViolation
  else if e.size < o + n then .fail .lengthExceedsExtent
  else if e.versioned ∧ (s.vbuf p (s.fgetI pg ap Reg.PCH_AP_LO_HANDLE)).committed ≠ some slot then .stale
  else if !s.cfg.mayAccess (.pcie port fn) p (base + o) n write then .fail s.cfg.denyErr
  else match s.denied p (base + o) n write with
    | some x => .fail x
    | none => .at_ (base + o)

/-- The answer to an access that is not served: zero data for a read; a write is discarded. -/
def State.apZero (s : State) (data : Option (List Byte)) (len : Nat) : State :=
  match data with
  | none => s.emit (.data (List.replicate len 0))
  | some _ => s

/-- One access through an aperture. An error goes to the PCH page and its line for PCIe events, 349 (16 R406; 20 Table 4). -/
def State.apAccess (s : State) (port fn ap off : Nat) (data : Option (List Byte)) (len : Nat) (chk : ReadCheck) : State :=
  let pg := pgPCH port fn
  match s.apResolve port fn ap off ((data.map (·.length)).getD len) data.isSome with
  | .fail e => (s.captureLine pg e (ap * 2 ^ 30 + off) 349).apZero data len
  | .stale => (s.capture (pgQueue (fn - 1)) .partitionViolation (ap * 2 ^ 30 + off)).apZero data len
  | .at_ a =>
    let n := (data.map (·.length)).getD len
    if s.bondWait a n then s
    else
      let s := s.traffic (some (.pcie port fn)) (19 + port) 4 (fn - 1) a n data.isSome
      match data with
      | some bs => s.storeAt a bs
      | none =>
        let s := s.guestIn a len
        match (s.readRes a len chk).err with
        | none => (s.readMarks a len chk).emit (.data (s.load a len))
        | some e => ((s.readMarks a len chk).captureLine pg e a 349).apZero none len

/-- The recovery window: the first 8 MiB of the Map SRAM, in BAR2 of PF0 while the device is in RECOVERY (10 R243; 19 R459). -/
def recoveryBytes : Nat := 8 * 2 ^ 20
def State.inRecovery (s : State) : Bool := s.live && s.fget pgFLT Reg.FLT_BOOT_STATE == 2

/-- An access of PF0 to the recovery window; what lies outside it answers as no register does (20 R476). -/
def State.recoveryAccess (s : State) (off : Nat) (data : Option (List Byte)) (len : Nat) : State :=
  match data with
  | some bs =>
    if recoveryBytes < off + bs.length then s else { s with ccu := { s.ccu with sram := writeBytes s.ccu.sram off bs } }
  | none =>
    if recoveryBytes < off + len then s.emit (.data (List.replicate len 0xFF))
    else s.emit (.data ((List.range len).map fun i => readByte s.ccu.sram (off + i)))

/-- APERTURE_ACCESS (16 R409): a read of `len` bytes, or a write of `data`, by a partition's function; in RECOVERY, by PF0 to
the recovery window. -/
def execApertureAccess (w : Writer) (ap off : Nat) (data : Option (List Byte)) (len : Nat) (chk : ReadCheck) (s : State) : Out :=
  match w with
  | .host port 0 => .next (if s.inRecovery && s.portUp port && ap == 0 then s.recoveryAccess off data len else s)
  | .host port fn =>
    onAwake s (s.portUp port && decide (1 ≤ fn) && decide (fn ≤ 8) && decide (ap < 64) && decide (off < 2 ^ 30))
      (s.apAccess port fn ap off data len chk).touch
  | _ => .next s

/-- APERTURE_READ_TIMEOUT (16 R411): a read that has waited PCH_CTO is completed with zero data. -/
def execApertureReadTimeout (w : Writer) (ap len e : Nat) (s : State) : Out :=
  match w with
  | .host port fn =>
    let pg := pgPCH port fn
    onAwake s (s.portUp port && decide (1 ≤ fn) && decide (fn ≤ 8) && decide (ap < 64) &&
        e == s.fget pg Reg.PCH_CTO_US * edgesPerUs) <|
      (((elapse e s).fadd pg Reg.PCH_CTO_COUNT_COUNT 1).captureLine pg .deadlineMissed (ap * 2 ^ 30) 349).apZero none len
  | _ => .next s

/-- FUNCTION_LEVEL_RESET (16 R412): the function's apertures and its MSI-X table are cleared; queues, jobs and buffers are
untouched. -/
def execFunctionLevelReset (port fn : Nat) (s : State) : Out :=
  onLive s (decide (port < 2) && decide (fn ≤ 8))
    { s with
      regs := s.regs.filter fun r =>
        !(r.1 / 2 ^ 20 == pgPCH port fn && (r.1 % 2 ^ 12 == 0x044 || r.1 % 2 ^ 12 == 0x048))
      aps := s.aps.filter fun x => x.1 / 64 != 9 * port + fn
      msixTab := s.msixTab.filter fun x => x.1 / 8192 != 9 * port + fn
      msixPend := s.msixPend.filter fun k => k / 2048 != 9 * port + fn }

/-- The state with the link of a PCIe port up or down. -/
def State.setPort (s : State) (port : Nat) (up : Bool) : State := if port = 0 then { s with hUp0 := up } else { s with hUp1 := up }

/-- PCIE_LINK_DOWN (16 R406, R412): line 344 or 345. -/
def execPcieLinkDown (port : Nat) (s : State) : Out :=
  onLive s (decide (port < 2) && s.portUp port) ((s.setPort port false).pulse (344 + port))

/-- PCIE_LINK_UP (16 R412). -/
def execPcieLinkUp (port : Nat) (s : State) : Out := onLive s (decide (port < 2) && !s.portUp port) (s.setPort port true)

end Sys2Proof.Machine
end

