-- ==== Sys2Proof/Machine/RegWrite.lean ====
section
/-!
DEFINITION. RegWrite.lean: reads and writes of registers: who reaches a page, alignment, ownership, the lock, what a write of
each register does, what a read of each register shows (00 R16 to R18; 16 R408; 19 R452; 20 R476 to R485; 21 R496).
-/

namespace Sys2Proof.Machine

open Sys2Proof

/-! ## Who reaches a page (16 R408; 19 R452; 20 R475, R476) -/

/-- Whether a page exists on this part and its block is in service and powered. -/
def State.pageServes (s : State) (page : Nat) : Bool :=
  (pageInfo s.lanterns page).isSome && (decide (page < 0x200) || s.lanternUp ((page - 0x200) / 0x80)) &&
    (page != pgSNA || s.snA.supply) && (page != pgSNB || s.snB.supply)

/-- The block of a page of this part. -/
def State.pageBlock (s : State) (page : Nat) : Block := ((pageInfo s.lanterns page).map (·.1)).getD .fus

/-- LOCK.OWNER of a page. -/
def State.owner (s : State) (page : Nat) : Nat := s.fget page Reg.LOCK_OWNER

/-- The pages in BAR0 of the virtual function of partition `p` at port `h` (16 Table 9). -/
def State.vfPages (s : State) (h p : Nat) : List Nat :=
  [pgQueue p, pgPCH h (p + 1)] ++ (((List.range 72).map (· + 0x0A0)).filter fun g => s.owner g == p).take 14

/-- The pages that answer before READY is first set. -/
def earlyPage (page : Nat) : Bool := page == pgFLT || page == pgFUS || page == pgPWR

/-- Whether a page answers a writer as a reachable page. -/
def State.reaches (s : State) (w : Writer) (page : Nat) : Bool :=
  s.pageServes page && (match w with
    | .flint => true
    | .jtag => s.released || earlyPage page
    | .host _ 0 => s.released || earlyPage page
    | .host h (p + 1) => s.released && (s.vfPages h p).contains page && s.owner page == p)

/-- Whether a writer's access arrives at the registers at all: in Ember a host's requests take the way of 18 R431, and a frozen
device is reached through JTAG alone. -/
def State.regsUp (s : State) (w : Writer) : Bool :=
  match w with
  | .jtag => s.powered && s.scope 0
  | _ => s.live && s.writerUp w && decide (s.fget pgPWR Reg.PWR_CTRL_STATE ≤ 1)

/-- Whether a size and an offset are those of one register or of two (20 R477). -/
def accessAligned (off size : Nat) : Bool :=
  ((size == 4 && off % 4 == 0) || (size == 8 && off % 8 == 0)) && decide (off + size ≤ 4096)

/-- Whether a writer may write a page by its owner (20 R483): JTAG reaches it as PF0, and PF0 acts as P0. -/
def State.mayWrite (s : State) (w : Writer) (page : Nat) : Bool :=
  match w with
  | .flint => true
  | _ => s.owner page == writerPart w

/-! ## The page head (20 R479 to R485) -/

/-- INT_FORCE: a host's write is refused. -/
def State.intForce (s : State) (w : Writer) (page : Nat) (v : Word32) : State :=
  match w with
  | .host _ _ => s.capture page .partitionViolation 0
  | _ => s.forceLines page v

/-- A write to the fields of a register (00 R16 to R18): RW fields take the value, RWL fields do so while the page is not
locked, and a locked field that the value would change is discarded and captured. Bits of `skip` are left to the caller. -/
def State.putFields (s : State) (page idx : Nat) (b : Block) (off : Nat) (v skip : Word32) : State :=
  let old := s.reg page idx off
  let rw := accMask b off [.rw]
  let rwl := accMask b off [.rwl]
  let m := (if s.flag page Reg.LOCK_LOCKED then rw else rw ||| rwl) &&& ~~~skip
  let t := s.setReg page idx off ((old &&& ~~~m) ||| (v &&& m))
  if s.flag page Reg.LOCK_LOCKED && (v &&& rwl) != (old &&& rwl) then t.capture page .partitionViolation 0 else t

/-- LOCK (20 R484): OWNER is RWL; a write of 1 sets the lock, a write of 0 leaves it. -/
def State.lockWrite (s : State) (page : Nat) (b : Block) (v : Word32) : State :=
  let t := s.putFields page 0 b 0x030 v 0x80000000
  if v.getLsbD 31 then t.fset page Reg.LOCK_LOCKED 1 else t

/-! ## Registers with an effect -/

/-- A write of RGL_GENTRY (13 R336, R339): it is admitted, in force from the next tick, or discarded. -/
def State.gentryWrite (s : State) (v : Word32) : State :=
  let e := s.fget pgRGL Reg.RGL_GSEL_ENTRY
  if s.flag pgRGL Reg.LOCK_LOCKED then s.putFields pgRGL e .rgl 0x054 v 0
  else
    let w := v &&& accMask .rgl 0x054 [.rwl]
    let bws := s.bwsAdmit fun k => if k = e then some (gBw w) else none
    if p0Entry e (gBw w) (gWin w) || decide (100 < gWin w) || !s.bwsFit bws then s.capture pgRGL .guaranteeRejected 0
    else
      { s with rgl := { s.rgl with
        guarNext := (s.rgl.guarNext.filter fun x => x.1 != e) ++ [(e, w)], guarUpd := s.rgl.guarUpd.filter (· != e) } }

/-- A write of RGL_SLOTS (13 R328, R337): one that breaks the rule of the port is discarded. -/
def State.slotsWrite (s : State) (v : Word32) : State :=
  let i := (s.reg pgRGL 0 0x078).toNat % 256
  if s.flag pgRGL Reg.LOCK_LOCKED then s.putFields pgRGL i .rgl 0x07C v 0
  else if s.slotsOk (i % 32) (i / 32) (v.toNat % 1024) then s.putFields pgRGL i .rgl 0x07C v 0
  else s.capture pgRGL .guaranteeRejected 0

/-- A command of a queue-control page (03 R60, R61): doorbells recorded before it act first, though their context has not
arrived yet (03 R63). -/
def State.queueCmd (s : State) (w : Writer) (p : Nat) (v : Word32) : State :=
  let t := if s.ownsQueue p (s.selQid p) then s.waitingBells (s.selQid p) else s
  match v.toNat % 8 with
  | 1 => t.cmdEnable p (writerPort w)
  | 2 => t.cmdDisable p
  | 3 => t.cmdResume p
  | 4 => t.cmdSkip p
  | _ => s

/-- The commands the mailbox accepts, by what the device runs (19 R459, R463); before release nothing else serves it. -/
def State.mbAccepts (s : State) (cmd : Nat) : Bool :=
  let st := s.fget pgFLT Reg.FLT_BOOT_STATE
  if st = 1 then true else if st = 2 then cmd == 4 else if st = 3 then cmd == 3 else false

/-- The two references as they stand in the FLT page. -/
def State.mbIn (s : State) : Word64 := (s.reg pgFLT 0 0x058) ++ (s.reg pgFLT 0 0x054)
def State.mbOut (s : State) : Word64 := (s.reg pgFLT 0 0x060) ++ (s.reg pgFLT 0 0x05C)

/-- FLT_MB_CMD is written: a command starts unless one is running. -/
def State.mbStart (s : State) (cmd : Nat) (o : Option SignedObj) (fail : Option Nat) : State :=
  if s.flag pgFLT Reg.FLT_MB_STATUS_BUSY || !s.mbAccepts cmd then s
  else
    let s := (s.fset pgFLT Reg.FLT_MB_STATUS_BUSY 1).fset pgFLT Reg.FLT_MB_STATUS_PROGRESS 0
    { s with flt := { s.flt with mb := some { cmd := cmd, obj := o, inRef := s.mbIn, outRef := s.mbOut, fail := fail } } }

/-- What a write of one block-specific register does. A write of FLT_MB_CMD carries no object: the mailbox commands do, which
have their own rows (log entry 26). -/
def State.blockWrite (s : State) (w : Writer) (page : Nat) (b : Block) (off : Nat) (v : Word32) : State :=
  let plain := s.putFields page (s.bank page b off) b off v 0
  match b with
  | .lmpFrame => if off = 0x040 then (s.putFields page 0 b off v 1).writeEnable (v.getLsbD 0) else plain
  | .lmpQueue => if off = 0x054 then s.queueCmd w (page - 0x018) v else plain
  | .rgl =>
    if off = 0x054 then s.gentryWrite v
    else if off = 0x07C then s.slotsWrite v
    else if off = 0x04C then plain.budgetRegs
    else plain
  | .dbg =>
    if off = 0x040 then s.dbgCtrl w v
    else if 0x04C ≤ off ∧ off ≤ 0x058 ∧ !s.scope 4 then s.capture page .partitionViolation 0
    else plain
  | .tbu =>
    if off = 0x050 then s.incrFrac w v
    else if off = 0x054 then s.incrInt w v
    else if off = 0x058 then s.servoWrite w plain
    else if off = 0x05C then s.adjCommit w v
    else plain
  | .flt =>
    if off = 0x04C then (if 1 ≤ v.toNat % 16 ∧ v.toNat % 16 ≤ 9 then s.mbStart (v.toNat % 16) none none else s) else plain
  | .pch => if off = 0x044 then plain.apCapture ((page - 0x0F0) / 9) ((page - 0x0F0) % 9) else plain
  | .etqTx =>
    if off = 0x040 ∧ s.designatedQ ((page - 0x0A0) / 8) ((page - 0x0A0) % 8) then s.capture page .partitionViolation 0 else plain
  | _ => plain

/-- A write that reaches one register of a page. JTAG, which reaches every page as PF0 does, is held to the same registers of the
Snuffers' pages and to OWNER; only INT_FORCE is open to it and not to a host (log entry 25). -/
def State.writeOne (s : State) (w : Writer) (page : Nat) (b : Block) (off : Nat) (v : Word32) : State :=
  let snPage := b == .sna || b == .snb
  if snPage && w != .flint && off != 0x018 && off != 0x01C then s.capture page .partitionViolation 0
  else if !(snPage || s.mayWrite w page) then s.capture page .partitionViolation 0
  else if off = 0x018 then s.intClear page v
  else if off = 0x01C then (s.putFields page 0 b off v 0).pendRise page (s.pend page)
  else if off = 0x020 then s.intForce w page v
  else if off = 0x030 then s.lockWrite page b v
  else if off < 0x040 then s.putFields page 0 b off v 0
  else s.blockWrite w page b off v

/-- A write access of `size` bytes (20 R476, R477). -/
def State.writeReg (s : State) (w : Writer) (page off size : Nat) (v : Word64) : State :=
  if !s.reaches w page then s
  else if !accessAligned off size then s.capture page .misaligned 0
  else
    let b := s.pageBlock page
    let t := s.writeOne w page b off (v.setWidth 32)
    if size = 8 then t.writeOne w page b (off + 4) ((v >>> 32).setWidth 32) else t

/-! ## Reading -/

/-- Whether the low half of a 64-bit counter stands at an offset of a page (04 R119). -/
def ctrLo (b : Block) (off : Nat) : Bool :=
  match b with
  | .lmpQueue => off == 0x060
  | .wck => off == 0x048
  | .rglPort => decide (0x040 ≤ off) && (off % 0x20 == 0x00 || off % 0x20 == 0x08 || off % 0x20 == 0x10)
  | .dbg => off == 0x054
  | _ => false

/-- The bank in which the live high half of a counter stands. -/
def liveHi (b : Block) (idx : Nat) : Nat := if b == .dbg then 8 + idx else 1

/-- Counters of cycles that pass inside a unit's pipeline: bank conflicts, and the cycles an APW walks, fetches or scores. How
far they have advanced at a read is free (log entry 24). -/
def cycleCtr (b : Block) (off : Nat) : Bool :=
  match b with
  | .wck => off == 0x050
  | .scn => off == 0x044
  | .apw => off == 0x054
  | _ => false

/-- A counter of cycles that stands at `v` as a read finds it: 0 before any job has been placed; the stall counters saturate,
APW_BUSY wraps. -/
def State.cycleVal (s : State) (b : Block) (v : Word32) : Word32 :=
  if s.lmp.nextSeq = 0 then v
  else if b == .apw then v + Config.freeWord s.draws
  else BitVec.ofNat 32 (Nat.min (v.toNat + Config.freeNat s.draws) (2 ^ 32 - 1))

/-- The number of a Wick's state in WCK_STATE (04 Table 7). -/
def WickSt.code : WickSt → Nat
  | .idle => 0
  | .running => 1
  | .stopping => 2
  | .clearing => 3
  | .quarantined => 4
  | .testing => 5

/-- The state a Wick shows at TCLK edge `now`: a Wick that starts a unit clears its storage first (04 R107). -/
def Wick.stAt (x : Wick) (now : Nat) : WickSt := if x.st = .running ∧ now < x.clearTo then .clearing else x.st

/-- The registers of a Wick's page that show its state (04 Table 7; 05 R152). -/
def Wick.show (x : Wick) (now off stored : Nat) : Nat :=
  if off = 0x040 then (x.stAt now).code + (if x.st = .idle then 0 else x.tag * 2 ^ 16)
  else if off = 0x044 then x.part
  else if off = 0x058 then x.lastPc
  else if off = 0x05C then x.prog + x.progGen * 2 ^ 16
  else if off = 0x060 then x.unit
  else stored

/-- A word of the key hashes (19 Table 8). -/
def State.okhWord (s : State) : Nat :=
  let i := s.fget pgFUS Reg.FUS_OKHSEL_WORD
  s.fuses.okh.getD (i / 8) 0 / 2 ^ (32 * (i % 8)) % 2 ^ 32

/-- The slots of the pair in RGL_SLOTSEL that are held, and the capacity of its port. -/
def State.slotsShow (s : State) : Nat :=
  let i := (s.reg pgRGL 0 0x078).toNat % 256
  s.slotsUsed (i % 32) (i / 32) % 1024 * 2 ^ 10 + s.portCap (i % 32) % 1024 * 2 ^ 20

/-- PROGSTORE ranges in use: directory entries, and images that unretired jobs captured (05 R121). -/
def State.psUsed (s : State) : List (Nat × Nat) :=
  ((s.lmp.dirs ++ s.jobs.flatMap (·.cands)).map fun e => (e.addr, (e.size + 63) / 64 * 64)).eraseDups

/-- Free PROGSTORE in MiB (19 Table 8). -/
def State.psFree (s : State) : Nat :=
  if s.released then Nat.min ((s.cfg.psSize - s.psUsed.foldl (fun a u => a + u.2) 0) / 2 ^ 20) 65535 else 0

/-- The value of one register as the block stands; the counters of `cycleCtr` advance by free amounts. -/
def State.regValue (s : State) (page : Nat) (b : Block) (off : Nat) : Word32 :=
  let idx := s.bank page b off
  let v := s.reg page idx off
  if off = 0x014 then BitVec.ofNat 32 (s.fget page Reg.STATUS_INSVC + (if s.pend page then 2 else 0))
  else if off < 0x040 then v
  else if cycleCtr b off then s.cycleVal b v
  else match b with
    | .wck =>
      let w := 64 * ((page - 0x200) / 0x80) + (page - 0x200) % 0x80
      BitVec.ofNat 32 ((s.wick w).show s.now off v.toNat)
    | .scn =>
      if off = 0x04C then BitVec.ofNat 32 (s.cmbGroups (8 * ((page - 0x200) / 0x80) + (page - 0x200) % 0x80 - 0x40)) else v
    | .tbu =>
      if off = 0x040 then BitVec.ofNat 32 s.tbu.nsec
      else if off = 0x044 then BitVec.ofNat 32 s.tbu.nowSec
      else if off = 0x048 then BitVec.ofNat 32 (s.tbu.nowSec / 2 ^ 32)
      else if off = 0x04C then BitVec.ofNat 32 s.tbu.nowFrac
      else if off = 0x050 then BitVec.ofNat 32 s.tbu.incr
      else if off = 0x054 then BitVec.ofNat 32 (s.tbu.incr / 2 ^ 32)
      else v
    | .rgl =>
      if off = 0x054 then ((s.rgl.guarNext.find? fun x => x.1 == idx).map (·.2)).getD v
      else if off = 0x058 then
        BitVec.ofNat 32 ((if s.isShed idx then 1 else 0) + (if s.rgl.guarNext.any fun x => x.1 == idx then 2 else 0))
      else if off = 0x07C then BitVec.ofNat 32 (v.toNat % 1024 + s.slotsShow)
      else v
    | .lmpFrame => if off = 0x064 then BitVec.ofNat 32 s.openTargets else v
    | .lnk =>
      if off % 0x20 = 0x1C then
        let m := (off - 0x040) / 0x20
        let n := (page - 0x200) / 0x80
        let k := if m ≤ 1 then LinkMod.lc n m else if m = 2 then .ring n else .ring ((n + 7) % 8)
        BitVec.ofNat 32 (v.toNat / 2 ^ 16 * 2 ^ 16 + aget 0 (s.link k).wcnt idx % 2 ^ 16)
      else v
    | .dmcCh => if off = 0x04C then BitVec.ofNat 32 ((s.now - (s.ch (page - 0x070)).trainedAt) / 250000000) else v
    | .fus => if off = 0x054 then BitVec.ofNat 32 s.okhWord else v
    | .flt => if off = 0x068 then BitVec.ofNat 32 s.psFree else v
    | .dbg => if 0x04C ≤ off ∧ off ≤ 0x058 ∧ !s.scope 4 then 0 else v
    | _ => v

/-- What a read of one register does: the low half of a counter latches the high half; TBU_NOW_NS latches the other fields
of the counter (04 R119; 17 R416). A counter whose advance is free keeps what the read found. -/
def State.readLatch (s : State) (page : Nat) (b : Block) (off : Nat) : State :=
  let idx := s.bank page b off
  let s := if cycleCtr b off then (s.setReg page idx off (s.cycleVal b (s.reg page idx off))).draw else s
  if ctrLo b off then s.setReg page idx (off + 4) (s.reg page (liveHi b idx) (off + 4))
  else if b == .tbu && off == 0x040 then { s with tbu := { s.tbu with nowSec := s.tbu.sec, nowFrac := s.tbu.frac } }
  else s

/-- All ones over the width of an access (20 R476). -/
def allOnes (size : Nat) : Nat := 2 ^ (8 * size) - 1

/-- A read access of `size` bytes, with what it answers. After a scan dump the flops hold nothing that is known. -/
def State.readReg (s : State) (w : Writer) (page off size : Nat) : State :=
  if !s.reaches w page then s.answer size (allOnes size)
  else if !accessAligned off size then (s.capture page .misaligned 0).answer size (allOnes size)
  else if s.flag pgDBG Reg.DBG_FRZ_SCANNED then s.draw.answer size (Config.freeNat s.draws % 2 ^ (8 * size))
  else
    let b := s.pageBlock page
    let s := if b == .rglPort then s.stallNow else s
    let lo := (s.regValue page b off).toNat
    let t := s.readLatch page b off
    if size = 8 then (t.readLatch page b (off + 4)).answer 8 (lo + (t.regValue page b (off + 4)).toNat * 2 ^ 32)
    else t.answer 4 lo

/-! ## The commands -/

/-! ## The MSI-X table and the pending bits (16 Table 9, R412; 20 R480)

A host reaches those of its own function as the pages from 0x1000 on: 8 pages of the table, 16 bytes to a vector, and page 0x1008
with a pending bit for every vector. -/

/-- The first page of a function's table (log entry 35). -/
def pgMsix : Nat := 0x1000
/-- The page of its pending bits (log entry 35). -/
def pgPba : Nat := 0x1008

/-- One word of the table is written: of the control word the mask alone, of the others all but the low two bits of the
address. A vector that is pending and no longer masked sends its message. -/
def State.msixPut (s : State) (port fn b : Nat) (v : Word32) : State :=
  let k := msixKey port fn (b / 16)
  let d := b % 16 / 4
  if msixCount fn ≤ b / 16 then s
  else
    let x := if d = 3 then v &&& 1 else if d = 0 then v &&& ~~~3 else v
    let t := { s with msixTab := aset s.msixTab (4 * k + d) x }
    if !t.msixMasked k && t.msixPend.contains k then
      { t with msixPend := t.msixPend.filter (· != k) }.emit (.msix port fn (b / 16))
    else t

/-- One word of the table or of the pending bits; all ones beyond them. -/
def State.msixGet (s : State) (port fn page off : Nat) : Word32 :=
  if page = pgPba then
    if msixCount fn ≤ 8 * off then BitVec.allOnes 32
    else BitVec.ofNat 32 ((List.range 32).foldl (fun a i => a + if s.msixPend.contains (msixKey port fn (8 * off + i)) then 2 ^ i else 0) 0)
  else
    let b := (page - pgMsix) * 4096 + off
    if pgPba < page ∨ msixCount fn ≤ b / 16 then BitVec.allOnes 32 else s.msixWord (msixKey port fn (b / 16)) (b % 16 / 4)

/-- A write to them; the pending bits are read-only. -/
def State.msixWrite (s : State) (w : Writer) (page off size : Nat) (v : Word64) : State :=
  match w with
  | .host port fn =>
    let b := (page - pgMsix) * 4096 + off
    if page < pgPba ∧ accessAligned off size then
      let t := s.msixPut port fn b (v.setWidth 32)
      if size = 8 then t.msixPut port fn (b + 4) ((v >>> 32).setWidth 32) else t
    else s
  | _ => s

/-- A read of them. -/
def State.msixRead (s : State) (w : Writer) (page off size : Nat) : State :=
  match w with
  | .host port fn =>
    if accessAligned off size then
      let lo := (s.msixGet port fn page off).toNat
      s.answer size (if size = 8 then lo + (s.msixGet port fn page (off + 4)).toNat * 2 ^ 32 else lo)
    else s.answer size (allOnes size)
  | _ => s.answer size (allOnes size)

/-- A register write as a command: it counts as activity (18 R427). -/
def regWrite (w : Writer) (page off size : Nat) (v : Word64) (s : State) : Out :=
  .next (if s.regsUp w then (if page < pgMsix then s.writeReg w page off size v else s.msixWrite w page off size v).touch else s)

/-- A register read as a command. -/
def regRead (w : Writer) (page off size : Nat) (s : State) : Out :=
  .next (if s.regsUp w then (if page < pgMsix then s.readReg w page off size else s.msixRead w page off size) else s)

/-- REGISTER_WRITE. -/
def execRegisterWrite (w : Writer) (page off size : Nat) (v : Word64) (s : State) : Out := regWrite w page off size v s

/-- LOCK_WRITE. -/
def execLockWrite (w : Writer) (page : Nat) (v : Word32) (s : State) : Out := regWrite w page 0x030 4 (v.setWidth 64) s

/-- INT_STATUS_CLEAR. -/
def execIntStatusClear (w : Writer) (page : Nat) (v : Word32) (s : State) : Out := regWrite w page 0x018 4 (v.setWidth 64) s

/-- INT_FORCE_WRITE. -/
def execIntForceWrite (w : Writer) (page : Nat) (v : Word32) (s : State) : Out := regWrite w page 0x020 4 (v.setWidth 64) s

/-- FRAME_ENABLE_WRITE. -/
def execFrameEnableWrite (w : Writer) (v : Word32) (s : State) : Out := regWrite w pgLMP 0x040 4 (v.setWidth 64) s

/-- QUEUE_ENABLE. -/
def execQueueEnable (w : Writer) (p : Nat) (s : State) : Out := regWrite w (pgQueue (p % 8)) 0x054 4 1 s

/-- QUEUE_DISABLE. -/
def execQueueDisable (w : Writer) (p : Nat) (s : State) : Out := regWrite w (pgQueue (p % 8)) 0x054 4 2 s

/-- QUEUE_RESUME. -/
def execQueueResume (w : Writer) (p : Nat) (s : State) : Out := regWrite w (pgQueue (p % 8)) 0x054 4 3 s

/-- QUEUE_SKIP. -/
def execQueueSkip (w : Writer) (p : Nat) (s : State) : Out := regWrite w (pgQueue (p % 8)) 0x054 4 4 s

/-- GENTRY_WRITE. -/
def execGentryWrite (w : Writer) (v : Word32) (s : State) : Out := regWrite w pgRGL 0x054 4 (v.setWidth 64) s

/-- SLOTS_WRITE. -/
def execSlotsWrite (w : Writer) (v : Word32) (s : State) : Out := regWrite w pgRGL 0x07C 4 (v.setWidth 64) s

/-- ETQ_SW_WRITE: `page` is one of the ETQ pages. -/
def execEtqSwWrite (w : Writer) (page : Nat) (v : Word32) (s : State) : Out :=
  if 0x0A0 ≤ page ∧ page < 0x0E8 then regWrite w page 0x040 4 (v.setWidth 64) s else .next s

/-- PCH_AP_LO_WRITE: `page` is one of the PCH pages. -/
def execPchApLoWrite (w : Writer) (page : Nat) (v : Word32) (s : State) : Out :=
  if 0x0F0 ≤ page ∧ page < 0x102 then regWrite w page 0x044 4 (v.setWidth 64) s else .next s

/-- INCR_FRAC_WRITE. -/
def execIncrFracWrite (w : Writer) (v : Word32) (s : State) : Out := regWrite w pgTBU 0x050 4 (v.setWidth 64) s

/-- INCR_INT_WRITE. -/
def execIncrIntWrite (w : Writer) (v : Word32) (s : State) : Out := regWrite w pgTBU 0x054 4 (v.setWidth 64) s

/-- ADJ_NS_WRITE. -/
def execAdjNsWrite (w : Writer) (v : Word32) (s : State) : Out := regWrite w pgTBU 0x05C 4 (v.setWidth 64) s

/-- DBG_FREEZE_WRITE. -/
def execDbgFreezeWrite (w : Writer) (v : Word32) (s : State) : Out := regWrite w pgDBG 0x040 4 (v.setWidth 64) s

/-- DBG_SCAN_WRITE. -/
def execDbgScanWrite (w : Writer) (v : Word32) (s : State) : Out := regWrite w pgDBG 0x040 4 (v.setWidth 64) s

/-- COUNTER_LO_READ. -/
def execCounterLoRead (w : Writer) (page off size : Nat) (s : State) : Out := regRead w page off size s

/-- TBU_NOW_READ. -/
def execTbuNowRead (w : Writer) (s : State) : Out := regRead w pgTBU 0x040 4 s

/-- MISALIGNED_REGISTER_READ. -/
def execMisalignedRegisterRead (w : Writer) (page off size : Nat) (s : State) : Out := regRead w page off size s

/-- HOST_READ_TIMEOUT (03 R87): the target has not answered after 800 ns, so the Chimney answers for it; nothing is captured. -/
def execHostReadTimeout (w : Writer) (page size : Nat) (s : State) : Out :=
  .next (if s.regsUp w && decide (page < 4096) then s.answer size (allOnes size) else s)

/-- DBG_REG (21 R495): a register access as PF0 makes it; the operation codes 2 and 3 do nothing. -/
def execDbgReg (addr rw : Nat) (data : Word32) (s : State) : Out :=
  .next (if !s.powered then s
    else if !s.scope 0 then s.noScope
    else
      let t := s.setIr 0x20
      let a := addr % 2 ^ 48
      if a < 0xF000000000 ∨ 0xF001000000 ≤ a then t
      else
        let page := (a - 0xF000000000) / 4096
        if rw = 0 then t.readReg .jtag page (a % 4096) 4
        else if rw = 1 then t.writeReg .jtag page (a % 4096) 4 (data.setWidth 64)
        else t)

end Sys2Proof.Machine
end

