-- ==== Sys2Proof/Machine/ConfigLoad.lean ====
section
/-!
DEFINITION. ConfigLoad.lean: the acceptance of signed objects (19 R456, R458), the checks that loading a configuration or an
update makes, and the application of a configuration at boot step 6 (19 R461 to R464 and the chapters they name).
-/

namespace Sys2Proof.Machine

open Sys2Proof

/-! ## Signed objects (19 R456) -/

/-- The checks by Flint, with the Chimney's revocations. -/
def State.objErr (s : State) (kind minSvn : Nat) (h : ObjHead) : Option Err :=
  headErr s.fuses s.fuses.okrev kind minSvn h

/-! ## Checks with a code or without (log entry 27) -/

/-- A loading check: whether it fails, and the code of the failure where the spec gives one. -/
abbrev Chk := Bool × Option Err

/-- The first check that fails. -/
def firstFail (l : List Chk) : Option (Option Err) := (l.find? fun c => c.1).map (·.2)

/-! ## The frame record against the tables (02 R38, R39, R42, R45; 11 R277; 14 R360; 19 R464) -/

/-- Window `k` of group `g` of a frame record. -/
def FrameCfg.win (f : FrameCfg) (g k : Nat) : Win :=
  match f.wins.find? fun w => w.group == g && w.k == k with
  | some w => (w.start % 2 ^ 20, w.len % 2 ^ 20, w.part % 8, w.kind % 4)
  | none => (0, 0, 0, 0)

/-- The used windows of group `g` of a frame record. -/
def FrameCfg.used (f : FrameCfg) (g : Nat) : List Win := ((List.range 64).map (f.win g)).filter fun w => w.2.1 != 0

/-- Whether a partition has a Wick of its set in Lantern `n`. -/
def Cfg.wickIn (c : Cfg) (p n : Nat) : Bool := (List.range 64).any fun w => (c.part p).wicks.getLsbD (64 * n + w)

/-- The Lantern groups of a partition (02 R45): the groups of the populated Lanterns with its Wicks, and the groups whose
schedule gives it a window. -/
def Cfg.groupsOf (c : Cfg) (f : FrameCfg) (lanterns p : Nat) : List Nat :=
  (((List.range lanterns).filter fun n => c.wickIn p n).map fun n => f.groupMap / 2 ^ (3 * n) % 8) ++
    (List.range 8).filter fun g => (f.used g).any fun w => w.2.2.1 == p

/-- The partitions of a criticality. -/
def Cfg.ofCrit (c : Cfg) (k : Nat) : List Nat := (List.range 8).filter fun p => (c.part p).crit == some k

/-- Whether two C3 partitions share a Lantern group. -/
def Cfg.shareGroup (c : Cfg) (f : FrameCfg) (lanterns : Nat) : Bool :=
  (c.ofCrit 3).any fun p => (c.ofCrit 3).any fun q =>
    decide (p < q) && (c.groupsOf f lanterns p).any fun g => (c.groupsOf f lanterns q).contains g

/-- Whether the maintenance window overlaps the interval from WATCH to the publication deadline. -/
def maintClash (f : FrameCfg) (t : SnTable) : Bool :=
  f.maintLen != 0 && decide (f.maintStart < f.pubUs) && decide (t.watch < f.maintStart + f.maintLen)

/-- The checks of a frame record that load and update share. -/
def Cfg.frameChecks (c : Cfg) (f : FrameCfg) (lanterns : Nat) (t : SnTable) : List Chk :=
  [ (t.pubUs != f.pubUs || t.periodUs != f.periodUs || decide (f.pubUs ≤ t.watch + t.guard_), some .signatureInvalid),
    (maintClash f t, some .signatureInvalid),
    (!deadlinesOk f.pubUs f.planUs f.periodUs, some .lengthExceedsExtent),
    (decide (f.periodUs < f.maintStart + f.maintLen), some .lengthExceedsExtent) ] ++
  ((List.range 8).map fun g => ((schedErr (f.used g) f.periodUs).isSome, schedErr (f.used g) f.periodUs)) ++
  [ (c.shareGroup f lanterns, some .partitionViolation) ]

/-! ## The checks of a configuration (19 R461) -/

/-- The record types: all known, none twice, 0x01 to 0x07 present. -/
def Cfg.typesBad (c : Cfg) : Bool :=
  !(c.types.Nodup && (c.types.all fun t => decide (1 ≤ t) && decide (t ≤ 0xC)) &&
    (List.range 7).all fun t => c.types.contains (t + 1))

/-- The floor of an aggregator line's action (11 Table 8). -/
def lineFloor (n : Nat) : Nat := if n = 184 ∨ n = 359 ∨ n = 386 then 2 else if n = 368 then 1 else 0

/-- The two tables differ, or an action is not allowed (11 R277, R295). -/
def Cfg.tablesBad (c : Cfg) : Bool :=
  c.snA.table != c.snB.table ||
    (List.range 512).any fun n =>
      let a := c.snA.table.action.getD n 0
      decide (3 ≤ a) || decide (a < lineFloor n) || (decide (400 ≤ n) && a != 0)

/-- A channel partition of the Snuffer tables is not a C3 partition (11 R274). -/
def Cfg.chansBad (c : Cfg) : Bool :=
  (c.part c.snA.table.chanA).crit != some 3 || (c.part c.snA.table.chanB).crit != some 3

/-- Whether two lists of banks share one. -/
def banksMeet (a b : List (Nat × Nat)) : Bool := a.any fun x => b.contains x

/-- Whether two queue ranges overlap. -/
def queuesMeet (a b : PartCfg) : Bool :=
  a.qcount != 0 && b.qcount != 0 && decide (a.qbase < b.qbase + b.qcount) && decide (b.qbase < a.qbase + a.qcount)

/-- Some two different partitions for which a relation holds. -/
def somePair (r : Nat → Nat → Bool) : Bool := (List.range 8).any fun p => (List.range 8).any fun q => decide (p < q) && r p q

/-- The limits of 02 Table 6. -/
def Cfg.limitsBad (c : Cfg) (lanterns : Nat) : Bool :=
  ((List.range 8).any fun p =>
    let x := c.part p
    (if p = 0 ∨ p = 3 then x.crit.isSome else x.crit.isNone || decide (3 < x.crit.getD 0)) ||
      decide (2 ^ (64 * lanterns) ≤ x.wicks.toNat) || decide (2 ^ 18 < x.qbase + x.qcount) ||
      decide (16 < (c.regions.filter fun r => r.owner == p).length)) ||
    (c.regions.any fun r => r.base % 2 ^ 21 != 0 || r.size % 2 ^ 21 != 0) ||
    (somePair fun p q => banksMeet (c.part p).banks (c.part q).banks) ||
    somePair fun p q => queuesMeet (c.part p) (c.part q)

/-- Whether a window permits writes to a master of partition `p` in Cormer mode: a Wick of its set, that Wick's DMA engine, or
its PCIe functions (log entry 9). -/
def Cfg.masterWrites (c : Cfg) (p : Nat) (w : FwWin) : Bool :=
  w.used && w.wr &&
    ((List.range 512).any (fun k => (c.part p).wicks.getLsbD k &&
        (((c.rid (.wick k) &&& w.ridMask) == (w.rid &&& w.ridMask)) || ((c.rid (.dma k) &&& w.ridMask) == (w.rid &&& w.ridMask)))) ||
      (List.range 2).any fun h => (c.rid (.pcie h (p + 1)) &&& w.ridMask) == (w.rid &&& w.ridMask))

/-- Two DDR-4 regions share a byte. -/
def meets (q r : DdrRegion) : Bool := decide (q.base < r.base + r.size) && decide (r.base < q.base + q.size)

/-- A C0 partition holds write access to a region of a C3 partition, through that region or one that meets it (02 R45,
R56). -/
def Cfg.c0Writes (c : Cfg) : Bool :=
  (c.ofCrit 0).any fun p =>
    if c.cormer then c.windows.any fun w => (c.ofCrit 3).contains w.part && c.masterWrites p w
    else c.regions.any fun r => (c.ofCrit 3).contains r.owner &&
      (r.writers.getLsbD p || c.regions.any fun q => (q.owner == p || q.writers.getLsbD p) && meets q r)

/-- A region that another partition than its owner writes: one whose record grants it, or one that meets a region of another
owner (02 Table 6); in Cormer mode, more than 256 windows (02 R55). -/
def Cfg.writersBad (c : Cfg) : Bool :=
  if c.cormer then decide (256 < c.windows.length)
  else c.regions.any fun r =>
    (List.range 8).any (fun p => p != r.owner && r.writers.getLsbD p) ||
      c.regions.any fun q => q.owner != r.owner && r.size != 0 && q.size != 0 && meets q r

/-- Two C3 partitions share a Wick (02 R45). -/
def Cfg.c3Wicks (c : Cfg) : Bool :=
  (c.ofCrit 3).any fun p => (c.ofCrit 3).any fun q => decide (p < q) && ((c.part p).wicks &&& (c.part q).wicks) != 0#512

/-- Queue pins in all (03 R59). -/
def Cfg.pinCount (c : Cfg) : Nat := c.parts.foldl (fun a p => a + p.pins.foldl (fun b r => b + r.2) 0) 0

/-- Tag allowances (03 R83). -/
def Cfg.tagsBad (c : Cfg) : Bool :=
  ((List.range 8).any fun p => decide ((c.part p).tagMax < (c.part p).tagMin) || decide (64512 < (c.part p).tagMax)) ||
    decide (64512 < (List.range 8).foldl (fun a p => a + (c.part p).tagMin) 0)

/-- The value that the presets leave in a register that is 0 before. -/
def Cfg.presetVal (c : Cfg) (page off : Nat) : Word32 :=
  c.presets.foldl (fun v x => if x.page = page ∧ x.off = off then (v &&& ~~~x.mask) ||| (x.val &&& x.mask) else v) 0

/-- The buffer table of a partition as the presets set it. -/
def Cfg.tabBase (c : Cfg) (p : Nat) : Nat :=
  Reg.LMP_BUFTAB_LO_BASE.get (c.presetVal (pgQueue p) 0x068) * 64 +
    Reg.LMP_BUFTAB_HI_BASE.get (c.presetVal (pgQueue p) 0x06C) * 2 ^ 32

/-- A buffer table that does not lie in one region of its partition, or a stream that names a handle of a partition without
one (03 R60). -/
def Cfg.tabsBad (c : Cfg) : Bool :=
  ((List.range 8).any fun p => c.hasTab p &&
    !((c.areas p).any fun a => decide (a.1 ≤ c.tabBase p) && decide (c.tabBase p + 2 ^ 21 ≤ a.1 + a.2))) ||
  (c.cams.any fun x => x.en && (x.lvls.any fun l => l.factor != 0) && (!c.hasTab x.part0 || (x.dual && !c.hasTab x.part1))) ||
  c.eth.streams.any fun x => !c.hasTab x.part

/-- Camera stream entries (16 R390): one pair named twice, or a handle above 0x03FF. -/
def Cfg.camsBad (c : Cfg) : Bool :=
  let on := c.cams.filter fun x => x.en
  !(on.map fun x => (x.rx, x.vc)).Nodup ||
    on.any fun x => x.lvls.any fun l => l.factor != 0 && (decide (0x3FF < l.h0) || (x.dual && decide (0x3FF < l.h1)))

/-- Whether a buffer-table entry lacks what a camera's buffer needs (16 R390): W, two versions, 64 bytes and the level's map.
An entry of zeros, which nothing has written yet, is not judged (log entry 21). -/
def camEntryBad (e : Nat) (need : Nat) : Bool :=
  e != 0 && (let x := parseEntry e; !x.w || !x.versioned || decide (x.size < 64 + need))

/-- Whether a camera stream names a buffer that does not fit it (16 R390). -/
def State.camBufsBad (s : State) (c : Cfg) : Bool :=
  (c.cams.filter (·.en)).any fun x => x.lvls.any fun l => l.factor != 0 &&
    ([(x.part0, l.h0)] ++ (if x.dual then [(x.part1, l.h1)] else [])).any fun ph =>
      camEntryBad (s.loadLE (c.tabBase ph.1 + 32 * ph.2) 32) (x.geo l).size

/-- Rings that are not as 16 R403 and R404 ask: a size outside 2^4 to 2^12, one queue named twice, or a transmit queue whose
class its partition does not hold. -/
def Cfg.ringsBad (c : Cfg) : Bool :=
  !(c.eth.rings.map fun r => (r.tx, r.idx)).Nodup ||
    c.eth.rings.any fun r => decide (r.log2n < 4) || decide (12 < r.log2n) ||
      (r.tx && !(decide (r.tc < 8) && c.rgl.pclass.getLsbD (8 * r.part + r.tc)))

/-- The bits of a register that another record than the presets carries (19 R462, Table 5). -/
def carried (b : Block) (off : Nat) : Word32 :=
  match b with
  | .lmpFrame =>
    if off = 0x040 then 0xE else if off = 0x048 ∨ off = 0x04C ∨ off = 0x058 ∨ off = 0x05C ∨ off = 0x060 then 0xFFFFFFFF else 0
  | .lmpSched => if 0x040 ≤ off then 0xFFFFFFFF else 0
  | .tbu => if off = 0x068 ∨ off = 0x06C then 0xFFFFFFFF else if off = 0x060 then 0x8E else 0
  | .rgl =>
    if off = 0x04C ∨ off = 0x054 ∨ off = 0x06C ∨ off = 0x070 ∨ off = 0x074 ∨ off = 0x07C ∨ off = 0x088 then 0xFFFFFFFF else 0
  | .eth => if off = 0x040 then 0xFFFFFFFF else 0
  | .gst => if off = 0x048 then 0xFFFFFFFF else 0
  | .lnkC => if off = 0x044 then 0xFFFFFFFF else 0
  | .ccu => if off = 0x040 then 0xFFFFFFFF else 0
  | .scn => if off = 0x040 then 0xFFFFFFFF else 0
  | _ => 0

/-- A preset that refuses the configuration (19 R462). -/
def presetBad (lanterns : Nat) (x : Preset) : Bool :=
  x.rsvd || x.off % 4 != 0 || decide (x.off < 0x030) ||
    (match pageInfo lanterns x.page with
      | none => true
      | some (b, _) =>
        (x.mask &&& ~~~(accMask b x.off [.rw, .rwl])) != 0#32 || (x.mask &&& carried b x.off) != 0#32 ||
          (x.off == 0x030 && x.mask.getLsbD 31 && x.val.getLsbD 31))

/-- The Regulator's record in its registers (19 Table 5, TYPE 0x05): classes, slots, designated ports, derate, thresholds. -/
def State.putRegl (s : State) (r : RglCfg) : State :=
  let s := (s.setReg pgRGL 0 0x06C (r.pclass.setWidth 32)).setReg pgRGL 0 0x070 ((r.pclass >>> 32).setWidth 32)
  let s := (s.setReg pgRGL 0 0x074 r.tc0port).fset pgRGL Reg.RGL_DERATE_DERATE r.derate
  let s := r.slots.foldl (fun t x => t.fsetI pgRGL (slotIdx x.1 x.2.1) Reg.RGL_SLOTS_SLOTS x.2.2) s
  r.urg.foldl (fun t x => ((t.fsetI pgRGL x.1 Reg.RGL_URGTHR_ELEV x.2.1).fsetI pgRGL x.1 Reg.RGL_URGTHR_URG x.2.2.1).fsetI
    pgRGL x.1 Reg.RGL_URGTHR_CRIT x.2.2.2) s

/-- The checks of a configuration on a device whose memory, links and Wicks stand as at boot step 6, in order. -/
def State.cfgChecks (s : State) (c : Cfg) : List Chk :=
  let t := { s with cfg := c }.putRegl c.rgl
  [ (c.typesBad, some .signatureInvalid),
    (c.limitsBad s.lanterns, none),
    (c.c3Wicks || c.c0Writes, some .partitionViolation),
    (c.writersBad, none),
    (c.cormer && c.windows.any fun w => w.rsvd, some .reservedNonzero) ] ++
  c.frameChecks c.frame s.lanterns c.snA.table ++
  [ (c.tablesBad, some .signatureInvalid),
    (c.chansBad, none),
    (decide (32768 < c.pinCount), none),
    (c.tagsBad, none),
    (!((List.range 32).all fun n => t.slotsOk n 0 (t.slots n 0)), none),
    (decide (5 < popCount 32 c.rgl.tc0port.toNat), none),
    (!t.guarsOk c.rgl.guars, some .guaranteeRejected),
    (!c.cormer && c.regions.any fun r => decide (s.ddrBytes < r.base + r.size), none),
    (c.camsBad || s.camBufsBad c || c.ringsBad, none),
    (c.presets.any (presetBad s.lanterns), some .reservedNonzero),
    (c.tabsBad, some .partitionViolation) ]

/-! ## Applying a configuration (19 R461, R462) -/

/-- SCN_SEGOWN of a Sconce (04 R110): what the configuration says, or the default. -/
def Cfg.segOwn (c : Cfg) (k : Nat) : Word32 :=
  match c.segown.find? fun x => x.1 == k with
  | some x => x.2
  | none =>
    let seg := match (c.ofCrit 3).find? fun p => c.wickIn p (k / 8) with
      | some p => p + 8
      | none => 0
    BitVec.ofNat 32 ((List.range 6).foldl (fun a i => a + seg * 16 ^ i) 0 + 0xB * 16 ^ 6 + 0xC * 16 ^ 7)

/-- A preset is written as Flint writes a register. -/
def State.applyPreset (s : State) (x : Preset) : State :=
  let b := s.pageBlock x.page
  let old := s.reg x.page (if x.off < 0x040 then 0 else s.bank x.page b x.off) x.off
  s.writeOne .flint x.page b x.off ((old &&& ~~~x.mask) ||| (x.val &&& x.mask))

/-- The guest port trains (15 R384 to R386, R383): with a qualified die that has the required features and a rate and width that
both sides and GST_CFG allow, at the widest state its lanes allow; otherwise it stays down. -/
def State.guestTrain (s : State) (d : Option (List Byte)) (down : Bool) (ret : List Nat) : State :=
  if s.fget pgFUS Reg.FUS_CAPS_GUEST = 0 then s.fset pgGST Reg.GST_STATE_STATE 6
  else match d, s.cfg.guest with
    | some bytes, some c =>
      let g := dcdGuest bytes
      let s := (s.fset pgGST Reg.GST_ID_VENDOR g.vendor).fset pgGST Reg.GST_ID_PARTID g.partId
      let rates := [4, 8, 12, 16, 24, 32]
      let rate := ((List.range 6).filter fun i => g.rates.testBit i && decide (rates.getD i 0 ≤ c.rateMax)).foldl
        (fun a i => Nat.max a (rates.getD i 0)) 0
      let x32 := c.x32 || g.maxw == 32
      let need := dcdOk featGuest bytes
      let lanes := if x32 then 32 else 64
      let x : LinkSt := { LinkSt.zero with lanes := lanes, feat := linkFeat [bytes], retired := ret.filter (· < lanes) }
      let mask := x.retired.foldl (fun a l => a + 2 ^ l) 0
      let at_ := [2, 3, 4].findSome? fun st =>
        if st = 2 ∨ x.feat.testBit (st - 1) then (x.bestGroup st).map fun h => (st, h) else none
      match at_ with
      | some (st, h) =>
        if down ∨ !c.quals.contains (g.vendor, g.partId, g.rev) ∨ rate = 0 ∨ !need then s.fset pgGST Reg.GST_STATE_STATE 0
        else
          let s := ((s.fset pgGST Reg.GST_STATE_STATE st).fset pgGST Reg.GST_STATE_RATE rate).fset pgGST Reg.GST_STATE_X32
            (if x32 then 1 else 0)
          let s := (s.fset pgGST Reg.GST_STATE_SPARES (x.retIn st h)).fset pgGST Reg.GST_RET_LO_MASK mask
          let s := s.fset pgGST Reg.GST_RET_HI_MASK (mask / 2 ^ 32)
          { s.setLink .guest { x with group := h } with guestDie := some g }
      | none => s.fset pgGST Reg.GST_STATE_STATE 5
    | _, _ => s.fset pgGST Reg.GST_STATE_STATE 0

/-- The queue-control pages' LMP_TAG_CFG and the guarantee entries. -/
def State.putParts (s : State) (c : Cfg) : State :=
  let s := (List.range 8).foldl (fun t p => (t.fset (pgQueue p) Reg.LMP_TAG_CFG_MIN (c.part p).tagMin).fset (pgQueue p)
    Reg.LMP_TAG_CFG_MAX (c.part p).tagMax) s
  c.rgl.guars.foldl (fun t g => t.setReg pgRGL (8 * g.part + g.tc) 0x054 (BitVec.ofNat 32 (g.bw % 4096 + g.win % 128 * 2 ^ 16))) s

/-- The Ethernet record's registers: MAXLEN, the servo port, the rings' owners (16 R403, R404; 17 R425). -/
def State.putEth (s : State) (c : EthCfg) : State :=
  let s := (List.range 8).foldl (fun t p => t.fset (pgETH p) Reg.ETH_PORT_MAXLEN (c.maxlen.getD p 0)) s
  let s := (s.fset pgTBU Reg.TBU_SERVO_PORT c.servoPort).fset pgTBU Reg.TBU_SERVO_GM (if c.gm then 1 else 0)
  c.rings.foldl (fun t r => t.fset (if r.tx then pgTxq (r.idx / 8) (r.idx % 8) else pgRxq r.idx) Reg.LOCK_OWNER r.part) s

/-- The records 0x0A and 0x0B: GST_CFG, CCU_MAPCFG, SCN_SEGOWN, LMP_ST_CFG, LNK_THR. -/
def State.putRest (s : State) (c : Cfg) : State :=
  let s := match c.guest with
    | some g => ((s.fset pgGST Reg.GST_CFG_PART g.part).fset pgGST Reg.GST_CFG_RATEMAX g.rateMax).fset pgGST Reg.GST_CFG_X32
        (if g.x32 then 1 else 0)
    | none => s
  let s := (s.fset pgCCU Reg.CCU_MAPCFG_OWNER c.mapOwner).fset pgCCU Reg.CCU_MAPCFG_READERS c.mapReaders.toNat
  let s := (List.range (8 * s.lanterns)).foldl (fun t k => t.setReg (pgScn k) 0 0x040 (c.segOwn k)) s
  let s := s.fset pgLMP Reg.LMP_ST_CFG_KINDS c.stKinds
  match c.lnkThr with
  | some (thr, win) => (s.fset pgLNKC Reg.LNK_THR_THR thr).fset pgLNKC Reg.LNK_THR_WIN win
  | none => s

/-- Every Lantern's frequency grant at release from Ember or boot is FSTART (18 R441), its supply at the voltage of the step above
(22 Table 2). -/
def State.startGrants (s : State) : State :=
  (List.range s.lanterns).foldl (fun t n =>
    let g := t.fget pgTRM Reg.TRM_RAMP_FSTART
    (t.setVolt n (voltStep g)).fsetI pgTRM n Reg.TRM_LANTERN_GRANT g) s

/-- Apply a configuration that has passed its checks (19 R461, R462). -/
def State.applyCfg (s : State) (c : Cfg) (guest : Option (List Byte)) (guestDown : Bool) (guestRet : List Nat) : State :=
  let s := { s with cfg := c }.putRegl c.rgl
  let s := (s.putParts c).putFrameRegs c.frame
  let s := (s.putEth c.eth).putRest c
  let s := s.fset pgTRM Reg.TRM_PLIMIT_W (plimitDefault s.lanterns)
  let s := c.presets.foldl State.applyPreset s
  let s := (s.takeFrameRegs.budgetRegs).admittedReg
  (s.guestTrain guest guestDown guestRet).startGrants

end Sys2Proof.Machine
end

