-- ==== Sys2Proof/Machine/Boot.lean ====
section
/-!
DEFINITION. Boot.lean: the boot from power good to READY, the start tests of the Snuffers, and the resets that precede a boot
(19 R450 to R458; 11 R298, R299; 14 R348 to R352, R359; 15 R383; 12 R312; 22 R500).
-/

namespace Sys2Proof.Machine

open Sys2Proof

/-- FLT_BOOT.STATE (19 Table 8). -/
def State.bootSt (s : State) : Nat := s.fget pgFLT Reg.FLT_BOOT_STATE

/-- A boot step fails: the state, the step, and the error code, a free value where the spec names none (log entry 27). -/
def State.bootFail (s : State) (st step : Nat) (code : Option Err) : State :=
  let s := (s.fset pgFLT Reg.FLT_BOOT_STATE st).fset pgFLT Reg.FLT_BOOT_STEP step
  match code with
  | some e => s.fset pgFLT Reg.FLT_BOOT_CAUSE e.code
  | none => s.draw.fset pgFLT Reg.FLT_BOOT_CAUSE (1 + Config.freeNat s.draws % 0x1A)

/-! ## Step 2: fuses (19 R454) -/

/-- The fuse array in the FUS page, the spare bonds and the Lanterns that passed production test. -/
def State.loadFuses (s : State) : State :=
  let f := s.fuses
  let s := (s.setReg pgFUS 0 0x008 (BitVec.ofNat 32 (f.options % 64))).setReg pgFUS 0 0x040 (BitVec.ofNat 32 f.serial)
  let s := s.setReg pgFUS 0 0x044 (BitVec.ofNat 32 (f.serial / 2 ^ 32))
  let set := (List.range 4).foldl (fun a k => a + (if f.slotSet k then 2 ^ k else 0)) 0
  let s := (s.fset pgFUS Reg.FUS_KEYS_SET set).fset pgFUS Reg.FUS_KEYS_REV f.okrev
  let s := (s.fset pgFUS Reg.FUS_ARB_FW f.arbFw).fset pgFUS Reg.FUS_ARB_CFG f.arbCfg
  let s := (List.range s.lanterns).foldl (fun t n => t.setReg (pgRSV n) 0 0x054 (BitVec.ofNat 32 (f.bondSpare.getD n 0 % 2 ^ 16))) s
  s.fset pgLNKC Reg.LNK_INSVC_MASK f.lanternOk

/-! ## Step 3: the image and the lifetime log (19 R450, R458; 12 R312; 14 R348 to R352; 15 R369, R383; 18 R448) -/

/-- The largest tRC and turnaround of a grade in ns, and the grade's code (14 Table 3, R365). -/
def gradeRow (mts : Nat) : Option (Nat × Nat × Nat) :=
  match mts with
  | 1600 => some (49, 30, 0)
  | 1866 => some (48, 28, 1)
  | 2133 => some (48, 26, 2)
  | 2400 => some (47, 24, 3)
  | 2666 => some (47, 22, 4)
  | 2933 => some (46, 21, 5)
  | 3200 => some (46, 20, 6)
  | _ => none

/-- The rules of the address masks (14 R352): within PA[38:6], home bits pairwise distinct, BG1's zero on x16 devices. -/
def BoardRec.masksOk (b : BoardRec) : Bool :=
  let used := b.masks.take (if b.x16 then 7 else 8)
  b.masks.length == 8 && (b.masks.all fun m => m % 64 == 0 && decide (m < 2 ^ 39)) &&
    (used.all fun m => m != 0) && (used.map homeBit).Nodup && (!b.x16 || b.masks.getD 7 1 == 0)

/-- Whether a board record is accepted (14 R348, R350, R352). -/
def BoardRec.ok (b : BoardRec) : Bool :=
  (b.dens == 8 || b.dens == 16) && decide (1 ≤ b.ranks) && decide (b.ranks ≤ 3) && b.masksOk &&
    (match gradeRow b.grade with
      | some (trc, turn, _) => decide (b.trc ≤ trc) && decide (b.turn ≤ turn)
      | none => false)

/-- The installed data capacity in GiB (14 Table 2). -/
def BoardRec.capacity (b : BoardRec) : Nat := b.dens / 8 * (if b.x16 then 4 else 8) * 16 * (if b.ranks = 2 then 2 else 1)

/-- The board record in the DMC page. -/
def State.loadBoard (s : State) (b : BoardRec) : State :=
  let grade := ((gradeRow b.grade).map fun x => x.2.2).getD 0
  let s := (s.fset pgDMC Reg.DMC_GEOM_DENS (b.dens / 16)).fset pgDMC Reg.DMC_GEOM_WIDTH (if b.x16 then 1 else 0)
  let s := (s.fset pgDMC Reg.DMC_GEOM_RANKS (b.ranks - 1)).fset pgDMC Reg.DMC_GEOM_GRADE grade
  let s := (s.fset pgDMC Reg.DMC_CAPACITY_GIB b.capacity).fset pgDMC Reg.DMC_REFCFG_REF2X (if b.ref2x then 1 else 0)
  (List.range 8).foldl (fun t k =>
    let m := b.masks.getD k 0 / 64
    (t.setReg pgDMC 0 (0x080 + 8 * k) (BitVec.ofNat 32 m)).setReg pgDMC 0 (0x084 + 8 * k) (BitVec.ofNat 32 (m / 2 ^ 32))) s

/-- Whether the image slot holds an image that is accepted: its header and board record, or the code of the failure. -/
def State.imageAt (s : State) : Except Err (ObjHead × BoardRec) :=
  match s.flash.image with
  | none => .error .signatureInvalid
  | some o =>
    match s.objErr 1 s.fuses.arbFw o.head, o.body with
    | some e, _ => .error e
    | none, .image b => .ok (o.head, b)
    | none, _ => .error .signatureInvalid

/-- How often the lifetime log records an event of a kind. -/
def State.logCount (s : State) (kind v : Nat) : Nat := (s.flash.events.filter fun e => e == (kind, v)).length

/-- The state the lifetime log last recorded of a rank (14 R364). -/
def State.logRank (s : State) (c r : Nat) : Option Nat :=
  ((s.flash.events.filter fun e => e.1 == 1 && e.2 / 8 == 2 * c + r).getLast?).map fun e => e.2 % 8

/-- What the lifetime log restores (19 Table 1): quarantines of Wicks with 3 or more, mapped-out banks, and the lifetime
counters where the always-on domain has lost them. -/
def State.loadLog (s : State) : State :=
  let s := (List.range (64 * s.lanterns)).foldl (fun t w =>
    if 3 ≤ s.logCount 0 w then t.setWick w { t.wick w with st := .quarantined } else t) s
  let s := (List.range s.lanterns).foldl (fun t n => (List.range 64).foldl (fun t k =>
    if 0 < s.logCount 2 (64 * n + k) then
      (if k < 32 then t.fset (pgRSV n) ⟨0x04C, k, k⟩ 1 else t.fset (pgRSV n) ⟨0x050, k - 32, k - 32⟩ 1)
    else t) t) s
  let l := s.flash.life
  let counts := l.counts.foldl (fun m x => aset m x.1 (Nat.max (aget 0 m x.1) x.2)) s.trm.counts
  let s := { s with trm := { s.trm with opSec := Nat.max s.trm.opSec l.opSec, counts := counts } }
  (s.setReg pgTRM 0 0x070 (s.reg pgTRM 0 0x070 ||| BitVec.ofNat 32 (l.status % 4)))

/-- The lifetime log as it is read: a record that fails its CRC-32C is ignored, and the log is rewritten without it (19 R453). -/
def State.readLog (s : State) (b : BootIn) : State :=
  let n := s.flash.events.length
  let es := ((List.range n).filter fun i => !b.logBad.contains i).filterMap fun i => s.flash.events[i]?
  { s with flash := { s.flash with
    events := es
    life := if b.logBad.contains n then { opSec := 0, counts := [], status := 0 } else s.flash.life } }.loadLog

/-- The image that runs. -/
def State.runImage (s : State) (h : ObjHead) : State :=
  let s := (s.fset pgFLT Reg.FLT_FW_SVN h.svn).fset pgFLT Reg.FLT_FW_KEYSLOT h.keyslot
  { s with flt := { s.flt with image := h } }

/-! ## Step 4: DDR-4 training (14 R359, R364) -/

/-- The states of a channel's two ranks before training: by the arrangement, or as the lifetime log records them. -/
def State.rankStart (s : State) (c r : Nat) : Nat :=
  match s.logRank c r with
  | some st => st
  | none => if r = 0 then 1 else s.fget pgDMC Reg.DMC_GEOM_RANKS

/-- The state of a rank after training: a rank that would serve and fails is TRAIN_FAIL. -/
def State.rankTrained (s : State) (b : BootIn) (c r : Nat) : Nat :=
  let st := s.rankStart c r
  if (st = 1 ∨ st = 2 ∨ st = 3) ∧ b.ranks.contains (c, r) then 6 else st

/-- A channel after training: a spare takes the place of a data rank that failed or was replaced; a rank restored as RETIRING
whose spare has failed goes offline, as a rank with an error and no spare does (log entry 34); a new failure goes into the lifetime
log. -/
def State.trainChannel (s : State) (b : BootIn) (c : Nat) : State :=
  let r1 := s.rankTrained b c 1
  let r0 := if s.rankTrained b c 0 = 3 ∧ r1 ≠ 2 then 5 else s.rankTrained b c 0
  let r1' := if r1 = 2 ∧ (r0 = 4 ∨ r0 = 6) then 1 else r1
  let new := (List.range 2).filter fun r => s.rankTrained b c r == 6 && s.rankStart c r != 6
  let temp := b.temps.getD c 0
  let serving := (List.range 2).filter fun r => decide (1 ≤ (if r = 0 then r0 else r1')) && decide ((if r = 0 then r0 else r1') ≤ 3)
  let t := ((s.fset (pgDMCch c) Reg.DMC_CHSTATE_RANK0 r0).fset (pgDMCch c) Reg.DMC_CHSTATE_RANK1 r1').fset (pgDMCch c)
    Reg.DMC_TRAIN_T_TEMP temp
  { t.setCh c { DmcCh.zero with trainedAt := t.now, temp := temp, refAt := serving.map fun r => (r, t.now + t.trefi) } with
    flog := t.flog ++ new.map fun r => (1, 16 * c + 8 * r + 6) }

/-- Whether a data rank of a channel has failed training and nothing serves in its place: neither rank serves, and the data rank
is not one that went offline before. -/
def State.trainBad (s : State) (c : Nat) : Bool :=
  let has := fun k => s.rankSt c 0 == k || s.rankSt c 1 == k
  if s.cfgRanks = 2 then has 6 else !has 1 && !has 3 && !has 5

/-! ## Step 5: links and Wick self-tests (15 R383 to R386; 12 R312) -/

/-- The links of the part between its own dies. -/
def State.ownLinks (s : State) : List LinkMod :=
  (List.range s.lanterns).flatMap (fun n => [LinkMod.lc n 0, LinkMod.lc n 1]) ++
    (List.range (if s.lanterns = 8 then 8 else s.lanterns - 1)).map LinkMod.ring

/-- Whether a link joins only Lanterns in service. -/
def State.linkWanted (s : State) : LinkMod → Bool
  | .lc n _ => s.lanternUp n
  | .ring n => s.lanternUp n && s.lanternUp (ringTo n)
  | .guest => false

/-- The field LNK_STATE.RATE of module 0. -/
def fldLnkRate : Fld := ⟨0x040, 23, 16⟩

/-- The lanes of a link that are out: retired twice in the lifetime log, or failing now. -/
def State.lanesOut (s : State) (b : BootIn) (key : Nat) : List Nat :=
  (List.range 64).filter fun l => decide (2 ≤ s.logCount 3 (64 * key + l)) || b.lanes.contains (key, l)

/-- The DCDs of the Lanterns at the ends of a link. -/
def State.endDcds (s : State) : LinkMod → List (List Byte)
  | .lc n _ => [s.dies.getD n []]
  | .ring n => [s.dies.getD n [], s.dies.getD (ringTo n) []]
  | .guest => []

/-- A link trains: its DCDs are read, and one that is wrong or lacks a required feature keeps it down (15 R384, R385); the lanes retired twice before and those that fail now go to spares, at the widest state they allow. -/
def State.trainLink (s : State) (b : BootIn) (k : LinkMod) : State :=
  let key := linkKey k
  let ret := s.lanesOut b key
  let ds := s.endDcds k
  let x : LinkSt := { LinkSt.zero with feat := linkFeat ds, retired := ret }
  let mask := ret.foldl (fun a l => a + 2 ^ l) 0
  let s := (s.lnkSet k fldLnkRetLo fldLnkRetLo mask).lnkSet k fldLnkRetHi fldLnkRetHi (mask / 2 ^ 32)
  if !ds.all (dcdOk featLantern) then (s.lnkSet k fldLnkState fldLnkState 0).setLink k x
  else match (if b.links.contains key then none else [2, 3, 4].findSome? fun st => (x.bestGroup st).map fun g => (st, g)) with
  | some (st, g) =>
    let s := (s.lnkSet k fldLnkState fldLnkState st).lnkSet k fldLnkGroup fldLnkGroup g
    let s := (s.lnkSet k fldLnkSpares fldLnkSpares (x.retIn st g)).lnkSet k fldLnkRate fldLnkRate 32
    s.setLink k { x with group := g }
  | none => (s.lnkSet k fldLnkState fldLnkState 5).setLink k x

/-- Ring modules that face an absent Lantern read ABSENT (15 R370). -/
def State.absentRing (s : State) : State :=
  if s.lanterns = 8 ∨ s.lanterns = 0 then s
  else (s.fset (pgLNK (s.lanterns - 1)) (fldLnkState.at_ 0x40) 6).fset (pgLNK 0) (fldLnkState.at_ 0x60) 6

/-- Every link of the part's own dies trains. -/
def State.trainLinks (s : State) (b : BootIn) : State :=
  let s := { s with dies := b.dcds.take s.lanterns }
  let s := ((s.ownLinks.filter s.linkWanted).foldl (fun t k => t.trainLink b k) s).absentRing
  { s with lnkWin := s.now }

/-- Whether a link that a Lantern in service needs has not come up. -/
def State.linksBad (s : State) : Bool := (s.ownLinks.filter s.linkWanted).any fun k => !s.linkUp k

/-- The Wicks that fail their self-test are quarantined. -/
def State.bootWicks (s : State) (b : BootIn) : State :=
  ((List.range (64 * s.lanterns)).filter fun w => b.wicks.contains w && s.wickInService w).foldl (fun t w => t.quarantine w) s

/-! ## Step 6: the configuration (19 R450, R461) -/

/-- The configuration in flash, or why it is refused. -/
def State.configAt (s : State) : Except (Option Err) (ObjHead × Cfg) :=
  match s.flash.config with
  | none => .error (some .signatureInvalid)
  | some o =>
    match s.objErr 2 s.fuses.arbCfg o.head, o.body with
    | some e, _ => .error (some e)
    | none, .config c =>
      match firstFail (s.cfgChecks c) with
      | some code => .error code
      | none => .ok (o.head, c)
    | none, _ => .error (some .signatureInvalid)

/-- An entry of the measurement list accepted now (19 R470). -/
def State.measure (s : State) (part : Nat) (h : ObjHead) : Meas :=
  { kind := h.kind, part := part, svn := h.svn, sec := s.tbu.sec, digest := h.digest }

/-! ## Step 7: the Snuffers' tables (19 R450, R458) -/

/-- A Snuffer in RESET starts; a stop that is latched, and a failure, stay until that Snuffer's own reset (11 R291, R298). -/
def State.startSn (s : State) (i : Sn) : State :=
  if !(s.sn i).supply ∨ (s.sn i).st ≠ .reset then s else (s.snReset i).snStart i

/-- Step 7. -/
def State.boot7 (s : State) : State :=
  let s := s.fset pgFLT Reg.FLT_BOOT_STEP 7
  let ok := s.tableOk .a && s.tableOk .b
  let s := (s.startSn .a).startSn .b
  if ok then s else s.bootFail 4 7 (some .signatureInvalid)

/-- Step 6, and what follows. -/
def State.boot6 (s : State) (b : BootIn) : State :=
  let s := s.fset pgFLT Reg.FLT_BOOT_STEP 6
  if 2 ≤ b.cfgBad then s.bootFail 3 6 none
  else match s.configAt with
    | .error code => s.bootFail 3 6 code
    | .ok (h, c) =>
      let s := (s.applyCfg c b.guest (b.links.contains 24) (s.lanesOut b 24)).fset pgFLT Reg.FLT_FW_CFGSVN h.svn
      let s := { s with flt := { s.flt with
        meas := [s.measure 0 s.flt.image, s.measure 0 h, s.measure 0 c.snA.head, s.measure 0 c.snB.head] } }
      s.boot7

/-- Step 5, and what follows. -/
def State.boot5 (s : State) (b : BootIn) : State :=
  let s := (s.fset pgFLT Reg.FLT_BOOT_STEP 5).trainLinks b
  if s.linksBad then s.bootFail 4 5 (some .linkFailed) else (s.bootWicks b).boot6 b

/-- Step 4, and what follows: a board record that is refused fails it. -/
def State.boot4 (s : State) (b : BootIn) (board : BoardRec) : State :=
  let s := s.fset pgFLT Reg.FLT_BOOT_STEP 4
  if !board.ok then s.bootFail 4 4 none
  else
    let s := (List.range 16).foldl (fun t c => t.trainChannel b c) (s.loadBoard board)
    if (List.range 16).any s.trainBad then s.bootFail 4 4 none else s.boot5 b

/-- Step 3, and what follows. -/
def State.boot3 (s : State) (b : BootIn) : State :=
  let s := (s.fset pgFLT Reg.FLT_BOOT_STATE 0).fset pgFLT Reg.FLT_BOOT_STEP 3
  if 2 ≤ b.imgBad then s.bootFail 2 3 none
  else match s.imageAt with
    | .error e => s.bootFail 2 3 (some e)
    | .ok (h, board) => (((s.runImage h).readLog b).countBin 0 5).lifeRegs.boot4 b board

/-- Step 2, and what follows. -/
def State.boot2 (s : State) (b : BootIn) : State :=
  if b.fuseOk then s.loadFuses.boot3 b else s.bootFail 5 2 (some .dataErrorDetected)

/-- The Lantern rails as the power-up sequence brings them: at the voltage for FSTART + 25 MHz (22 Table 2). -/
def State.railsUp (s : State) : List (Nat × Nat) :=
  (List.range s.lanterns).map fun n => (n, voltStep (s.fget pgTRM Reg.TRM_RAMP_FSTART))

/-- POWER_GOOD: key pairs are drawn (14 R358), and the device boots as far as the start tests of the Snuffers, in `b.edges`; both PCIe ports are up, and a freeze
request that is present takes effect then (log entry 27). -/
def execPowerGood (b : BootIn) (s : State) : Out :=
  .next (if s.powered ∨ s.pwr.dark then s
    else
      let s := s.chipReset
      let s := { s with powered := true, hUp0 := true, hUp1 := true, flt := { Flt.zero with goodAt := s.now, boot := some b } }
      let s := { s with trm := { s.trm with vset := s.railsUp } }
      let s := (elapse b.edges s).drawKeys.boot2 b
      if s.freezeAsked then s.freezeStart else s)

/-! ## Start tests and release (11 R298, R299; 19 R450 step 8, R452, R458, R469; 20 R484) -/

/-- A counter of the fuses is burned up to an object's SVN (19 R458). -/
def burnTo (n : Nat) (h : ObjHead) : Nat := if h.arbCommit then Nat.max n h.svn else n

/-- Step 8: the pages are locked, the anti-rollback counters advance, the Trimmer and the derivation of the device key start. -/
def State.release (s : State) : State :=
  let s := s.presentPages.foldl (fun t p => t.fset p Reg.LOCK_LOCKED 1) s
  let cfgHead := ((s.flash.config.map (·.head)).getD ObjHead.empty)
  let fw := burnTo s.fuses.arbFw s.flt.image
  let cf := burnTo s.fuses.arbCfg cfgHead
  let s := ((s.fset pgFUS Reg.FUS_ARB_FW fw).fset pgFUS Reg.FUS_ARB_CFG cf).fset pgFLT Reg.FLT_BOOT_STEP 8
  let s := (s.fset pgFLT Reg.FLT_BOOT_STATE 1).fset pgFLT Reg.FLT_BOOT_MS_MS (Nat.min ((s.now - s.flt.goodAt) / 250000) 65535)
  { s with
    fuses := { s.fuses with arbFw := fw, arbCfg := cf }
    released := true
    flt := { s.flt with readyAt := some s.now }
    pwr := { s.pwr with lastAct := s.now, since := s.realNow }
    trm := { s.trm with sampleAt := s.now, cycAt := s.now, perAt := s.tbu.ns, saveAt := s.now, dutyAt := s.now } }

/-- READY is set when both Snuffers are ARMED: at step 8 of a boot, and after Ember (18 R432); never after a trip (18 R443). -/
def State.readyCheck (s : State) : State :=
  if s.snA.st = .armed ∧ s.snB.st = .armed ∧ s.powered ∧ !s.flag pgFLT Reg.FLT_BOOT_READY ∧ !s.trm.tripped then
    if s.bootSt = 0 ∧ s.fget pgFLT Reg.FLT_BOOT_STEP = 7 then s.release.fset pgFLT Reg.FLT_BOOT_READY 1
    else if s.bootSt = 1 ∧ s.pwr.entering.isNone then s.fset pgFLT Reg.FLT_BOOT_READY 1
    else s
  else s

/-- The start tests of a Snuffer end: SNA_START shows how, and the Snuffer is ARMED or FAILED. The pulses that reached it in
RESET or TESTING were sampled there, by the tests alone (11 R295). -/
def State.startTested (s : State) (i : Sn) (res : StartRes) (time : Nat) : State :=
  let pg := pgSn i
  let s := s.setSn i { s.sn i with lines := [] }
  let s := (s.fset pg Reg.SNA_START_DONE 1).fset pg Reg.SNA_START_TIME time
  match res with
  | .pass =>
    let s := (s.fset pg Reg.SNA_START_PASS 1).fset pg Reg.SNA_START_STEP 0
    ((s.setSn i { s.sn i with safe := false, safeAt := s.snNow }).snEnter i .armed).readyCheck
  | .fail step line =>
    let s := (s.fset pg Reg.SNA_START_PASS 0).fset pg Reg.SNA_START_STEP step
    let s := ((s.fset pg Reg.SNA_STATE_LINE line).fset pg Reg.SNA_STATE_CAUSE 7).snEnter i .failed
    if s.bootSt = 0 ∧ s.fget pgFLT Reg.FLT_BOOT_STEP = 7 then s.bootFail 4 7 none else s

/-- Whether start tests that last `time` × 10 µs can end now with a result: within 20 ms; a path of a frozen device does not
answer, so none of its Snuffers passes (11 R299; 21 R491). A path that fails in step 4 is a line of a present page; what the
other paths answer is the hardware's, and so an operand. -/
def State.testsDue (s : State) (i : Sn) (res : StartRes) (time : Nat) : Bool :=
  let x := s.sn i
  x.st == .testing && decide (time ≤ 2000) &&
    (match res with
      | .pass => s.live && decide (s.snNow < x.startedAt + 2500 * (time + 1))
      | .fail step line => decide (1 ≤ step) && decide (step ≤ 5) && (step != 4 || s.testLines.contains line) && (decide (s.snNow < x.startedAt + 2500 * (time + 1)) || time == 2000))

/-- SNUFFER_START_TESTS_DONE. -/
def execSnufferStartTestsDone (sn : Sn) (res : StartRes) (time10us : Nat) (s : State) : Out :=
  onSn sn s (s.testsDue sn res time10us)
    ((elapse ((s.sn sn).startedAt + 2500 * time10us - s.snNow) s).startTested sn res time10us)

end Sys2Proof.Machine
end

