-- ==== Sys2Proof/Machine/Mailbox.lean ====
section
/-!
DEFINITION. Mailbox.lean: the mailbox and its commands, attestation, and debug unlock (19 R457 to R472).
-/

namespace Sys2Proof.Machine

open Sys2Proof

/-! ## Issue and completion (19 R468) -/

/-- The write of FLT_MB_CMD as a command: `o` is the object that IN refers to (log entry 26). -/
def mbWrite (w : Writer) (cmd : Nat) (o : Option SignedObj) (fail : Option Nat) (s : State) : Out :=
  .next (if !s.regsUp w || !s.reaches w pgFLT then s
    else if s.mayWrite w pgFLT then (s.mbStart cmd o fail).touch
    else (s.capture pgFLT .partitionViolation 0).touch)

/-- The code of a result: zero for success; a free one where the spec names none (log entry 26). -/
def State.mbResult (s : State) (r : Option (Option Err)) : State :=
  match r with
  | none => s.fset pgFLT Reg.FLT_MB_STATUS_ERR 0
  | some (some e) => s.fset pgFLT Reg.FLT_MB_STATUS_ERR e.code
  | some none => s.draw.fset pgFLT Reg.FLT_MB_STATUS_ERR (1 + Config.freeNat s.draws % 0x1A)

/-- A command completes: BUSY clears, ERR is written, the page interrupt is raised. -/
def State.mbEnd (s : State) (r : Option (Option Err)) : State :=
  ({ (s.mbResult r).fset pgFLT Reg.FLT_MB_STATUS_BUSY 0 with flt := { s.flt with mb := none } }).event pgFLT

/-- PROGRESS in MiB. -/
def State.mbProgress (s : State) (bytes : Nat) : State :=
  s.fset pgFLT Reg.FLT_MB_STATUS_PROGRESS (Nat.min (bytes / 2 ^ 20) 65535)

/-- The address a buffer reference of P0 names for `n` bytes, or the code of the test it fails (03 R73; log entry 26). -/
def State.p0Ref (s : State) (ref : Word64) (n : Nat) (write : Bool) : Except Err Nat :=
  let w := ref.toNat
  let e := s.entry 0 (refHandle w)
  match s.refErr (.chimney 24) 0 { word := w, rd := !write, wr := write, vsels := [0], align := 1, ext := n } with
  | some c => .error c
  | none => if e.size < refOff w + n then .error .lengthExceedsExtent else .ok (e.base0 + refOff w)

/-- Flint reads `n` bytes through IN: the state after the read, and the code of what stops it. -/
def State.inRead (s : State) (ref : Word64) (n : Nat) : State × Option Err :=
  match s.p0Ref ref n false with
  | .error e => (s, some e)
  | .ok a =>
    match s.denied 0 a n false, (s.readRes a n .ok).err with
    | some e, _ => (s, some e)
    | none, some e => (s.readMarks a n .ok, some e)
    | none, none => (s.traffic none 24 5 0 a n false, none)

/-- The kind of object that a command takes (19 Tables 4 and 6), and the bytes that Flint reads of one: all of it, the header alone
where BODYLEN is over the kind's limit (19 R455, R456). -/
def mbKind (cmd : Nat) : Nat :=
  match cmd with
  | 1 => 4
  | 2 => 3
  | 3 => 2
  | 4 => 1
  | 5 => 7
  | _ => 6
def mbLen (cmd : Nat) (h : ObjHead) : Nat := if h.bodyLen ≤ bodyLimit (mbKind cmd) then h.bodyLen + 3392 else 256

/-- The object of a command is read through IN; before the device runs, IN is no reference (19 R459, R463; log entry 26). -/
def State.inObj (s : State) (r : MbRun) : State × Option Err :=
  match r.obj with
  | some o => if s.bootSt = 1 then s.inRead r.inRef (mbLen r.cmd o.head) else (s, none)
  | none => (s, none)

/-- Write a result to OUT and complete. -/
def State.mbReply (s : State) (ref : Word64) (bs : List Byte) : State :=
  match s.p0Ref ref bs.length true with
  | .error e => s.mbEnd (some (some e))
  | .ok a =>
    match s.denied 0 a bs.length true with
    | some e => s.mbEnd (some (some e))
    | none => ((s.traffic none 24 5 0 a bs.length true).storeAt a bs).mbEnd none

/-! ## The measurement list (19 R470) -/

/-- A later entry joins the list; when it is full, the oldest of the later entries is dropped. -/
def State.addMeas (s : State) (m : Meas) : State :=
  if s.flt.meas.length < 256 then { s with flt := { s.flt with meas := s.flt.meas ++ [m] } }
  else { s with flt := { s.flt with meas := s.flt.meas.take 4 ++ s.flt.meas.drop 5 ++ [m], dropped := s.flt.dropped + 1 } }

/-! ## LOAD_PACKAGE (19 R465, R466; 05 R121, R133) -/

/-- The bytes of a section and the whole of a package's. -/
def PkgSec.bytes : PkgSec → List Byte
  | .program _ bs => bs
  | .data _ _ bs => bs
def pkgBytes (secs : List PkgSec) : Nat := secs.foldl (fun a x => a + x.bytes.length) 0

/-- The section table: 1 to 4,096 entries, lengths multiples of 64, directory indices below 4,096. -/
def secsOk (secs : List PkgSec) : Bool :=
  !secs.isEmpty && decide (secs.length ≤ 4096) && secs.all fun x => x.bytes.length % 64 == 0 &&
    (match x with
      | .program i _ => decide (i < 4096)
      | .data _ _ _ => true)

/-- A DATA destination (19 R466 step 1): R73 for a write by the partition to slot 0, HOST = 0, within the slot. -/
def State.destErr (s : State) (p : Nat) : PkgSec → Option Err
  | .program _ _ => none
  | .data h off bs =>
    if (s.refDirErr (.chimney 0) p (h % 2 ^ 16) true).isSome || (s.entry p (h % 2 ^ 16)).host then some .partitionViolation
    else if (s.entry p (h % 2 ^ 16)).size < off + bs.length then some .lengthExceedsExtent
    else if (s.denied p ((s.entry p (h % 2 ^ 16)).base0 + off) bs.length true).isSome then some .partitionViolation
    else none

/-- Whether a range is free of others. -/
def rangeFree (used : List (Nat × Nat)) (a n : Nat) : Bool := used.all fun u => decide (a + n ≤ u.1) || decide (u.1 + u.2 ≤ a)

/-- The lowest place in PROGSTORE for `n` bytes beside the ranges in use (log entry 26). -/
def State.psFit (s : State) (used : List (Nat × Nat)) (n : Nat) : Option Nat :=
  let ok := fun a => decide (s.cfg.psBase ≤ a) && decide (a + n ≤ s.cfg.psBase + s.cfg.psSize) && rangeFree used a n
  ((s.cfg.psBase :: used.map fun u => u.1 + u.2).filter ok).foldl (fun m a => some (match m with
    | some b => Nat.min a b
    | none => a)) none

/-- The places of the package's images in PROGSTORE, or none where it is full. -/
def State.psPlan (s : State) : List PkgSec → List (Nat × Nat) → Option (List (Nat × Nat × List Byte))
  | [], _ => some []
  | .data _ _ _ :: xs, used => s.psPlan xs used
  | .program i bs :: xs, used =>
    match s.psFit used bs.length with
    | none => none
    | some a => (s.psPlan xs ((a, bs.length) :: used)).map fun l => (i, a, bs) :: l

/-- Whether a PROGRAM section holds a valid image, padded to a multiple of 64 (05 R133). -/
def progOk (bs : List Byte) : Bool :=
  let n := imageSize (imgWord bs 0)
  bs.length == (n + 63) / 64 * 64 && imageOk (bs.take n)

/-- Whether every Lantern that holds a Wick of the partition supports an image (15 R385). -/
def State.imageRuns (s : State) (p : Nat) (bs : List Byte) : Bool :=
  (List.range s.lanterns).all fun n => !s.cfg.wickIn p n || dcdRuns (s.dies.getD n []) bs

/-- The ranges a package is copied to, in order. -/
def State.pkgWrites (s : State) (p : Nat) (secs : List PkgSec) (plan : List (Nat × Nat × List Byte)) : List (Nat × List Byte) :=
  (secs.filterMap fun x => match x with
    | .data h off bs => some ((s.entry p (h % 2 ^ 16)).base0 + off, bs)
    | .program _ _ => none) ++ plan.map fun x => (x.2.1, x.2.2)

/-- Directory entries become valid; one that replaces another takes the next generation. -/
def State.addDirs (s : State) (p : Nat) (plan : List (Nat × Nat × List Byte)) : State :=
  plan.foldl (fun t x =>
    let gen := ((t.lmp.dirs.find? fun e => e.part == p && e.idx == x.1).map fun e => (e.gen + 1) % 2 ^ 16).getD 0
    let e : DirEntry := { part := p, idx := x.1, addr := x.2.1, size := imageSize (imgWord x.2.2 0), gen := gen }
    { t with lmp := { t.lmp with dirs := (t.lmp.dirs.filter fun d => !(d.part == p && d.idx == x.1)) ++ [e] } }) s

/-- A package's bytes are copied: through the copy engine in TC5, with the target's partition (19 R466). -/
def State.pkgCopy (s : State) (p : Nat) (ws : List (Nat × List Byte)) : State :=
  ws.foldl (fun t x => (t.traffic (some (.chimney 0)) 9 5 p x.1 x.2.length true).storeAt x.1 x.2) s

/-- What is copied is undone: zero over every range written. -/
def State.unCopy (s : State) (ws : List (Nat × List Byte)) : State :=
  ws.foldl (fun t x => t.storeAt x.1 (List.replicate x.2.length 0)) s

/-- LOAD_PACKAGE (19 R466): destinations, copies, images, signature; the checks of the header that need no digest come first
(log entry 26). -/
def State.loadPkg (s : State) (o : SignedObj) : State :=
  let p := o.head.target % 8
  match s.objErr 4 (s.cfg.part p).minSvn { o.head with sigOk := true }, o.body with
  | some e, _ => s.mbEnd (some (some e))
  | none, .package secs =>
    if !secsOk secs then s.mbEnd (some (some .signatureInvalid))
    else match secs.findSome? (s.destErr p) with
      | some e => s.mbEnd (some (some e))
      | none =>
        match s.psPlan secs s.psUsed with
        | none =>
          let ws := s.pkgWrites p secs []
          ((s.pkgCopy p ws).unCopy ws).mbEnd (some (some .countExceedsLimit))
        | some plan =>
          let ws := s.pkgWrites p secs plan
          let t := (s.pkgCopy p ws).mbProgress (pkgBytes secs)
          if !(plan.all fun x => t.imageRuns p x.2.2) then (t.unCopy ws).mbEnd (some (some .signatureInvalid))
          else if !(plan.all fun x => progOk x.2.2) then (t.unCopy ws).mbEnd (some none)
          else if !o.head.sigOk then (t.unCopy ws).mbEnd (some (some .signatureInvalid))
          else ((t.addDirs p plan).addMeas (s.measure p o.head)).mbEnd none
  | none, _ => s.mbEnd (some (some .signatureInvalid))

/-! ## APPLY_UPDATE (19 R464; 13 R339, R342) -/

/-- The digest of the configuration that runs, entry 1 of the measurement list. -/
def State.cfgDigest (s : State) : Nat := (s.flt.meas[1]?.map (·.digest)).getD 0

/-- The bandwidths with an update's guarantees over the entries in force or admitted. -/
def State.updBws (s : State) (gs : List GuarCfg) : List Nat :=
  s.bwsAdmit fun k => (gs.find? fun g => 8 * g.part + g.tc == k).map (·.bw)

/-- Whether an update's guarantees are admitted. -/
def State.updAdmits (s : State) (gs : List GuarCfg) : Bool :=
  let es := gs.map fun g => 8 * g.part + g.tc
  es.Nodup && (gs.all fun g => !p0Entry (8 * g.part + g.tc) g.bw g.win && decide (g.bw ≤ 4095) && decide (g.win ≤ 100)) &&
    s.bwsFit (s.updBws gs)

/-- The checks of an update, in order. -/
def State.updChecks (s : State) (u : Update) : List Chk :=
  [(!(u.types.all fun t => t == 3 || t == 5) || !u.types.Nodup, some .signatureInvalid)] ++
    (match u.frame with
      | some f => s.cfg.frameChecks f s.lanterns s.snTable
      | none => []) ++
    [(!s.updAdmits u.guars, some .guaranteeRejected)]

/-- APPLY_UPDATE. -/
def State.update (s : State) (o : SignedObj) : State :=
  match s.objErr 3 s.fuses.arbCfg o.head, o.body with
  | some e, _ => s.mbEnd (some (some e))
  | none, .update u =>
    if o.head.bind ≠ s.cfgDigest % 2 ^ 256 then s.mbEnd (some (some .signatureInvalid))
    else match firstFail (s.updChecks u) with
      | some code =>
        (if code = some .guaranteeRejected then s.capture pgRGL .guaranteeRejected 0 else s).mbEnd (some code)
      | none =>
        let next := u.guars.foldl (fun l g =>
          let e := 8 * g.part + g.tc
          (l.filter fun (x : Nat × Word32) => x.1 != e) ++ [(e, BitVec.ofNat 32 (g.bw % 4096 + g.win % 128 * 2 ^ 16))]) s.rgl.guarNext
        let t := { s with updFrame := u.frame.or s.updFrame, rgl := { s.rgl with
          guarNext := next, guarUpd := (s.rgl.guarUpd ++ u.guars.map fun (g : GuarCfg) => 8 * g.part + g.tc).eraseDups } }
        (t.addMeas (s.measure 0 o.head)).mbEnd none
  | none, _ => s.mbEnd (some (some .signatureInvalid))

/-! ## WRITE_CONFIG, WRITE_IMAGE (19 R459, R460, R463) -/

/-- Whether an object is what the flash area holds. -/
def bodyIs (kind : Nat) : ObjBody → Bool
  | .image _ => kind == 1
  | .config _ => kind == 2
  | _ => false

/-- The verification of an object for the flash. -/
def State.flashErr (s : State) (kind : Nat) (o : SignedObj) : Option Err :=
  match s.objErr kind (if kind = 1 then s.fuses.arbFw else s.fuses.arbCfg) o.head with
  | some e => some e
  | none => if bodyIs kind o.body then none else some .signatureInvalid

/-- An area of the flash is programmed. -/
def State.program (s : State) (kind : Nat) (o : Option SignedObj) : State :=
  if kind = 1 then { s with flash := { s.flash with image := o } } else { s with flash := { s.flash with config := o } }

/-- How the boot goes on after the area has been written: its reads pass now. -/
def State.reboot (s : State) (kind : Nat) : State :=
  match s.flt.boot with
  | none => s
  | some b =>
    let b := { b with imgBad := 0, cfgBad := if kind = 1 then b.cfgBad else 0 }
    let s := { s with flt := { s.flt with boot := some b } }
    if kind = 1 ∧ s.bootSt = 2 then ({ s with ccu := Ccu.zero }.fset pgFLT Reg.FLT_BOOT_CAUSE 0).boot3 b
    else if kind = 2 ∧ s.bootSt = 3 then ((s.fset pgFLT Reg.FLT_BOOT_STATE 0).fset pgFLT Reg.FLT_BOOT_CAUSE 0).boot6 b
    else s

/-- WRITE_IMAGE (kind 1) and WRITE_CONFIG (kind 2): the object is verified before anything is erased; in RECOVERY and
CONFIG_WAIT the boot then goes on. -/
def State.flashWrite (s : State) (kind : Nat) (o : SignedObj) : State :=
  match s.flashErr kind o with
  | some e => s.mbEnd (some (some e))
  | none => (((s.program kind (some o)).mbProgress (o.head.bodyLen + 3392)).mbEnd none).reboot kind

/-- A flash area that is being programmed when power is lost holds the old object, the new one or none (19 R460). -/
def State.torn (s : State) : State :=
  match s.flt.mb with
  | some r =>
    if r.cmd ≠ 3 ∧ r.cmd ≠ 4 then s
    else
      let kind := if r.cmd = 4 then 1 else 2
      match r.obj with
      | none => s
      | some o =>
        if (s.flashErr kind o).isSome then s
        else
          let k := Config.freeNat s.draws % 3
          if k = 0 then s.draw else s.draw.program kind (if k = 1 then none else some o)
  | none => s

/-! ## REVOKE (19 R457) -/

/-- The dies in the order in which a revocation is burned: Snuffer A, Snuffer B, the Chimney. -/
def State.okrevOf (s : State) (die : Nat) : Nat :=
  if die = 0 then s.snA.okrev else if die = 1 then s.snB.okrev else s.fuses.okrev

/-- Burn a slot's bit on a die. -/
def State.burn (s : State) (die slot : Nat) : State :=
  let v := s.okrevOf die ||| 2 ^ slot
  if die = 0 then { s with snA := { s.snA with okrev := v } }
  else if die = 1 then { s with snB := { s.snB with okrev := v } }
  else { s with fuses := { s.fuses with okrev := v } }.fset pgFUS Reg.FUS_KEYS_REV v

/-- Burn the dies in order; a bit already burned stays as it is; the read-back of die `fail` fails. -/
def State.burnDies (s : State) (slot : Nat) (fail : Option Nat) : List Nat → State × Bool
  | [] => (s, true)
  | d :: ds =>
    if (s.okrevOf d).testBit slot then s.burnDies slot fail ds
    else if fail = some d then (s, false)
    else (s.burn d slot).burnDies slot fail ds

/-- REVOKE. -/
def State.revoke (s : State) (o : SignedObj) (fail : Option Nat) : State :=
  let slot := o.head.target % 4
  match s.objErr 7 0 o.head with
  | some e => s.mbEnd (some (some e))
  | none =>
    if o.head.keyslot = slot ∨ !((List.range 4).any fun k => k != slot && s.fuses.slotGood s.fuses.okrev k) then
      s.mbEnd (some (some .signatureInvalid))
    else match s.burnDies slot fail [0, 1, 2] with
      | (t, true) => (t.addMeas (s.measure 0 o.head)).mbEnd none
      | (t, false) => t.mbEnd (some (some .dataErrorDetected))

/-! ## ATTEST, GET_CERT (19 R469 to R471) -/

/-- A measurement of 80 bytes. -/
def Meas.enc (m : Meas) : List Byte :=
  toLE 1 m.kind ++ toLE 1 m.part ++ toLE 2 0 ++ toLE 4 m.svn ++ toLE 8 m.sec ++ toLE 64 m.digest

/-- The attestation report up to its signature (19 Table 7). -/
def State.reportHead (s : State) (nonce : List Byte) : List Byte :=
  let set := (List.range 4).foldl (fun a k => a + (if s.fuses.slotSet k then 2 ^ k else 0)) 0
  toLE 4 0x54414C57 ++ toLE 2 1 ++ toLE 2 s.flt.meas.length ++ toLE 8 s.fuses.serial ++ toLE 4 (s.reg pgFUS 0 0x008).toNat ++
    toLE 1 s.fuses.arbFw ++ toLE 1 s.fuses.arbCfg ++ toLE 1 (set + s.fuses.okrev % 16 * 16) ++ toLE 1 s.flt.image.keyslot ++
    toLE 4 (s.fget pgFLT Reg.FLT_DEBUG_SCOPE) ++ toLE 4 s.epoch.toNat ++ toLE 8 s.tbu.sec ++ toLE 4 s.tbu.nsec ++
    toLE 1 (s.fget pgLNKC Reg.LNK_INSVC_MASK) ++ toLE 3 0 ++ nonce ++ toLE 4 s.flt.dropped ++ toLE 40 0 ++
    s.flt.meas.flatMap Meas.enc

/-- ATTEST: the nonce is read from IN and the report with its signature is written to OUT. -/
def State.attest (s : State) (r : MbRun) : State :=
  match s.inRead r.inRef 32, s.p0Ref r.inRef 32 false with
  | (t, some e), _ => t.mbEnd (some (some e))
  | (t, none), .error e => t.mbEnd (some (some e))
  | (t, none), .ok a =>
    let m := t.reportHead (t.load a 32)
    t.mbReply r.outRef (m ++ (List.range 1280).map fun i => Config.deviceSign m i)

/-- The certificate of the identity area; bytes that production has not written are free. -/
def State.certBytes (s : State) : List Byte := (List.range 3136).map fun i => (s.flash.cert[i]?).getD (Config.freeByte s.draws i)

/-! ## Debug unlock (19 R472) -/

/-- DEBUG_NONCE: a nonce from the random generator replaces any earlier one. -/
def State.debugNonce (s : State) (r : MbRun) : State :=
  let n := Config.freeNat s.draws % 2 ^ 256
  { s.draw with flt := { s.flt with nonce := some n } }.mbReply r.outRef (toLE 32 n)

/-- Whether a debug token is accepted. -/
def State.tokenOk (s : State) (o : SignedObj) : Bool :=
  (s.objErr 6 0 o.head).isNone && o.body == .empty && s.flt.nonce == some o.head.bind

/-- DEBUG_UNLOCK: any token consumes the nonce; one that is accepted grants its scope, pulses line 352 and is recorded. -/
def State.unlock (s : State) (o : SignedObj) : State :=
  let t := { s with flt := { s.flt with nonce := none } }
  if s.tokenOk o then
    let t := t.fset pgFLT Reg.FLT_DEBUG_SCOPE (s.fget pgFLT Reg.FLT_DEBUG_SCOPE ||| o.head.target)
    let t := { t.pulse 352 with flog := t.flog ++ [(5, o.head.target)] }
    (t.addMeas (s.measure 0 o.head)).mbEnd none
  else t.mbEnd (some (some .signatureInvalid))

/-! ## The commands -/

/-- LOAD_PACKAGE. -/
def execLoadPackage (w : Writer) (o : SignedObj) (s : State) : Out := mbWrite w 1 (some o) none s

/-- APPLY_UPDATE. -/
def execApplyUpdate (w : Writer) (o : SignedObj) (s : State) : Out := mbWrite w 2 (some o) none s

/-- WRITE_CONFIG. -/
def execWriteConfig (w : Writer) (o : SignedObj) (s : State) : Out := mbWrite w 3 (some o) none s

/-- WRITE_IMAGE. -/
def execWriteImage (w : Writer) (o : SignedObj) (s : State) : Out := mbWrite w 4 (some o) none s

/-- REVOKE: `fail` names the die whose read-back fails, in the order of 19 R457. -/
def execRevoke (w : Writer) (o : SignedObj) (fail : Option Nat) (s : State) : Out := mbWrite w 5 (some o) fail s

/-- ATTEST. -/
def execAttest (w : Writer) (s : State) : Out := mbWrite w 6 none none s

/-- GET_CERT. -/
def execGetCert (w : Writer) (s : State) : Out := mbWrite w 7 none none s

/-- DEBUG_NONCE. -/
def execDebugNonce (w : Writer) (s : State) : Out := mbWrite w 8 none none s

/-- DEBUG_UNLOCK. -/
def execDebugUnlock (w : Writer) (o : SignedObj) (s : State) : Out := mbWrite w 9 (some o) none s

/-- What a mailbox command does when it completes; one without an object finds none that verifies (log entry 26). -/
def State.mbAct (s : State) (r : MbRun) : State :=
  match r.cmd, r.obj with
  | 1, some o => s.loadPkg o
  | 2, some o => s.update o
  | 3, some o => s.flashWrite 2 o
  | 4, some o => s.flashWrite 1 o
  | 5, some o => s.revoke o r.fail
  | 6, _ => s.attest r
  | 7, _ => s.draw.mbReply r.outRef s.certBytes
  | 8, _ => s.debugNonce r
  | 9, some o => s.unlock o
  | 9, none => { s with flt := { s.flt with nonce := none } }.mbEnd (some (some .signatureInvalid))
  | _, none => s.mbEnd (some (some .signatureInvalid))
  | _, _ => s.mbEnd none

/-- A mailbox command completes: an object that cannot be read through IN is refused with the code of that; a DEBUG_UNLOCK
consumes the nonce all the same. -/
def State.mbDone (s : State) (r : MbRun) : State :=
  match s.inObj r with
  | (t, some e) => (if r.cmd = 9 then { t with flt := { t.flt with nonce := none } } else t).mbEnd (some (some e))
  | (t, none) => t.mbAct r

/-- MAILBOX_COMMAND_DONE: an ATTEST waits for the device key (19 R469). -/
def execMailboxCommandDone (s : State) : Out :=
  match s.flt.mb with
  | none => .next s
  | some r => onLive s (decide (s.fget pgPWR Reg.PWR_CTRL_STATE ≤ 1) && (r.cmd != 6 || s.flt.keyReady)) (s.mbDone r)

/-- KEY_DERIVATION_DONE: within 200 ms of the first READY. -/
def execKeyDerivationDone (e : Nat) (s : State) : Out :=
  onLive s (!s.flt.keyReady && (match s.flt.readyAt with
    | some t => decide (s.now + e ≤ t + 50000000)
    | none => false)) { elapse e s with flt := { (elapse e s).flt with keyReady := true } }

/-! ## Resets (22 R500) -/

/-- A Snuffer loses its cross-link traffic and commands a stop. -/
def State.linkLost (s : State) (i : Sn) : State := if s.snLive i then s.commandStop i 6 0 else s

/-- PWRGD_IN goes low: every die but the always-on domain and the Snuffers is reset. -/
def State.powerFail (s : State) : State := if s.powered then (((s.linkLost .a).linkLost .b).torn).chipReset else s

/-- POWER_FAIL_RESET. -/
def execPowerFailReset (s : State) : Out := .next s.powerFail

/-- The always-on domain loses its values: the RS registers, with the lifetime counters not yet saved, and the wake enables. -/
def State.aonLost (s : State) : State :=
  { s with
    regs := s.regs.filter fun r => !(decide (r.1 / 2 ^ 20 = pgPWR) || decide (r.1 / 2 ^ 20 = pgTRM))
    trm := { s.trm with opSec := 0, counts := [] }
    pwr := { Pwr.zero with lastAct := s.now, since := s.realNow } }

/-- AON_SUPPLY_LOSS: the domain that releases the Chimney from reset is gone, so the dies are in reset as well. -/
def execAonSupplyLoss (s : State) : Out := .next s.powerFail.aonLost

end Sys2Proof.Machine
end

