-- ==== Sys2Proof/Machine/Wake.lean ====
section
/-!
DEFINITION. Wake.lean: the power states: Glow, Ember and Dark, their entry, their exit and the wake record (18 R426 to R435).
-/

namespace Sys2Proof.Machine

open Sys2Proof

/-! ## Entry (18 R427, R428, R430, R433) -/

/-- PWR_CTRL.STATE: 0 Flame, 1 Glow, 2 Ember. -/
def State.pwrSt (s : State) : Nat := s.fget pgPWR Reg.PWR_CTRL_STATE

/-- Whether maintenance keeps the device from Glow and Ember (18 R428): a rank migrating, a channel retraining, a width step or
a lane test in progress. -/
def State.pwrBusy (s : State) : Bool :=
  ((List.range 16).any fun c => (s.retiring c).isSome || (s.ch c).training.isSome) ||
    s.links.any fun l => l.2.step.isSome || l.2.test.isSome

/-- A device in Flame or Glow whose idle time reaches `edges` after `e` edges. -/
def State.idleDue (s : State) (e edges : Nat) : Bool :=
  !s.activity && !s.pwrBusy && s.pwr.entering.isNone && s.pwr.exiting.isNone && s.dueNow e (s.pwr.lastAct + edges)

/-- GLOW_ENTRY: idle for PWR_GLOW_IDLE. -/
def execGlowEntry (e : Nat) (s : State) : Out :=
  let us := s.fget pgPWR Reg.PWR_GLOW_IDLE_US
  let t := elapse e s
  onAwake s (s.pwrSt == 0 && us != 0 && s.idleDue e (us * edgesPerUs))
    ({ t with pwr := { t.pwr with since := t.realNow } }.fset pgPWR Reg.PWR_CTRL_STATE 1)

/-- Whether Ember may be entered (18 R428). -/
def State.emberMay (s : State) : Bool :=
  s.flag pgPWR Reg.PWR_CTRL_EMBER_EN && !s.flag pgLMP Reg.LMP_FRAME_CTRL_ENABLE && !s.activity && !s.pwrBusy

/-- Step 1 of an Ember entry: READY clears and both Snuffers are held in RESET. -/
def State.emberBegin (s : State) : State :=
  let s := (s.fset pgFLT Reg.FLT_BOOT_READY 0)
  let s := { s with pwr := { s.pwr with entering := some s.now } }
  (s.snReset .a).snReset .b

/-- EMBER_ENTRY: idle for PWR_EMBER_IDLE. -/
def execEmberEntry (e : Nat) (s : State) : Out :=
  let sec := s.fget pgPWR Reg.PWR_EMBER_IDLE_S
  onAwake s (sec != 0 && s.emberMay && s.idleDue e (sec * 250000000)) (elapse e s).emberBegin

/-- A Wick loses its registers, tiles and program buffer; a quarantine stays (12 R312). -/
def Wick.unpower (x : Wick) : Wick := { Wick.zero with st := if x.st = .quarantined then .quarantined else .idle }

/-- Whether an address lies in a scratchpad or a Sconce buffer, or a line number does. -/
def lanternMem (a : Nat) : Bool :=
  (decide (0x8100000000 ≤ a) && decide (a < 0x8120000000)) || (decide (0x8200000000 ≤ a) && decide (a < 0x8210000000))

/-- What Ember loses (18 Table 1): scratchpads, Sconce buffers, Wick registers and tiles, program buffers, scoreboards. Their
bytes read afterwards as bytes that nothing has written (log entry 6). -/
def State.emberLoss (s : State) : State :=
  { s with
    mem := s.mem.filter fun c => !lanternMem c.1
    poison := s.poison.filter fun l => !lanternMem (l * 64)
    wicks := s.wicks.map fun w => (w.1, w.2.unpower)
    shToks := [], arrivals := [], cmbs := [] }

/-- The device is in Ember: the Lantern rails are off, the entry is counted, the lifetime log written, and coolant demand is at its minimum (18 R444). -/
def State.emberIn (s : State) : State :=
  let s := (s.countBin 0 6).lifeRegs.saveLife.emberLoss.railsOff
  let s := s.fset pgTRM Reg.TRM_STATUS_DUTY (s.fget pgTRM Reg.TRM_COOL_MIN)
  { s with pwr := { s.pwr with entering := none, since := s.realNow } }.fset pgPWR Reg.PWR_CTRL_STATE 2

/-- EMBER_ENTRY_DONE: within 2 ms, with no activity since the entry began. -/
def execEmberEntryDone (e : Nat) (s : State) : Out :=
  onLive s (!s.activity && (match s.pwr.entering with
    | some t => decide (s.now + e ≤ t + 500000) && decide (s.pwr.lastAct ≤ t)
    | none => false)) (elapse e s).emberIn

/-- Dark: every rail but VDD_AON is off and the PCIe links are down. -/
def State.darkIn (s : State) : State :=
  let s := s.saveLife.chipReset
  { s with hUp0 := false, hUp1 := false, pwr := { s.pwr with dark := true, since := s.realNow } }

/-- DARK_ENTRY: in Ember for PWR_DARK_IDLE. -/
def execDarkEntry (e : Nat) (s : State) : Out :=
  let sec := s.fget pgPWR Reg.PWR_DARK_IDLE_S
  onLive s (s.pwrSt == 2 && s.pwr.exiting.isNone && s.flag pgPWR Reg.PWR_CTRL_DARK_EN && sec != 0 &&
    e == s.pwr.since + sec * 250000000 - s.realNow) (elapse e s).darkIn

/-! ## Wake (18 R432, R434, R435) -/

/-- The sources that each state lists (18 Table 3): Glow, Ember, Dark. -/
def wakeList (from_ : Nat) : Nat := if from_ = 1 then 0x7FF else if from_ = 2 then 0x3FF else 0x027

/-- The state that a wake leaves: Ember also while it is being entered; none where there is nothing to wake from. -/
def State.wakeFrom (s : State) : Option Nat :=
  if s.pwr.dark then some 3
  else if !s.live ∨ s.pwr.exiting.isSome then none
  else if s.pwr.entering.isSome ∨ s.pwrSt = 2 then some 2
  else if s.pwrSt = 1 then some 1
  else none

/-- The lowest set bit of a mask of 11 bits. -/
def lowestBit (m : Nat) : Nat := ((List.range 11).find? fun i => m.testBit i).getD 0

/-- ACLK cycles of 32.768 kHz in a number of TCLK edges; where the last one falls depends on the clock's phase (log entry 7). -/
def State.aclk (s : State) (edges : Nat) : Nat :=
  Nat.min (edges * 4 * 32768 / 1000000000 + Config.freeNat s.draws % 2) (2 ^ 32 - 1)

/-- The last-wake record (18 R435); after Dark the TBU fields read 0. -/
def State.wakeRecord (s : State) (from_ pend : Nat) : State :=
  let from0 := (s.pwr.entering.map (· + s.dbg.frz)).getD s.pwr.since
  let v := lowestBit pend + from_ * 2 ^ 4 + (if s.pwr.entering.isSome then 2 ^ 6 else 0) + pend * 2 ^ 16
  let s := s.setReg pgPWR 0 0x054 (BitVec.ofNat 32 v)
  let s := s.setReg pgPWR 0 0x058 (BitVec.ofNat 32 (if from_ = 3 then 0 else s.tbu.nsec))
  let s := s.setReg pgPWR 0 0x05C (BitVec.ofNat 32 (if from_ = 3 then 0 else s.tbu.sec))
  (s.setReg pgPWR 0 0x060 (BitVec.ofNat 32 (s.aclk (s.realNow - from0)))).draw

/-- An exit from Ember begins: the Snuffers leave RESET. An entry that is aborted may have lost what Ember loses already. -/
def State.emberLeave (s : State) : State :=
  let s := if s.pwr.entering.isSome then (if Config.freeNat s.draws % 2 = 0 then s.emberLoss.draw else s.draw) else s
  let s := { s with pwr := { s.pwr with entering := none, exiting := some s.now } }
  (s.snRestart .a).snRestart .b

/-- A wake by the sources of a mask. -/
def State.wakeBy (s : State) (pend : Nat) : State :=
  match s.wakeFrom with
  | none => s
  | some f =>
    let m := pend &&& s.fget pgPWR Reg.PWR_WAKE_EN_MASK &&& wakeList f
    if m = 0 then s
    else
      let s := s.wakeRecord f m
      if f = 1 then { s with pwr := { s.pwr with since := s.realNow, lastAct := s.now } }.fset pgPWR Reg.PWR_CTRL_STATE 0
      else if f = 2 then s.emberLeave
      else { s with pwr := { s.pwr with dark := false, since := s.realNow } }

/-- WAKE: sources fire after `e` edges. -/
def execWake (pend e : Nat) (s : State) : Out :=
  .next (if s.wakeFrom.isSome then (elapse e s).wakeBy (pend % 2048) else s)

/-- A posted write held in a wake buffer is applied. -/
def State.applyHeld (s : State) (port : Nat) : PcieReq → State
  | .writeReg fn page off size v => s.writeReg (.host port fn) page off size v
  | .bell fn qid v => if qid < 2 ^ 18 then s.ringBell (writerPart (.host port fn)) qid v false else s
  | .aperture fn ap off data => s.apAccess port fn ap off (some data) data.length .ok
  | _ => s

/-- Every channel that is due is retrained before the device leaves Ember (14 R360), by the PHY temperatures `temps` at the exit;
`low` are the channels where a margin is below Flint's minimum; refresh resumes. -/
def State.emberTrain (s : State) (temps : List (Nat × Nat)) (low : List Nat) : State :=
  let s := temps.foldl (fun t x => if x.1 < 16 then t.phyTemp x.1 x.2 else t) s
  let s := (List.range 16).foldl (fun t c =>
    if (t.dueAt c).isSome then t.retrained c (t.ch c).temp (!low.contains c) else t) s
  { s with dmc := s.dmc.map fun c => (c.1, { c.2 with refAt := c.2.refAt.map fun r => (r.1, Nat.max r.2 s.now) }) }

/-- The links start afresh with the settings saved at entry. -/
def State.emberLinks (s : State) : State :=
  { s with links := s.links.map fun l => (l.1, { l.2 with up := LinkDir.zero, down := LinkDir.zero, wcnt := [] }), lnkWin := s.now }

/-- The device is in Flame again: the grants, the channels and links, the Trimmer's clocks, then the held writes in order. -/
def State.emberOut (s : State) (temps : List (Nat × Nat)) (low : List Nat) : State :=
  let s := (s.startGrants.emberTrain temps low).emberLinks
  let held := s.pwr.held
  let s := { s with
    pwr := { s.pwr with exiting := none, since := s.realNow, lastAct := s.now, held := [] }
    trm := { s.trm with sampleAt := s.now, cycAt := s.now, perAt := s.tbu.ns, dutyAt := s.now, hist := [], pkg := [] } }
  let s := s.fset pgPWR Reg.PWR_CTRL_STATE 0
  (held.foldl (fun t r => t.applyHeld r.1 r.2) s).flow

/-- EMBER_EXIT_DONE: at most 3.2 ms after the wake. -/
def execEmberExitDone (e : Nat) (temps : List (Nat × Nat)) (low : List Nat) (s : State) : Out :=
  onLive s (match s.pwr.exiting with
    | some t => decide (s.now + e ≤ t + 800000)
    | none => false) ((elapse e s).emberOut temps low)

/-! ## PCIe requests in Ember (18 R431) -/

/-- A request at a port: the PWR page answers; any other read is answered as an unreachable unit and wakes the device; a posted
write waits in the port's wake buffer of 64, and the link's activity wakes the device. -/
def State.emberReq (s : State) (port : Nat) (r : PcieReq) : State :=
  let held := (s.pwr.held.filter fun h => h.1 == port).length
  match r with
  | .readReg fn page off size =>
    if fn = 0 ∧ page = pgPWR then s.readReg (.host port 0) page off size
    else (s.answer size (allOnes size)).wakeBy (2 ^ port)
  | .readOther size => (s.answer size (allOnes size)).wakeBy (2 ^ port)
  | w => if held < 64 then { s with pwr := { s.pwr with held := s.pwr.held ++ [(port, w)] } }.wakeBy (2 ^ port) else s

/-- EMBER_PCIE_REQUEST. -/
def execEmberPcieRequest (port : Nat) (req : PcieReq) (s : State) : Out :=
  onLive s (s.pwrSt == 2 && decide (port < 2) && s.portUp port) (s.emberReq port req)

end Sys2Proof.Machine
end

