-- ==== Sys2Proof/Machine/Dispatch.lean ====
section
/-!
DEFINITION. Dispatch.lean: one arm per command, each one call of its meaning.
-/

namespace Sys2Proof.Machine

open Sys2Proof

def exec (i : Instr) (s : State) : Host.Outcome State Fault Refusal :=
  match i with
  | .tbuTick e => Sys2Proof.Machine.execTbuTick e s
  | .ftickInEdge e rising => Sys2Proof.Machine.execFtickInEdge e rising s
  | .substituteTick e => Sys2Proof.Machine.execSubstituteTick e s
  | .frameEnableWrite w v => Sys2Proof.Machine.execFrameEnableWrite w v s
  | .registerWrite w page off size v => Sys2Proof.Machine.execRegisterWrite w page off size v s
  | .lockWrite w page v => Sys2Proof.Machine.execLockWrite w page v s
  | .intStatusClear w page v => Sys2Proof.Machine.execIntStatusClear w page v s
  | .intForceWrite w page v => Sys2Proof.Machine.execIntForceWrite w page v s
  | .counterLoRead w page off size => Sys2Proof.Machine.execCounterLoRead w page off size s
  | .queueEnable w p => Sys2Proof.Machine.execQueueEnable w p s
  | .queueDisable w p => Sys2Proof.Machine.execQueueDisable w p s
  | .queueResume w p => Sys2Proof.Machine.execQueueResume w p s
  | .queueSkip w p => Sys2Proof.Machine.execQueueSkip w p s
  | .doorbell w qid v bad => Sys2Proof.Machine.execDoorbell w qid v bad s
  | .contextFetchDone qid chk => Sys2Proof.Machine.execContextFetchDone qid chk s
  | .dequeue bad => Sys2Proof.Machine.execDequeue bad s
  | .descriptorArrival qid chk => Sys2Proof.Machine.execDescriptorArrival qid chk s
  | .bufferEntryReadDone qid chk => Sys2Proof.Machine.execBufferEntryReadDone qid chk s
  | .jobStart tag => Sys2Proof.Machine.execJobStart tag s
  | .selectorReadDone tag chk => Sys2Proof.Machine.execSelectorReadDone tag chk s
  | .jobComplete tag => Sys2Proof.Machine.execJobComplete tag s
  | .jobRetire qid => Sys2Proof.Machine.execJobRetire qid s
  | .hostReadTimeout w page size => Sys2Proof.Machine.execHostReadTimeout w page size s
  | .descriptorNop tag => Sys2Proof.Machine.execDescriptorNop tag s
  | .barrier tag => Sys2Proof.Machine.execBarrier tag s
  | .copy tag => Sys2Proof.Machine.execCopy tag s
  | .copyUnitDone place chk => Sys2Proof.Machine.execCopyUnitDone place chk s
  | .engineJobStart eng place => Sys2Proof.Machine.execEngineJobStart eng place s
  | .tileRun tag => Sys2Proof.Machine.execTileRun tag s
  | .unitPlace tag unit wicks chk => Sys2Proof.Machine.execUnitPlace tag unit wicks chk s
  | .unitComplete wick => Sys2Proof.Machine.execUnitComplete wick s
  | .unitFault wick cause own => Sys2Proof.Machine.execUnitFault wick cause own s
  | .unitDurExpired wick => Sys2Proof.Machine.execUnitDurExpired wick s
  | .unitReexecute tag unit wicks chk => Sys2Proof.Machine.execUnitReexecute tag unit wicks chk s
  | .wickStopDone wick => Sys2Proof.Machine.execWickStopDone wick s
  | .scoreboardArrival ent chk => Sys2Proof.Machine.execScoreboardArrival ent chk s
  | .waitRelease wick chk => Sys2Proof.Machine.execWaitRelease wick chk s
  | .storeDrain wick => Sys2Proof.Machine.execStoreDrain wick s
  | .tileNop wick => Sys2Proof.Machine.execTileNop wick s
  | .tileEnd wick => Sys2Proof.Machine.execTileEnd wick s
  | .tileLoop wick f => Sys2Proof.Machine.execTileLoop wick f s
  | .tileWait wick f chk => Sys2Proof.Machine.execTileWait wick f chk s
  | .tileArrive wick f => Sys2Proof.Machine.execTileArrive wick f s
  | .tileFence wick f => Sys2Proof.Machine.execTileFence wick f s
  | .sadd wick f => Sys2Proof.Machine.execSadd wick f s
  | .ssub wick f => Sys2Proof.Machine.execSsub wick f s
  | .smul wick f => Sys2Proof.Machine.execSmul wick f s
  | .sand wick f => Sys2Proof.Machine.execSand wick f s
  | .sor wick f => Sys2Proof.Machine.execSor wick f s
  | .sxor wick f => Sys2Proof.Machine.execSxor wick f s
  | .sshl wick f => Sys2Proof.Machine.execSshl wick f s
  | .sshr wick f => Sys2Proof.Machine.execSshr wick f s
  | .sminu wick f => Sys2Proof.Machine.execSminu wick f s
  | .smaxu wick f => Sys2Proof.Machine.execSmaxu wick f s
  | .slix wick f => Sys2Proof.Machine.execSlix wick f s
  | .vadd wick f => Sys2Proof.Machine.execVadd wick f s
  | .vsub wick f => Sys2Proof.Machine.execVsub wick f s
  | .vmul wick f => Sys2Proof.Machine.execVmul wick f s
  | .vfma wick f => Sys2Proof.Machine.execVfma wick f s
  | .vmin wick f => Sys2Proof.Machine.execVmin wick f s
  | .vmax wick f => Sys2Proof.Machine.execVmax wick f s
  | .vand wick f => Sys2Proof.Machine.execVand wick f s
  | .vor wick f => Sys2Proof.Machine.execVor wick f s
  | .vxor wick f => Sys2Proof.Machine.execVxor wick f s
  | .vshl wick f => Sys2Proof.Machine.execVshl wick f s
  | .vshr wick f => Sys2Proof.Machine.execVshr wick f s
  | .vcmp wick f => Sys2Proof.Machine.execVcmp wick f s
  | .vsel wick f => Sys2Proof.Machine.execVsel wick f s
  | .vcvt wick f => Sys2Proof.Machine.execVcvt wick f s
  | .vexp2 wick f => Sys2Proof.Machine.execVexp2 wick f s
  | .vlog2 wick f => Sys2Proof.Machine.execVlog2 wick f s
  | .vrcp wick f => Sys2Proof.Machine.execVrcp wick f s
  | .vrsq wick f => Sys2Proof.Machine.execVrsq wick f s
  | .vmov wick f => Sys2Proof.Machine.execVmov wick f s
  | .vrot wick f => Sys2Proof.Machine.execVrot wick f s
  | .pset wick f => Sys2Proof.Machine.execPset wick f s
  | .plog wick f => Sys2Proof.Machine.execPlog wick f s
  | .vld wick f chk => Sys2Proof.Machine.execVld wick f chk s
  | .vst wick f => Sys2Proof.Machine.execVst wick f s
  | .trd wick f => Sys2Proof.Machine.execTrd wick f s
  | .twr wick f => Sys2Proof.Machine.execTwr wick f s
  | .mma wick f chk => Sys2Proof.Machine.execMma wick f chk s
  | .dma wick f => Sys2Proof.Machine.execDma wick f s
  | .dmag wick f chk => Sys2Proof.Machine.execDmag wick f chk s
  | .dmaCommandComplete wick ch chk => Sys2Proof.Machine.execDmaCommandComplete wick ch chk s
  | .cmb wick f => Sys2Proof.Machine.execCmb wick f s
  | .combineFold tag grp unit chk => Sys2Proof.Machine.execCombineFold tag grp unit chk s
  | .combineResultWritten tag grp unit => Sys2Proof.Machine.execCombineResultWritten tag grp unit s
  | .sorti wick f => Sys2Proof.Machine.execSorti wick f s
  | .sort tag => Sys2Proof.Machine.execSort tag s
  | .sorterJobDone scn chk => Sys2Proof.Machine.execSorterJobDone scn chk s
  | .regroup tag => Sys2Proof.Machine.execRegroup tag s
  | .regroupRowDone scn chk => Sys2Proof.Machine.execRegroupRowDone scn chk s
  | .cropResize tag => Sys2Proof.Machine.execCropResize tag s
  | .cropBoxDone scn chk => Sys2Proof.Machine.execCropBoxDone scn chk s
  | .attendPaged tag => Sys2Proof.Machine.execAttendPaged tag s
  | .seqDescriptorCapture tag seq chk => Sys2Proof.Machine.execSeqDescriptorCapture tag seq chk s
  | .coarseSelectionDone tag seq rg chk => Sys2Proof.Machine.execCoarseSelectionDone tag seq rg chk s
  | .apwPageArrive wick chk => Sys2Proof.Machine.execApwPageArrive wick chk s
  | .apwTableRereadDone tag seq chk => Sys2Proof.Machine.execApwTableRereadDone tag seq chk s
  | .pageScore tag => Sys2Proof.Machine.execPageScore tag s
  | .xcuVote tag => Sys2Proof.Machine.execXcuVote tag s
  | .xcuVoteDone chk e => Sys2Proof.Machine.execXcuVoteDone chk e s
  | .mapPublish tag chk => Sys2Proof.Machine.execMapPublish tag chk s
  | .publishComplete => Sys2Proof.Machine.execPublishComplete s
  | .ccuCheck tag chk => Sys2Proof.Machine.execCcuCheck tag chk s
  | .pipeCheckStart pipe => Sys2Proof.Machine.execPipeCheckStart pipe s
  | .pipeCheckDone pipe chk => Sys2Proof.Machine.execPipeCheckDone pipe chk s
  | .checkCapExpired pipe => Sys2Proof.Machine.execCheckCapExpired pipe s
  | .planningDeadline e => Sys2Proof.Machine.execPlanningDeadline e s
  | .profile tag chk => Sys2Proof.Machine.execProfile tag chk s
  | .profileAlternateDone chk => Sys2Proof.Machine.execProfileAlternateDone chk s
  | .finalCheckStart e => Sys2Proof.Machine.execFinalCheckStart e s
  | .finalAlternateNamed e => Sys2Proof.Machine.execFinalAlternateNamed e s
  | .selftest tag => Sys2Proof.Machine.execSelftest tag s
  | .selftestChunkDone tag tgt chunk sig same => Sys2Proof.Machine.execSelftestChunkDone tag tgt chunk sig same s
  | .snufferPoll sn e chkA chkB => Sys2Proof.Machine.execSnufferPoll sn e chkA chkB s
  | .snufferCutoff sn e => Sys2Proof.Machine.execSnufferCutoff sn e s
  | .gateLoad chk => Sys2Proof.Machine.execGateLoad chk s
  | .snufferCompareDone sn => Sys2Proof.Machine.execSnufferCompareDone sn s
  | .crosslinkMessage sn msg crcOk => Sys2Proof.Machine.execCrosslinkMessage sn msg crcOk s
  | .verdictTimeout e => Sys2Proof.Machine.execVerdictTimeout e s
  | .gateDecision e => Sys2Proof.Machine.execGateDecision e s
  | .safeToggle sn e => Sys2Proof.Machine.execSafeToggle sn e s
  | .heartbeatEdge sn e width => Sys2Proof.Machine.execHeartbeatEdge sn e width s
  | .heartbeatTimeout sn e => Sys2Proof.Machine.execHeartbeatTimeout sn e s
  | .aggregatorPulse sn line => Sys2Proof.Machine.execAggregatorPulse sn line s
  | .snufferReset sn => Sys2Proof.Machine.execSnufferReset sn s
  | .snufferStartTestsDone sn res time10us => Sys2Proof.Machine.execSnufferStartTestsDone sn res time10us s
  | .memoryRequestIssue req => Sys2Proof.Machine.execMemoryRequestIssue req s
  | .memoryResponse id chk e => Sys2Proof.Machine.execMemoryResponse id chk e s
  | .writeBufferDrain ch chk => Sys2Proof.Machine.execWriteBufferDrain ch chk s
  | .refreshDue ch rank => Sys2Proof.Machine.execRefreshDue ch rank s
  | .guaranteeWindowEnd p tc e => Sys2Proof.Machine.execGuaranteeWindowEnd p tc e s
  | .gentryWrite w v => Sys2Proof.Machine.execGentryWrite w v s
  | .slotsWrite w v => Sys2Proof.Machine.execSlotsWrite w v s
  | .migrationRowDone ch bad => Sys2Proof.Machine.execMigrationRowDone ch bad s
  | .ddrAlert ch e => Sys2Proof.Machine.execDdrAlert ch e s
  | .ddrAlertDeassert ch wcrc ranks => Sys2Proof.Machine.execDdrAlertDeassert ch wcrc ranks s
  | .maintWindowOpen e => Sys2Proof.Machine.execMaintWindowOpen e s
  | .retrainDone ch e temp good => Sys2Proof.Machine.execRetrainDone ch e temp good s
  | .retrainOverdue ch e => Sys2Proof.Machine.execRetrainOverdue ch e s
  | .reservoirBondTestDone lantern bank res => Sys2Proof.Machine.execReservoirBondTestDone lantern bank res s
  | .flitReceive link flit e => Sys2Proof.Machine.execFlitReceive link flit e s
  | .lctlNak link lseq => Sys2Proof.Machine.execLctlNak link lseq s
  | .lctlWidth link st grp => Sys2Proof.Machine.execLctlWidth link st grp s
  | .lctlLanetest link => Sys2Proof.Machine.execLctlLanetest link s
  | .lctlTestres link mask => Sys2Proof.Machine.execLctlTestres link mask s
  | .lctlCredit link credits => Sys2Proof.Machine.execLctlCredit link credits s
  | .laneWindowExpire e => Sys2Proof.Machine.execLaneWindowExpire e s
  | .laneTestDone link mask fails => Sys2Proof.Machine.execLaneTestDone link mask fails s
  | .widthStepDone link => Sys2Proof.Machine.execWidthStepDone link s
  | .guestRequest req => Sys2Proof.Machine.execGuestRequest req s
  | .guestRequestTimeout id e => Sys2Proof.Machine.execGuestRequestTimeout id e s
  | .csi2Packet rx vc dt eccOk crcOk payload => Sys2Proof.Machine.execCsi2Packet rx vc dt eccOk crcOk payload s
  | .csi2FrameStart rx vc num eccOk e => Sys2Proof.Machine.execCsi2FrameStart rx vc num eccOk e s
  | .csi2FrameEnd rx vc eccOk e => Sys2Proof.Machine.execCsi2FrameEnd rx vc eccOk e s
  | .pxeSlice e => Sys2Proof.Machine.execPxeSlice e s
  | .inputVersionClose kind stream e => Sys2Proof.Machine.execInputVersionClose kind stream e s
  | .ethRxFrame port bytes fcsOk e dur => Sys2Proof.Machine.execEthRxFrame port bytes fcsOk e dur s
  | .etqSwWrite w page v => Sys2Proof.Machine.execEtqSwWrite w page v s
  | .ethTxStart port e => Sys2Proof.Machine.execEthTxStart port e s
  | .ethTxDone port good e => Sys2Proof.Machine.execEthTxDone port good e s
  | .ethTxLate port q e => Sys2Proof.Machine.execEthTxLate port q e s
  | .ethLinkDown port => Sys2Proof.Machine.execEthLinkDown port s
  | .apertureAccess w ap off data len chk => Sys2Proof.Machine.execApertureAccess w ap off data len chk s
  | .apertureReadTimeout w ap len e => Sys2Proof.Machine.execApertureReadTimeout w ap len e s
  | .pchApLoWrite w page v => Sys2Proof.Machine.execPchApLoWrite w page v s
  | .functionLevelReset port fn => Sys2Proof.Machine.execFunctionLevelReset port fn s
  | .pcieLinkDown port => Sys2Proof.Machine.execPcieLinkDown port s
  | .tbuNowRead w => Sys2Proof.Machine.execTbuNowRead w s
  | .incrFracWrite w v => Sys2Proof.Machine.execIncrFracWrite w v s
  | .incrIntWrite w v => Sys2Proof.Machine.execIncrIntWrite w v s
  | .adjNsWrite w v => Sys2Proof.Machine.execAdjNsWrite w v s
  | .slewDone e => Sys2Proof.Machine.execSlewDone e s
  | .ptpSync e logInt => Sys2Proof.Machine.execPtpSync e logInt s
  | .ptpAnnounce gm => Sys2Proof.Machine.execPtpAnnounce gm s
  | .syncTimeout e => Sys2Proof.Machine.execSyncTimeout e s
  | .alarmFire e => Sys2Proof.Machine.execAlarmFire e s
  | .glowEntry e => Sys2Proof.Machine.execGlowEntry e s
  | .emberEntry e => Sys2Proof.Machine.execEmberEntry e s
  | .darkEntry e => Sys2Proof.Machine.execDarkEntry e s
  | .wake pend e => Sys2Proof.Machine.execWake pend e s
  | .emberExitDone e temps low => Sys2Proof.Machine.execEmberExitDone e temps low s
  | .emberPcieRequest port req => Sys2Proof.Machine.execEmberPcieRequest port req s
  | .trimmerSample e t => Sys2Proof.Machine.execTrimmerSample e t s
  | .trimmerPeriod e => Sys2Proof.Machine.execTrimmerPeriod e s
  | .coolAlert => Sys2Proof.Machine.execCoolAlert s
  | .cycleSample e => Sys2Proof.Machine.execCycleSample e s
  | .lifetimeLogSave e => Sys2Proof.Machine.execLifetimeLogSave e s
  | .powerGood b => Sys2Proof.Machine.execPowerGood b s
  | .powerFailReset => Sys2Proof.Machine.execPowerFailReset s
  | .snufferSupplyFail sn => Sys2Proof.Machine.execSnufferSupplyFail sn s
  | .aonSupplyLoss => Sys2Proof.Machine.execAonSupplyLoss s
  | .loadPackage w o => Sys2Proof.Machine.execLoadPackage w o s
  | .applyUpdate w o => Sys2Proof.Machine.execApplyUpdate w o s
  | .writeConfig w o => Sys2Proof.Machine.execWriteConfig w o s
  | .writeImage w o => Sys2Proof.Machine.execWriteImage w o s
  | .revoke w o fail => Sys2Proof.Machine.execRevoke w o fail s
  | .attest w => Sys2Proof.Machine.execAttest w s
  | .getCert w => Sys2Proof.Machine.execGetCert w s
  | .debugNonce w => Sys2Proof.Machine.execDebugNonce w s
  | .debugUnlock w o => Sys2Proof.Machine.execDebugUnlock w o s
  | .mailboxCommandDone => Sys2Proof.Machine.execMailboxCommandDone s
  | .keyDerivationDone e => Sys2Proof.Machine.execKeyDerivationDone e s
  | .freezeRequest => Sys2Proof.Machine.execFreezeRequest s
  | .dbgFreezeWrite w v => Sys2Proof.Machine.execDbgFreezeWrite w v s
  | .freezeComplete lat => Sys2Proof.Machine.execFreezeComplete lat s
  | .dbgScanWrite w v => Sys2Proof.Machine.execDbgScanWrite w v s
  | .freezeRelease => Sys2Proof.Machine.execFreezeRelease s
  | .extest => Sys2Proof.Machine.execExtest s
  | .idcode => Sys2Proof.Machine.execIdcode s
  | .samplePreload pins => Sys2Proof.Machine.execSamplePreload pins s
  | .clamp => Sys2Proof.Machine.execClamp s
  | .dbgReg addr rw data => Sys2Proof.Machine.execDbgReg addr rw data s
  | .dbgMem addr => Sys2Proof.Machine.execDbgMem addr s
  | .bypass code => Sys2Proof.Machine.execBypass code s
  | .emberEntryDone e => Sys2Proof.Machine.execEmberEntryDone e s
  | .snufferSupplyReturn sn => Sys2Proof.Machine.execSnufferSupplyReturn sn s
  | .ethLinkUp port rate => Sys2Proof.Machine.execEthLinkUp port rate s
  | .pcieLinkUp port => Sys2Proof.Machine.execPcieLinkUp port s
  | .coolAlertDeassert => Sys2Proof.Machine.execCoolAlertDeassert s
  | .misalignedRegisterRead w page off size => Sys2Proof.Machine.execMisalignedRegisterRead w page off size s

end Sys2Proof.Machine
end

