-- ==== Sys2Proof/Machine/Idle.lean ====
section
/-!
DEFINITION. Idle.lean: what a step on an empty queue does: one TCLK edge passes (log entry 2).
-/

namespace Sys2Proof.Machine

open Sys2Proof

/-- One TCLK edge with nothing commanded. -/
def idleEdge (s : State) : State := elapse 1 s

end Sys2Proof.Machine
end

