-- ==== Sys2Proof/Machine/Step.lean ====
section
/-!
DEFINITION. Step.lean: one step takes the command at the front of the queue and runs it on the state with the queue's
rest; on an empty queue one TCLK edge passes (log entry 2).
-/

namespace Sys2Proof.Machine

open Sys2Proof

/-- One step of the block. -/
def step (s : State) : Host.Outcome State Fault Refusal :=
  match s.pending with
  | [] => .next (idleEdge s)
  | c :: rest => exec c { s with pending := rest }

/-- `s` with the command that a word of the table's bits spells at the front of its queue; no word spells one, so this
is `s` unchanged (log entry 5). -/
def State.withFetchWord (s : State) (nbits w : Nat) : State :=
  match decodeTableWord nbits w with
  | some c => { s with pending := c :: s.pending }
  | none => s

end Sys2Proof.Machine
end

