-- ==== Sys2Proof/Safety.lean ====
section
/-!
DEFINITION. Safety.lean: what counts as a sound state of the block, as an access that memory serves without an error, as a register
without an effect of its own, and as a change that the units' own traffic makes.
-/

namespace Sys2Proof.Machine

/-- Whether a Snuffer holds its SAFE output low unless it is ARMED or RUNNING (11 R292). -/
def Snuffer.safeHeld (x : Snuffer) : Bool := x.st.active || !x.safe

/-- A sound state: its memory is in canonical form, and a SAFE output is high only of a Snuffer that is ARMED or RUNNING. -/
def State.sound (s : State) : Bool := Memory.wf s.mem && s.snA.safeHeld && s.snB.safeHeld

/-- Whether the `n` bytes at `a` answer partition `p` at once: no Reservoir bank of them is under bond test (15 R368), no place turns the
access away (04 R108, R110; 15 R382, R387), none is in the Map SRAM (10 R243) or behind the guest port (15 R387). -/
def State.open_ (s : State) (p a n : Nat) (write : Bool) : Prop :=
  s.bondWait a n = false ∧ s.denied p a n write = none ∧ (n = 0 ∨ s.region a ≠ .mapSram ∧ s.region a ≠ .guest)

/-- Whether a read of `n` bytes at `a` for partition `p` delivers them without an error: no line of them is poisoned or out of
reach (12 R304). -/
def State.readsOk (s : State) (p a n : Nat) : Prop := s.open_ p a n false ∧ s.readRes a n .ok = .data

/-- Whether `n` bytes at `a` take a write of partition `p` as it is: none of them is out of reach or in a poisoned line. -/
def State.writesOk (s : State) (p a n : Nat) : Prop :=
  s.open_ p a n true ∧ s.region a ≠ .mapSram ∧ s.firstDead a n = none ∧ s.firstPoison a n = none

/-- What the units' own traffic may change (13 R326, R336, R344): registers of the RGL pages and the Regulator's accounts; in Cormer mode
also the keys of lines, and with them what the lines read as (02 R55). -/
def State.onlyMoved (s t : State) : Prop :=
  ∃ r g m k, t = { s with regs := r, rgl := g, mem := m, lineKeys := k } ∧
    (∀ p i o, p ≠ pgRGL → p < 0x040 ∨ 0x060 ≤ p → i < 256 → o < 4096 → t.reg p i o = s.reg p i o) ∧
    (s.cfg.cormer = false → m = s.mem ∧ k = s.lineKeys)

/-- Whether a register at or above 0x040 has no effect of its own: a write of it does what its access codes say and no more (00 R16). -/
def plainReg (b : Block) (off : Nat) : Bool :=
  !(match b with
    | .lmpFrame => off == 0x040
    | .lmpQueue => off == 0x054
    | .rgl => off == 0x04C || off == 0x054 || off == 0x07C
    | .dbg => off == 0x040 || (decide (0x04C ≤ off) && decide (off ≤ 0x058))
    | .tbu => decide (0x050 ≤ off) && decide (off ≤ 0x05C)
    | .flt => off == 0x04C
    | .pch => off == 0x044
    | .etqTx => off == 0x040
    | .sna => true
    | .snb => true
    | _ => false)

end Sys2Proof.Machine
end

