-- ==== Sys2Proof/Certificates/Slice0/Obligations.lean ====
section
/-!
DEFINITION. Obligations.lean: what is to be proved of the model. OBLIGATIONS.json says of each statement which rule or
chapter of the spec it formalises.
-/

open Sys2Proof Sys2Proof.Machine

/-- A step takes the command at the front of the queue and is `exec` of it on the state with the queue's rest. -/
def Obligations.StepRunsFrontCommand : Prop :=
  ∀ (s : State) (c : Instr) (rest : List Instr),
    step { s with pending := c :: rest } = exec c { s with pending := rest }

/-- The reset values that the register tables give (02 Table 2, 20 Tables 2 and 3, 17 R425). -/
def Obligations.ResetRegisterValues : Prop :=
  State.reset.fget pgLMP Reg.LMP_PUB_OFFSET_OFFSET = 45000 ∧ State.reset.fget pgLMP Reg.LMP_PLAN_OFFSET_OFFSET = 40000 ∧
  State.reset.fget pgLMP Reg.LMP_MAINT_WIN_START = 46000 ∧ State.reset.fget pgLMP Reg.LMP_MAINT_WIN_LEN = 200 ∧
  State.reset.reg pgLMP 0 0x040 = 0 ∧ State.reset.epoch = 0 ∧
  State.reset.reg (pgWck 357) 0 0x000 = 0x00016550 ∧
  State.reset.fget pgTBU Reg.BLOCK_VER_MAJOR = 1 ∧ State.reset.fget pgTBU Reg.STATUS_INSVC = 1 ∧
  State.reset.fget (pgQueue 5) Reg.LOCK_OWNER = 5 ∧ State.reset.fget (pgQueue 5) Reg.LOCK_LOCKED = 0 ∧
  State.reset.fget pgTBU Reg.TBU_PERIOD_US = 50000

/-- The state after reset is sound. -/
def Obligations.ResetIsSound : Prop := State.reset.sound = true

/-- Every step keeps a sound state sound. -/
def Obligations.StepKeepsSoundState : Prop :=
  ∀ s t : State, s.sound = true → step s = .next t → t.sound = true

/-- The three sources of a tick, and the early edge (02 R33, R34; 17 R422). -/
def Obligations.TickCommandsComplete : Prop :=
  ∀ (s : State) (e : Nat) (rising : Bool), s.awake = true → s.ticking = true →
    (s.frm.tickSrc = false → s.dueCtr e (s.tbu.next / nsUnit) = true →
      exec (.tbuTick e) s = .next ((elapse e s).tick false)) ∧
    (s.frm.tickSrc = true → rising = !s.frm.tickEdge → (elapse e s).frm.firstPending = true →
      exec (.ftickInEdge e rising) s = .next ((elapse e s).tick false)) ∧
    (s.frm.tickSrc = true → rising = !s.frm.tickEdge → (elapse e s).frm.firstPending = false →
      9 * ((elapse e s).frm.periodUs * 250) ≤ ((elapse e s).now - (elapse e s).tickBase) * 10 →
      ((elapse e s).now - (elapse e s).tickBase) * 10 ≤ 11 * ((elapse e s).frm.periodUs * 250) →
      exec (.ftickInEdge e rising) s = .next ((elapse e s).tick false)) ∧
    (s.frm.tickSrc = true → rising = !s.frm.tickEdge → (elapse e s).frm.firstPending = false →
      ((elapse e s).now - (elapse e s).tickBase) * 10 < 9 * ((elapse e s).frm.periodUs * 250) →
      exec (.ftickInEdge e rising) s =
        .next ((((elapse e s).fadd pgLMP Reg.LMP_TICK_EARLY_COUNT 1).event pgLMP).pulse 0)) ∧
    (s.frm.tickSrc = true → e = s.tickBase + s.frm.periodUs * 250 * 11 / 10 - s.now →
      exec (.substituteTick e) s =
        .next (((((elapse e s).fadd pgLMP Reg.LMP_TICK_SUBST_COUNT 1).event pgLMP).pulse 1).tick true))

/-- LMP_EPOCH increments by 1 modulo 2³² at a tick, and what takes effect with the tick leaves it so (02 R36). -/
def Obligations.TickAdvancesEpoch : Prop :=
  ∀ s : State,
    s.stepApply.epoch = s.epoch ∧
    ((s.setReg pgLMP 0 0x044 (s.epoch + 1)).takeUpdate.takeFrameRegs).epoch = s.epoch + 1 ∧
    ((s.setReg pgLMP 0 0x044 (s.epoch + 1)).takeUpdate.takeFrameRegs).jobs = s.jobs ∧
    ((s.setReg pgLMP 0 0x044 (s.epoch + 1)).takeUpdate.takeFrameRegs).mem = s.mem

/-- The conditions under which deadlines, maintenance window and schedules take effect (02 R38, R39, R42). -/
def Obligations.FrameRegistersTakeEffectChecked : Prop :=
  (∀ s : State, s.flag pgLMP Reg.INT_STATUS_ERR = false →
    let pub := s.fget pgLMP Reg.LMP_PUB_OFFSET_OFFSET
    let plan := s.fget pgLMP Reg.LMP_PLAN_OFFSET_OFFSET
    (plan + 1000 ≤ pub ∧ pub + 1000 ≤ s.frm.periodUs →
      s.takeDeadlines = { s with frm := { s.frm with pubUs := pub, planUs := plan } }) ∧
    (¬ (plan + 1000 ≤ pub ∧ pub + 1000 ≤ s.frm.periodUs) →
      s.takeDeadlines.frm = s.frm ∧ s.takeDeadlines.fget pgLMP Reg.ERR_CODE_CODE = 0x01)) ∧
  (∀ s : State, s.flag pgLMP Reg.INT_STATUS_ERR = false →
    let a := s.fget pgLMP Reg.LMP_MAINT_WIN_START
    let n := s.fget pgLMP Reg.LMP_MAINT_WIN_LEN
    (a + n ≤ s.frm.periodUs → s.takeMaint = { s with frm := { s.frm with maintStart := a, maintLen := n } }) ∧
    (s.frm.periodUs < a + n → s.takeMaint.frm = s.frm ∧ s.takeMaint.fget pgLMP Reg.ERR_CODE_CODE = 0x01)) ∧
  (∀ (ws : List Win) (period : Nat),
    ((∃ w ∈ ws, 2 ≤ w.2.2.2) → schedErr ws period = some .reservedNonzero) ∧
    ((∀ w ∈ ws, w.2.2.2 ≤ 1) → (∃ w ∈ ws, w.2.2.2 = 1 ∧ w.2.2.1 ≠ 3) → schedErr ws period = some .partitionViolation) ∧
    ((∀ w ∈ ws, w.2.2.2 ≤ 1) → (∀ w ∈ ws, w.2.2.2 = 1 → w.2.2.1 = 3) → (∃ w ∈ ws, period < w.1 + w.2.1) →
      schedErr ws period = some .lengthExceedsExtent) ∧
    ((∀ w ∈ ws, w.2.2.2 ≤ 1) → (∀ w ∈ ws, w.2.2.2 = 1 → w.2.2.1 = 3) → (∀ w ∈ ws, w.1 + w.2.1 ≤ period) →
      ¬ ws.Pairwise (fun a b => ¬ (a.1 < b.1 + b.2.1 ∧ b.1 < a.1 + a.2.1)) →
      schedErr ws period = some .partitionViolation) ∧
    ((∀ w ∈ ws, w.2.2.2 ≤ 1) → (∀ w ∈ ws, w.2.2.2 = 1 → w.2.2.1 = 3) → (∀ w ∈ ws, w.1 + w.2.1 ≤ period) →
      ws.Pairwise (fun a b => ¬ (a.1 < b.1 + b.2.1 ∧ b.1 < a.1 + a.2.1)) → schedErr ws period = none))

/-- What a write of ENABLE does (02 R35). -/
def Obligations.FrameEnableWrite : Prop :=
  ∀ (s : State) (w : Writer) (v : Word32), s.regsUp w = true → s.reaches w pgLMP = true → s.mayWrite w pgLMP = true →
    s.pageBlock pgLMP = .lmpFrame →
    let s1 := s.putFields pgLMP 0 .lmpFrame 0x040 v 1
    ∃ t, exec (.frameEnableWrite w v) s = .next t ∧
      (s.ticking = true → v.getLsbD 0 = false → t.frm = { s.frm with stopPending := true } ∧ t.ticking = true) ∧
      (s.ticking = true → v.getLsbD 0 = true → t.frm = { s.frm with stopPending := false } ∧ t.ticking = true) ∧
      (s.ticking = false → v.getLsbD 0 = false → t.frm = s.frm ∧ t.ticking = false) ∧
      (s.ticking = false → v.getLsbD 0 = true →
        deadlinesOk s1.takeUpdate.takeFrameRegs.frm.pubUs s1.takeUpdate.takeFrameRegs.frm.planUs
          s1.takeUpdate.takeFrameRegs.frm.periodUs = true →
        t.ticking = true ∧ t.frm.firstPending = true ∧ t.frm.stopPending = false ∧ t.frm.enabledAt = s.now)

/-- What a write of a plain register does (00 R16 to R18), of one register or of two (20 R477); and a host's write to a Snuffer's page
(20 R483). -/
def Obligations.RegisterWriteFollowsAccessCodes : Prop :=
  ∀ (s : State) (w : Writer) (page off : Nat) (v : Word64), s.regsUp w = true → s.reaches w page = true → page < 0x1000 →
    let b := s.pageBlock page
    (s.mayWrite w page = true → 0x040 ≤ off → off < 4096 → off % 4 = 0 → plainReg b off = true →
      let i := s.bank page b off
      let old := s.reg page i off
      let rw := accMask b off [.rw]
      let rwl := accMask b off [.rwl]
      let locked := s.flag page Reg.LOCK_LOCKED
      let v32 : Word32 := v.setWidth 32
      ∃ t, exec (.registerWrite w page off 4 v) s = .next t ∧
        (∀ k : Nat, (t.reg page i off).getLsbD k =
          if rw.getLsbD k || (rwl.getLsbD k && !locked) then v32.getLsbD k else old.getLsbD k) ∧
        ((locked && (v32 &&& rwl) != (old &&& rwl)) = true → s.flag page Reg.INT_STATUS_ERR = false →
          t.fget page Reg.ERR_CODE_CODE = 0x03 ∧ t.flag page Reg.INT_STATUS_ERR = true) ∧
        ((locked && (v32 &&& rwl) != (old &&& rwl)) = false → t.reg page 0 0x024 = s.reg page 0 0x024) ∧
        (∀ p j o, regKey p j o ≠ regKey page i off →
          regKey p j o ∉ [regKey page 0 0x018, regKey page 0 0x024, regKey page 0 0x028, regKey page 0 0x02C] →
          t.reg p j o = s.reg p j o) ∧
        t.mem = s.mem ∧ t.jobs = s.jobs ∧ t.queues = s.queues ∧ t.frm = s.frm) ∧
    (off % 8 = 0 → off < 4096 →
      exec (.registerWrite w page off 8 v) s =
        .next ((s.writeOne w page b off (v.setWidth 32)).writeOne w page b (off + 4) ((v >>> 32).setWidth 32)).touch) ∧
    (b = .sna ∨ b = .snb → w ≠ .flint → off % 4 = 0 → off < 4096 → off ≠ 0x018 → off ≠ 0x01C →
      exec (.registerWrite w page off 4 v) s = .next (s.capture page .partitionViolation 0).touch)

/-- Writes of LOCK, INT_STATUS and INT_FORCE (20 R480, R482, R484). A message of a masked vector is left pending. -/
def Obligations.PageHeadWrites : Prop :=
  ∀ (s : State) (w : Writer) (page : Nat) (v : Word32), s.regsUp w = true → s.reaches w page = true →
    s.mayWrite w page = true → page < 0x1000 → page ≠ pgSNA → page ≠ pgSNB → s.pageBlock page ≠ .sna → s.pageBlock page ≠ .snb →
    (∃ t, exec (.lockWrite w page v) s = .next t ∧
      t.flag page Reg.LOCK_LOCKED = (v.getLsbD 31 || s.flag page Reg.LOCK_LOCKED)) ∧
    (∃ t, exec (.intStatusClear w page v) s = .next t ∧ t.reg page 0 0x018 = (s.reg page 0 0x018 &&& ~~~v) ∧
      t.mem = s.mem ∧ t.jobs = s.jobs ∧
      ((s.reg page 0 0x018 &&& v = 0#32 ∨ s.reg page 0 0x018 &&& ~~~v &&& s.reg page 0 0x01C = 0#32) → t.out = s.out) ∧
      (s.reg page 0 0x018 &&& v ≠ 0#32 → s.reg page 0 0x018 &&& ~~~v &&& s.reg page 0 0x01C ≠ 0#32 →
        s.portUp (s.fget page Reg.INT_ROUTE_PORT) = true →
        let fn := fnOf (s.owner page)
        let vec := s.fget page Reg.INT_ROUTE_VEC
        let k := msixKey (s.fget page Reg.INT_ROUTE_PORT) fn vec
        vec < msixCount fn →
        (s.msixMasked k = false → t.out = .msix (s.fget page Reg.INT_ROUTE_PORT) fn vec :: s.out) ∧
        (s.msixMasked k = true → t.out = s.out ∧ k ∈ t.msixPend))) ∧
    ((∃ h f, w = .host h f) → exec (.intForceWrite w page v) s = .next (s.capture page .partitionViolation 0).touch) ∧
    ((∀ h f, w ≠ .host h f) → exec (.intForceWrite w page v) s = .next (s.forceLines page v).touch ∧
      (s.forceLines page v).reg page 0 0x024 = s.reg page 0 0x024)

/-- How an access that reaches no register ends (20 R476, R477, R483; 03 R87). -/
def Obligations.RegisterAccessRefusals : Prop :=
  ∀ (s : State) (w : Writer) (page off size : Nat) (v : Word64), s.regsUp w = true →
    (s.reaches w page = false → page < 0x1000 →
      exec (.misalignedRegisterRead w page off size) s = .next (s.answer size (2 ^ (8 * size) - 1)) ∧
      exec (.counterLoRead w page off size) s = .next (s.answer size (2 ^ (8 * size) - 1)) ∧
      exec (.registerWrite w page off size v) s = .next s.touch) ∧
    (page < 4096 → exec (.hostReadTimeout w page size) s = .next (s.answer size (2 ^ (8 * size) - 1))) ∧
    (s.reaches w page = true → page < 0x1000 → ¬ (off + size ≤ 4096 ∧ (size = 4 ∧ off % 4 = 0 ∨ size = 8 ∧ off % 8 = 0)) →
      exec (.misalignedRegisterRead w page off size) s =
        .next ((s.capture page .misaligned 0).answer size (2 ^ (8 * size) - 1)) ∧
      exec (.registerWrite w page off size v) s = .next (s.capture page .misaligned 0).touch) ∧
    (s.reaches w page = true → page < 0x1000 → s.mayWrite w page = false → off % 4 = 0 → off < 4096 → s.pageBlock page ≠ .sna →
      s.pageBlock page ≠ .snb →
      exec (.registerWrite w page off 4 v) s = .next (s.capture page .partitionViolation 0).touch)

/-- Reads that latch (04 R119; 17 R416). -/
def Obligations.CounterReadsLatch : Prop :=
  ∀ (s : State) (w : Writer), s.regsUp w = true → s.flag pgDBG Reg.DBG_FRZ_SCANNED = false →
    (∀ p, p < 8 → s.reaches w (pgQueue p) = true → s.pageBlock (pgQueue p) = .lmpQueue →
      (∃ t, exec (.counterLoRead w (pgQueue p) 0x060 4) s = .next t ∧
        t.out = .answer 4 (s.reg (pgQueue p) 0 0x060).toNat :: s.out ∧
        t.reg (pgQueue p) 0 0x064 = s.reg (pgQueue p) 1 0x064 ∧ t.mem = s.mem ∧ t.jobs = s.jobs) ∧
      (∃ t, exec (.counterLoRead w (pgQueue p) 0x060 8) s = .next t ∧
        t.out = .answer 8 (s.ctr64 (pgQueue p) 0x060) :: s.out)) ∧
    (s.reaches w pgTBU = true → s.pageBlock pgTBU = .tbu →
      ∃ t, exec (.tbuNowRead w) s = .next t ∧ t.out = .answer 4 s.tbu.nsec :: s.out ∧
        t.regValue pgTBU .tbu 0x044 = BitVec.ofNat 32 s.tbu.sec ∧ t.regValue pgTBU .tbu 0x04C = BitVec.ofNat 32 s.tbu.frac ∧
        t.tbu.ctr = s.tbu.ctr ∧ t.regs = s.regs ∧ t.mem = s.mem)

/-- The capture of an error (12 R314; 20 R480). -/
def Obligations.CaptureKeepsFirstError : Prop :=
  ∀ (s : State) (page addr : Nat) (e : Err), addr < 2 ^ 48 →
    (∃ r o q, s.capture page e addr = { s with regs := r, out := o, msixPend := q }) ∧
    (s.capture page e addr).flag page Reg.INT_STATUS_ERR = true ∧
    (s.flag page Reg.INT_STATUS_ERR = false →
      (s.capture page e addr).fget page Reg.ERR_CODE_CODE = e.code ∧
      ((s.capture page e addr).reg page 0 0x028).toNat + (s.capture page e addr).fget page Reg.ERR_ADDR_HI_ADDR * 2 ^ 32 = addr) ∧
    (s.flag page Reg.INT_STATUS_ERR = true →
      ∀ o ∈ [0x024, 0x028, 0x02C], (s.capture page e addr).reg page 0 o = s.reg page 0 o) ∧
    (∀ p j o, regKey p j o ∉ [regKey page 0 0x018, regKey page 0 0x024, regKey page 0 0x028, regKey page 0 0x02C] →
      (s.capture page e addr).reg p j o = s.reg p j o) ∧
    ((s.capture page e addr).out ≠ s.out ↔
      let fn := fnOf (s.owner page)
      let vec := s.fget page Reg.INT_ROUTE_VEC
      s.pend page = false ∧ (s.reg page 0 0x01C).getLsbD 0 = true ∧ s.portUp (s.fget page Reg.INT_ROUTE_PORT) = true ∧
        vec < msixCount fn ∧ s.msixMasked (msixKey (s.fget page Reg.INT_ROUTE_PORT) fn vec) = false)

/-- Writes that steer the time base (17 R415, R417, R419, R420). -/
def Obligations.TimeBaseWrites : Prop :=
  ∀ (s : State) (w : Writer) (v : Word32), s.regsUp w = true → s.reaches w pgTBU = true → s.mayWrite w pgTBU = true →
    s.pageBlock pgTBU = .tbu →
    (s.servoOwner w = true → s.tbuSt ≠ 2 →
      exec (.incrFracWrite w v) s = .next { s with tbu := { s.tbu with fracStage := v.toNat } }.touch ∧
      (incrOk (v.toNat % 256 * 2 ^ 32 + s.tbu.fracStage) = true → s.isGm = false →
        exec (.incrIntWrite w v) s =
          .next { s with tbu := { s.tbu with incrNext := some (v.toNat % 256 * 2 ^ 32 + s.tbu.fracStage) } }.touch) ∧
      (incrOk (v.toNat % 256 * 2 ^ 32 + s.tbu.fracStage) = false →
        exec (.incrIntWrite w v) s = .next (s.capture pgTBU .countExceedsLimit 0).touch) ∧
      (incrOk (v.toNat % 256 * 2 ^ 32 + s.tbu.fracStage) = true → s.isGm = true →
        exec (.incrIntWrite w v) s = .next s.touch) ∧
      (∃ t, exec (.adjNsWrite w v) s = .next t ∧ t.tbu.ctr = s.tbu.ctr ∧ t.mem = s.mem ∧ t.jobs = s.jobs ∧
        (s.reg pgTBU 0 0x058 = 0 → v.toInt.natAbs ≤ 1000 → t.tbu.slew = v.toInt * 2 ^ 32 ∧ t.tbu.step = none) ∧
        (¬ (s.reg pgTBU 0 0x058 = 0 ∧ v.toInt.natAbs ≤ 1000) → t.tbu.slew = 0 ∧
          t.tbu.step = some (((s.reg pgTBU 0 0x058).toInt * 1000000000 + v.toInt) * 2 ^ 32)))) ∧
    (s.servoOwner w = false → ∀ c ∈ [Instr.incrFracWrite w v, .incrIntWrite w v, .adjNsWrite w v],
      exec c s = .next (s.capture pgTBU .partitionViolation 0).touch) ∧
    (s.servoOwner w = true → s.tbuSt = 2 → ∀ c ∈ [Instr.incrFracWrite w v, .incrIntWrite w v, .adjNsWrite w v],
      exec c s = .next (s.capture pgTBU .timebaseHoldover 0).touch)

/-- The servo's events (17 R419, R420, R424). -/
def Obligations.TimeBaseEvents : Prop :=
  ∀ (s : State) (e : Nat) (logInt : Int) (gm : Word64), s.awake = true →
    (s.servoPortUp = true → s.isGm = false →
      (∃ t, exec (.ptpSync e logInt) s = .next t ∧ t.tbu.lastSync = some (s.now + e) ∧ t.mem = s.mem ∧
        ((elapse e s).tbuSt = 2 → t.tbuSt = 3) ∧ ((elapse e s).tbuSt ≠ 2 → t.tbuSt = (elapse e s).tbuSt)) ∧
      (s.tbu.gm = none → exec (.ptpAnnounce gm) s = .next { s with tbu := { s.tbu with gm := some gm } }) ∧
      (∀ g, s.tbu.gm = some g → g ≠ gm → s.tbuSt ≠ 2 →
        exec (.ptpAnnounce gm) s = .next { s with tbu := { s.tbu with gm := some gm } }.holdover)) ∧
    (∀ t0, s.tbu.lastSync = some t0 → s.isGm = false → s.tbuSt ≠ 2 →
      e = t0 + Nat.max 1 (s.fget pgTBU Reg.TBU_SERVO_MISS) * s.tbu.syncEdges - s.now →
      exec (.syncTimeout e) s = .next (elapse e s).holdover) ∧
    (s.holdover.tbu.slew = 0 ∧ s.holdover.tbu.step = none ∧ s.holdover.tbuSt = 2 ∧ s.holdover.mem = s.mem) ∧
    (s.tclkOn = true → s.tbu.slew ≠ 0 → e = (s.tbu.slew.natAbs + slewStep - 1) / slewStep →
      ∃ t, exec (.slewDone e) s = .next t ∧ t.tbu.slew = 0 ∧ t.tbuSt = 1 ∧ t.flag pgTBU Reg.TBU_STATE_SLEW = false) ∧
    (s.tclkOn = true → s.flag pgTBU Reg.TBU_ALARM_CTRL_ARM = true → s.dueCtr e s.alarmNs = true →
      ∃ t, exec (.alarmFire e) s = .next t ∧ t.flag pgTBU Reg.TBU_ALARM_CTRL_ARM = false ∧
        t.flag pgTBU Reg.INT_STATUS_EVT = true ∧ t.mem = s.mem)

/-- The queue commands (03 R60, R61, Table 3). Doorbells that still wait for the queue's context act before the command. -/
def Obligations.QueueCommandsComplete : Prop :=
  ∀ (s : State) (w : Writer) (p : Nat), p < 8 → s.regsUp w = true → s.reaches w (pgQueue p) = true →
    s.mayWrite w (pgQueue p) = true → s.pageBlock (pgQueue p) = .lmpQueue →
    let qid := s.selQid p
    let q := s.queue qid
    (s.ownsQueue p qid = false → ∀ c ∈ [Instr.queueEnable w p, .queueDisable w p, .queueResume w p, .queueSkip w p],
      exec c s = .next (s.captureLine (pgQueue p) .partitionViolation 0 4).touch) ∧
    (s.ownsQueue p qid = true →
      exec (.queueEnable w p) s = .next ((s.waitingBells qid).cmdEnable p (writerPort w)).touch ∧
      exec (.queueDisable w p) s = .next ((s.waitingBells qid).cmdDisable p).touch ∧
      exec (.queueResume w p) s = .next ((s.waitingBells qid).cmdResume p).touch ∧
      exec (.queueSkip w p) s = .next ((s.waitingBells qid).cmdSkip p).touch) ∧
    (s.ownsQueue p qid = true → (∀ b ∈ s.lmp.bells, b.qid ≠ qid) →
      (q.en = false → s.enableRefusal p qid = none → ∃ t, exec (.queueEnable w p) s = .next t ∧
        (t.queue qid).en = true ∧ (t.queue qid).halt = false ∧ (t.queue qid).tail = s.reg (pgQueue p) 0 0x050 ∧
        (t.queue qid).head = s.reg (pgQueue p) 0 0x050 ∧ (t.queue qid).ret = s.reg (pgQueue p) 0 0x050 ∧
        (t.queue qid).base = s.setupBase p / 4096 ∧ (t.queue qid).prio = s.fget (pgQueue p) Reg.LMP_QCFG_PRIO ∧
        (t.queue qid).log2size = s.fget (pgQueue p) Reg.LMP_QCFG_LOG2SIZE ∧ t.statusWord qid = 0 ∧
        (∀ k, k ≠ qid → t.queue k = s.queue k) ∧ t.mem = s.mem ∧ t.jobs = s.jobs ∧ t.regs = s.regs) ∧
      (∀ e, q.en = false → s.enableRefusal p qid = some e →
        exec (.queueEnable w p) s = .next (s.captureLine (pgQueue p) e 0 4).touch) ∧
      (q.en = true → exec (.queueEnable w p) s = .next s.touch) ∧
      (q.en = true → ∃ t, exec (.queueDisable w p) s = .next t ∧ (t.queue qid).en = false ∧ (t.queue qid).fetch = none ∧
        (t.queue qid).head = q.head ∧ (t.queue qid).tail = q.tail ∧ (∀ k, k ≠ qid → t.queue k = s.queue k) ∧ t.mem = s.mem ∧
        t.jobs = s.jobs.map fun j => if j.qid = qid ∧ j.notStarted = true
          then { j with phase := .ended, st := .cancelled, err := .queueHalted } else j) ∧
      (q.en = false → exec (.queueDisable w p) s = .next s.touch) ∧
      (q.halt = true → ∃ t, exec (.queueResume w p) s = .next t ∧ (t.queue qid).halt = false ∧
        (t.queue qid).head = q.head ∧ (t.queue qid).tail = q.tail ∧ (∀ k, k ≠ qid → t.queue k = s.queue k) ∧
        t.mem = s.mem ∧ t.jobs = s.jobs ∧ t.regs = s.regs) ∧
      (q.halt = true → ∃ t, exec (.queueSkip w p) s = .next t ∧ (t.queue qid).halt = false ∧ t.mem = s.mem ∧
        (∀ k, k ≠ qid → t.queue k = s.queue k) ∧
        (q.haltDoorbell = true ∨ q.head = q.tail → (t.queue qid).head = q.head ∧ t.jobs = s.jobs) ∧
        (q.haltDoorbell = false → q.head ≠ q.tail → (t.queue qid).head = q.head + 1 ∧
          ∃ j, t.jobs = s.jobs ++ [j] ∧ j.qid = qid ∧ j.num = q.head ∧ j.phase = .ended ∧ j.st = .failed ∧ j.err = q.haltErr)) ∧
      (q.halt = false → exec (.queueResume w p) s = .next s.touch ∧ exec (.queueSkip w p) s = .next s.touch))

/-- The refusals of ENABLE in their order (03 Table 3). -/
def Obligations.EnableRefusalsInOrder : Prop :=
  ∀ (s : State) (p qid : Nat),
    let n := s.fget (pgQueue p) Reg.LMP_QCFG_LOG2SIZE
    let cls := s.holdsClass p (s.fget (pgQueue p) Reg.LMP_QCFG_FTC)
    let ring := s.cfg.ddrWritable p (s.setupBase p) (2 ^ n * 64)
    let idle := (s.queue qid).ret = (s.queue qid).tail
    (cls = false → s.enableRefusal p qid = some .partitionViolation) ∧
    (cls = true → n < 4 ∨ 16 < n → s.enableRefusal p qid = some .countExceedsLimit) ∧
    (cls = true → 4 ≤ n → n ≤ 16 → ring = false → s.enableRefusal p qid = some .partitionViolation) ∧
    (cls = true → 4 ≤ n → n ≤ 16 → ring = true → ¬ idle → s.enableRefusal p qid = some .queueHalted) ∧
    (cls = true → 4 ≤ n → n ≤ 16 → ring = true → idle → s.enableRefusal p qid = none)

/-- A doorbell against its queue's context (03 Table 4). One whose context is not at hand, or fails its check there (12 R306), is recorded
with what Table 4 makes of it then (03 R63). -/
def Obligations.DoorbellFollowsTable4 : Prop :=
  ∀ (s : State) (w : Writer) (qid : Nat) (v : Word64) (bad : Bool), s.awake = true → s.writerUp w = true → qid < 2 ^ 18 →
    let p := writerPart w
    let q := s.queue qid
    let v32 : Word32 := v.truncate 32
    (s.ownsQueue p qid = false → exec (.doorbell w qid v bad) s = .next (s.capture pgLMP .partitionViolation 0).touch) ∧
    (s.ownsQueue p qid = true → s.ctxReady qid = false ∨ bad = true → ∃ t, exec (.doorbell w qid v bad) s = .next t ∧
      t.lmp.bells = s.lmp.bells ++
        [{ qid := qid, part := p, v := v, epoch := s.epoch, res := (s.waitingBells qid).bellRes qid p v }] ∧
      t.queues = s.queues ∧ t.mem = s.mem ∧ t.jobs = s.jobs ∧ (s.ctxCached qid = false ∨ bad = false → t.regs = s.regs)) ∧
    (s.ownsQueue p qid = true → s.ctxReady qid = true → ∃ t, exec (.doorbell w qid v false) s = .next t ∧
      t.mem = s.mem ∧ t.jobs = s.jobs ∧ (∀ k, k ≠ qid → t.queue k = s.queue k) ∧
      (q.en = false → t.queue qid = q ∧
        (s.flag (pgQueue p) Reg.INT_STATUS_ERR = false → t.fget (pgQueue p) Reg.ERR_CODE_CODE = 0x12)) ∧
      (q.en = true → q.halt = false → v.toNat / 2 ^ 32 ≠ 0 →
        (t.queue qid).halt = true ∧ (t.queue qid).haltErr = .reservedNonzero ∧ (t.queue qid).tail = q.tail) ∧
      (q.en = true → q.halt = false → v.toNat / 2 ^ 32 = 0 →
        2 ^ 31 ≤ (v32 - q.tail).toNat ∨ 2 ^ q.log2size < (v32 - q.ret).toNat →
        (t.queue qid).halt = true ∧ (t.queue qid).haltErr = .lengthExceedsExtent ∧ (t.queue qid).tail = q.tail) ∧
      (∀ e, q.en = true → q.halt = true → q.bellErr v = some e → t.queue qid = q) ∧
      (q.en = true → v.toNat / 2 ^ 32 = 0 → (v32 - q.tail).toNat < 2 ^ 31 → (v32 - q.ret).toNat ≤ 2 ^ q.log2size →
        (t.queue qid).tail = v32 ∧ (t.queue qid).dbTail = v32 ∧ (t.queue qid).dbEpoch = s.epoch ∧
        (t.queue qid).head = q.head ∧ (t.queue qid).ret = q.ret ∧ (t.queue qid).halt = q.halt ∧ t.regs = s.regs))

/-- Dequeue arbitration and the context read (03 R59, R80, R82; 12 R306). -/
def Obligations.DequeueTakesWinner : Prop :=
  ∀ (s : State), s.awake = true →
    (∀ bad, ∃ t, exec (.dequeue bad) s = .next t ∧ t.lmp.slotNo = s.lmp.slotNo + 1 ∧ t.mem = s.mem ∧ t.jobs = s.jobs ∧
      (s.pickPart s.eligible = none → t.queues = s.queues) ∧
      (∀ p qid tag, s.pickPart s.eligible = some p → s.pickQueue s.eligible p = some qid →
        s.pickTag p (s.queue qid).ftc = some tag →
        (t.queue qid).fetch = some (Fetch.mk tag (if s.ctxReady qid && !bad then .descriptor else .context) false 0) ∧
        (t.queue qid).head = (s.queue qid).head ∧ (t.queue qid).tail = (s.queue qid).tail ∧
        ∀ k, k ≠ qid → t.queue k = s.queue k)) ∧
    (∀ p qid, (qid, p) ∈ s.eligible → ∃ q, (qid, q) ∈ s.queues ∧ q.en = true ∧ q.halt = false ∧ q.head ≠ q.tail ∧
      q.fetch = none ∧ s.queueOwner qid = some p) ∧
    (∀ qid f, (s.queue qid).fetch = some f → f.stage = .context → (∀ b ∈ s.lmp.bells, b.qid ≠ qid) →
      (∃ t, exec (.contextFetchDone qid .ok) s = .next t ∧
        t.queue qid = { s.queue qid with fetch := some { f with stage := .descriptor } } ∧ t.mem = s.mem ∧ t.jobs = s.jobs) ∧
      (∀ x, exec (.contextFetchDone qid (.stored x)) s =
        .next (s.captureLine pgLMP .dataErrorDetected (s.cfg.ctxBase + 64 * qid) 370)))

/-- The checks of a descriptor and its binding (03 R69, Table 7; 02 R47). What the checks look at is the state after the read has passed its
port (13 R324, R326). -/
def Obligations.DescriptorChecksHaltOrBind : Prop :=
  ∀ (s : State) (qid p : Nat) (f : Fetch), s.awake = true → (s.queue qid).fetch = some f → s.queueOwner qid = some p →
    (s.queue qid).ftc < 8 →
    let q := s.queue qid
    let a := q.slotAddr q.head
    let u := s.traffic none 8 q.ftc p a 64 false
    let d := s.loadLE a 64
    (s.onlyMoved u ∧ u.mem = s.mem) ∧
    (f.stage = .descriptor → s.readRes a 64 .ok = .data → s.region a ≠ .mapSram →
      (∀ e, u.headChecks qid p d = some e → exec (.descriptorArrival qid .ok) s = .next (u.haltQueue qid e false)) ∧
      (∀ o, u.headChecks qid p d = none → opcOf (df d 0 7 0) = some o → u.missing o p d false = [] →
        u.argsDue o p d false = false →
        (∀ e, u.bodyChecks o p d = some e → exec (.descriptorArrival qid .ok) s = .next (u.haltQueue qid e false)) ∧
        (u.bodyChecks o p d = none → ∃ t j, exec (.descriptorArrival qid .ok) s = .next t ∧ t.jobs = s.jobs ++ [j] ∧
          j.tag = f.tag ∧ j.qid = qid ∧ j.num = q.head ∧ j.opc = o ∧ j.part = p ∧ j.d = q.bellEpoch q.head ∧
          j.f = (if j.frameJob ∧ df d 0 15 15 = 1 then q.bellEpoch q.head + 1 else q.bellEpoch q.head) ∧
          (t.queue qid).head = q.head + 1 ∧ (t.queue qid).fetch = none ∧ t.mem = s.mem)) ∧
      (∀ o, u.headChecks qid p d = none → opcOf (df d 0 7 0) = some o →
        u.missing o p d false ≠ [] ∨ u.argsDue o p d false = true →
        ∃ t, exec (.descriptorArrival qid .ok) s = .next t ∧ t.jobs = s.jobs ∧
          (t.queue qid).fetch = some { f with desc := d, stage := .entries false, retried := false })) ∧
    (∀ l, f.stage = .descriptor → s.readRes a 64 .ok = .poisoned l → s.region a = .ddr →
      exec (.descriptorArrival qid .ok) s = .next ((s.readMarks a 64 .ok).haltQueue qid .poisonedRead false)) ∧
    (∀ o h, f.stage = .entries false → opcOf (df f.desc 0 7 0) = some o → s.missing o p f.desc false = [h] →
      s.region (s.entryAddr p h) = .ddr → s.readRes (s.entryAddr p h) 32 .ok = .data →
      let v := (s.traffic none 8 q.ftc p (s.entryAddr p h) 32 false).bufTouch p [h]
      v.missing o p f.desc false = [] → v.argsDue o p f.desc false = false → v.bodyChecks o p f.desc = none →
      ∃ t j, exec (.bufferEntryReadDone qid .ok) s = .next t ∧ t.jobs = s.jobs ++ [j] ∧ j.tag = f.tag ∧ j.opc = o ∧
        (t.queue qid).head = q.head + 1 ∧ (t.queue qid).fetch = none)

/-- What a halt of a queue does (03 R69, R85). -/
def Obligations.HaltKeepsHead : Prop :=
  ∀ (s : State) (qid p : Nat) (e : Err) (bell : Bool), s.queueOwner qid = some p →
    let t := s.haltQueue qid e bell
    t.queue qid = { s.queue qid with halt := true, haltErr := e, haltDoorbell := bell, fetch := none } ∧
    (t.statusWord qid).toNat = 7 + e.code * 2 ^ 4 + (s.queue qid).head.toNat % 2 ^ 24 * 2 ^ 40 ∧
    (∀ k, k ≠ qid → t.queue k = s.queue k) ∧ t.jobs = s.jobs ∧ t.mem = s.mem ∧
    (s.flag (pgQueue p) Reg.INT_STATUS_ERR = false → t.fget (pgQueue p) Reg.ERR_CODE_CODE = e.code) ∧
    t.snA.lines = s.snA.lines ++ (if (s.cfg.part p).crit = some 3 then [4, 2] else [4])

/-- The life of a job up to its end (03 R67, R68, R77, R78, R81). -/
def Obligations.JobsStartRunAndEnd : Prop :=
  ∀ (s : State) (tag : Nat) (j : Job), s.awake = true → s.job tag = some j →
    (j.phase = .waiting → s.jobWait j = .open_ → exec (.jobStart tag) s = .next s) ∧
    (∀ e, j.phase = .waiting → s.jobWait j = .cancel e → ∃ t, exec (.jobStart tag) s = .next t ∧
      t.job tag = some { j with phase := .ended, st := .cancelled, err := e } ∧ t.mem = s.mem ∧ t.queues = s.queues) ∧
    (j.phase = .waiting → s.jobWait j = .ok → s.orderOk j = true → s.readsFinal j = true → s.writesFree j = true →
      s.mapFrameOk j = true → ∃ t k, exec (.jobStart tag) s = .next t ∧ t.job tag = some k ∧ k.phase = .placed ∧
        k.seqNo = s.lmp.nextSeq ∧ k.st = j.st ∧ k.f = j.f ∧ t.lmp.nextSeq = s.lmp.nextSeq + 1 ∧ t.mem = s.mem ∧
        t.queues = s.queues) ∧
    (j.opc = .nop → j.phase = .placed → ∃ t, exec (.descriptorNop tag) s = .next t ∧
      t.job tag = some { j with phase := .ended, st := .done, err := .ok } ∧ t.mem = s.mem ∧ t.queues = s.queues ∧
      t.regs = s.regs) ∧
    (j.opc = .barrier → j.phase = .placed → s.barrierWaits j = List.replicate 6 .ok → ∃ t, exec (.barrier tag) s = .next t ∧
      t.job tag = some { j with phase := .ended, st := .done, err := .ok } ∧ t.mem = s.mem ∧ t.regs = s.regs) ∧
    (∀ e, j.opc = .barrier → j.phase = .placed → waitCancel (s.barrierWaits j) = some e →
      ∃ t, exec (.barrier tag) s = .next t ∧ t.job tag = some { j with phase := .ended, st := .cancelled, err := e }) ∧
    (∀ eng k, s.placeFree eng k = true → s.nextPlaced eng k = some j → ∃ t, exec (.engineJobStart eng k) s = .next t ∧
      t.job tag = some { j with phase := .taken, place := k } ∧ j.opc.engine = some eng ∧ j.phase = .placed ∧
      (∀ x ∈ s.jobs, x.opc.engine = some eng → x.phase = .placed → (eng = .copy → x.tc ≤ k) → j.tc ≤ x.tc)) ∧
    (j.opc = .copy → j.phase = .taken → ∃ t, exec (.copy tag) s = .next t ∧
      t.job tag = some { j with phase := .running, st := (if df j.desc 4 31 0 = 0 then j.st else .running), step := 0,
                                  total := (df j.desc 4 31 0 + 2 ^ 20 - 1) / 2 ^ 20 } ∧
      t.mem = s.mem) ∧
    (j.phase = .running → j.fail = none → j.total ≤ j.step → j.opc ≠ .profile ∨ j.aux ≠ [] → ∃ t, exec (.jobComplete tag) s = .next t ∧
      t.job tag = some { j with phase := .ended, st := .done } ∧ t.mem = s.mem ∧ t.queues = s.queues) ∧
    (∀ e, j.phase = .running → j.fail = some e → (∀ u ∈ j.units, u.phase ≠ .running) →
      ∃ t, exec (.jobComplete tag) s = .next t ∧ t.job tag = some { j with phase := .ended, st := .failed, err := e } ∧
        t.mem = s.mem)

/-- One unit of a COPY (03 R76); the clauses on single bytes are those of native mode, in which no key changes under a line (02 R55). -/
def Obligations.CopyMovesBytes : Prop :=
  ∀ (s : State) (place : Nat) (j : Job), s.awake = true → s.inPlace .copy place = some j → j.phase = .running →
    j.step < j.total → j.fail = none → s.readsLive j = true → j.tc < 8 →
    let src := (j.ref 0).addr
    let dst := (j.ref 1).addr
    let len := df j.desc 4 31 0
    let u := copyPart len j.step (decide (src < dst) && decide (dst < src + len))
    s.readsOk j.part (src + u.1) u.2 → s.writesOk j.part (dst + u.1) u.2 →
    u.2 ≤ 2 ^ 20 ∧
    ∃ t v, exec (.copyUnitDone place .ok) s = .next t ∧ s.onlyMoved v ∧
      t = ((v.copyAt (src + u.1) (dst + u.1) u.2).setJob (j.unitDone 1)) ∧
      t.jobs = s.jobs.map (fun k => if k.tag = j.tag then j.unitDone 1 else k) ∧
      (j.unitDone 1).progress = j.progress + 1 ∧ (j.unitDone 1).step = j.step + 1 ∧ t.queues = s.queues ∧ t.out = s.out ∧
      (s.cfg.cormer = false →
        (∀ i, i < u.2 → readByte t.mem (dst + u.1 + i) = readByte s.mem (src + u.1 + i)) ∧
        (∀ a, ¬ (dst + u.1 ≤ a ∧ a < dst + u.1 + u.2) → readByte t.mem a = readByte s.mem a))

/-- Retirement (03 R79, R85). -/
def Obligations.RetirementWritesBack : Prop :=
  ∀ (s : State) (qid : Nat) (j : Job), s.awake = true → (s.queue qid).ret ≠ (s.queue qid).tail →
    s.jobAt qid (s.queue qid).ret = some j →
    let q := s.queue qid
    let a := q.slotAddr q.ret
    let w := statusOf j.st j.err j.attempts j.progress j.num
    (j.phase = .ended → (j.frameJob = true → frameBelow j.f s.epoch = true) → s.region a ≠ .mapSram →
      (s.firstDead a 8).isNone = true → s.firstPoison a 8 = none →
      ∃ t, exec (.jobRetire qid) s = .next t ∧
        (∀ i, i < 8 → readByte t.mem (a + i) = BitVec.ofNat 8 (w.toNat / 2 ^ (8 * i))) ∧
        (∀ x, ¬ (a ≤ x ∧ x < a + 8) → readByte t.mem x = readByte s.mem x) ∧
        (t.queue qid).ret = q.ret + 1 ∧ (t.queue qid).head = q.head ∧ (t.queue qid).last = w ∧
        (t.queue qid).hist = BitVec.ofNat 32 (j.st.histCode + 4 * q.hist.toNat) ∧
        t.jobs = s.jobs.filter (fun k => !(k.qid == qid && k.num == q.ret)) ∧
        (j.irq = false → j.st = .done → t.out = s.out)) ∧
    ((j.phase ≠ .ended ∨ (j.frameJob = true ∧ frameBelow j.f s.epoch = false)) → exec (.jobRetire qid) s = .next s)

/-- The scalar instructions (05 R141, Table 12). -/
def Obligations.ScalarInstructionsCompute : Prop :=
  (∀ (s : State) (w : Nat) (f : SFields), s.live = true →
    let x := s.wick w
    let a := x.sreg f.sa.toNat
    let b := if f.i then f.imm else x.sreg f.sb.toNat
    ∀ c op v, (c, op, v) ∈ [(Instr.sadd w f, 0x10, a + b), (.ssub w f, 0x11, a - b), (.smul w f, 0x12, a * b),
        (.sand w f, 0x13, a &&& b), (.sor w f, 0x14, a ||| b), (.sxor w f, 0x15, a ^^^ b),
        (.sshl w f, 0x16, a <<< (b.toNat % 32)), (.sshr w f, 0x17, a >>> (b.toNat % 32)),
        (.sminu w f, 0x18, BitVec.ofNat 32 (min a.toNat b.toNat)), (.smaxu w f, 0x19, BitVec.ofNat 32 (max a.toNat b.toNat)),
        (.slix w f, 0x1A, a + BitVec.ofNat 32 (x.lc f.ln.toNat) * b)] →
      x.issues (encS op f) = true → exec c s = .next (s.setWick w (x.setS f.sd.toNat v).stepPc)) ∧
  (∀ (x : Wick) (i j : Nat) (v : Word32), (x.setS i v).sreg j = if j = i ∧ i ≠ 0 then v else x.sreg j) ∧
  (∀ x : Wick, x.sreg 0 = 0)

/-- Loops (05 R139). -/
def Obligations.SequencerLoops : Prop :=
  (∀ (s : State) (w : Nat) (f : LoopF), s.live = true → (s.wick w).issues (encLoop f) = true →
    let x := s.wick w
    let count := if f.csrc then (x.sreg f.sc.toNat).toNat else f.cnt.toNat
    ∃ y, exec (.tileLoop w f) s = .next (s.setWick w y) ∧ y.sregs = x.sregs ∧ y.vregs = x.vregs ∧ y.tiles = x.tiles ∧
      (65535 < count → y.fault = some .countExceeds ∧ y.pc = x.pc) ∧
      (1 ≤ count → count ≤ 65535 → y.pc = x.pc + 1 ∧ y.lc f.l.toNat = 0 ∧ y.fault = none ∧
        y.loops = { l := f.l.toNat, left := count - 1, first := x.pc + 1, last := x.pc + f.body.toNat } :: x.loops) ∧
      (count = 0 → x.loops = [] → y.pc = x.pc + f.body.toNat + 1 ∧ y.lc f.l.toNat = 0 ∧ y.loops = [])) ∧
  (∀ (x : Wick) (fr : LoopFrame) (rest : List LoopFrame), x.loops = fr :: rest →
    (fr.last = x.pc → 0 < fr.left → x.stepPc.pc = fr.first ∧ x.stepPc.lc fr.l = x.lc fr.l + 1 ∧
      x.stepPc.loops = { fr with left := fr.left - 1 } :: rest) ∧
    (fr.last = x.pc → fr.left = 0 → rest = [] → x.stepPc.pc = x.pc + 1 ∧ x.stepPc.loops = [] ∧ x.stepPc.lcnt = x.lcnt) ∧
    (fr.last ≠ x.pc → x.stepPc.pc = x.pc + 1 ∧ x.stepPc.loops = x.loops ∧ x.stepPc.lcnt = x.lcnt)) ∧
  (∀ x : Wick, x.loops = [] → x.stepPc.pc = x.pc + 1 ∧ x.stepPc.sregs = x.sregs ∧ x.stepPc.vregs = x.vregs ∧
    x.stepPc.pregs = x.pregs ∧ x.stepPc.tiles = x.tiles ∧ x.stepPc.toks = x.toks)

/-- The control instructions and tokens (05 R137, R138, R140; 04 R102, R103; 12 R306). -/
def Obligations.ControlInstructionsComplete : Prop :=
  ∀ (s : State) (w : Nat), s.live = true →
    let x := s.wick w
    (x.issues 0x00 = true → exec (.tileNop w) s = .next (s.setWick w x.stepPc)) ∧
    (x.issues 0x01 = true → exec (.tileEnd w) s = .next (s.setWick w { x with lastPc := x.pc, ended := true })) ∧
    (∀ f, x.issues (encFence f) = true →
      let holds := (f.dma = true → x.dma0 = [] ∧ x.dma1 = [] ∧ x.dma2 = [] ∧ x.dma3 = []) ∧ (f.eng = true → x.engOut = 0) ∧
        (f.st = true → x.sbuf = [])
      (holds → exec (.tileFence w f) s = .next (s.setWick w x.stepPc)) ∧
      (¬ holds → exec (.tileFence w f) s = .next (s.setWick w x))) ∧
    (∀ f, x.issues (encWait f) = true →
      let e := tokEntry w x.tag f.tok.toNat
      (f.n.toNat ≤ s.tokCount e → ∃ t, exec (.tileWait w f true) s = .next t ∧
        t.tokCount e = s.tokCount e - f.n.toNat ∧ (∀ v i, SbEntry.priv v i ≠ e → t.tokCount (.priv v i) = s.tokCount (.priv v i)) ∧
        (t.wick w).pc = x.stepPc.pc ∧ (t.wick w).hold = .none ∧ (t.wick w).sregs = x.sregs ∧ t.mem = s.mem ∧ t.jobs = s.jobs) ∧
      (s.tokCount e < f.n.toNat →
        exec (.tileWait w f true) s = .next (s.setWick w { x with lastPc := x.pc, hold := .wait f.tok.toNat f.n.toNat })) ∧
      exec (.tileWait w f false) s = .next (s.entryFail e)) ∧
    (∀ f, x.issues (encArrive f) = true →
      let u := (x.sreg f.su.toNat).toNat
      let tok := f.tok.toNat
      (f.peer = false → exec (.tileArrive w f) s =
        .next { s.setWick w x.stepPc with arrivals := s.arrivals ++ [tokEntry w x.tag tok] }) ∧
      (f.peer = true → s.nunits x.tag ≤ u → exec (.tileArrive w f) s = .next (s.setWick w (x.faulted .partition false))) ∧
      (f.peer = true → u < s.nunits x.tag →
        let tgt := if tok < 256 then s.unitWick x.tag u else s.unitHome x.tag u
        (∀ v, tgt = some v → exec (.tileArrive w f) s =
          .next { s.setWick w x.stepPc with arrivals := s.arrivals ++ [tokEntry v x.tag tok] }) ∧
        (tgt = none → exec (.tileArrive w f) s = .next (s.setWick w x.stepPc)))) ∧
    (∀ e ∈ s.arrivals,
      (s.entryHeld e = false → ∀ chk, exec (.scoreboardArrival e chk) s = .next (s.takeArrival e)) ∧
      (s.entryHeld e = true → exec (.scoreboardArrival e false) s = .next ((s.takeArrival e).entryFail e)) ∧
      (s.entryHeld e = true → s.tokCount e < 65535 → ∃ t, exec (.scoreboardArrival e true) s = .next t ∧
        t.tokCount e = s.tokCount e + 1 ∧ (∀ v i, SbEntry.priv v i ≠ e → t.tokCount (.priv v i) = s.tokCount (.priv v i)) ∧
        (t.wick w).pc = x.pc ∧ (t.wick w).sregs = x.sregs ∧ t.mem = s.mem ∧ t.jobs = s.jobs ∧ t.regs = s.regs)) ∧
    (∀ i n, x.st = .running → x.hold = .wait i n →
      let e := tokEntry w x.tag i
      (n ≤ s.tokCount e → ∃ t, exec (.waitRelease w true) s = .next t ∧ t.tokCount e = s.tokCount e - n ∧
        (t.wick w).hold = .none ∧ (t.wick w).pc = x.stepPc.pc ∧ t.mem = s.mem ∧ t.jobs = s.jobs) ∧
      (s.tokCount e < n → exec (.waitRelease w true) s = .next s) ∧
      exec (.waitRelease w false) s = .next (s.entryFail e))

/-- The lane-wise instructions (05 R141 to R143). -/
def Obligations.VectorInstructionsMergeLanes : Prop :=
  (∀ (s : State) (w : Nat) (f : VFields), s.live = true →
    let x := s.wick w
    let ty := f.ty.toNat
    let n := tyLanes ty
    let k := tyBits ty
    let rz := f.rnd == 1#2
    let va := fun i => vlane k (x.vreg f.va.toNat) i
    let vb := x.opB f
    ∀ (c : Instr) (op : Nat) (g : Nat → Nat), (c, op, g) ∈ [
        (Instr.vadd w f, 0x20, fun i => arith2 0 ty rz f.sat (va i) (vb i)),
        (.vsub w f, 0x21, fun i => arith2 1 ty rz f.sat (va i) (vb i)),
        (.vmul w f, 0x22, fun i => arith2 2 ty rz f.sat (va i) (vb i)),
        (.vfma w f, 0x23, fun i => fma ty rz f.sat (va i) (vb i) (vlane k (x.vreg f.vc.toNat) i)),
        (.vmin w f, 0x24, fun i => minMax false ty (va i) (vb i)), (.vmax w f, 0x25, fun i => minMax true ty (va i) (vb i)),
        (.vand w f, 0x26, fun i => va i &&& vb i), (.vor w f, 0x27, fun i => va i ||| vb i),
        (.vxor w f, 0x28, fun i => va i ^^^ vb i), (.vshl w f, 0x29, fun i => va i * 2 ^ (vb i % 32) % 2 ^ 32),
        (.vshr w f, 0x2A, fun i => shiftRight ty (va i) (vb i % 32)), (.vexp2 w f, 0x2E, fun i => specialLane 0 ty (va i)),
        (.vlog2 w f, 0x2F, fun i => specialLane 1 ty (va i)), (.vrcp w f, 0x30, fun i => specialLane 2 ty (va i)),
        (.vrsq w f, 0x31, fun i => specialLane 3 ty (va i)),
        (.vmov w f, 0x32, fun i => if f.bs then bcast ty rz (x.sreg (f.va.toNat % 32)) else va i),
        (.vrot w f, 0x33, fun i => va ((i + n - f.fc.toNat % n) % n))] →
      x.issues (encV op f) = true →
      ∃ v, exec c s = .next (s.setWick w (x.setV f.vd.toNat v).stepPc) ∧
        ∀ i, i < n → vlane k v i =
          if (x.preg f.pg.toNat).getLsbD i != f.pn then g i % 2 ^ k else vlane k (x.vreg f.vd.toNat) i) ∧
  (∀ (x : Wick) (i j : Nat) (v : VWord), (x.setV i v).vreg j = if j = i then v else x.vreg j)

/-- Predicates, selection and conversion (05 R141, R143). -/
def Obligations.PredicatesAndSelects : Prop :=
  (∀ (s : State) (w : Nat) (f : VFields), s.live = true →
    let x := s.wick w
    let ty := f.ty.toNat
    let k := tyBits ty
    (x.issues (encV 0x2B f) = true → ∃ p, exec (.vcmp w f) s = .next (s.setWick w (x.setP f.pd.toNat p).stepPc) ∧
      ∀ i, i < 128 → p.getLsbD i =
        (decide (i < tyLanes ty) && cmpLane f.cc.toNat ty (vlane k (x.vreg f.va.toNat) i) (x.opB f i))) ∧
    (x.issues (encV 0x34 f) = true → ∃ p, exec (.pset w f) s = .next (s.setWick w (x.setP f.pd.toNat p).stepPc) ∧
      ∀ i, i < 128 → p.getLsbD i = decide (i < (x.sreg (f.va.toNat % 32)).toNat)) ∧
    (x.issues (encV 0x35 f) = true → ∃ p, exec (.plog w f) s = .next (s.setWick w (x.setP f.pd.toNat p).stepPc) ∧
      let a := x.preg (f.va.toNat % 8)
      let b := x.preg (f.vb.toNat % 8)
      (f.fc = 0 → p = a &&& b) ∧ (f.fc = 1 → p = a ||| b) ∧ (f.fc = 2 → p = a ^^^ b) ∧ (f.fc = 3 → p = a &&& ~~~b)) ∧
    (x.issues (encV 0x2C f) = true → ∃ v, exec (.vsel w f) s = .next (s.setWick w (x.setV f.vd.toNat v).stepPc) ∧
      ∀ i, i < tyLanes ty → vlane k v i =
        if (x.preg f.pg.toNat).getLsbD i != f.pn then vlane k (x.vreg f.va.toNat) i else x.opB f i % 2 ^ k) ∧
    (x.issues (encV 0x2D f) = true → ∃ v, exec (.vcvt w f) s = .next (s.setWick w (x.setV f.vd.toNat v).stepPc))) ∧
  (∀ (x : Wick) (i j : Nat) (p : BitVec 128), (x.setP i p).preg j = if j = i ∧ i ≠ 0 then p else x.preg j) ∧
  (∀ x : Wick, x.preg 0 = BitVec.allOnes 128)

/-- Integer vector arithmetic (06 R164). -/
def Obligations.IntegerVectorArithmetic : Prop :=
  (∀ (s : State) (w : Nat) (f : VFields), s.live = true → f.ty = 1 ∨ f.ty = 2 →
    let x := s.wick w
    let val := fun (v : Nat) => if f.ty = 1 ∧ 2 ^ 31 ≤ v then (v : Int) - 2 ^ 32 else (v : Int)
    let lo : Int := if f.ty = 1 then -2 ^ 31 else 0
    let hi : Int := if f.ty = 1 then 2 ^ 31 - 1 else 2 ^ 32 - 1
    let fit := fun (r : Int) => ((if f.sat then max lo (min hi r) else r).emod (2 ^ 32)).toNat
    let a := fun i => val (vlane 32 (x.vreg f.va.toNat) i)
    let b := fun i => val (x.opB f i)
    let c := fun i => val (vlane 32 (x.vreg f.vc.toNat) i)
    ∀ (i0 : Instr) (op : Nat) (r : Nat → Int), (i0, op, r) ∈ [(Instr.vadd w f, 0x20, fun i => a i + b i),
        (.vsub w f, 0x21, fun i => a i - b i), (.vmul w f, 0x22, fun i => a i * b i), (.vfma w f, 0x23, fun i => a i * b i + c i)] →
      x.issues (encV op f) = true →
      ∃ v, exec i0 s = .next (s.setWick w (x.setV f.vd.toNat v).stepPc) ∧
        ∀ i, i < 64 → (x.preg f.pg.toNat).getLsbD i ≠ f.pn → vlane 32 v i = fit (r i)) ∧
  (∀ (s s' : State) (w : Nat) (f : VFields) (b : Bool),
    let g := { f with sat := b }
    ∀ (i0 i1 : Instr) (op : Nat), (i0, i1, op) ∈ [(Instr.vand w f, Instr.vand w g, 0x26), (.vor w f, .vor w g, 0x27),
        (.vxor w f, .vxor w g, 0x28), (.vshl w f, .vshl w g, 0x29), (.vshr w f, .vshr w g, 0x2A)] →
      s.live = true → s'.live = true → (s.wick w).issues (encV op f) = true → (s'.wick w).issues (encV op g) = true →
      s'.wick w = { s.wick w with image := (s'.wick w).image } →
      ∃ y, exec i0 s = .next (s.setWick w y) ∧
        exec i1 s' = .next (s'.setWick w { y with image := (s'.wick w).image }))

/-- The float comparisons (06 R165). -/
def Obligations.FloatComparisonsFollowRule : Prop :=
  (∀ (ty : Nat) (mx : Bool) (a b : Nat), ty = 0 ∨ ty = 3 →
    let fm := tyFmt ty
    let neg0 := 2 ^ (tyBits ty - 1)
    minMax false ty neg0 0 = neg0 ∧ minMax false ty 0 neg0 = neg0 ∧ minMax true ty neg0 0 = 0 ∧ minMax true ty 0 neg0 = 0 ∧
    ((fm.decode a).isNan = true → (fm.decode b).isNan = false →
      minMax mx ty a b = fm.encode false (fm.decode b) ∧ minMax mx ty b a = fm.encode false (fm.decode b)) ∧
    ((fm.decode a).isNan = true → (fm.decode b).isNan = true → minMax mx ty a b = fm.nan) ∧
    (∀ cc, cc < 7 → ∀ u v, u ∈ [0, neg0] → v ∈ [0, neg0] → cmpLane cc ty u v = (cc == 0 || cc == 3 || cc == 5)) ∧
    ((fm.decode a).isNan = true ∨ (fm.decode b).isNan = true →
      (∀ cc ∈ [0, 2, 3, 4, 5], cmpLane cc ty a b = false) ∧ ∀ cc ∈ [1, 6], cmpLane cc ty a b = true)) ∧
  (∀ a : Nat, a < 2 ^ 32 → (fp32.decode a).isNan = false → fp32.encode false (fp32.decode a) = a) ∧
  (∀ (s : State) (w : Nat) (f : VFields), s.live = true →
    let x := s.wick w
    let ty := f.ty.toNat
    let k := tyBits ty
    (∀ mx : Bool, x.issues (encV (if mx then 0x25 else 0x24) f) = true →
      ∃ v, exec (if mx then .vmax w f else .vmin w f) s = .next (s.setWick w (x.setV f.vd.toNat v).stepPc) ∧
        ∀ i, i < tyLanes ty → (x.preg f.pg.toNat).getLsbD i ≠ f.pn →
          vlane k v i = minMax mx ty (vlane k (x.vreg f.va.toNat) i) (x.opB f i) % 2 ^ k) ∧
    (x.issues (encV 0x2B f) = true → ∃ p, exec (.vcmp w f) s = .next (s.setWick w (x.setP f.pd.toNat p).stepPc) ∧
      ∀ i, i < tyLanes ty → p.getLsbD i = cmpLane f.cc.toNat ty (vlane k (x.vreg f.va.toNat) i) (x.opB f i)))

/-- Special inputs of the transcendental operations (06 Table 4). -/
def Obligations.TranscendentalSpecialInputs : Prop :=
  ∀ fm ∈ [fp32, bf16], ∀ u, u ∈ [1, 2] →
    let sign := 2 ^ fm.magBits
    let inf := fm.infMag
    let one := fm.bias * 2 ^ fm.mb
    (fm.special 0 0 u = one ∧ fm.special 0 sign u = one ∧ fm.special 0 inf u = inf ∧ fm.special 0 (sign + inf) u = 0) ∧
    (fm.special 1 0 u = sign + inf ∧ fm.special 1 sign u = sign + inf ∧ fm.special 1 inf u = inf ∧
      fm.special 1 (sign + inf) u = fm.nan ∧ fm.special 1 (sign + one) u = fm.nan) ∧
    (fm.special 2 0 u = inf ∧ fm.special 2 sign u = sign + inf ∧ fm.special 2 inf u = 0 ∧ fm.special 2 (sign + inf) u = sign) ∧
    (fm.special 3 0 u = inf ∧ fm.special 3 sign u = sign + inf ∧ fm.special 3 inf u = 0 ∧
      fm.special 3 (sign + inf) u = fm.nan ∧ fm.special 3 (sign + one) u = fm.nan) ∧
    (∀ op, op < 4 → fm.special op fm.nan u = fm.nan) ∧
    (fp32.special 1 0x41000000 u = 0x40400000 ∧ fp32.special 0 0x40400000 u = 0x41000000)

/-- Vector memory, tile moves and the store buffer (05 R144). -/
def Obligations.ScratchpadAccesses : Prop :=
  ∀ (s : State) (w : Nat), s.live = true →
    let x := s.wick w
    (∀ f chk, x.issues (encM 0x40 f) = true →
      (x.maddr f % 256 ≠ 0 → exec (.vld w f chk) s = .next (s.setWick w (x.faulted .misaligned false))) ∧
      (x.maddr f % 256 = 0 → 0x100000 ≤ x.maddr f →
        exec (.vld w f chk) s = .next (s.setWick w (x.faulted .lengthExceeds false))) ∧
      (x.maddr f % 256 = 0 → x.maddr f < 0x100000 → s.readRes (padBase w + x.maddr f) 256 .ok = .data →
        s.region (padBase w + x.maddr f) = .pad w →
        ∃ v, exec (.vld w f .ok) s = .next (s.setWick w ((x.setV f.v.toNat v).mpost f).stepPc) ∧
          ∀ i, i < 64 → vlane 32 v i =
            if (x.preg f.pg.toNat).getLsbD i != f.pn then vlane 32 (s.padRead w (x.maddr f)) i
            else vlane 32 (x.vreg f.v.toNat) i)) ∧
    (∀ f, x.issues (encM 0x41 f) = true →
      (x.maddr f % 256 ≠ 0 → exec (.vst w f) s = .next (s.setWick w (x.faulted .misaligned false))) ∧
      (x.maddr f % 256 = 0 → 0x100000 ≤ x.maddr f → exec (.vst w f) s = .next (s.setWick w (x.faulted .lengthExceeds false))) ∧
      (x.maddr f % 256 = 0 → x.maddr f < 0x100000 → 4 ≤ x.sbuf.length → exec (.vst w f) s = .next s) ∧
      (x.maddr f % 256 = 0 → x.maddr f < 0x100000 → x.sbuf.length < 4 → ∃ e : StoreEnt,
        exec (.vst w f) s = .next (s.setWick w ((x.push e).mpost f).stepPc) ∧ e.addr = x.maddr f ∧
        e.data = x.vreg f.v.toNat ∧ ∀ i, i < 256 → e.mask.getLsbD i = ((x.preg f.pg.toNat).getLsbD (i / 4) != f.pn))) ∧
    (∀ f, x.issues (encM 0x42 f) = true → exec (.trd w f) s =
      .next (s.setWick w (x.setV f.v.toNat (x.tcol f.t.toNat (x.col f.col.toNat f.cl.toNat f.cle))).stepPc)) ∧
    (∀ f, x.issues (encM 0x43 f) = true → exec (.twr w f) s =
      .next (s.setWick w (x.setTcol f.t.toNat (x.col f.col.toNat f.cl.toNat f.cle) (x.vreg f.v.toNat)).stepPc)) ∧
    (∀ e rest, x.sbuf = e :: rest → e.mask = BitVec.allOnes 256 → w < 512 → e.addr + 256 ≤ 0x100000 →
      s.wickInService w = true →
      ∃ t, exec (.storeDrain w) s = .next t ∧ (t.wick w).sbuf = rest ∧
        (∀ i, i < 256 → readByte t.mem (padBase w + e.addr + i) = e.data.extractLsb' (8 * i) 8) ∧
        (∀ a, ¬ (padBase w + e.addr ≤ a ∧ a < padBase w + e.addr + 256) → readByte t.mem a = readByte s.mem a)) ∧
    (x.sbuf = [] → exec (.storeDrain w) s = .next s)

/-- One step of the tensor array (05 R145; 06 R156, R160). -/
def Obligations.MatrixStep : Prop :=
  ∀ (s : State) (w : Nat) (g : TFields), s.live = true → (s.wick w).issues (encT g) = true →
    let x := s.wick w
    let fm := g.fmt.toNat
    let a := (x.sreg g.sa.toNat).toNat
    let b := (x.sreg g.sb.toNat).toNat
    let na := mmaABytes fm
    let nb := mmaBBytes fm
    (a % 16 ≠ 0 → exec (.mma w g .ok) s = .next (s.setWick w (x.faulted .misaligned false))) ∧
    (g.comp = .none → fm ≤ 2 → a % 16 = 0 → b % 8 = 0 → a + na ≤ 0x100000 → b + nb ≤ 0x100000 →
      s.readRes (padBase w + a) na .ok = .data → s.readRes (padBase w + b) nb .ok = .data →
      s.region (padBase w + a) = .pad w → s.region (padBase w + b) = .pad w →
      ∃ t, exec (.mma w g .ok) s = .next t ∧ t.mem = s.mem ∧ t.regs = s.regs ∧
        (∀ i j, i < 64 → j < 32 → vlane 32 ((t.wick w).tcol g.tile.toNat j) i =
          (((if g.zero then 0 else (vlane 32 (x.tcol g.tile.toNat j) i : Int)) +
            mmaIntTerm fm (s.loadLE (padBase w + a) na) (s.loadLE (padBase w + b) nb) i j).emod (2 ^ 32)).toNat) ∧
        (∀ q j, j < 32 → q ≠ g.tile.toNat → (t.wick w).tcol q j = x.tcol q j) ∧ (t.wick w).vregs = x.vregs ∧
        (g.inca = true → g.incb = false → (t.wick w).sregs = (x.setS g.sa.toNat (BitVec.ofNat 32 (a + na))).sregs) ∧
        (g.inca = false → g.incb = false → (t.wick w).sregs = x.sregs))

/-- The DMA engine of a Wick (05 R147; 04 R99, R101). The clause on single bytes is that of native mode. -/
def Obligations.DmaCommandsQueueAndMove : Prop :=
  ∀ (s : State) (w : Nat), s.live = true →
    let x := s.wick w
    (∀ f, x.issues (encD 0x60 f) = true →
      (4 ≤ (x.chan f.ch.toNat).length → exec (.dma w f) s = .next s) ∧
      (∀ d, (x.chan f.ch.toNat).length < 4 →
        s.dmaSide w f.ref.toNat (x.sreg f.su.toNat).toNat (x.sreg f.sr.toNat).toNat = .ok d →
        let c := DmaCmd.mk (!f.dir) d.base d.off (x.sreg f.sl.toNat).toNat (x.shape f.shape.toNat) none f.tok.toNat d.cref
          (s.tcOf x.tag)
        (s.dmaFault w f.ref.toNat (!f.dir) d c = none →
          exec (.dma w f) s = .next (s.setWick w (x.setChan f.ch.toNat (x.chan f.ch.toNat ++ [c])).stepPc)) ∧
        (∀ e, s.dmaFault w f.ref.toNat (!f.dir) d c = some e → exec (.dma w f) s = .next (s.setWick w (x.faulted e false)))) ∧
      (∀ e, (x.chan f.ch.toNat).length < 4 →
        s.dmaSide w f.ref.toNat (x.sreg f.su.toNat).toNat (x.sreg f.sr.toNat).toNat = .error e →
        exec (.dma w f) s = .next (s.setWick w (x.faulted e false)))) ∧
    (∀ f, x.issues (encD 0x61 f) = true →
      let h := x.shape f.shape.toNat
      let a := (x.sreg f.sr.toNat).toNat
      let n := if h.n1 = 0 ∨ h.n2 = 0 then 0 else h.n0
      (4 ≤ (x.chan f.ch.toNat).length → ∀ chk, exec (.dmag w f chk) s = .next s) ∧
      ((x.chan f.ch.toNat).length < 4 → 0x100000 < a + 4 * n →
        ∀ chk, exec (.dmag w f chk) s = .next (s.setWick w (x.faulted .lengthExceeds false))) ∧
      (∀ d, (x.chan f.ch.toNat).length < 4 → a + 4 * n ≤ 0x100000 →
        s.dmaSide w f.ref.toNat (x.sreg f.su.toNat).toNat 0 = .ok d →
        s.readRes (padBase w + a) (4 * n) .ok = .data → n = 0 ∨ s.region (padBase w + a) = .pad w →
        let c := DmaCmd.mk (!f.dir) d.base d.off (x.sreg f.sl.toNat).toNat h (some (s.offList w a n)) f.tok.toNat d.cref (s.tcOf x.tag)
        (s.dmaFault w f.ref.toNat (!f.dir) d c = none →
          exec (.dmag w f .ok) s = .next (s.setWick w (x.setChan f.ch.toNat (x.chan f.ch.toNat ++ [c])).stepPc)) ∧
        (∀ e, s.dmaFault w f.ref.toNat (!f.dir) d c = some e →
          exec (.dmag w f .ok) s = .next (s.setWick w (x.faulted e false))))) ∧
    (∀ ch c rest, ch < 4 → x.st = .running → x.chan ch = c :: rest → s.cmdLive x.tag c = true →
      let ms := c.rows.map (dmaMove w c)
      (∀ m ∈ ms, s.bondWait m.1 m.2.2 = false ∧ s.bondWait m.2.1 m.2.2 = false) →
      (c.toPad = true ∨ ∀ m ∈ ms, s.moveDenied x.part m = false) → s.movesRead .ok ms = none →
      ∃ t, exec (.dmaCommandComplete w ch .ok) s = .next t ∧ (t.wick w).chan ch = rest ∧
        (t.wick w).pc = x.pc ∧ (t.wick w).sregs = x.sregs ∧ (t.wick w).vregs = x.vregs ∧ (t.wick w).tiles = x.tiles ∧
        t.arrivals = s.arrivals ++ [tokEntry w x.tag c.tok] ∧ t.jobs = s.jobs ∧ t.queues = s.queues ∧
        t.mem = (((s.setWick w (x.setChan ch rest)).dmaTraffic w x.part c ms).moveAll ms).mem ∧
        (s.cfg.cormer = false → ∀ a,
          (∀ m ∈ ms, m.1 < 0xE000000000 ∧ ¬ (m.2.1 ≤ a ∧ a < m.2.1 + m.2.2)) → readByte t.mem a = readByte s.mem a))

/-- Combine groups and Sorters (05 R148, R149; 04 R112 to R117). The clause on single bytes is that of native mode. -/
def Obligations.CombineAndSortRequests : Prop :=
  (∀ (s : State) (w : Nat), s.live = true →
    let x := s.wick w
    (∀ f g, x.issues (encCmb f) = true → x.group f.grp.toNat = some g →
      let src := (x.sreg f.sr.toNat).toNat
      let dst := (x.sreg f.sd.toNat).toNat
      let n := aget 0 x.cmbNo f.grp.toNat
      (s.cmbFault x g (x.shape g.shape) src dst = none →
        ∃ y, exec (.cmb w f) s = .next ((s.setWick w y).contribute x.tag f.grp.toNat (if g.kind = 4 then n * 65536 + x.unit else n)
            { unit := x.unit, src := src, dst := dst, tok := f.tok.toNat }) ∧ y.engOut = x.engOut + 1 ∧ y.pc = x.stepPc.pc ∧
          y.sregs = x.sregs ∧ y.vregs = x.vregs ∧ y.pregs = x.pregs ∧ y.tiles = x.tiles ∧ y.toks = x.toks) ∧
      (∀ e, s.cmbFault x g (x.shape g.shape) src dst = some e → exec (.cmb w f) s = .next (s.setWick w (x.faulted e false)))) ∧
    (∀ f, x.issues (encSorti f) = true →
      let n := (x.sreg f.sn.toNat).toNat
      let k := (x.sreg f.sk.toNat).toNat
      let src := (x.sreg f.sr.toNat).toNat
      let dst := (x.sreg f.sd.toNat).toNat
      (65536 < n ∨ 256 < k → exec (.sorti w f) s = .next (s.setWick w (x.faulted .countExceeds false))) ∧
      (n ≤ 65536 → k ≤ 256 → n ≠ 0 → k ≠ 0 → 0x100000 < src + 8 * n ∨ 0x100000 < dst + 8 * min k n →
        exec (.sorti w f) s = .next (s.setWick w (x.faulted .lengthExceeds false))) ∧
      (n ≤ 65536 → k ≤ 256 → n = 0 ∨ k = 0 ∨ (src + 8 * n ≤ 0x100000 ∧ dst + 8 * min k n ≤ 0x100000) →
        ∃ t r, exec (.sorti w f) s = .next t ∧
          (t.sconce (w / 8)).sorter = (s.sconce (w / 8)).sorter ++ [r] ∧ r.wick = some w ∧ r.n = n ∧ r.k = k ∧
          r.src = padBase w + src ∧ r.dst = padBase w + dst ∧ r.keyfmt = f.keyfmt.toNat ∧ r.order = f.order ∧
          (t.wick w).engOut = x.engOut + 1 ∧ (t.wick w).pc = x.stepPc.pc ∧ (t.wick w).sregs = x.sregs ∧
          (t.wick w).vregs = x.vregs ∧ t.mem = s.mem ∧ t.jobs = s.jobs))) ∧
  (∀ (s : State) (tag grp unit w : Nat) (c : CmbInst) (g : Group) (p : CmbPart), s.live = true →
    s.jobGroup tag grp = some g → s.unitWick tag unit = some w →
    (s.cmbs.find? (fun d => d.tag == tag && d.grp == grp && d.waiting.any fun q => q.unit == unit) = some c →
      c.waiting.find? (fun q => q.unit == unit) = some p →
      (g.kind ≠ 4 → s.isAttn tag = false → s.served c (sconceOf w) = true → s.readRes (padBase w + p.src) g.bytes .ok = .data →
        ∃ t, exec (.combineFold tag grp unit .ok) s = .next t ∧ t.arrivals = s.arrivals ++ [tokEntry w tag p.tok] ∧
          t.cmbs = (s.setCmb (s.foldPart c g p w (s.groupData g (padBase w + p.src)))).cmbs ∧ t.mem = s.mem ∧ t.jobs = s.jobs ∧
          (t.wick w).engOut = (s.wick w).engOut - (if unit = g.rootu then 0 else 1)) ∧
      (g.kind ≠ 4 → s.isAttn tag = true → s.served c (sconceOf w) = true → (s.wick w).ended = true →
        ∃ t, exec (.combineFold tag grp unit .ok) s = .next t ∧ t.arrivals = s.arrivals ∧
          t.cmbs = (s.setCmb (s.foldPart c g p w (s.wick w).apwWords)).cmbs ∧ t.mem = s.mem ∧ t.jobs = s.jobs) ∧
      (g.kind = 4 → s.isAttn tag = false → s.servedAll c = true →
        let rows := stripRows (s.jobShape tag g.shape) p.src
        let away := decide ((unit : Int) + g.delta < 0) || decide ((s.nunits tag : Int) ≤ (unit : Int) + g.delta)
        (away = true → ∃ t, exec (.combineFold tag grp unit .ok) s = .next t ∧
          t.arrivals = s.arrivals ++ [tokEntry w tag p.tok] ∧ t.cmbs = (s.dropCmb c).cmbs ∧ t.mem = s.mem) ∧
        (away = false → s.rangesRead .ok (rows.map fun r => (padBase w + r.1.toNat, r.2.2)) = .data →
          ∃ t, exec (.combineFold tag grp unit .ok) s = .next t ∧ t.arrivals = s.arrivals ++ [tokEntry w tag p.tok] ∧
            t.cmbs = (s.setCmb { c with waiting := [], folded := [p], acc := (s.stripData w rows).map fun b => b.zeroExtend 32 }).cmbs ∧
            t.mem = s.mem))) ∧
    (g.kind ≠ 4 → s.isAttn tag = false → s.cmbs.find? (fun d => d.tag == tag && d.grp == grp) = some c → unit = g.rootu →
      c.full g = true → c.folded.find? (fun q => q.unit == g.rootu) = some p →
      ∃ t, exec (.combineResultWritten tag grp unit) s = .next t ∧ t.arrivals = s.arrivals ++ [tokEntry w tag p.tok] ∧
        t.cmbs = (s.dropCmb c).cmbs ∧ t.mem = ((s.dropCmb c).groupWrite g (padBase w + p.dst) c.acc).mem ∧ t.jobs = s.jobs)) ∧
  (∀ (s : State) (tag grp unit v : Nat) (c : CmbInst) (g : Group) (p : CmbPart), s.live = true →
    s.jobGroup tag grp = some g → g.kind = 4 →
    s.cmbs.find? (fun d => d.tag == tag && d.grp == grp && d.waiting.isEmpty && d.folded.any fun q => q.unit == unit) = some c →
    c.folded.head? = some p → s.unitWick tag ((unit : Int) + g.delta).toNat = some v →
    ∃ t, exec (.combineResultWritten tag grp unit) s = .next t ∧ t.arrivals = s.arrivals ++ [tokEntry v tag g.rtok] ∧
      t.cmbs = (s.dropCmb c).cmbs ∧
      t.mem = ((s.dropCmb c).stripWrite v (stripRows (s.jobShape tag g.shape) p.dst) (c.acc.map fun x => x.truncate 8)).mem) ∧
  (∀ (s : State) (tag scn : Nat) (j : Job), s.awake = true → s.job tag = some j → j.opc = .sort →
    (j.phase = .placed → s.pickScn j [.sort] (fun c => c.sorter.isEmpty) = some scn →
      ∃ t r, exec (.sort tag) s = .next t ∧ t.job tag = some { j with phase := .running, st := .running, step := 0, total := 1, place := scn } ∧
        (t.sconce scn).sorter = (s.sconce scn).sorter ++ [r] ∧ r.tag = tag ∧ r.wick = none ∧ r.n = df j.desc 4 16 0 ∧
        r.k = df j.desc 4 40 32 ∧ r.src = (j.ref 0).addr ∧ r.dst = (j.ref 1).addr ∧ t.mem = s.mem ∧ t.regs = s.regs ∧
        t.queues = s.queues) ∧
    (∀ r rest, scn < 64 → j.phase = .running → (s.sconce scn).sorter = r :: rest → r.wick = none → r.tag = tag →
      s.readsLive j = true → j.tc < 8 → s.readsOk j.part r.src r.readLen → s.open_ j.part r.dst r.writeLen true →
      ∃ t, exec (.sorterJobDone scn .ok) s = .next t ∧ t.job tag = some (j.unitDone 1) ∧ (t.sconce scn).sorter = rest ∧
        t.queues = s.queues ∧
        (s.cfg.cormer = false → t.mem = (s.sortWrite r).mem ∧
          ∀ a, ¬ (r.dst ≤ a ∧ a < r.dst + r.writeLen) → readByte t.mem a = readByte s.mem a))) ∧
  (∀ (kf : Nat) (smallest : Bool) (l : List Nat), (sortEntries kf smallest l).Perm l ∧
    (sortEntries kf smallest l).Pairwise fun a b => ranksBefore kf smallest b a = false)

/-- Units of a TILE_RUN and of ATTEND_PAGED (05 R120 to R129, R135, R151; 04 R106; 08 R206; 12 R307, R308). -/
def Obligations.UnitsRunAndEnd : Prop :=
  (∀ (s : State) (tag : Nat) (j : Job), s.awake = true → s.job tag = some j → j.opc = .tileRun → j.phase = .placed →
    (j.nunits = 0 → ∃ t, exec (.tileRun tag) s = .next t ∧
      t.job tag = some { j with phase := .running, step := 0, total := 0 } ∧ t.mem = s.mem ∧ t.regs = s.regs) ∧
    (∀ e, j.nunits ≠ 0 → j.selects = false ∨ j.aux ≠ [] → s.unplaceable j = false → j.entry = some e →
      ∃ t k, exec (.tileRun tag) s = .next t ∧ t.job tag = some k ∧
        k.phase = .running ∧ k.st = j.st ∧ k.total = j.nunits ∧ k.units.length = j.nunits ∧ (∀ u ∈ k.units, u.phase = .fresh) ∧
        k.image = some (parseImage (s.load e.addr e.size)) ∧ t.mem = s.mem ∧ t.regs = s.regs) ∧
    (j.nunits ≠ 0 → j.selects = false ∨ j.aux ≠ [] → s.unplaceable j = true → j.fail = none →
      ∃ t, exec (.tileRun tag) s = .next t ∧ t.job tag = some (j.finish .failed .unitQuarantined) ∧ t.mem = s.mem) ∧
    (j.selects = true → j.aux = [] → s.readsLive j = true → s.readRes (j.ref 0).addr 4 .ok = .data →
      s.region (j.ref 0).addr ≠ .mapSram → ∃ t, exec (.selectorReadDone tag .ok) s = .next t ∧
        t.job tag = some { j with prog := j.prog + min (s.loadLE (j.ref 0).addr 4) (df j.desc 2 19 16 - 1), tries := 0, aux := [1] } ∧
        t.mem = s.mem ∧ t.queues = s.queues)) ∧
  (∀ (s : State) (tag u w : Nat) (ws : List Nat) (chk : ReadCheck) (j : Job), s.awake = true → s.job tag = some j → j.placeable = true →
    (j.opc = .tileRun → j.gang = false → s.mayPlace j u w = true → s.nextFresh j u w u = true →
      exec (.unitPlace tag u [w] chk) s = .next (s.startUnit tag u w chk)) ∧
    (j.opc = .tileRun → j.gang = true → (∀ x ∈ j.units, x.phase = .fresh) → s.gangFits j ws = true →
      (j.fill = false ∨ ∀ k, k < ws.length → s.fillWick j k = ws[k]?) →
      exec (.unitPlace tag u ws chk) s = .next (s.startGang tag ws chk)) ∧
    (j.opc = .attendPaged → s.readsLive j = true → s.mergeFits j u ws = true →
      exec (.unitPlace tag u ws chk) s = .next (s.startMerge tag u ws chk)) ∧
    (j.gang = false → s.mayPlace j u w = true → (∃ x ∈ j.units, x.idx = u ∧ x.phase = .retry ∧
        (x.own = false ∨ x.wick ≠ w ∨ (s.allowedWicks j.part j.lmask).filter (fun v => s.mayPlace j u v && v != w) = [])) →
      exec (.unitReexecute tag u [w] chk) s = .next (s.startUnit tag u w chk)) ∧
    (j.gang = true → (∀ x ∈ j.units, x.phase = .retry) → s.gangFits j ws = true →
      ((∀ v ∈ ws, v ∉ j.badWicks) ∨ s.gangElsewhere j = false) →
      exec (.unitReexecute tag u ws chk) s = .next (s.startGang tag ws chk))) ∧
  (∀ (s : State) (tag u w : Nat) (chk : ReadCheck) (j : Job), s.job tag = some j → j.opc = .tileRun →
    let x := (s.startUnit tag u w chk).wick w
    x.st = .running ∧ x.unit = u ∧ x.tag = tag ∧ x.part = j.part ∧ x.pc = 0 ∧ x.ended = false ∧ x.loops = [] ∧ x.toks = [] ∧
      x.sreg 1 = BitVec.ofNat 32 u ∧ x.sreg 2 = BitVec.ofNat 32 j.nunits ∧ x.sreg 3 = BitVec.ofNat 32 w ∧
      x.sreg 4 = (if j.frameJob then j.f else j.d) ∧
      ((s.wick w).used = true → (s.wick w).part = j.part → x.vregs = (s.wick w).vregs ∧ x.tiles = (s.wick w).tiles) ∧
      ((s.wick w).used = false ∨ (s.wick w).part ≠ j.part → x.vregs = [] ∧ x.pregs = [] ∧ x.tiles = [])) ∧
  (∀ (s : State) (w : Nat) (j : Job), s.live = true →
    let x := s.wick w
    s.job x.tag = some j →
    (x.st = .running → x.ended = true → x.fault = none → x.dmaIdle = true → x.sbuf = [] → x.engOut = 0 →
      (j.opc = .tileRun → ∃ t k, exec (.unitComplete w) s = .next t ∧ (t.wick w).st = .idle ∧
        t.job x.tag = some k ∧ k.progress = j.progress + 1 ∧ k.step = j.step + 1 ∧ t.mem = s.mem ∧ t.regs = s.regs) ∧
      (j.opc = .attendPaged → 2 ≤ j.nsplit → ∃ t, exec (.unitComplete w) s = .next t ∧ (t.wick w).st = .idle ∧
        t.job x.tag = some { j with units := j.units.map fun u => if u.idx = x.unit then { u with phase := .done } else u } ∧
        t.mem = s.mem ∧ t.regs = s.regs)) ∧
    (∀ e c own, x.st = .running → x.fault = some e → e ≠ .dataError →
      exec (.unitFault w c own) s = .next ((s.noteUnit w e).failWickJob x.tag (UnitErrCode e))) ∧
    (∀ c own, x.st = .running → x.fault = some .dataError → x.faultOwn = false → x.faultPeer = none → j.gang = false →
      j.attemptOf x.unit < j.retry → exec (.unitFault w c own) s =
        .next ((((s.setWick w x.stop).dropPriv w).setJob (j.retryUnit x.unit w false)).trace 7 0 1)) ∧
    (∀ c own, x.st = .running → x.fault = some .dataError → x.faultOwn = false → x.faultPeer = none →
      j.retry ≤ j.attemptOf x.unit → exec (.unitFault w c own) s =
        .next ((s.failWickJob x.tag .recomputeExhausted).exhausted j.part)) ∧
    (x.st = .running → x.ended = false → x.fault = none →
      exec (.unitDurExpired w) s = .next
        ((s.captureLine (pgWck w) .deadlineMissed 0 (lineScn (sconceOf w))).failWickJob x.tag .deadlineMissed))) ∧
  (∀ (s : State) (w : Nat), s.live = true → (s.wick w).st = .stopping → (s.wick w).dmaIdle = true →
    ∃ t, exec (.wickStopDone w) s = .next t ∧ (t.wick w).st = .idle ∧ (t.wick w).sregs = (s.wick w).sregs ∧ t.mem = s.mem ∧
      t.jobs = s.jobs ∧ t.regs = s.regs) ∧
  (∀ (s : State) (tag : Nat) (e : Err) (j : Job), s.job tag = some j → j.fail = none → j.phase ≠ .ended →
    ∃ k, (s.failWickJob tag e).job tag = some k ∧ k.fail = some e ∧ (∀ u ∈ k.units, u.phase ≠ .running))

/-- The Sampler's jobs (07 R183, R185, R186 to R188, R190). What a row or box is computed from is the state after its reads have passed
the port (13 R344). -/
def Obligations.SamplerRunsRegroupAndCrop : Prop :=
  (∀ (s : State) (tag k : Nat) (j : Job), s.awake = true → s.job tag = some j → j.phase = .placed →
    s.pickScn j [.regroup, .cropResize] (fun c => c.sampler.isEmpty) = some k →
    let g := regroupOut j.desc
    let rows := if g.isEmpty then 0 else g.h
    (j.opc = .regroup → ∃ t, exec (.regroup tag) s = .next t ∧ t.job tag = some { j.begin_ rows with place := k } ∧
      (t.sconce k).sampler = (s.sconce k).sampler ++ (if rows = 0 then [] else [tag]) ∧ t.mem = s.mem ∧ t.regs = s.regs ∧
      t.queues = s.queues) ∧
    (j.opc = .cropResize → ∃ t, exec (.cropResize tag) s = .next t ∧ t.job tag = some { j.begin_ (cropTotal j.desc) with place := k } ∧
      (t.sconce k).sampler = (s.sconce k).sampler ++ (if cropTotal j.desc = 0 then [] else [tag]) ∧ t.mem = s.mem ∧
      t.regs = s.regs ∧ t.queues = s.queues)) ∧
  (∀ (s : State) (scn : Nat) (j : Job), s.live = true → s.readsLive j = true → scn < 64 → j.tc < 8 →
    let jj := { j with place := scn }
    (s.samplerJob scn .regroup = some j →
      let r := regroupReads j.desc (j.ref 0).addr j.step
      let n := (regroupOut j.desc).rowStride
      let wa := (j.ref 1).addr + j.step * n
      let u := (s.jobMoves jj r.1 r.2 false).jobMoves jj wa n true
      s.readsOk j.part r.1 r.2 → s.open_ j.part wa n true → s.onlyMoved u ∧
        exec (.regroupRowDone scn .ok) s = .next ((u.regroupWrite j.desc (j.ref 0).addr (j.ref 1).addr j.step).samplerUnit scn j)) ∧
    (s.samplerJob scn .cropResize = some j →
      let ba := (j.ref 1).addr + 16 * j.step
      let src := (j.ref 0).addr
      let n := df j.desc 6 22 16 * df j.desc 6 30 24 * cropCB j.desc
      let dst := (j.ref 2).addr + j.step * n
      let u := s.jobMoves jj ba 16 false
      let b := u.cropBox ba
      s.readsOk j.part ba 16 → s.open_ j.part src (geoOf (dw j.desc 3)).size false → s.open_ j.part dst n true →
      s.onlyMoved u ∧
      (b.bad = true → exec (.cropBoxDone scn .ok) s = .next
        ((((u.jobMoves jj dst n true).storeAt dst (List.replicate n 0)).fadd (pgScn scn) Reg.SCN_SMP_BADBOX_COUNT 1).samplerUnit scn j)) ∧
      (b.bad = false → (∀ r ∈ cropReads j.desc src b, s.readRes r.1 r.2 .ok = .data) →
        let v := (cropReads j.desc src b).foldl (fun t r => t.jobMoves jj r.1 r.2 false) u
        s.onlyMoved v ∧ exec (.cropBoxDone scn .ok) s = .next (((v.jobMoves jj dst n true).storeAt dst
          ((cropGrid j.desc).flatMap fun o => v.cropPixel j.desc src (cropSample j.desc b o.1 o.2))).samplerUnit scn j)))) ∧
  (∀ (s : State) (scn : Nat) (j k : Job), s.job j.tag = some k →
    (s.samplerUnit scn j).job j.tag = some (j.unitDone 1) ∧ (s.samplerUnit scn j).mem = s.mem ∧
    (s.samplerUnit scn j).queues = s.queues) ∧
  (∀ (s : State) (d src dst y a : Nat),
    (∀ k r, k < (regroupOut d).xb + 2 * (regroupOut d).halo → r < (regroupOut d).nr →
      let p := (regroupOut d).rowAddr dst y ((k : Int) - (regroupOut d).halo) r
      ¬ (p ≤ a ∧ a < p + rowBytes (regroupOut d).fmt)) →
    readByte (s.regroupWrite d src dst y).mem a = readByte s.mem a) ∧
  (∀ f nr y j p q c, p < f → q < f → c < nr →
    regroupFrom 0 f nr (f * f * nr) y j ((p * f + q) * nr + c) = (f * y + p, f * j + q, c) ∧
    regroupFrom 1 f (f * f * nr) nr (f * y + p) (f * j + q) c = (y, j, (p * f + q) * nr + c))

/-- The attention commands (08 R195 to R202, R206, R211 to R214). What they compute from is the state after their reads have passed the
port (13 R344). -/
def Obligations.AttentionJobsCaptureWalkAndCheck : Prop :=
  (∀ (s : State) (tag : Nat) (j : Job), s.awake = true → s.job tag = some j → j.phase = .placed →
    (j.attnEmpty = true → ∀ c, (j.opc, c) ∈ [(Opc.attendPaged, Instr.attendPaged tag), (.pageScore, .pageScore tag)] →
      exec c s = .next (s.setJob (j.begin_ 0))) ∧
    (j.attnEmpty = false → s.unplaceable j = false →
      (j.opc = .attendPaged → ∃ t k, exec (.attendPaged tag) s = .next t ∧ t.job tag = some k ∧ k.phase = .running ∧
        k.st = j.st ∧ k.step = 0 ∧ k.total = j.nseq * j.rgs ∧ k.seqs = j.openSeqs ∧
        k.units.length = j.nseq * j.rgs * j.nsplit ∧ (∀ u, u ∈ k.units → u.phase = .fresh) ∧
        t.mem = s.mem ∧ t.regs = s.regs ∧ t.queues = s.queues) ∧
      (j.opc = .pageScore → ∃ t k, exec (.pageScore tag) s = .next t ∧ t.job tag = some k ∧ k.phase = .running ∧
        k.st = j.st ∧ k.total = j.nseq * j.rgs ∧ k.seqs = j.openSeqs ∧ k.units = [] ∧ t.mem = s.mem ∧ t.regs = s.regs))) ∧
  (∀ (s : State) (tag n : Nat) (j : Job) (old : SeqCap), s.awake = true → s.job tag = some j → j.attnRuns = true →
    j.seqOf n = some old → j.capturable old = true → s.readsLive j = true →
    let a := (j.ref 0).addr + 64 * n
    s.readsOk j.part a 64 →
    let u := s.traffic (some (s.jobMaster j.opc j.part j.desc)) (s.rootLantern j n 0) j.tc j.part a 64 false
    let c := parseSeq n old (u.loadLE a 64)
    (c.tbase = u.loadLE a 6 ∧ c.sbase = u.loadLE (a + 8) 6 ∧ c.len = u.loadLE (a + 16) 4 % 2 ^ 23 ∧
      c.ver.toNat = u.loadLE (a + 20) 4) ∧
    (u.seqFault j (u.loadLE a 64) c = none →
      exec (.seqDescriptorCapture tag n .ok) s = .next (u.setJob ({ j with tries := 0 }.captured old c))) ∧
    (∀ e, u.seqFault j (u.loadLE a 64) c = some e →
      exec (.seqDescriptorCapture tag n .ok) s = .next (u.failWickJob tag e))) ∧
  (∀ (s : State) (tag n rg : Nat) (j : Job) (c : SeqCap), s.awake = true → s.job tag = some j → j.attnRuns = true →
    j.seqOf n = some c → j.selectable c rg = true → s.readsLive j = true → s.selectWaits j c rg = false →
    let a := j.rowAddr (j.ref 1) n (256 * rg)
    s.readsOk j.part a (256 * j.rgRows rg) → s.readsOk j.part c.sbase (128 * j.candidates c) →
    let ln := s.rootLantern j n rg
    let u := s.traffic (some (s.jobMaster j.opc j.part j.desc)) ln j.tc j.part a (256 * j.rgRows rg) false
    let v := u.traffic (some (u.jobMaster j.opc j.part j.desc)) ln j.tc j.part c.sbase (128 * j.candidates c) false
    exec (.coarseSelectionDone tag n rg .ok) s = .next (v.selected j c rg)) ∧
  (∀ (j : Job) (c : SeqCap) (ranked : List Nat), (j.selection c ranked).Pairwise (· < ·) ∧
    (∀ e, e ∈ j.selection c ranked → e < c.np) ∧
    (∀ e, c.np - min j.win c.np ≤ e → e < c.np → e ∈ j.selection c ranked)) ∧
  (∀ (s : State) (w e : Nat) (rest : List Nat) (j : Job) (c : SeqCap) (x : ApwUnit), s.live = true →
    (s.wick w).apw = some x → s.job (s.wick w).tag = some j → x.left = e :: rest → j.seqOf (j.unitSeq (s.wick w).unit) = some c →
    (s.wick w).st = .running → (s.wick w).fault = none → s.apwWaits c e = false → s.readsOk j.part (c.tbase + 8 * e) 8 →
    let v := s.traffic (some (.wick w)) (lanternOf w) j.tc j.part (c.tbase + 8 * e) 8 false
    let ent := v.loadLE (c.tbase + 8 * e) 8
    let n := lanternOf w
    let k := j.setSeq { c with ents := c.ents ++ [(n, e, ent)] }
    let u := v.setJob k
    (entReserved ent = true → exec (.apwPageArrive w .ok) s = .next
      ((u.captureLine (pgAPW n) .reservedNonzero (c.tbase + 8 * e) (lineApw n)).failWickJob j.tag .reservedNonzero)) ∧
    (entReserved ent = false → ent % 2 = 0 → exec (.apwPageArrive w .ok) s =
      .next ((u.fadd (pgAPW n) Reg.APW_HOLES_COUNT 1).apwNext w k { x with left := rest })) ∧
    (entReserved ent = false → ent % 2 = 1 → s.cfg.mayAccess (.wick w) j.part (entPage ent) 0x4000 false = true →
      s.readsOk j.part (entPage ent) (pageBytes c e) →
      let y := u.traffic (some (.wick w)) n j.tc j.part (entPage ent) (pageBytes c e) false
      exec (.apwPageArrive w .ok) s = .next
        (((y.ringFill w x (entPage ent) (pageBytes c e)).fwrap (pgAPW n) Reg.APW_PAGES_COUNT 1).apwNext w k (y.apwPage k c x ent e)))) ∧
  (∀ (s : State) (tag n : Nat) (j : Job) (c : SeqCap), s.awake = true → s.job tag = some j → j.attnRuns = true →
    j.opc = .attendPaged → j.seqOf n = some c → c.st = .held → j.unitsDone = true → s.mergesDone tag = true →
    (∀ l ∈ c.entLines, s.readsOk j.part (l * 64) 64) →
    let u := c.entLines.foldl (fun t l =>
      t.traffic (some (t.jobMaster j.opc j.part j.desc)) (s.rootLantern j n 0) j.tc j.part (l * 64) 64 false) s
    ((∀ x, x ∈ c.ents → u.loadLE (c.tbase + 8 * x.2.1) 8 = x.2.2) → exec (.apwTableRereadDone tag n .ok) s =
      .next (u.setJob ({ j.unitDone j.rgs with tries := 0 }.setSeq { c with st := .passed }))) ∧
    (∀ m, m < 8 → u.crcMismatch c m = true → c.rerun = true → ∃ t k, exec (.apwTableRereadDone tag n .ok) s = .next t ∧
      t.job tag = some k ∧ k.fail = some .pageTableMutated) ∧
    (∀ m, m < 8 → u.crcMismatch c m = true → c.rerun = false → ∃ t, exec (.apwTableRereadDone tag n .ok) s = .next t ∧
      t.job tag = some ({ j with err := .pageTableMutated }.setSeq { c with st := .again, rerun := true })))

/-- The Cross-check Unit's vote (09 R229 to R238). The clauses on bytes are those of native mode, in which no key changes under a line
(02 R55). -/
def Obligations.VoteFollowsTable6 : Prop :=
  (∀ (s : State) (tag : Nat) (j : Job), s.awake = true → s.job tag = some j → j.opc = .xcuVote → j.phase = .taken →
    exec (.xcuVote tag) s = .next (s.setJob { j.begin_ (if j.nsens = 0 then 0 else 1) with since := s.now })) ∧
  (∀ (s : State) (j : Job) (e : Nat), s.awake = true → s.engineJob .xcu 0 = some j → e = s.voteEnd j - s.now →
    let s1 := elapse e s
    s1.readsLive j = true → j.nsens ≤ 32 →
    s1.readsOk j.part (j.ref 0).addr (2880 * j.nsens) → s1.readsOk j.part (j.ref 1).addr 2112 →
    s1.readsOk j.part (j.ref 4).addr (if j.egoChk then 64 else 0) → s1.writesOk j.part (j.ref 2).addr 2112 →
    s1.writesOk j.part (j.ref 3).addr (2944 + 8 * j.nsens) →
    ∃ t, exec (.xcuVoteDone .ok e) s = .next t ∧ t.job j.tag = some { j.unitDone 1 with since := s1.now } ∧ t.queues = s.queues ∧
      (s.cfg.cormer = false →
        (∀ a, ¬ ((j.ref 2).addr ≤ a ∧ a < (j.ref 2).addr + 2112) →
          ¬ ((j.ref 3).addr ≤ a ∧ a < (j.ref 3).addr + 2944 + 8 * j.nsens) → readByte t.mem a = readByte s.mem a) ∧
        (∀ k, k < 2944 + 8 * j.nsens →
          some (readByte t.mem ((j.ref 3).addr + k)) = ((s.voteOf j).report j.f)[k]?) ∧
        ((j.ref 2).addr + 2112 ≤ (j.ref 3).addr ∨ (j.ref 3).addr + 2944 + 8 * j.nsens ≤ (j.ref 2).addr →
          ∀ k, k < 2112 → some (readByte t.mem ((j.ref 2).addr + k)) = ((s.voteOf j).state j.f)[k]?) ∧
        t.fget pgXCU Reg.XCU_CONTESTED_COUNT = (s.voteOf j).count 3 % 2 ^ 14)) ∧
  (∀ f o, sectorResult f o =
    if f + o = 0 then 1 else if f + o = 1 then (if o = 1 then 2 else 0)
    else if f + o = 2 then (if f = 0 then 2 else if o = 0 then 0 else 3)
    else if o < f then 0 else if f < o then 2 else 3) ∧
  (∀ (e : VoteEnt) (co : Nat × Nat), e.out = false →
    let cs := e.cs.set e.ring co
    (sumL (cs.map (·.1)) < 5 * sumL (cs.map (·.2)) → e.after co = (VoteEnt.clear true, 1)) ∧
    (5 * sumL (cs.map (·.2)) ≤ sumL (cs.map (·.1)) → e.after co = ({ e with cs := cs, ring := (e.ring + 1) % 8 }, 0))) ∧
  (∀ (e : VoteEnt) (co : Nat × Nat), e.out = true → e.run < 16 →
    (co.1 = 0 → e.after co = (e, 0)) ∧
    (co.1 ≠ 0 → co.1 < 5 * co.2 → e.after co = ({ e with run := 0 }, 0)) ∧
    (co.1 ≠ 0 → 5 * co.2 ≤ co.1 → e.run = 15 → e.after co = (VoteEnt.clear false, 2)) ∧
    (co.1 ≠ 0 → 5 * co.2 ≤ co.1 → e.run < 15 → e.after co = ({ e with run := e.run + 1 }, 0)))

/-- Publication of the map (10 R244 to R250). The clause on single bytes is that of native mode. -/
def Obligations.PublicationMakesNewestEpoch : Prop :=
  (∀ (s : State) (tag : Nat) (j : Job), s.awake = true → s.job tag = some j → j.opc = .mapPublish → j.fail = none →
    s.ccu.pub = none → j.phase = .taken → s.oldHeld = false → s.readsLive j = true →
    s.readsOk j.part (j.ref 0).addr (8 * j.nupd) → j.tc < 8 →
    let k := j.begin_ 1
    let u := (s.setJob k).jobMoves k (j.ref 0).addr (8 * j.nupd) false
    let recs := u.updRecs k
    (s.setJob k).onlyMoved u ∧
    (u.pubFault k recs = none → (∀ r, r ∈ imgRanges j (updWinners recs) → s.readsOk j.part r.1 r.2) →
      let v := (imgRanges j (updWinners recs)).foldl (fun t r => t.jobMoves k r.1 r.2 false) u
      exec (.mapPublish tag .ok) s = .next (v.pubBuild k (updWinners recs)) ∧ (s.setJob k).onlyMoved v) ∧
    (∀ e, u.pubFault k recs = some e → exec (.mapPublish tag .ok) s =
      .next (((if e = .countExceedsLimit then u.fadd pgCCU Reg.CCU_PUB_FAIL_COUNT 1 else u).captureLine pgCCU e 0 137).setJob
        { k with fail := some e }))) ∧
  (∀ (s : State) (j : Job) (w : List (Nat × Nat)),
    let t := s.pubBuild j w
    t.ccu.pub = some { tag := j.tag, recs := w } ∧ t.ccu.newTab = s.ccu.newTab ∧ t.ccu.oldTab = none ∧ t.mepoch = s.mepoch ∧
      t.mem = s.mem ∧ t.ccu.sram = s.ccu.sram ∧ t.ccu.cands = s.ccu.cands ∧ t.jobs = s.jobs) ∧
  (∀ (rs : List Nat), ((updWinners rs).map (·.1)).Nodup ∧
    (∀ r, r ∈ rs → updBlock r ∈ (updWinners rs).map (·.1)) ∧ (∀ p, p ∈ updWinners rs → p.2 ∈ rs ∧ p.1 = updBlock p.2) ∧
    (∀ r rest, rs = r :: rest → updBlock r ∈ rest.map updBlock → updWinners rs = updWinners rest)) ∧
  (∀ (s : State) (p : PubWork) (j : Job), s.awake = true → s.ccu.pub = some p → s.job p.tag = some j →
    s.readsLive j = true → (p.recs.map (·.1)).Nodup → s.writesOk j.part (j.ref 2).addr 2112 → j.opc = .mapPublish → j.tc < 8 →
    ∃ t, exec .publishComplete s = .next t ∧ t.mepoch = s.mepoch + 1 ∧ t.ccu.pub = none ∧
      t.ccu.oldTab = some s.ccu.newTab ∧ t.job p.tag = some (j.unitDone 1) ∧ t.queues = s.queues ∧
      t.ccu.masks = ((s.mepoch + 1, pubMask j p.recs) :: s.ccu.masks).take 8 ∧
      (j.origin = true → t.ccu.orgX = BitVec.ofNat 32 (df j.desc 6 31 0) ∧ t.ccu.orgY = BitVec.ofNat 32 (df j.desc 6 63 32) ∧
        t.ccu.orgZ = BitVec.ofNat 32 (df j.desc 7 31 0)) ∧
      (j.origin = false → t.ccu.orgX = s.ccu.orgX ∧ t.ccu.orgY = s.ccu.orgY ∧ t.ccu.orgZ = s.ccu.orgZ) ∧
      (∀ q, q ∈ p.recs → updUniform q.2 = true → tabGet t.ccu.newTab q.1 = updState q.2 * 2 ^ 14) ∧
      (∀ b, b ∉ p.recs.map (·.1) → tabGet t.ccu.newTab b = tabGet s.ccu.newTab b) ∧
      (s.cfg.cormer = false →
        ∀ a, ¬ ((j.ref 2).addr ≤ a ∧ a < (j.ref 2).addr + 2112) → readByte t.mem a = readByte s.mem a))

/-- R262: when a verdict is current. Epochs are compared modulo 2³². -/
def Obligations.VerdictIsCurrent : Prop :=
  ∀ (s : State) (c : Cand),
    let d := (s.mepoch - c.mepoch).toNat
    (∀ i, i < d → d ≤ 8 → ∃ m, (c.mepoch + 1 + BitVec.ofNat 32 i, m) ∈ s.ccu.masks) →
    (s.ccu.masks.map (·.1)).Nodup →
    (s.current c = true ↔
      c.mepoch = s.mepoch ∨
        (1 ≤ d ∧ d ≤ 8 ∧ c.res.overflow = false ∧
          ∀ m, m ∈ s.ccu.masks → 1 ≤ (m.1 - c.mepoch).toNat → (m.1 - c.mepoch).toNat ≤ d →
            ∀ k, k ∈ c.res.touch → m.2.testBit k = false))

/-- The collision checks of a frame (10 R252 to R264). The clause on single bytes is that of native mode. -/
def Obligations.CandidateChecksRun : Prop :=
  (∀ (s : State) (tag : Nat) (j : Job), s.awake = true → s.job tag = some j → j.opc = .ccuCheck → j.phase = .placed →
    s.readsLive j = true → s.readsOk j.part (j.ref 1).addr (32 * j.nboxC) → j.tc < 8 →
    let u := s.jobMoves j (j.ref 1).addr (32 * j.nboxC) false
    let ws := u.footWords (j.ref 1).addr j.nboxC
    let v := { u.setJob { j.list (max j.ncand 1) with aux := ws } with ccu := { s.ccu with cands := s.ccu.cands ++ j.newCands } }
    s.onlyMoved u ∧
    (badFootprint (cutBoxes j.nboxC ws) = false → s.ccu.cands.length + j.ncand ≤ 4096 →
      exec (.ccuCheck tag .ok) s = .next (if s.ccu.deadline then v.closeJobs [tag] else v)) ∧
    (badFootprint (cutBoxes j.nboxC ws) = false → 4096 < s.ccu.cands.length + j.ncand →
      exec (.ccuCheck tag .ok) s = .next ((u.captureLine pgCCU .countExceedsLimit 0 137).checkFail j .countExceedsLimit)) ∧
    (badFootprint (cutBoxes j.nboxC ws) = true →
      exec (.ccuCheck tag .ok) s = .next ((u.captureLine pgCCU .unsupportedOpcode 0 137).checkFail j .unsupportedOpcode))) ∧
  (∀ (s : State) (p : Nat), s.awake = true → p < 64 → s.pipe p = none → s.engineTesting .ccu = false →
    (∀ f x rest, s.ccu.fin = some f → f.todo = x :: rest → exec (.pipeCheckStart p) s =
      .next { s with ccu := { s.ccu with fin := some { f with todo := rest }, pipes := aset s.ccu.pipes p (.fin x.1 x.2 false) } }) ∧
    ((∀ f, s.ccu.fin = some f → f.todo = []) →
      (∀ c, s.nextCand .first = some c → ∃ t, exec (.pipeCheckStart p) s = .next t ∧
        t.pipe p = some (.cand c.tag c.idx s.mepoch false false) ∧ t.mem = s.mem ∧ t.regs = s.regs ∧ t.queues = s.queues) ∧
      (∀ c, s.nextCand .first = none → s.nextCand .recheck = some c → ∃ t, exec (.pipeCheckStart p) s = .next t ∧
        t.pipe p = some (.cand c.tag c.idx s.mepoch false true) ∧ t.mem = s.mem ∧ t.queues = s.queues))) ∧
  (∀ (s : State) (p tag i : Nat) (e : Word32) (again re : Bool) (j : Job) (c : Cand), s.awake = true →
    s.pipe p = some (.cand tag i e again re) → s.job tag = some j → s.cand tag i = some c → j.opc = .ccuCheck → j.tc < 8 →
    let u := s.jobMoves j (j.candAddr i) 1088 false
    let r := u.candRes j c e
    (s.readsLive j = true → s.readsOk j.part (j.candAddr i) 1088 → u.mapRes (u.candLines j c e) .ok = .data → r.cycles < 65536 →
      ∃ t d, exec (.pipeCheckDone p .ok) s = .next t ∧ t.cand tag i = some d ∧ d.got = true ∧ d.res.verdict = r.verdict ∧
        d.res.touch = r.touch ∧ d.res.clr = r.clr ∧ t.queues = s.queues ∧
        (s.cfg.cormer = false →
          ∀ a, ¬ ((j.ref 2).addr + 128 * i ≤ a ∧ a < (j.ref 2).addr + 128 * i + 128) →
            ¬ ((j.ref 3).addr + 8 * i ≤ a ∧ a < (j.ref 3).addr + 8 * i + 8) → readByte t.mem a = readByte s.mem a)) ∧
    (65536 ≤ (s.candRes j c e).cycles →
      exec (.checkCapExpired p) s = .next
        ((s.candDone p j c e { ChkRes.none_ 6 with nsamp := (s.candRes j c e).nsamp, cycles := 65536 }).fadd
          pgCCU Reg.CCU_LONG_COUNT 1))) ∧
  (∀ (s : State) (e : Nat), s.awake = true → s.frm.tickAt.isSome = true → s.ccu.deadline = false →
    s.dueCtr e s.planNs = true →
    ∃ t u, exec (.planningDeadline e) s = .next t ∧ t.ccu.deadline = true ∧ u = elapse e s ∧
      t.ccu.cands = u.ccu.cands.map u.atDeadline) ∧
  (∀ (s : State) (c : Cand), (s.atDeadline c).st = .has ∧
    (c.got = false → (s.atDeadline c).res.verdict = 0) ∧
    (c.got = true → s.current c = true → (s.atDeadline c).res = c.res ∧ (s.atDeadline c).key = c.key ∧
      (s.atDeadline c).mepoch = s.mepoch) ∧
    (c.got = true → s.current c = false → (s.atDeadline c).res.verdict = 7 ∧ (s.atDeadline c).key = 0x7FC00000))

/-- The final check (10 R270, R271). -/
def Obligations.FinalCheckNamesLowestPassed : Prop :=
  (∀ (s : State) (e : Nat), s.awake = true → s.frm.tickAt.isSome = true → s.ccu.fin = none →
    s.dueCtr e (s.pubNs - 50000) = true →
    ∃ t f, exec (.finalCheckStart e) s = .next t ∧ t.ccu.fin = some f ∧ f.epoch = t.mepoch ∧ f.frame = t.epoch ∧
      f.named = false ∧ (∀ g, f.reg = some g → g.frame = t.epoch ∧ s.ccu.finReg = some g) ∧ t.mem = s.mem ∧
      t.jobs = s.jobs) ∧
  (∀ (s : State) (e : Nat) (f : FinCheck), s.awake = true → s.ccu.fin = some f → f.named = false →
    s.dueCtr e (s.pubNs - 2000) = true →
    ∃ t, exec (.finalAlternateNamed e) s = .next t ∧ t.gate.named = ((List.range 4).filter f.passed).head? ∧
      t.gate.namedFrame = f.frame ∧ t.fget pgCCU Reg.CCU_FINAL_ALT = (((List.range 4).filter f.passed).head?).getD 7 ∧
      t.reg pgCCU 0 0x070 = f.frame ∧ t.reg pgCCU 0 0x074 = f.epoch ∧ (∃ g, t.ccu.fin = some g ∧ g.named = true) ∧
      t.mem = s.mem ∧ t.jobs = s.jobs) ∧
  (∀ (s : State) (p alt k : Nat) (again : Bool) (f : FinCheck) (g : FinReg), s.awake = true → s.ccu.fin = some f → f.reg = some g →
    s.pipe p = some (.fin alt k again) →
    (s.mapRes (mapLines (s.tabOf f.epoch) (g.runBoxes alt k)) .ok = .data → s.runCycles f g alt k < 65536 →
      exec (.pipeCheckDone p .ok) s = .next (s.runDone p alt k f
        (some (clearance (fun x y z => isObstacle g.unk (s.ccu.voxel (s.tabOf f.epoch) x y z)) (g.runBoxes alt k))))) ∧
    (65536 ≤ s.runCycles f g alt k →
      exec (.checkCapExpired p) s = .next ((s.runDone p alt k f none).fadd pgCCU Reg.CCU_LONG_COUNT 1))) ∧
  (∀ (f : FinCheck) (r : Nat), f.passed r = true → ∃ g, f.reg = some g ∧ r ∈ g.alternates ∧ r ∉ f.bad ∧
    (f.done.filter fun x => x.1 == r).length = 16)

/-- PROFILE and SELFTEST (10 R265, R266, R268; 12 R316 to R320). The clauses on bytes are those of native mode. -/
def Obligations.ProfileAndSelfTestUnits : Prop :=
  (∀ (s : State) (tag : Nat) (j : Job), s.awake = true → s.job tag = some j → j.opc = .profile → j.fail = none →
    j.aux = [] → j.phase = .taken → s.readsLive j = true →
    let nb := if j.final then j.nboxP else 0
    let k := j.begin_ j.nalt
    s.readsOk j.part (j.ref 2).addr 64 → s.readsOk j.part (j.ref 4).addr (32 * nb) → j.tc < 8 →
    let u := ((s.setJob k).jobMoves k (j.ref 2).addr 64 false).jobMoves k (j.ref 4).addr (32 * nb) false
    let ws := (List.range 16).map fun i => u.loadLE ((j.ref 2).addr + 4 * i) 4
    let bs := u.footWords (j.ref 4).addr nb
    let k' := { k with aux := ws ++ bs, tries := 0 }
    (s.setJob k).onlyMoved u ∧
    ((badLim ws || badFootprint (cutBoxes nb bs)) = true → exec (.profile tag .ok) s =
      .next ((u.captureLine pgPRU .unsupportedOpcode 0 160).setJob { k with fail := some .unsupportedOpcode })) ∧
    ((badLim ws || badFootprint (cutBoxes nb bs)) = false → j.nalt ≠ 0 → exec (.profile tag .ok) s = .next (u.setJob k')) ∧
    ((badLim ws || badFootprint (cutBoxes nb bs)) = false → j.nalt = 0 →
      exec (.profile tag .ok) s = .next ((u.setJob k').registerFinal k'))) ∧
  (∀ (s : State) (j : Job), s.awake = true → s.engineJob .pru 0 = some j → j.aux ≠ [] → s.readsLive j = true → j.tc < 8 →
    let ra := (j.ref 0).addr + 8 * j.step
    let dst := (j.ref 3).addr + 1856 * j.step
    s.readsOk j.part ra 8 →
    let w := (s.jobMoves j ra 8 false).loadLE ra 8
    s.readsOk j.part ((j.ref 1).addr + 1088 * (w / 2 ^ 32))
      (if (fp32.decode (w % 2 ^ 32)).isNan || !j.candIn (w / 2 ^ 32) then 0 else 1088) →
    s.writesOk j.part dst 1856 →
    ∃ t, exec (.profileAlternateDone .ok) s = .next t ∧ t.job j.tag = some (j.unitDone 1) ∧ t.queues = s.queues ∧
      (s.cfg.cormer = false →
        readByte t.mem (dst + 16) = BitVec.ofNat 8 (s.alternate j w).status ∧
        ((fp32.decode (w % 2 ^ 32)).isNan = true → (s.alternate j w).status = 0) ∧
        (∀ a, ¬ (dst ≤ a ∧ a < dst + 1856) → readByte t.mem a = readByte s.mem a))) ∧
  (∀ (s : State) (tag : Nat) (j : Job), s.awake = true → s.job tag = some j → j.opc = .selftest →
    (j.phase = .placed → exec (.selftest tag) s = .next ((s.setJob j.stBegin).turnTargets tag j.stBegin.sts) ∧
      j.stBegin.total = (stTargets j.desc).length * (stSelected j.desc).length ∧ j.stBegin.phase = .running) ∧
    (j.phase = .running → exec (.selftest tag) s = .next ((s.setJob j).turnTargets tag j.sts)) ∧
    (∀ (t0 : StTarget) (c : Nat) (sig : Word32) (same : Bool), j.phase = .running →
      j.sts.find? (fun t => t.tgt == t0.tgt && t.running && t.left.head? == some c) = some t0 →
      s.writesOk j.part (j.stAddr t0.tgt c) 16 →
      ∃ t k, exec (.selftestChunkDone tag t0.tgt c sig same) s = .next t ∧ t.job tag = some k ∧ k.step = j.step + 1 ∧
        (j.stKind = 3 → s.cfg.cormer = false →
          (∀ k, k < 16 → some (readByte t.mem (j.stAddr t0.tgt c + k)) =
            (stRecord t0.tgt 3 c (if same then 0 else 1) sig t0.epoch)[k]?) ∧
          (∀ a, ¬ (j.stAddr t0.tgt c ≤ a ∧ a < j.stAddr t0.tgt c + 16) → readByte t.mem a = readByte s.mem a)) ∧
        (j.stKind = 0 → same = true → (t.wick t0.tgt).st = .idle) ∧
        (j.stKind = 0 → same = false → (t.wick t0.tgt).st = .quarantined) ∧
        (same = false → k.err = (if j.err = .ok then (if j.stKind = 0 then .unitQuarantined else .dataErrorDetected) else j.err))))

/-- The Snuffers' own commands (11 R276 to R300; 22 R500). -/
def Obligations.SnuffersReadCompareAndStop : Prop :=
  ∀ (s : State) (i : Sn),
    let pg := pgSn i
    let o := snOther i
    let x := s.sn i
    let stoppedBy := fun (t : State) (cause : Nat) => (t.sn i).st = .stopped ∧ (t.sn i).safe = false ∧
      t.fget pg Reg.SNA_STATE_CAUSE = cause ∧ t.mem = s.mem ∧ t.jobs = s.jobs
    (∀ e, s.snLive i = true → s.pollDue i e = true →
      ∃ t u, exec (.snufferPoll i e .ok .ok) s = .next t ∧ u = elapse e s ∧ (t.sn i).polls = x.polls + 1 ∧ t.mem = s.mem ∧
        t.jobs = s.jobs ∧ t.queues = s.queues ∧
        (∀ c, x.copyA = some c → (t.sn i).copyA = some c) ∧ (∀ c, x.copyB = some c → (t.sn i).copyB = some c) ∧
        (∀ b : Bool, (if b then x.copyB else x.copyA) = none →
          let a := u.snTable.sub b
          u.readRes (a + sealOff b) 64 .ok = .data → u.readRes a (blockLen b) .ok = .data →
          BitVec.ofNat 32 (u.loadLE (a + sealOff b) 4) = u.epoch → sealGood b (u.load a (blockLen b)) = true →
          (if b then (t.sn i).copyB else (t.sn i).copyA) = some (u.load a (blockLen b)))) ∧
    (∀ e k0, s.snLive i = true → x.st.inService = true → x.cut = false → x.tickLast = some k0 →
      s.dueSn e (k0 + (s.snTable.pubUs - s.snTable.guard_) * edgesPerUs) = true →
      ∃ t, exec (.snufferCutoff i e) s = .next t ∧ (t.sn i).cut = true ∧ t.mem = s.mem ∧ (t.sn i).st = x.st ∧
        ∀ k, k < 16 → s.snTable.streams.getLsbD k = true →
          BitVec.ofNat 32 (s.loadLE (s.cfg.guardBase + 16 * k) 4) ≠ s.epoch → 304 + k ∈ (t.sn i).lines) ∧
    (s.awake = true → s.frm.tickAt.isSome = true → s.gate.loaded = false → x.settled = true →
      let a := s.snTable.subA
      s.readRes a 64 .ok = .data →
      ∃ t, exec (.gateLoad .ok) s = .next t ∧ t.gate.loaded = true ∧ t.gate.crcs = t.gate.recs.map crc32c ∧
        t.gate.recs.length = min (s.loadLE (a + 4) 1) 4 ∧ t.mem = s.mem ∧ t.snA = s.snA ∧ t.snB = s.snB ∧
        ∀ r, r < t.gate.recs.length → t.gate.recs[r]? =
          some (if s.readRes (a + 576 + 1856 * r) 1856 .ok = .data then s.load (a + 576 + 1856 * r) 1856 else [])) ∧
    (s.snLive i = true → x.tickLast.isSome = true → x.settled = true → s.gate.loaded = true → x.verdict = none →
      ∃ t v, exec (.snufferCompareDone i) s = .next t ∧ (t.sn i).verdict = some v ∧ v = (s.judge i).1 ∧ t.mem = s.mem ∧
        t.reg pg 0 0x048 = s.epoch ∧ t.fget pg Reg.SNA_VERDICT_FAIL = v.fail ∧
        ((x.copyA = none ∨ x.copyB = none) → v.agreed = false ∧ v.fail = 7) ∧
        (v.agreed = true → v.mask ≠ 0 ∧ v.fail = 0)) ∧
    (s.snLive i = true → x.st.active = true →
      (∀ m, ∃ t, exec (.crosslinkMessage i m false) s = .next t ∧ stoppedBy t 3 ∧
        (s.snLive o = true → (s.sn o).st.active = true → (t.sn o).st = .stopped ∧ (t.sn o).safe = false ∧
          t.fget (pgSn o) Reg.SNA_STATE_CAUSE = 6)) ∧
      ((s.sn o).st = .stopped → ∃ t, exec (.crosslinkMessage i .safeState true) s = .next t ∧ stoppedBy t 6) ∧
      ((s.sn o).st ≠ .stopped → exec (.crosslinkMessage i .safeState true) s = .next s) ∧
      ((s.sn o).verdict = none → exec (.crosslinkMessage i .verdict true) s = .next s) ∧
      (∀ v, (s.sn o).verdict = some v → ∃ t, exec (.crosslinkMessage i .verdict true) s = .next t ∧
        (t.sn i).other = some v ∧ (∀ y, x.verdict = some y → y.differs v = true → stoppedBy t 4) ∧
        ((∀ y, x.verdict = some y → y.differs v = false) → (t.sn i).st = x.st ∧ t.regs = s.regs)) ∧
      (∀ e, s.dueSn e (x.safeAt + 125000) = true → ∃ t, exec (.safeToggle i e) s = .next t ∧ (t.sn i).safe = !x.safe ∧
        (t.sn i).safeAt = s.snNow + e ∧ (t.sn i).st = x.st ∧ t.mem = s.mem) ∧
      (s.snTable.hbEn = true → ∀ e, x.hbStarted = true → s.dueSn e (x.hbLast + s.snTable.hbTmo * 250000 + 1) = true →
        ∃ t, exec (.heartbeatTimeout i e) s = .next t ∧ stoppedBy t 3 ∧
          t.fget pg Reg.SNA_HB_MISS_COUNT = min (s.fget pg Reg.SNA_HB_MISS_COUNT + 1) (2 ^ 32 - 1)) ∧
      (∀ line, line < 400 → ∃ t, exec (.aggregatorPulse i line) s = .next t ∧
        t.fget pg Reg.SNA_LINES_COUNT = min (s.fget pg Reg.SNA_LINES_COUNT + 1) (2 ^ 32 - 1) ∧ t.mem = s.mem ∧
        (s.snTable.actionOf line = 0 → (t.sn i).st = x.st ∧ (t.sn i).counted = x.counted) ∧
        (s.snTable.actionOf line = 1 → (t.sn i).st = x.st ∧ (t.sn i).counted = true) ∧
        (s.snTable.actionOf line = 2 → stoppedBy t 3 ∧ t.fget pg Reg.SNA_STATE_LINE = line))) ∧
    (s.snLive i = true → ∀ e width,
      (width < 10 * 250 → exec (.heartbeatEdge i e width) s = .next (elapse (e + width) s)) ∧
      (10 * 250 ≤ width → ∃ t, exec (.heartbeatEdge i e width) s = .next t ∧ (t.sn i).hbIn = !x.hbIn ∧ (t.sn i).st = x.st ∧
        (t.sn i).safe = x.safe ∧ t.mem = s.mem ∧ t.jobs = s.jobs ∧
        (s.snTable.hbEn = true → x.st.inService = true →
          (t.sn i).hbStarted = true ∧ (t.sn i).hbLast = s.snNow + (e + 10 * 250)) ∧
        (s.snTable.hbEn = false ∨ x.st.inService = false → (t.sn i).hbStarted = x.hbStarted ∧ (t.sn i).hbLast = x.hbLast))) ∧
    (∀ time, s.snLive i = true → s.testsDue i .pass time = true →
      ∃ t, exec (.snufferStartTestsDone i .pass time) s = .next t ∧ (t.sn i).st = .armed ∧ (t.sn i).safe = false ∧
        t.fget pg Reg.SNA_START_PASS = 1 ∧ t.fget pg Reg.SNA_START_DONE = 1 ∧ t.mem = s.mem) ∧
    (∀ time step line, s.snLive i = true → s.testsDue i (.fail step line) time = true →
      ∃ t, exec (.snufferStartTestsDone i (.fail step line) time) s = .next t ∧ (t.sn i).st = .failed ∧
        t.fget pg Reg.SNA_STATE_CAUSE = 7 ∧ t.fget pg Reg.SNA_START_STEP = step ∧ t.mem = s.mem) ∧
    (∃ t, exec (.snufferReset i) s = .next t ∧
      (t.sn i).st = (if s.snReleased i then (if s.tableOk i then .testing else .failed) else .reset) ∧
      (t.sn i).safe = false ∧ (t.sn i).hist = 0 ∧ t.reg pg 0 0x04C = 0 ∧ t.mem = s.mem ∧
      (s.snReleased i = true → s.tableOk i = true → t.reg pg 0 0x064 = (s.snObj i).table.tblVer)) ∧
    (x.supply = true → ∃ t, exec (.snufferSupplyFail i) s = .next t ∧ (t.sn i).supply = false ∧ (t.sn i).st = .reset ∧
      (t.sn i).safe = false ∧ t.mem = s.mem ∧
      (s.snLive o = true → (s.sn o).st.active = true → (t.sn o).st = .stopped ∧
        t.fget (pgSn o) Reg.SNA_STATE_CAUSE = 3)) ∧
    (x.supply = false → exec (.snufferSupplyFail i) s = .next s ∧
      ∃ t, exec (.snufferSupplyReturn i) s = .next t ∧ (t.sn i).supply = true ∧
        ((t.sn i).st = .testing ∨ (t.sn i).st = .failed ∨ (t.sn i).st = .reset) ∧ (t.sn i).safe = false ∧ t.mem = s.mem) ∧
    (x.supply = true → exec (.snufferSupplyReturn i) s = .next s)

/-- The verdict gate (11 R284 to R290). -/
def Obligations.GateDecisionFollowsTable6 : Prop :=
  (∀ (s : State) (e : Nat), s.awake = true → s.frm.tickAt.isSome = true → s.gate.decided = false →
    let p := s.tickNs + s.frm.pubUs * 1000
    s.dueCtr e (p - 2000) = true →
    ∃ t bs, exec (.gateDecision e) s = .next t ∧ t.gate.decided = true ∧ t.gate.out = some (p, bs) ∧ t.mem = s.mem ∧
      t.jobs = s.jobs ∧
      (bs[s.snTable.hdr.length]? = some 1 → ∃ a b r, s.snA.verdict = some a ∧ s.snB.verdict = some b ∧
        a.agreed = true ∧ b.agreed = true ∧ a.mask = b.mask ∧ s.gate.named = some r ∧ s.gate.namedFrame = s.epoch ∧
        a.mask.testBit r = true ∧ s.snA.st ≠ .stopped ∧ s.snA.st ≠ .failed ∧ s.snB.st ≠ .stopped ∧ s.snB.st ≠ .failed) ∧
      (∀ a r, s.snA.verdict = some a → s.snB.verdict = some a → a.agreed = true → s.gate.named = some r →
        s.gate.namedFrame = s.epoch → a.mask.testBit r = true → r < 4 → s.gate.out = none → s.snA.st = .running → s.snB.st = .running →
        s.snA.lines = [] → s.snB.lines = [] → s.snA.counted = false → s.snB.counted = false →
        histCount (s.snA.hist <<< 1) < 3 → histCount (s.snB.hist <<< 1) < 3 →
        bs[s.snTable.hdr.length]? = some 1 ∧ t.gate.trajNext = some (s.gate.recs.getD r [], s.epoch, p, r) ∧
        t.snA.hist = s.snA.hist <<< 1 ∧ t.snB.hist = s.snB.hist <<< 1 ∧ t.snA.st = .running ∧ t.snB.st = .running ∧
        t.fget pgSNA Reg.SNA_VERDICT_OUTCOME = 0 ∧ t.fget pgSNA Reg.SNA_VERDICT_ALT = r) ∧
      (s.snA.verdict = none → bs[s.snTable.hdr.length]? = some 3)) ∧
  (∀ (s : State) (i : Sn) (row : Nat), (s.sn i).st.active = true → row = 5 ∨ row = 6 →
    let h := ((s.sn i).hist <<< 1) ||| 1
    (s.snDecide i row).fget (pgSn i) Reg.SNA_DISPUTES_COUNT =
      min (s.fget (pgSn i) Reg.SNA_DISPUTES_COUNT + 1) (2 ^ 32 - 1) ∧
    ((s.snDecide i row).sn i).hist = h ∧
    (h.toNat % 4 = 3 → ((s.snDecide i row).sn i).st = .stopped ∧
      (s.snDecide i row).fget (pgSn i) Reg.SNA_STATE_CAUSE = 1) ∧
    (h.toNat % 4 ≠ 3 → 3 ≤ histCount h → ((s.snDecide i row).sn i).st = .stopped ∧
      (s.snDecide i row).fget (pgSn i) Reg.SNA_STATE_CAUSE = 2) ∧
    (h.toNat % 4 ≠ 3 → histCount h < 3 → ((s.snDecide i row).sn i).st = (s.sn i).st)) ∧
  (∀ (s : State) (e : Nat) (i : Sn), (s.silentDue e s.snA = true ∨ s.silentDue e s.snB = true) →
    s.snLive i = true → (s.sn i).st.active = true → (s.sn i).tickLast.isSome = true →
    ∃ t, exec (.verdictTimeout e) s = .next t ∧ t.mem = s.mem ∧
      ((s.sn i).other = none → (t.sn i).st = .stopped ∧ (t.sn i).safe = false ∧
        t.fget (pgSn i) Reg.SNA_STATE_CAUSE = 6) ∧
      ((s.sn i).other.isSome = true → (s.sn (snOther i)).other.isSome = true → (t.sn i).st = (s.sn i).st) ∧
      ((s.sn (snOther i)).other = none → s.snLive (snOther i) = true → (s.sn (snOther i)).st.active = true →
        (s.sn (snOther i)).tickLast.isSome = true → (t.sn i).st = .stopped))

/-- Requests at the Regulator (13 R324, R327 to R331; 04 R100; 15 R387). What a request to the guest window or an answer to the guest sends
out besides is the flit on the guest port. -/
def Obligations.RequestsIssueAndAnswer : Prop :=
  (∀ (s : State) (q : MemReq), s.awake = true → s.portUpR q.port = true → q.tc < 8 → q.part < 8 →
    lineReq q.addr ((q.data.map (·.length)).getD q.len) = true → s.sends q = true → s.chooses q = true →
    s.wickRoom q.master = true → (s.rgl.reqs.map (·.id)).Nodup → (∀ r, r ∈ s.rgl.reqs → r.id < s.rgl.nextId) →
    ∃ t, exec (.memoryRequestIssue q) s = .next t ∧ t.mem = s.mem ∧ t.jobs = s.jobs ∧ t.queues = s.queues ∧
      t.rgl.reqs.length = s.rgl.reqs.length + 1 ∧
      (∀ r, r ∈ s.rgl.reqs → ∃ r2, r2 ∈ t.rgl.reqs ∧ r2.id = r.id ∧ r2.tc = r.tc ∧ r2.part = r.part ∧ r2.addr = r.addr ∧
        r2.data = r.data) ∧
      (∃ r2, r2 ∈ t.rgl.reqs ∧ r2.id = s.rgl.nextId ∧ r2.port = q.port ∧ r2.tc = q.tc ∧ r2.part = q.part ∧ r2.addr = q.addr ∧
        r2.data = q.data)) ∧
  (∀ (s : State) (id e : Nat) (r : Req), s.awake = true → s.rgl.reqs.find? (fun x => x.id == id) = some r →
    s.answerable r = true →
    let u := ((elapse e s).creditNow.dropReq id).reqCount r
    let v := u.reqEffect r .ok
    let k := u.keyed (some r.master) r.addr r.len
    let t := ((u.answerGuest v r).emit (.response r.port r.tc r.part)).flow
    exec (.memoryResponse id .ok e) s = .next t ∧ t.mem = v.mem ∧ (∀ x, x ∈ t.rgl.reqs → x.id ≠ id) ∧
      (u.reqAllowed r = false → v = u.emit (.memErr (u.reqDenyErr r).code) ∧ v.mem = s.mem) ∧
      (u.reqAllowed r = true → r.data = none → (u.region r.addr = .ddr ∨ ∃ n, u.region r.addr = .reservoir n) →
        k.readsOk r.part r.addr r.len → v = k.emit (.data (k.load r.addr r.len))) ∧
      (∀ bs n, u.reqAllowed r = true → r.data = some bs → u.region r.addr = .reservoir n → u.lanternUp n = true →
        u.writesOk r.part r.addr bs.length →
        (∀ i, i < bs.length → some (readByte v.mem (r.addr + i)) = bs[i]?) ∧
        (∀ a, ¬ (r.addr ≤ a ∧ a < r.addr + bs.length) → readByte v.mem a = readByte s.mem a)) ∧
      (s.cfg.cormer = false → k = u)) ∧
  (∀ (s : State), s.awake = true → s.guestUp = true →
    let p := s.fget pgGST Reg.GST_CFG_PART
    (∀ v, v < (s.guestDie.map (·.gvec)).getD 0 →
      exec (.guestRequest (.interrupt v)) s = .next (s.msix (s.fget pgGST Reg.INT_ROUTE_PORT) p v)) ∧
    (∀ v, (s.guestDie.map (·.gvec)).getD 0 ≤ v → exec (.guestRequest (.interrupt v)) s = .next s.guestReject) ∧
    (∀ tc part addr len data,
      let n := (data.map (·.length)).getD len
      (tc = 7 → part = p → s.cfg.ownRange p addr n data.isSome = true → lineReq addr n = true →
        exec (.guestRequest (.access tc part addr len data)) s = .next (s.enterTagged ⟨26, 7, p, .chimney 26, addr, data, n⟩ 0)) ∧
      (tc ≠ 7 ∨ part ≠ p ∨ s.cfg.ownRange p addr n data.isSome = false →
        ∃ t, exec (.guestRequest (.access tc part addr len data)) s = .next t ∧
          t.fget pgGST Reg.GST_REJECT_COUNT = min (s.fget pgGST Reg.GST_REJECT_COUNT + 1) (2 ^ 32 - 1) ∧
          OutEvent.memErr 0x03 ∈ t.out ∧ t.mem = s.mem ∧ t.rgl = s.rgl)) ∧
    (∀ id e r, s.rgl.reqs.find? (fun x => x.id == id) = some r → r.out = true → s.region r.addr = .guest →
      s.dueNow e (r.outAt + s.fget pgGST Reg.GST_TMO_TMO * 25) = true →
      let v := ((elapse e s).dropReq id).fadd pgGST Reg.GST_TIMEOUT_COUNT 1
      exec (.guestRequestTimeout id e) s = .next (v.emit (.memErr Err.dataErrorDetected.code)).flow ∧
      (∀ x, x ∈ v.rgl.reqs → x.id ≠ id) ∧
      v.fget pgGST Reg.GST_TIMEOUT_COUNT = min (s.fget pgGST Reg.GST_TIMEOUT_COUNT + 1) (2 ^ 32 - 1)))

/-- Admission and monitoring of guarantees (13 R328, R336, R339, R343). -/
def Obligations.GuaranteesAreAdmittedOrRejected : Prop :=
  (∀ (s : State) (w : Writer) (v : Word32), s.regsUp w = true → s.reaches w pgRGL = true → s.mayWrite w pgRGL = true →
    s.pageBlock pgRGL = .rgl → s.flag pgRGL Reg.LOCK_LOCKED = false →
    let e := s.fget pgRGL Reg.RGL_GSEL_ENTRY
    let bw := v.toNat % 4096
    let win := v.toNat / 2 ^ 16 % 128
    let bws := (List.range 64).map fun k => if k = e then bw else
      match s.rgl.guarNext.find? fun x => x.1 == k with
      | some x => gBw x.2
      | none => gBw (s.gentry k)
    let ok := ¬ (e < 8 ∧ (bw ≠ 0 ∨ win ≠ 0)) ∧ win ≤ 100 ∧ s.bwsFit bws = true
    (ok → ∃ t x, exec (.gentryWrite w v) s = .next t ∧ t.rgl.guarNext.find? (fun x => x.1 == e) = some (e, x) ∧
      gBw x = bw ∧ gWin x = win ∧ (∀ k, t.gentry k = s.gentry k) ∧ t.regs = s.regs ∧ t.mem = s.mem ∧ t.jobs = s.jobs) ∧
    (¬ ok → exec (.gentryWrite w v) s = .next (s.capture pgRGL .guaranteeRejected 0).touch) ∧
    let port := (s.reg pgRGL 0 0x078).toNat % 32
    let tc := (s.reg pgRGL 0 0x078).toNat / 32 % 8
    (s.slotsOk port tc (v.toNat % 1024) = true →
      ∃ t, exec (.slotsWrite w v) s = .next t ∧ t.slots port tc = v.toNat % 1024 ∧ t.mem = s.mem ∧ t.rgl = s.rgl ∧
        (∀ p c, p < 32 → c < 8 → (p ≠ port ∨ c ≠ tc) → t.slots p c = s.slots p c)) ∧
    (s.slotsOk port tc (v.toNat % 1024) = false →
      exec (.slotsWrite w v) s = .next (s.capture pgRGL .guaranteeRejected 0).touch)) ∧
  (∀ (s : State) (p tc e : Nat), s.awake = true → p < 8 → tc < 8 →
    let k := 8 * p + tc
    let bw := gBw (s.gentry k)
    let win := gWin (s.gentry k)
    win ≠ 0 → (∃ x, x ∈ s.rgl.winAt ∧ x.1 = k) → s.dueNow e (aget 0 s.rgl.winAt k + win * 2500) = true →
    let waited := aget 0 s.rgl.waited k + (if s.entryWaits k then s.now + e - s.rgl.creditAt else 0)
    let miss := s.isShed k = false ∧ 95 * (win * 2500) ≤ 100 * waited ∧ 100 * aget 0 s.rgl.served k < 95 * (bw * win * 1000)
    ∃ t, exec (.guaranteeWindowEnd p tc e) s = .next t ∧ aget 0 t.rgl.served k = 0 ∧ aget 0 t.rgl.waited k = 0 ∧
      aget 0 t.rgl.winAt k = s.now + e ∧ t.mem = s.mem ∧ t.jobs = s.jobs ∧
      (miss → t.fget pgRGL Reg.RGL_MISS_COUNT = min (s.fget pgRGL Reg.RGL_MISS_COUNT + 1) (2 ^ 32 - 1) ∧
        t.fget pgRGL Reg.RGL_MISS_LAST_ENTRY = k ∧ 176 + p ∈ t.snA.lines ∧ 176 + p ∈ t.snB.lines) ∧
      (¬ miss → t.fget pgRGL Reg.RGL_MISS_COUNT = s.fget pgRGL Reg.RGL_MISS_COUNT ∧
        t.fget pgRGL Reg.RGL_MISS_LAST_ENTRY = s.fget pgRGL Reg.RGL_MISS_LAST_ENTRY ∧ t.snA = s.snA ∧ t.snB = s.snB))

/-- Shedding ends only when every limit holds (13 R340). -/
def Obligations.SheddingRestoresLimits : Prop :=
  ∀ (s : State) (code : Err),
    let t := s.readmit code
    t.bwsFit t.bwsNow = true ∧ sumL t.bwsNow ≤ s.budget ∧
    (∀ e, e < 64 → s.isShed e = true → t.isShed e = true) ∧ (∀ e, t.gentry e = s.gentry e) ∧
    t.fget pgRGL Reg.RGL_ADMITTED_SUM = sumL t.bwsNow % 2 ^ 13 ∧
    t.mem = s.mem ∧ t.jobs = s.jobs ∧ t.queues = s.queues

/-- What happens on a DDR-4 channel (13 R332, R333; 14 R357 to R362). -/
def Obligations.DramChannelsRefreshMigrateAndTrain : Prop :=
  ∀ (s : State) (c : Nat), c < 16 →
    let pg := pgDMCch c
    let x := s.ch c
    (s.awake = true → x.training = none → x.alert = false →
      (∀ r, r ∈ s.atChannel c → 1 < s.tier r ∧ (3 < s.tier r ∨ 48 ≤ x.wbuf.length)) →
      ∀ b, s.drainNext c = some b →
        let u := s.setCh c { x with wbuf := x.wbuf.filter fun y => y.1 != b.1 }
        let v := s.drain c b .ok
        exec (.writeBufferDrain c .ok) s = .next v.flow ∧ v.flow.mem = s.mem ∧
        (s.lineOffline (b.1 * 64) = true → v = u.fadd pg Reg.DMC_OFFLINE_WR_COUNT 1) ∧
        (s.lineOffline (b.1 * 64) = false → b.2.2 = false → v = u) ∧
        (s.lineOffline (b.1 * 64) = false → b.2.2 = true →
          (∀ l, u.readRes (b.1 * 64) 64 .ok = .poisoned l → v = u.capture pg .poisonedRead (l * 64)) ∧
          (s.region (b.1 * 64) = .ddr → u.readRes (b.1 * 64) 64 .ok = .data → v = u))) ∧
    (∀ r, s.awake = true → r < 2 → s.rankSt c r ≠ 0 → aget 0 x.refAt r ≤ s.now →
      ∃ t, exec (.refreshDue c r) s = .next t ∧ aget 0 (t.ch c).refAt r = aget 0 x.refAt r + s.trefi ∧ t.mem = s.mem ∧
        (s.rankPressed c r = true → aget 0 x.postponed r < 8 → aget 0 (t.ch c).postponed r = aget 0 x.postponed r + 1) ∧
        (s.rankPressed c r = false ∨ 8 ≤ aget 0 x.postponed r → (t.ch c).postponed = x.postponed)) ∧
    (∀ r bad, s.awake = true → x.training = none → s.retiring c = some r →
      let w := s.fget pg Reg.DMC_WMARK_ROWS
      let u := s.rowDone c r bad
      exec (.migrationRowDone c bad) s = .next u.flow ∧ u.mem = s.mem ∧
      (∀ l, l ∈ bad → s.onRow c r w l = true → l ∈ u.poison) ∧
      (w + 1 < s.rankRows → u.fget pg Reg.DMC_WMARK_ROWS = w + 1 ∧ u.rankSt c r = 3) ∧
      (w + 1 = s.rankRows → u.rankSt c r = 4 ∧ u.rankSt c (1 - r) = 1)) ∧
    (∀ e, s.live = true → x.alert = false → ∃ t, exec (.ddrAlert c e) s = .next t ∧ (t.ch c).alert = true ∧
      (t.ch c).alerts = x.alerts ++ [s.now + e] ∧ (∀ k, k ≠ c → t.ch k = s.ch k) ∧ t.mem = s.mem) ∧
    (∀ wcrc ranks, s.live = true → x.alert = true →
      let u := s.alertDone c wcrc ranks
      let n := x.alerts.length
      let storm := 4 ≤ n ∧ x.alerts.getD (n - 1) 0 - x.alerts.getD (n - 4) 0 ≤ 250000
      exec (.ddrAlertDeassert c wcrc ranks) s = .next u.flow ∧ (u.ch c).alert = false ∧ u.mem = s.mem ∧
      let f := if wcrc then Reg.DMC_WCRC_RETRY_COUNT else Reg.DMC_CAPAR_RETRY_COUNT
      (¬ storm → u.fget pg f = min (s.fget pg f + 1) (2 ^ 32 - 1)) ∧
      (storm → u.fget pg f = s.fget pg f ∧ 210 + 4 * c ∈ u.snA.lines ∧ 210 + 4 * c ∈ u.snB.lines)) ∧
    (∀ e, s.awake = true → s.frm.tickAt.isSome = true → s.frm.maintSeen = false →
      s.dueCtr e (s.tickNs + s.frm.maintStart * 1000) = true →
      ∃ t u, exec (.maintWindowOpen e) s = .next t ∧ u = elapse e s ∧ t.frm.maintSeen = true ∧ t.mem = s.mem ∧
        (u.frameNs + 120000 ≤ (s.frm.maintStart + s.frm.maintLen) * 1000 → u.dueAt c ≠ none →
          (∀ k, k < c → u.dueAt k = none) → (t.ch c).training = some u.now ∧ t.fget pg Reg.DMC_CHSTATE_TRAINING = 1 ∧
            ∀ k, k ≠ c → t.ch k = s.ch k)) ∧
    (∀ e temp t0, s.live = true → x.training = some t0 → s.now + e ≤ t0 + 30000 →
      let g := (elapse e s).retrained c temp true
      let h := (elapse e s).retrained c temp false
      exec (.retrainDone c e temp true) s = .next g.flow ∧ exec (.retrainDone c e temp false) s = .next h.flow ∧
      (g.ch c).training = none ∧ (g.ch c).trainedAt = s.now + e ∧ (g.ch c).dueSince = none ∧ (g.ch c).overdue = false ∧
      (h.ch c).training = none ∧ (h.ch c).trainedAt = x.trainedAt ∧ 209 + 4 * c ∈ h.snA.lines ∧ 209 + 4 * c ∈ h.snB.lines ∧
      h.fget pg Reg.DMC_TRAIN_FAIL_COUNT = min (s.fget pg Reg.DMC_TRAIN_FAIL_COUNT + 1) (2 ^ 32 - 1) ∧
      g.mem = s.mem ∧ h.mem = s.mem) ∧
    (∀ e k, s.awake = true → x.overdue = false → (elapse e s).dueAt c = some k → s.dueNow e (k + 15000000000) = true →
      ∃ t, exec (.retrainOverdue c e) s = .next t ∧ (t.ch c).overdue = true ∧ 209 + 4 * c ∈ t.snA.lines ∧
        209 + 4 * c ∈ t.snB.lines ∧ t.mem = s.mem)

/-- Die links and bonds (15 R368 to R381). -/
def Obligations.LinksCarryFlitsAndRetireLanes : Prop :=
  (∀ (s : State) (l : Link), s.live = true → s.linkUp l.mod = true →
    let x := s.link l.mod
    let d := x.dir l.up
    (∀ f e, s.linkMoves l.mod = true → f.length = 80 →
      exec (.flitReceive l f e) s = .next ((elapse e s).flit l f) ∧
      (flitGood f = false → d.nak = false ∨ d.rewound = true →
        let n := if d.rewound then d.fails + 1 else d.fails
        n < 8 → (((elapse e s).flit l f).link l.mod).dir l.up =
            { d with nak := true, rewound := false, raws := d.raws ++ [f], fails := n } ∧
          ((elapse e s).flit l f).mem = s.mem) ∧
      (flitGood f = false → d.nak = true → d.rewound = false → (elapse e s).flit l f = elapse e s) ∧
      (flitGood f = true → flitRefused (l.mod == .guest && l.up) f = false → hdrBits f 2 0 ≠ 0 → hdrBits f 2 0 ≠ 6 →
        hdrBits f 103 96 = d.expect → d.off d.expect < 128 → d.mayArrive f = true → d.raws = [] →
        let y := (((elapse e s).flit l f).link l.mod).dir l.up
        y.expect = (d.expect + 1) % 256 ∧ y.nak = false ∧ y.fails = 0 ∧ ((elapse e s).flit l f).mem = s.mem ∧
          ((d.kept d.expect).isSome = true → y.credits = d.credits) ∧
          ((d.kept d.expect).isSome = false →
            y.credits = d.credits.set (hdrBits f 5 3) (d.credits.getD (hdrBits f 5 3) 0 - 1)))) ∧
    (d.nak = true → d.rewound = false →
      ∃ t, exec (.lctlNak l d.expect) s = .next t ∧ ((t.link l.mod).dir l.up).rewound = true ∧ t.mem = s.mem) ∧
    (∀ q, l ≠ ⟨.guest, false⟩ → d.nak = false ∨ d.rewound = true ∨ q ≠ d.expect → exec (.lctlNak l q) s = .next s) ∧
    (∀ cs, ∃ t, exec (.lctlCredit l cs) s = .next t ∧ t.regs = s.regs ∧ t.mem = s.mem ∧ (d.queue = [] →
      ((t.link l.mod).dir l.up).credits = (List.range 8).map fun c => min 32 (d.credits.getD c 0 + cs.getD c 0))) ∧
    (∀ st g, x.step = some (st, g, false) → st < 8 →
      ∃ t, exec (.lctlWidth l st g) s = .next t ∧ t.linkState l.mod = st ∧ (t.link l.mod).group = g ∧
        (t.link l.mod).step = some (st, g, true) ∧ t.mem = s.mem) ∧
    (x.test = some false → ∃ t, exec (.lctlLanetest l) s = .next t ∧ (t.link l.mod).test = some true ∧ t.mem = s.mem) ∧
    (x.test = some true → ∀ m : Word64, exec (.lctlTestres l m) s = .next (s.retireMask l.mod m.toNat)) ∧
    (x.test = some true → ∃ t, exec (.laneTestDone l 0 false) s = .next t ∧ (t.link l.mod).test = none ∧
      (t.link l.mod).retired = x.retired ∧ t.regs = s.regs ∧ t.mem = s.mem) ∧
    (∀ m : Word64, x.test = some true →
      let r := s.retireMask l.mod m.toNat
      let y := r.link l.mod
      let w := r.setLink l.mod { y with test := none, up := { y.up with fails := 0 }, down := { y.down with fails := 0 } }
      exec (.laneTestDone l m false) s = .next w ∧
      (w.linkUp l.mod = true → exec (.laneTestDone l m true) s = .next (w.linkFail l.mod)) ∧
      (w.linkUp l.mod = false → exec (.laneTestDone l m true) s = .next w)) ∧
    (∀ st g, x.step = some (st, g, true) → (∀ n m, l.mod = .lc n m → n < 8) →
        x.retIn (s.linkState l.mod) x.group ≤ 4 →
      ∃ t, exec (.widthStepDone l) s = .next t ∧ (t.link l.mod).step = none ∧ t.linkState l.mod = s.linkState l.mod ∧
        t.linkSpares l.mod = x.retIn (s.linkState l.mod) x.group ∧ t.mem = s.mem) ∧
    (∀ k, k < x.lanes → k ∉ x.retired → x.step = none → s.linkState l.mod ≠ 4 →
      k / groupSize x.lanes (s.linkState l.mod) = x.group → s.linkSpares l.mod < 4 → x.feat.testBit 4 = true →
      k < 64 →
      ((s.retireLane l.mod k).link l.mod).retired = x.retired ++ [k] ∧
      (s.retireLane l.mod k).linkSpares l.mod = s.linkSpares l.mod + 1)) ∧
  (∀ (s : State) (e : Nat), s.live = true → s.dueNow e (s.lnkWin + s.fget pgLNKC Reg.LNK_THR_WIN * 250000) = true →
    ∃ t, exec (.laneWindowExpire e) s = .next t ∧ t.lnkWin = s.now + e ∧ (∀ k, (t.link k).wcnt = []) ∧
      (∀ k, (t.link k).retired = (s.link k).retired) ∧ t.mem = s.mem) ∧
  (∀ (s : State) (n k : Nat), s.live = true → (n, k) ∈ s.bonds → n < 8 → k < 64 →
    let u := s.bondDone n k .pass
    let v := s.bondDone n k .bank
    exec (.reservoirBondTestDone n k .shared) s = .next (s.bondDone n k .shared).flow ∧
    exec (.reservoirBondTestDone n k .pass) s = .next u.flow ∧ exec (.reservoirBondTestDone n k .bank) s = .next v.flow ∧
    u.fget (pgRSV n) Reg.RSV_BONDTEST_COUNT = min (s.fget (pgRSV n) Reg.RSV_BONDTEST_COUNT + 1) (2 ^ 32 - 1) ∧
    u.bankOut n k = s.bankOut n k ∧ v.bankOut n k = true ∧ u.mem = s.mem ∧ v.mem = s.mem)

/-- Camera packets, frames, slices and the closing of input versions (16 R390 to R398; 09 R216, R221). -/
def Obligations.CameraStreamsFollowChapter16 : Prop :=
  ∀ (s : State) (rx vc : Nat), s.awake = true → rx < 16 →
    (s.cfg.camOf rx vc = none → ∀ dt ecc crc pl,
      ∃ t, exec (.csi2Packet rx vc dt ecc crc pl) s = .next t ∧ t.mem = s.mem ∧ t.ing = s.ing ∧ t.jobs = s.jobs ∧
        t.fget pgPXE Reg.PXE_UNMATCHED_COUNT = min (s.fget pgPXE Reg.PXE_UNMATCHED_COUNT + 1) (2 ^ 32 - 1)) ∧
    (∀ (i : Nat) (m : CamCfg), s.cfg.camOf rx vc = some (i, m) → i < 64 →
      (∀ dt ecc crc pl, (ecc && crc) = false ∨ (dt = m.dt ∧ s.camCur i = none) →
        ∃ t, exec (.csi2Packet rx vc dt ecc crc pl) s = .next t ∧ t.mem = s.mem ∧ t.ing = s.ing ∧ t.jobs = s.jobs ∧
          t.fgetI pgPXE i Reg.PXE_PKTERR_COUNT = min (s.fgetI pgPXE i Reg.PXE_PKTERR_COUNT + 1) (2 ^ 32 - 1)) ∧
      (∀ f pl, s.camCur i = some f → m.dt ≠ 0x12 → f.drop = false → f.lines.length < m.height →
        (s.groupFill (m.rx / 4) + pl.length ≤ camGroupBytes →
          ∃ t, exec (.csi2Packet rx vc m.dt true true pl) s = .next t ∧ t.mem = s.mem ∧ t.jobs = s.jobs ∧
            t.camFrames i = (s.camFrames i).dropLast ++ [{ f with lines := f.lines ++ [pl] }]) ∧
        (camGroupBytes < s.groupFill (m.rx / 4) + pl.length →
          ∃ t, exec (.csi2Packet rx vc m.dt true true pl) s = .next t ∧ t.mem = s.mem ∧ t.jobs = s.jobs ∧
            t.camFrames i = (s.camFrames i).dropLast ++ [{ f with drop := true }] ∧
            t.fgetI pgPXE i Reg.PXE_OVF_COUNT = min (s.fgetI pgPXE i Reg.PXE_OVF_COUNT + 1) (2 ^ 32 - 1))) ∧
      (∀ num e,
        exec (.csi2FrameStart rx vc num true e) s = .next ((elapse e s).camStart i m num) ∧
        exec (.csi2FrameStart rx vc num false e) s = .next ((elapse e s).pktErr rx vc) ∧
        exec (.csi2FrameEnd rx vc true e) s = .next ((elapse e s).camEnd i m) ∧
        exec (.csi2FrameEnd rx vc false e) s = .next ((elapse e s).pktErr rx vc)) ∧
      (∀ num e, s.camCur i = none →
        let ctr := if m.fcsrc = 0 then num else Config.freeNat (elapse e s).draws
        let f0 : CamFrame := CamFrame.mk ((elapse e s).sampleFrame (elapse e s).tbu.ns) (elapse e s).tbu.ns (ctr % 65536)
          (decide (m.fcsrc = 0)) [] 0 false false false
        ∃ t, exec (.csi2FrameStart rx vc num true e) s = .next t ∧ t.mem = s.mem ∧ t.jobs = s.jobs ∧
          t.camFrames i = s.camFrames i ++ [f0]) ∧
      (∀ f e, s.camFrames i = [f] → f.ended = false → f.done < f.lines.length →
        ∃ t, exec (.csi2FrameEnd rx vc true e) s = .next t ∧ t.mem = s.mem ∧ t.jobs = s.jobs ∧
          t.camFrames i = [{ f with ended := true }])) ∧
    (∀ e i m f, s.dueNow e s.ing.freeAt = true → (elapse e s).pxePick = some i → s.cfg.cams[i]? = some m →
      (elapse e s).camNext i m = some f →
      ∃ t, exec (.pxeSlice e) s = .next t ∧ t.jobs = s.jobs ∧ t.queues = s.queues ∧
        t.ing.freeAt = s.now + e +
          cyclesToEdges (16 + (m.width * (if f.groupLines m = 0 then 4 else f.groupLines m) + 3) / 4) 600) ∧
    (∀ e i m, s.cfg.cams[i]? = some m → m.en = true → s.closeDue i (s.oldestOpen i) e = true →
      ∃ t, exec (.inputVersionClose 0 i e) s = .next t ∧ t.closedOf i = s.closedOf i + 1 ∧ t.inVer i (s.closedOf i + 1) = none ∧
        t.jobs = s.jobs) ∧
    (∀ e k, (s.cfg.ethStream k).isSome = true → s.closeDue (ethKey k) (s.oldestOpen (ethKey k)) e = true →
      ∃ t, exec (.inputVersionClose 1 k e) s = .next t ∧ t.closedOf (ethKey k) = s.closedOf (ethKey k) + 1 ∧ t.jobs = s.jobs)

/-- Ethernet reception, transmission and links (16 R399 to R406). -/
def Obligations.EthernetReceivesAndTransmits : Prop :=
  ∀ (s : State) (p : Nat), p < 8 → s.awake = true →
    (s.ethUp p = true →
      (∀ bs e dur, ∃ t, exec (.ethRxFrame p bs false e dur) s = .next t ∧ t.mem = s.mem ∧ t.ing = s.ing ∧ t.jobs = s.jobs ∧
        t.fget (pgETH p) Reg.ETH_RX_FCSERR_COUNT = min (s.fget (pgETH p) Reg.ETH_RX_FCSERR_COUNT + 1) (2 ^ 32 - 1)) ∧
      (∀ bs e dur, bs.length + 4 < 64 ∨ s.fget (pgETH p) Reg.ETH_PORT_MAXLEN < bs.length + 4 ∨ (parseEth bs).etype = 0x8808 ∨
          ethBufBytes < s.ethFill + bs.length →
        ∃ t, exec (.ethRxFrame p bs true e dur) s = .next t ∧ t.mem = s.mem ∧ t.ing = s.ing ∧
          t.fget (pgETH p) Reg.ETH_RX_DROP_COUNT = min (s.fget (pgETH p) Reg.ETH_RX_DROP_COUNT + 1) (2 ^ 32 - 1)) ∧
      (∀ bs e dur, 64 ≤ bs.length + 4 → bs.length + 4 ≤ s.fget (pgETH p) Reg.ETH_PORT_MAXLEN → (parseEth bs).etype ≠ 0x8808 →
          s.ethFill + bs.length ≤ ethBufBytes →
        let u := elapse dur (elapse e s)
        ((parseEth bs).etype = 0x88F7 →
          (u.flag pgTBU Reg.TBU_SERVO_OWNER = true →
            exec (.ethRxFrame p bs true e dur) s = .next (u.hostRx (u.fget pgTBU Reg.TBU_SERVO_HOSTQ) p (elapse e s).tbu.ns bs)) ∧
          (u.flag pgTBU Reg.TBU_SERVO_OWNER = false → exec (.ethRxFrame p bs true e dur) s = .next u)) ∧
        ((parseEth bs).etype ≠ 0x88F7 → (s.cfg.eth.rules.find? fun r => r.hits p (parseEth bs)) = none →
          ∃ t, exec (.ethRxFrame p bs true e dur) s = .next t ∧ t.mem = s.mem ∧ t.ing = s.ing ∧
            t.fget (pgETH p) Reg.ETH_RX_NOMATCH_COUNT = min (s.fget (pgETH p) Reg.ETH_RX_NOMATCH_COUNT + 1) (2 ^ 32 - 1)) ∧
        (∀ r, (parseEth bs).etype ≠ 0x88F7 → (s.cfg.eth.rules.find? fun r => r.hits p (parseEth bs)) = some r →
          (r.act = .drop → exec (.ethRxFrame p bs true e dur) s = .next u) ∧
          (∀ q, r.act = .hostq q → exec (.ethRxFrame p bs true e dur) s = .next (u.hostRx q p (elapse e s).tbu.ns bs)) ∧
          (∀ k, r.act = .stream k →
            ∃ t, exec (.ethRxFrame p bs true e dur) s = .next t ∧ aget 0 t.ing.seqs k = aget 0 s.ing.seqs k + 1 ∧
              t.jobs = s.jobs ∧ t.ing.cams = s.ing.cams))) ∧
      ((∀ r, r ∈ s.cfg.eth.rings → r.tc < 8) → ∃ t, exec (.ethLinkDown p) s = .next t ∧ t.ethUp p = false ∧ 336 + p ∈ t.snA.lines ∧ 336 + p ∈ t.snB.lines ∧
        t.jobs = s.jobs ∧ t.ing = s.ing)) ∧
    (∀ r, 1 ≤ r → r ≤ 5 → ∃ t, exec (.ethLinkUp p r) s = .next t ∧ t.fget (pgETH p) Reg.ETH_PORT_RATE = r ∧ t.mem = s.mem ∧
      t.jobs = s.jobs ∧ t.ing = s.ing ∧ ∀ q, q ≠ p → q < 8 → t.ethUp q = s.ethUp q) ∧
    (∀ (w : Writer) (q : Nat) (v : Word32), q < 8 → s.regsUp w = true → s.reaches w (pgTxq p q) = true →
      s.mayWrite w (pgTxq p q) = true → s.pageBlock (pgTxq p q) = .etqTx → v.toNat < 65536 →
      (s.designatedQ p q = false → ∃ t, exec (.etqSwWrite w (pgTxq p q) v) s = .next t ∧ t.mem = s.mem ∧
        t.fget (pgTxq p q) Reg.ETQ_SW_INDEX = v.toNat) ∧
      (s.designatedQ p q = true → s.flag (pgTxq p q) Reg.INT_STATUS_ERR = false →
        ∃ t, exec (.etqSwWrite w (pgTxq p q) v) s = .next t ∧ t.mem = s.mem ∧
          t.fget (pgTxq p q) Reg.ETQ_SW_INDEX = s.fget (pgTxq p q) Reg.ETQ_SW_INDEX ∧
          t.fget (pgTxq p q) Reg.ERR_CODE_CODE = 0x03)) ∧
    (∀ e bs, s.macBusy p = none → s.gateDue p e = some bs →
      ∃ t, exec (.ethTxStart p e) s = .next t ∧ t.gate.out = none ∧ t.mem = s.mem ∧ t.jobs = s.jobs ∧
        (s.ethUp p = true → t.gate.seq = s.gate.seq + 1 ∧ (t.macBusy p).map (·.bytes) = some bs ∧
          OutEvent.gateFrame p s.snTable.gateQ (elapse e s).tbu.ns bs ∈ t.out ∧
          (∀ r f c k, s.gate.trajNext = some (r, f, c, k) →
            t.gate.holdRec = some r ∧ t.gate.holdFrame = f ∧ t.gate.holdP = c ∧ t.gate.holdAlt = k)) ∧
        (s.ethUp p = false → t.gate.seq = s.gate.seq ∧ t.gate.holdRec = s.gate.holdRec ∧ t.macBusy p = none ∧
          347 ∈ t.snA.lines ∧ 347 ∈ t.snB.lines)) ∧
    (∀ e, s.macBusy p = none → s.gateDue p e = none →
      let u := ((elapse e s).gateMissed.txOpen p).txClean p
      (∀ q, u.ethUp p = true → u.txPick p = some q → exec (.ethTxStart p e) s = .next (u.txQueueStart p q)) ∧
      (∀ q, u.ethUp p = false ∨ u.txPick p = none → q < 8 → u.txLeft (pgTxq p q) ≠ s.txLeft (pgTxq p q) →
        exec (.ethTxStart p e) s = .next u)) ∧
    (∀ x good e, s.macBusy p = some x → s.dueNow e x.endAt = true →
      ∃ t, exec (.ethTxDone p good e) s = .next t ∧ t = (elapse e s).txOver p x good ∧ t.macBusy p = none ∧ t.jobs = s.jobs ∧
        (x.queue = none → t.mem = s.mem ∧ (good = false → 347 ∈ t.snA.lines ∧ 347 ∈ t.snB.lines))) ∧
    (∀ q e r a, q < 8 → (∀ r, r ∈ s.cfg.eth.rings → r.tc < 8) →
      let u := s.txOpen p
      u.txHead p q = some (r, a) → txLt (u.loadLE (a + 8) 8) = true → (∀ x, s.macBusy p = some x → x.queue ≠ some q) →
      s.dueCtr e (u.txLaunch a + s.fget (pgETH p) Reg.ETH_LATETOL_NS + 1) = true →
      ∃ t, exec (.ethTxLate p q e) s = .next t ∧ t.jobs = s.jobs ∧
        t = ((elapse e u).fadd (pgETH p) Reg.ETH_TX_LATE_COUNT 1).txBack p q 2 0 none ∧
        t.fget (pgETH p) Reg.ETH_TX_LATE_COUNT = min (s.fget (pgETH p) Reg.ETH_TX_LATE_COUNT + 1) (2 ^ 32 - 1) ∧
        (s.cfg.cormer = false → u = s))

/-- Apertures, function-level reset and PCIe links (16 R406, R409, R411, R412; 02 R53). -/
def Obligations.AperturesAndPcieLinks : Prop :=
  ∀ (s : State) (h fn : Nat), h < 2 → fn ≤ 8 →
    (∀ ap off n, s.awake = true → s.portUp h = true → 1 ≤ fn → ap < 64 → off < 2 ^ 30 →
      (∀ a bs, s.apResolve h fn ap off bs.length true = .at_ a →
        let u := s.traffic (some (.pcie h fn)) (19 + h) 4 (fn - 1) a bs.length true
        s.onlyMoved u ∧
        (s.bondWait a bs.length = true → exec (.apertureAccess (.host h fn) ap off (some bs) n .ok) s = .next s.touch) ∧
        (s.bondWait a bs.length = false →
          exec (.apertureAccess (.host h fn) ap off (some bs) n .ok) s = .next (u.storeAt a bs).touch ∧
          (u.storeAt a bs).jobs = s.jobs ∧ (u.storeAt a bs).aps = s.aps)) ∧
      (∀ d, s.apResolve h fn ap off ((d.map List.length).getD n) d.isSome = .stale →
        exec (.apertureAccess (.host h fn) ap off d n .ok) s =
          .next ((s.capture (pgQueue (fn - 1)) .partitionViolation (ap * 2 ^ 30 + off)).apZero d n).touch) ∧
      (∀ er d, s.apResolve h fn ap off ((d.map List.length).getD n) d.isSome = .fail er →
          s.flag (pgPCH h fn) Reg.INT_STATUS_ERR = false →
        ∃ t, exec (.apertureAccess (.host h fn) ap off d n .ok) s = .next t ∧ t.mem = s.mem ∧
          t.fget (pgPCH h fn) Reg.ERR_CODE_CODE = er.code ∧ 349 ∈ t.snA.lines ∧ 349 ∈ t.snB.lines ∧
          (d = none → OutEvent.data (List.replicate n 0) ∈ t.out)) ∧
      (∀ a, s.apResolve h fn ap off n false = .at_ a → s.bondWait a n = false →
        let u := (s.traffic (some (.pcie h fn)) (19 + h) 4 (fn - 1) a n false).guestIn a n
        ((u.readRes a n .ok).err = none →
          exec (.apertureAccess (.host h fn) ap off none n .ok) s = .next ((u.readMarks a n .ok).emit (.data (u.load a n))).touch) ∧
        (∀ er, (u.readRes a n .ok).err = some er →
          exec (.apertureAccess (.host h fn) ap off none n .ok) s =
            .next (((u.readMarks a n .ok).captureLine (pgPCH h fn) er a 349).emit (.data (List.replicate n 0))).touch))) ∧
    (∀ off bs n, s.inRecovery = true → s.portUp h = true → off + bs.length ≤ recoveryBytes → off + n ≤ recoveryBytes →
      exec (.apertureAccess (.host h 0) 0 off (some bs) n .ok) s =
        .next { s with ccu := { s.ccu with sram := writeBytes s.ccu.sram off bs } } ∧
      exec (.apertureAccess (.host h 0) 0 off none n .ok) s =
        .next (s.emit (.data ((List.range n).map fun i => readByte s.ccu.sram (off + i))))) ∧
    (∀ ap n e, s.awake = true → s.portUp h = true → 1 ≤ fn → ap < 64 → e = s.fget (pgPCH h fn) Reg.PCH_CTO_US * edgesPerUs →
      s.flag (pgPCH h fn) Reg.INT_STATUS_ERR = false →
      ∃ t, exec (.apertureReadTimeout (.host h fn) ap n e) s = .next t ∧ t.mem = s.mem ∧ t.jobs = s.jobs ∧
        OutEvent.data (List.replicate n 0) ∈ t.out ∧ t.fget (pgPCH h fn) Reg.ERR_CODE_CODE = 0x0F ∧
        t.fget (pgPCH h fn) Reg.PCH_CTO_COUNT_COUNT = min (s.fget (pgPCH h fn) Reg.PCH_CTO_COUNT_COUNT + 1) (2 ^ 32 - 1)) ∧
    (∀ (w : Writer) (v : Word32), s.regsUp w = true → s.reaches w (pgPCH h fn) = true → s.mayWrite w (pgPCH h fn) = true →
      s.pageBlock (pgPCH h fn) = .pch → 1 ≤ fn → s.bufTab (fn - 1) ≠ 0 →
      ∃ t, exec (.pchApLoWrite w (pgPCH h fn) v) s = .next t ∧ t.mem = s.mem ∧ t.jobs = s.jobs ∧
        t.fgetI (pgPCH h fn) (s.fget (pgPCH h fn) Reg.PCH_APSEL_AP) Reg.PCH_AP_LO_HANDLE = v.toNat % 2 ^ 16 ∧
        t.fgetI (pgPCH h fn) (s.fget (pgPCH h fn) Reg.PCH_APSEL_AP) Reg.PCH_AP_LO_SLOT = v.toNat / 2 ^ 16 % 2 ∧
        t.fgetI (pgPCH h fn) (s.fget (pgPCH h fn) Reg.PCH_APSEL_AP) Reg.PCH_AP_LO_VALID = v.toNat / 2 ^ 17 % 2 ∧
        aget BufEntry.zero t.aps (apKey h fn (s.fget (pgPCH h fn) Reg.PCH_APSEL_AP)) = s.entry (fn - 1) (v.toNat % 2 ^ 16)) ∧
    (s.live = true →
      (∃ t, exec (.functionLevelReset h fn) s = .next t ∧ t.mem = s.mem ∧ t.jobs = s.jobs ∧ t.queues = s.queues ∧
        t.vbufs = s.vbufs ∧ t.wicks = s.wicks ∧
        (∀ ap, ap < 64 → aget BufEntry.zero t.aps (apKey h fn ap) = BufEntry.zero ∧
          t.fgetI (pgPCH h fn) ap Reg.PCH_AP_LO_VALID = 0) ∧
        (∀ vec d, vec < 2048 → d < 4 → t.msixWord (msixKey h fn vec) d = if d = 3 then 1 else 0) ∧
        (∀ k, k ∈ t.msixPend → k ∈ s.msixPend ∧ k / 2048 ≠ 9 * h + fn) ∧
        (∀ h' fn' ap, h' < 2 → fn' ≤ 8 → ap < 64 → (h', fn') ≠ (h, fn) →
          aget BufEntry.zero t.aps (apKey h' fn' ap) = aget BufEntry.zero s.aps (apKey h' fn' ap) ∧
          t.reg (pgPCH h' fn') ap 0x044 = s.reg (pgPCH h' fn') ap 0x044)) ∧
      (s.portUp h = true → ∃ t, exec (.pcieLinkDown h) s = .next t ∧ t.portUp h = false ∧ 344 + h ∈ t.snA.lines ∧
        344 + h ∈ t.snB.lines ∧ t.mem = s.mem ∧ t.jobs = s.jobs ∧ t.queues = s.queues ∧ t.regs = s.regs ∧ t.aps = s.aps) ∧
      (s.portUp h = false → ∃ t, exec (.pcieLinkUp h) s = .next t ∧ t.portUp h = true ∧ t.mem = s.mem ∧ t.jobs = s.jobs ∧
        t.queues = s.queues ∧ t.regs = s.regs ∧ t.aps = s.aps))

/-- The power states (18 R426 to R435). -/
def Obligations.PowerStatesFollowChapter18 : Prop :=
  ∀ (s : State) (e : Nat),
    (s.awake = true → s.pwrSt = 0 → s.fget pgPWR Reg.PWR_GLOW_IDLE_US ≠ 0 →
      s.idleDue e (s.fget pgPWR Reg.PWR_GLOW_IDLE_US * 250) = true →
      ∃ t, exec (.glowEntry e) s = .next t ∧ t.pwrSt = 1 ∧ t.mem = s.mem ∧ t.wicks = s.wicks ∧ t.jobs = s.jobs ∧
        t.queues = s.queues ∧ t.snA = s.snA ∧ t.snB = s.snB) ∧
    (s.awake = true → s.emberMay = true → s.fget pgPWR Reg.PWR_EMBER_IDLE_S ≠ 0 →
      s.idleDue e (s.fget pgPWR Reg.PWR_EMBER_IDLE_S * 250000000) = true →
      ∃ t, exec (.emberEntry e) s = .next t ∧ t.fget pgFLT Reg.FLT_BOOT_READY = 0 ∧ t.pwr.entering = some (s.now + e) ∧
        t.snA.st = .reset ∧ t.snB.st = .reset ∧ t.snA.safe = false ∧ t.snB.safe = false ∧ t.mem = s.mem ∧ t.wicks = s.wicks) ∧
    (∀ t0, s.live = true → s.activity = false → s.pwr.entering = some t0 → s.now + e ≤ t0 + 500000 → s.pwr.lastAct ≤ t0 →
      ∃ t, exec (.emberEntryDone e) s = .next t ∧ t.pwrSt = 2 ∧ t.pwr.entering = none ∧ t.pwr.since = s.realNow + e ∧
        (∀ a, lanternMem a = true → readByte t.mem a = 0) ∧ (∀ a, lanternMem a = false → readByte t.mem a = readByte s.mem a) ∧
        t.jobs = s.jobs ∧ t.queues = s.queues ∧ t.vbufs = s.vbufs ∧
        ∀ w, (t.wick w).sregs = [] ∧ (t.wick w).tiles = [] ∧ ((s.wick w).st = .quarantined → (t.wick w).st = .quarantined)) ∧
    (s.live = true → s.pwrSt = 2 → s.pwr.exiting = none → s.flag pgPWR Reg.PWR_CTRL_DARK_EN = true →
      s.fget pgPWR Reg.PWR_DARK_IDLE_S ≠ 0 →
      e = s.pwr.since + s.fget pgPWR Reg.PWR_DARK_IDLE_S * 250000000 - s.realNow →
      ∃ t, exec (.darkEntry e) s = .next t ∧ t.pwr.dark = true ∧ t.powered = false ∧ t.hUp0 = false ∧ t.hUp1 = false ∧
        t.mem = [] ∧ t.jobs = [] ∧ t.queues = [] ∧ t.fuses = s.fuses ∧ t.flash.life.opSec = s.trm.opSec) ∧
    (∀ pend f, s.wakeFrom = some f →
      let m := (pend % 2048) &&& s.fget pgPWR Reg.PWR_WAKE_EN_MASK &&& wakeList f
      (m = 0 → exec (.wake pend e) s = .next (elapse e s)) ∧
      (m ≠ 0 → ∃ t, exec (.wake pend e) s = .next t ∧ t.fget pgPWR Reg.PWR_WAKE_LAST_SRC = lowestBit m ∧
        t.fget pgPWR Reg.PWR_WAKE_LAST_FROM = f ∧ t.fget pgPWR Reg.PWR_WAKE_LAST_PEND = m ∧
        (f = 1 → t.pwrSt = 0 ∧ t.mem = s.mem ∧ t.wicks = s.wicks ∧ t.snA = s.snA) ∧
        (f = 2 → t.pwr.exiting = some (s.now + e) ∧ t.pwr.entering = none ∧ (s.pwr.entering = none → t.mem = s.mem)) ∧
        (f = 3 → t.pwr.dark = false ∧ t.fget pgPWR Reg.PWR_WAKE_NS_NS = 0 ∧ t.fget pgPWR Reg.PWR_WAKE_SEC_SEC = 0) ∧
        (f ≠ 3 → t.fget pgPWR Reg.PWR_WAKE_NS_NS = (elapse e s).tbu.nsec))) ∧
    (∀ t0 temps low, s.live = true → s.pwr.exiting = some t0 → s.now + e ≤ t0 + 800000 →
      ∃ t, exec (.emberExitDone e temps low) s = .next t ∧ t = (elapse e s).emberOut temps low ∧
        (s.pwr.held = [] → t.pwrSt = 0 ∧ t.pwr.exiting = none ∧ t.pwr.since = s.realNow + e ∧ t.mem = s.mem ∧ t.jobs = s.jobs)) ∧
    (∀ port, s.live = true → s.pwrSt = 2 → port < 2 → s.portUp port = true → s.pwr.entering = none →
      (∀ off size, exec (.emberPcieRequest port (.readReg 0 pgPWR off size)) s =
        .next (s.readReg (.host port 0) pgPWR off size)) ∧
      (∀ size, ∃ t, exec (.emberPcieRequest port (.readOther size)) s = .next t ∧ OutEvent.answer size (allOnes size) ∈ t.out ∧
        t.mem = s.mem) ∧
      (∀ fn page off size, fn ≠ 0 ∨ page ≠ pgPWR → ∃ t, exec (.emberPcieRequest port (.readReg fn page off size)) s = .next t ∧
        OutEvent.answer size (allOnes size) ∈ t.out ∧ t.mem = s.mem) ∧
      (∀ r, (∀ fn page off size, r ≠ .readReg fn page off size) → (∀ size, r ≠ .readOther size) →
        ((s.pwr.held.filter fun h => h.1 == port).length < 64 →
          ∃ t, exec (.emberPcieRequest port r) s = .next t ∧ t.mem = s.mem ∧ t.queues = s.queues ∧
            t.pwr.held = s.pwr.held ++ [(port, r)]) ∧
        (64 ≤ (s.pwr.held.filter fun h => h.1 == port).length → exec (.emberPcieRequest port r) s = .next s)))

/-- The Trimmer and the lifetime counters (18 R436 to R448). -/
def Obligations.TrimmerSamplesGrantsAndCounts : Prop :=
  ∀ (s : State) (e : Nat), s.awake = true →
    (∀ x : TrimIn, s.dueNow e (s.trm.sampleAt + 250000) = true →
      (s.trm.tripped = false → x.crit = [] → x.rails = [] →
        ∃ t, exec (.trimmerSample e x) s = .next t ∧ t.trm.sampleAt = s.now + e ∧ t.trm.tripped = false ∧ t.mem = s.mem ∧
          t.jobs = s.jobs ∧ ∀ n, n < 8 → s.lanternUp n = true →
            t.tcode n = min (x.temps.getD n 0) 255 ∧ aget 0 t.trm.vset n = voltStep (s.grant n)) ∧
      exec (.trimmerSample e x) s = .next ((elapse e s).trmSample x) ∧
      (∀ k, s.trm.tripped = false → k ∈ x.crit → 2 ≤ aget 0 s.trm.crit k →
        ∃ v, exec (.trimmerSample e x) s = .next ((List.range 8).foldl (fun t n => t.lanternOut n) v) ∧ v.trm.tripped = true ∧
          v.fget pgFLT Reg.FLT_BOOT_READY = 0 ∧ 359 ∈ v.snA.lines ∧ 359 ∈ v.snB.lines ∧ v.mem = s.mem)) ∧
    (∀ n, s.rule1 = true → s.hottest = some n → s.flag pgTRM Reg.TRM_STATUS_ALERT = false →
      (s.fmin < s.grant n → n < 8 → s.grantRules.grant n = s.grant n - 1 ∧ 356 ∈ s.grantRules.snA.lines ∧
        ∀ k, k ≠ n → k < 8 → s.grantRules.grant k = s.grant k) ∧
      (s.grant n ≤ s.fmin → s.grantRules.grant n = s.grant n ∧ s.grantRules.flag pgTRM Reg.TRM_STATUS_FLOOR = true ∧
        357 ∈ s.grantRules.snA.lines)) ∧
    (s.rule1 = false → s.pkgPower ≤ s.fget pgTRM Reg.TRM_PLIMIT_W * 1000 → (∀ n, n ∈ s.trmLanterns → s.grant n ≤ s.ramp n) →
      (∀ n, n ∈ s.trmLanterns → s.mayRaise n = false) → ∀ k, k < 8 → s.grantRules.grant k = s.grant k) ∧
    (s.flag pgLMP Reg.LMP_FRAME_CTRL_ENABLE = false → s.dueCtr e (s.trm.perAt + 50000000) = true →
      ∃ t, exec (.trimmerPeriod e) s = .next t ∧ t = (elapse e s).trimmerTick ∧ t.trm.perAt = (elapse e s).tbu.ns ∧
        t.trm.pnCnt = 0 ∧ t.mem = s.mem ∧ t.jobs = s.jobs) ∧
    (s.flag pgTRM Reg.TRM_STATUS_ALERT = false →
      ∃ t, exec .coolAlert s = .next t ∧ t.flag pgTRM Reg.TRM_STATUS_ALERT = true ∧ 358 ∈ t.snA.lines ∧ 358 ∈ t.snB.lines ∧
        t.mem = s.mem ∧ t.jobs = s.jobs ∧ t.trm = s.trm) ∧
    (s.flag pgTRM Reg.TRM_STATUS_ALERT = true →
      ∃ t, exec .coolAlertDeassert s = .next t ∧ t.flag pgTRM Reg.TRM_STATUS_ALERT = false ∧ t.snA = s.snA ∧ t.mem = s.mem ∧
        t.jobs = s.jobs ∧ t.trm = s.trm) ∧
    (s.dueNow e (s.trm.cycAt + 250000000) = true →
      ∃ t, exec (.cycleSample e) s = .next t ∧ t.trm.opSec = s.trm.opSec + 1 ∧ t.trm.cycAt = s.now + e ∧ t.mem = s.mem ∧
        t.fget pgTRM Reg.TRM_LIFE_HRS_HOURS = (s.trm.opSec + 1) / 3600 % 2 ^ 32) ∧
    (s.dueNow e (s.trm.saveAt + 150000000000) = true →
      ∃ t, exec (.lifetimeLogSave e) s = .next t ∧ t.flash.life.opSec = s.trm.opSec ∧ t.flash.life.counts = s.trm.counts ∧
        t.flash.events = s.flash.events ++ s.flog ∧ t.flog = [] ∧ t.trm.saveAt = s.now + e ∧ t.mem = s.mem ∧
        t.flash.config = s.flash.config)

/-- Boot, supplies and the device key (19 R450 to R454, R469; 22 R500). -/
def Obligations.BootAndSupplies : Prop :=
  (∀ (s : State) (b : BootIn), s.powered = false → s.pwr.dark = false →
    let c := s.chipReset
    let p : State := { c with powered := true, hUp0 := true, hUp1 := true, flt := { Flt.zero with goodAt := s.now, boot := some b } }
    let u := (elapse b.edges { p with trm := { p.trm with vset := p.railsUp } }).drawKeys
    (b.fuseOk = false → ∃ t, exec (.powerGood b) s = .next t ∧ t.powered = true ∧ t.released = false ∧ t.bootSt = 5 ∧
      t.fget pgFLT Reg.FLT_BOOT_STEP = 2 ∧ t.mem = [] ∧ t.fuses = s.fuses) ∧
    (b.fuseOk = true → s.flash.image = none ∨ 2 ≤ b.imgBad → ∃ t, exec (.powerGood b) s = .next t ∧ t.powered = true ∧
      t.released = false ∧ t.bootSt = 2 ∧ t.fget pgFLT Reg.FLT_BOOT_STEP = 3 ∧ t.mem = [] ∧ t.flash.image = s.flash.image) ∧
    (∀ h r, b.fuseOk = true → b.imgBad < 2 → s.imageAt = .ok (h, r) → r.ok = false →
      ∃ t, exec (.powerGood b) s = .next t ∧ t.bootSt = 4 ∧ t.fget pgFLT Reg.FLT_BOOT_STEP = 4 ∧
        t.fget pgFLT Reg.FLT_FW_SVN = h.svn % 256) ∧
    (∀ h r, b.fuseOk = true → b.imgBad < 2 → s.imageAt = .ok (h, r) → r.ok = true →
      let v := (((u.loadFuses.fset pgFLT Reg.FLT_BOOT_STATE 0).fset pgFLT Reg.FLT_BOOT_STEP 3).runImage h).readLog b
      let w := (List.range 16).foldl (fun t c => t.trainChannel b c)
        (((v.countBin 0 5).lifeRegs.fset pgFLT Reg.FLT_BOOT_STEP 4).loadBoard r)
      (List.range 16).any w.trainBad = false →
        exec (.powerGood b) s = .next (if (w.boot5 b).freezeAsked then (w.boot5 b).freezeStart else w.boot5 b))) ∧
  (∀ s : State, s.powered = true →
    ∃ t, exec .powerFailReset s = .next t ∧ t.powered = false ∧ t.released = false ∧ t.mem = [] ∧ t.keys = [] ∧
      t.jobs = [] ∧ t.queues = [] ∧ t.fuses = s.fuses ∧ t.trm.opSec = s.trm.opSec ∧ (s.flt.mb = none → t.flash.config = s.flash.config) ∧
      ∀ i, (s.snLive i = true → (s.sn i).st.active = true → (t.sn i).st = .stopped ∧ (t.sn i).safe = false) ∧
        ((s.sn i).st.active = false → t.sn i = s.sn i)) ∧
  (∀ s : State, ∃ t, exec .aonSupplyLoss s = .next t ∧ t.powered = false ∧ t.trm.opSec = 0 ∧ t.trm.counts = [] ∧
    t.fuses = s.fuses ∧ ∀ off, off < 4096 → t.reg pgPWR 0 off = regReset pgPWR off ∧ t.reg pgTRM 0 off = regReset pgTRM off) ∧
  (∀ (s : State) (e t0 : Nat), s.live = true → s.flt.keyReady = false → s.flt.readyAt = some t0 → s.now + e ≤ t0 + 50000000 →
    ∃ t, exec (.keyDerivationDone e) s = .next t ∧ t.flt.keyReady = true ∧ t.mem = s.mem ∧ t.jobs = s.jobs ∧ t.snA = s.snA ∧
      t.flash = s.flash)

/-- The mailbox (19 R456 to R472). -/
def Obligations.MailboxRunsOneCommand : Prop :=
  (∀ (s : State) (w : Writer) (o : SignedObj) (fail : Option Nat), s.regsUp w = true → s.reaches w pgFLT = true →
    s.mayWrite w pgFLT = true →
    let issued : Instr → Nat → Option SignedObj → Option Nat → Prop := fun c n ob fl =>
      (s.flag pgFLT Reg.FLT_MB_STATUS_BUSY = false → s.mbAccepts n = true →
        ∃ t, exec c s = .next t ∧ t.flag pgFLT Reg.FLT_MB_STATUS_BUSY = true ∧ t.flt.mb = some (MbRun.mk n ob s.mbIn s.mbOut fl) ∧
          t.mem = s.mem ∧ t.jobs = s.jobs ∧ t.flash = s.flash ∧ t.fuses = s.fuses) ∧
      (s.flag pgFLT Reg.FLT_MB_STATUS_BUSY = true → exec c s = .next s.touch)
    issued (.loadPackage w o) 1 (some o) none ∧ issued (.applyUpdate w o) 2 (some o) none ∧
    issued (.writeConfig w o) 3 (some o) none ∧ issued (.writeImage w o) 4 (some o) none ∧
    issued (.revoke w o fail) 5 (some o) fail ∧ issued (.attest w) 6 none none ∧ issued (.getCert w) 7 none none ∧
    issued (.debugNonce w) 8 none none ∧ issued (.debugUnlock w o) 9 (some o) none) ∧
  (∀ (s : State) (r : MbRun), s.live = true → s.pwrSt ≤ 1 → s.bootSt = 1 → s.flt.mb = some r → (r.cmd ≠ 6 ∨ s.flt.keyReady = true) →
    ∃ t, exec .mailboxCommandDone s = .next t ∧ t = s.mbDone r ∧ t.flt.mb = none ∧ t.jobs = s.jobs ∧
      t.flag pgFLT Reg.FLT_MB_STATUS_BUSY = false ∧ t.flag pgFLT Reg.INT_STATUS_EVT = true ∧
      (∀ er, (s.inObj r).2 = some er → t.fget pgFLT Reg.FLT_MB_STATUS_ERR = er.code ∧ t.flash = s.flash ∧ t.fuses = s.fuses) ∧
      (∀ o er, r.cmd = 3 → r.obj = some o → (s.inObj r).2 = none → s.objErr 2 s.fuses.arbCfg o.head = some er →
        t.fget pgFLT Reg.FLT_MB_STATUS_ERR = er.code ∧ t.flash = s.flash ∧ t.fuses = s.fuses ∧ t.mem = s.mem) ∧
      (∀ o, r.cmd = 3 → r.obj = some o → (s.inObj r).2 = none → s.flashErr 2 o = none →
        t.fget pgFLT Reg.FLT_MB_STATUS_ERR = 0 ∧ t.flash.config = some o ∧ t.flash.image = s.flash.image) ∧
      (∀ o er, r.cmd = 5 → r.obj = some o → (s.inObj r).2 = none → s.objErr 7 0 o.head = some er →
        t.fget pgFLT Reg.FLT_MB_STATUS_ERR = er.code ∧ t.fuses = s.fuses ∧ t.snA = s.snA ∧ t.snB = s.snB) ∧
      (∀ o, r.cmd = 5 → r.obj = some o → (s.inObj r).2 = none → s.objErr 7 0 o.head = none → o.head.keyslot ≠ o.head.target % 4 →
          (∃ k, k < 4 ∧ k ≠ o.head.target % 4 ∧ s.fuses.slotGood s.fuses.okrev k = true) →
        (r.fail = none → t.fget pgFLT Reg.FLT_MB_STATUS_ERR = 0 ∧ t.snA.okrev.testBit (o.head.target % 4) = true ∧
          t.snB.okrev.testBit (o.head.target % 4) = true ∧ t.fuses.okrev.testBit (o.head.target % 4) = true) ∧
        (r.fail = some 1 → s.snB.okrev.testBit (o.head.target % 4) = false →
          t.fget pgFLT Reg.FLT_MB_STATUS_ERR = 0x05 ∧ t.snB = s.snB ∧ t.fuses = s.fuses ∧
          t.snA.okrev.testBit (o.head.target % 4) = true)) ∧
      (∀ o, r.cmd = 9 → r.obj = some o → t.flt.nonce = none ∧
        ((s.inObj r).2 = none → s.tokenOk o = true → t.fget pgFLT Reg.FLT_DEBUG_SCOPE = (s.fget pgFLT Reg.FLT_DEBUG_SCOPE ||| o.head.target) ∧
          352 ∈ t.snA.lines ∧ 352 ∈ t.snB.lines) ∧
        ((s.inObj r).2 = none → s.tokenOk o = false → t.fget pgFLT Reg.FLT_MB_STATUS_ERR = 0x0E ∧
          t.fget pgFLT Reg.FLT_DEBUG_SCOPE = s.fget pgFLT Reg.FLT_DEBUG_SCOPE)))

/-- Freeze, read-out and JTAG (21 R487 to R496). -/
def Obligations.FreezeAndJtagFollowChapter21 : Prop :=
  ∀ s : State, s.powered = true →
    (s.dbg.asked = none → s.flag pgDBG Reg.DBG_FRZ_FROZEN = false →
      ∃ t, exec .freezeRequest s = .next t ∧ t.dbg.asked = some s.now ∧ t.flag pgDBG Reg.DBG_FRZ_BALL = true ∧ t.mem = s.mem ∧
        t.jobs = s.jobs ∧ (s.scope 3 = true → t.snA = s.snA ∧ t.snB = s.snB) ∧
        (s.scope 3 = false → ∀ i, s.snLive i = true → (s.sn i).st.active = true → (t.sn i).st = .stopped ∧ (t.sn i).safe = false)) ∧
    (∀ w, s.regsUp w = true → s.reaches w pgDBG = true → s.mayWrite w pgDBG = true →
      (s.scope 0 = true → s.dbg.asked = none → s.flag pgDBG Reg.DBG_FRZ_FROZEN = false →
        ∃ t, exec (.dbgFreezeWrite w 1) s = .next t ∧ t.dbg.asked = some s.now ∧ t.flag pgDBG Reg.DBG_CTRL_FREEZE = true ∧
          t.mem = s.mem ∧ t.jobs = s.jobs) ∧
      (s.scope 0 = false → s.flag pgDBG Reg.INT_STATUS_ERR = false →
        ∃ t, exec (.dbgFreezeWrite w 1) s = .next t ∧ t.dbg = s.dbg ∧ t.fget pgDBG Reg.ERR_CODE_CODE = 0x03 ∧ t.mem = s.mem ∧
          t.flag pgDBG Reg.DBG_CTRL_FREEZE = s.flag pgDBG Reg.DBG_CTRL_FREEZE ∧ t.jobs = s.jobs)) ∧
    (s.flag pgDBG Reg.DBG_FRZ_FROZEN = true → s.reaches .jtag pgDBG = true → s.mayWrite .jtag pgDBG = true →
      s.scope 0 = true → s.scope 2 = true →
      ∃ t, exec (.dbgScanWrite .jtag 3) s = .next t ∧ t.flag pgDBG Reg.DBG_FRZ_SCANNED = true ∧ t.mem = s.mem ∧ t.jobs = s.jobs) ∧
    (∀ lat, s.dbg.asked.isSome = true → lat ≤ 120 → s.pwr.entering = none →
      ∃ t, exec (.freezeComplete lat) s = .next t ∧ t.flag pgDBG Reg.DBG_FRZ_FROZEN = true ∧ t.live = false ∧
        t.fget pgDBG Reg.DBG_FRZ_LAT = lat ∧ t.flag pgDBG Reg.DBG_FRZ_SNUFFERS = s.scope 3 ∧
        t.fget pgDBG Reg.DBG_FRZ_COUNT_COUNT = min (s.fget pgDBG Reg.DBG_FRZ_COUNT_COUNT + 1) (2 ^ 32 - 1) ∧
        t.mem = s.mem ∧ t.jobs = s.jobs ∧ t.tbu = s.tbu ∧ t.wicks = s.wicks) ∧
    (s.flag pgDBG Reg.DBG_FRZ_BALL = true → s.flag pgDBG Reg.DBG_CTRL_FREEZE = false → s.dbg.hold = false →
      (s.flag pgDBG Reg.DBG_FRZ_SCANNED = false →
        ∃ t, exec .freezeRelease s = .next t ∧ t.flag pgDBG Reg.DBG_FRZ_FROZEN = false ∧ t.live = true ∧ t.mem = s.mem ∧
          t.jobs = s.jobs ∧ t.tbu = s.tbu ∧ t.wicks = s.wicks ∧ t.queues = s.queues ∧ t.now = s.now) ∧
      (s.flag pgDBG Reg.DBG_FRZ_SCANNED = true →
        ∃ t, exec .freezeRelease s = .next t ∧ t.powered = false ∧ t.mem = [] ∧ t.jobs = [] ∧ t.fuses = s.fuses)) ∧
    (∃ t, exec .extest s = .next t ∧ t.dbg.hold = true ∧ t.dbg.ir = 0 ∧ t.mem = s.mem ∧ t.jobs = s.jobs) ∧
    (∃ t, exec .clamp s = .next t ∧ t.dbg.hold = true ∧ t.dbg.ir = 3 ∧ t.mem = s.mem ∧ t.jobs = s.jobs) ∧
    (∃ t, exec .idcode s = .next t ∧ t.dbg.ir = 1 ∧ OutEvent.answer 4 s.idcode ∈ t.out ∧ s.idcode % 2 = 1 ∧ t.regs = s.regs ∧
      t.mem = s.mem) ∧
    (∀ l, ∃ t, exec (.samplePreload (some l)) s = .next t ∧ t.dbg.ir = 2 ∧ t.dbg.bsr = l ∧ t.regs = s.regs ∧ t.mem = s.mem) ∧
    (∃ t, exec (.samplePreload none) s = .next t ∧ t.dbg.ir = 2 ∧ t.dbg.bsr = s.dbg.bsr ∧ t.regs = s.regs ∧ t.mem = s.mem) ∧
    (∀ page off d, page < 4096 → off < 4096 → s.scope 0 = true →
      exec (.dbgReg (0xF000000000 + page * 4096 + off) 0 d) s = .next ((s.setIr 0x20).readReg .jtag page off 4) ∧
      exec (.dbgReg (0xF000000000 + page * 4096 + off) 1 d) s = .next ((s.setIr 0x20).writeReg .jtag page off 4 (d.setWidth 64))) ∧
    (∀ a rw d, s.scope 0 = false → s.flag pgDBG Reg.INT_STATUS_ERR = false →
      ∃ t, exec (.dbgReg a rw d) s = .next t ∧ t.dbg.ir = 0xFF ∧ t.fget pgDBG Reg.ERR_CODE_CODE = 0x03 ∧ t.mem = s.mem) ∧
    (∀ a n, s.scope 0 = true → s.scope 1 = true → a < 2 ^ 48 → a % 64 = 0 → s.flag pgDBG Reg.DBG_FRZ_FROZEN = true →
      s.region a = .reservoir n → s.poison.contains (a / 64) = false →
      ∃ t, exec (.dbgMem a) s = .next t ∧ t.dbg.ir = 0x21 ∧ t.dbg.word.data = s.load a 64 ∧ t.dbg.word.valid = true ∧
        t.dbg.word.poisoned = false ∧ t.mem = s.mem ∧ t.regs = s.regs ∧
        (s.dbg.ir = 0x21 → OutEvent.dbgWord s.dbg.word ∈ t.out)) ∧
    (∀ code, jtagCodes.contains (code % 256) = false →
      ∃ t, exec (.bypass code) s = .next t ∧ t.dbg.ir = code % 256 ∧ t.regs = s.regs ∧ t.mem = s.mem)
end

