-- ==== Sys2Proof/Laws/Mem.lean ====
section
/-!
SUPPORT. Mem.lean: the laws of the block's memory: the canonical form is kept by every memory operation, what is written is
read back, and every other byte stays (20 R474; log entry 6).
-/

namespace Sys2Proof.Machine

open Sys2Proof

/-- The canonical form as a property of the list: keys rise, no byte is the default. -/
theorem Memory.wf_iff (m : List Host.Cell) :
    Memory.wf m = true ↔ m.Pairwise (fun c d => c.1 < d.1) ∧ ∀ c ∈ m, c.2 ≠ memDefault := by
  induction m with
  | nil => simp [Memory.wf]
  | cons c m ih =>
    cases m with
    | nil => simp [Memory.wf]
    | cons d m =>
      simp only [Memory.wf, Bool.and_eq_true, decide_eq_true_eq, bne_iff_ne, ih, List.pairwise_cons, List.mem_cons,
        forall_eq_or_imp]
      constructor
      · rintro ⟨⟨h1, h2⟩, ⟨h3, h4⟩, h5, h6⟩
        exact ⟨⟨⟨h2, fun x hx => Nat.lt_trans h2 (h3 x hx)⟩, h3, h4⟩, h1, h5, h6⟩
      · rintro ⟨⟨⟨h2, _⟩, h3, h4⟩, h1, h5, h6⟩
        exact ⟨⟨h1, h2⟩, ⟨h3, h4⟩, h5, h6⟩

/-- A filter on the keys keeps the canonical form. -/
theorem Memory.wf_filter {m : List Host.Cell} (h : Memory.wf m = true) (p : Host.Cell → Bool) :
    Memory.wf (m.filter p) = true := by
  rw [Memory.wf_iff] at h ⊢
  exact ⟨h.1.filter _, fun c hc => h.2 c (List.mem_filter.1 hc).1⟩

theorem aget_filter {α : Type} (d : α) (p : Nat → Bool) (l : List (Nat × α)) (k : Nat) :
    aget d (l.filter fun c => p c.1) k = if p k then aget d l k else d := by
  induction l with
  | nil => simp [aget]
  | cons c l ih =>
    obtain ⟨a, v⟩ := c
    by_cases hp : p a
    · simp only [List.filter_cons, hp, if_true, aget, ih]
      by_cases e : a = k
      · subst e; simp [hp]
      · simp [e]
    · simp only [List.filter_cons, hp, aget]
      by_cases e : a = k
      · subst e; simpa [hp] using ih
      · simpa [e] using ih

theorem aget_not_mem {α : Type} (d : α) (l : List (Nat × α)) (k : Nat) (h : ∀ c ∈ l, c.1 ≠ k) : aget d l k = d := by
  induction l with
  | nil => rfl
  | cons c l ih =>
    obtain ⟨a, v⟩ := c
    simp only [List.mem_cons, forall_eq_or_imp] at h
    simp [aget, h.1, ih h.2]

theorem aget_append_left {α : Type} (d : α) (l l' : List (Nat × α)) (k : Nat) (h : ∀ c ∈ l', c.1 ≠ k) :
    aget d (l ++ l') k = aget d l k := by
  induction l with
  | nil => simp [aget, aget_not_mem d l' k h]
  | cons c l ih =>
    obtain ⟨a, v⟩ := c
    simp only [List.cons_append, aget, ih]

theorem aget_append_right {α : Type} (d : α) (l l' : List (Nat × α)) (k : Nat) (h : ∀ c ∈ l, c.1 ≠ k) :
    aget d (l ++ l') k = aget d l' k := by
  induction l with
  | nil => simp
  | cons c l ih =>
    obtain ⟨a, v⟩ := c
    simp only [List.mem_cons, forall_eq_or_imp] at h
    simp [aget, h.1, ih h.2]

/-- Replacing a range by cells that lie in it keeps the canonical form. -/
theorem memSplice_wf {m cs : List Host.Cell} {a n : Nat} (h : Memory.wf m = true) (hc : Memory.wf cs = true)
    (hr : ∀ c ∈ cs, a ≤ c.1 ∧ c.1 < a + n) : Memory.wf (memSplice m a n cs) = true := by
  rw [Memory.wf_iff] at h hc ⊢
  unfold memSplice
  refine ⟨?_, ?_⟩
  · rw [List.pairwise_append, List.pairwise_append]
    refine ⟨⟨h.1.filter _, hc.1, ?_⟩, h.1.filter _, ?_⟩
    · intro c h1 d h2
      have := hr d h2
      simp at h1; omega
    · intro c h1 d h2
      simp only [List.mem_filter, decide_eq_true_eq, List.mem_append] at h1 h2
      rcases h1 with h1 | h1
      · omega
      · have := hr c h1; omega
  · intro c hm
    simp only [List.mem_append, List.mem_filter] at hm
    rcases hm with (hm | hm) | hm
    · exact h.2 c hm.1
    · exact hc.2 c hm
    · exact h.2 c hm.1

/-- A byte after a range was replaced. -/
theorem readByte_memSplice {m cs : List Host.Cell} {a n : Nat} (hr : ∀ c ∈ cs, a ≤ c.1 ∧ c.1 < a + n) (x : Nat) :
    readByte (memSplice m a n cs) x = if a ≤ x ∧ x < a + n then readByte cs x else readByte m x := by
  unfold readByte memSplice
  by_cases h1 : x < a
  · rw [aget_append_left _ _ _ _ (by intro c hc; simp at hc; omega),
      aget_append_left _ _ _ _ (by intro c hc; have := hr c hc; omega), aget_filter _ (fun k => decide (k < a))]
    have : ¬ (a ≤ x ∧ x < a + n) := by omega
    simp [h1, this]
  · by_cases h2 : x < a + n
    · rw [aget_append_left _ _ _ _ (by intro c hc; simp at hc; omega),
        aget_append_right _ _ _ _ (by intro c hc; simp at hc; omega), if_pos ⟨by omega, h2⟩]
    · rw [aget_append_right _ _ _ _ (by
        intro c hc
        simp only [List.mem_append, List.mem_filter, decide_eq_true_eq] at hc
        rcases hc with hc | hc
        · omega
        · have := hr c hc; omega), aget_filter _ (fun k => decide (a + n ≤ k))]
      have : ¬ (a ≤ x ∧ x < a + n) := by omega
      simp [this, Nat.not_lt.1 h2]

theorem cellsOf_mem {a : Nat} {bs : List Byte} : ∀ c ∈ cellsOf a bs, a ≤ c.1 ∧ c.1 < a + bs.length := by
  induction bs generalizing a with
  | nil => simp [cellsOf]
  | cons b bs ih =>
    intro c hc
    unfold cellsOf at hc
    split at hc
    · have := ih c hc; simp; omega
    · simp only [List.mem_cons] at hc
      rcases hc with rfl | hc
      · simp
      · have := ih c hc; simp; omega

theorem cellsOf_wf (a : Nat) (bs : List Byte) : Memory.wf (cellsOf a bs) = true := by
  induction bs generalizing a with
  | nil => simp [cellsOf, Memory.wf]
  | cons b bs ih =>
    unfold cellsOf
    split
    · exact ih _
    · next hb =>
      have h := ih (a + 1)
      rw [Memory.wf_iff] at h ⊢
      refine ⟨List.pairwise_cons.2 ⟨fun c hc => ?_, h.1⟩, ?_⟩
      · have := cellsOf_mem c hc; simp; omega
      · simp only [List.mem_cons, forall_eq_or_imp]; exact ⟨hb, h.2⟩

theorem readByte_cellsOf (a : Nat) (bs : List Byte) (x : Nat) (h : a ≤ x) (h' : x < a + bs.length) :
    readByte (cellsOf a bs) x = bs.getD (x - a) 0 := by
  induction bs generalizing a with
  | nil => simp at h'; omega
  | cons b bs ih =>
    simp only [List.length_cons] at h'
    unfold cellsOf
    by_cases e : x = a
    · subst e
      split
      · next hb =>
        rw [readByte, aget_not_mem _ _ _ (by intro c hc; have := cellsOf_mem c hc; omega)]
        simp [hb]
      · simp [readByte, aget]
    · have : x - a = x - (a + 1) + 1 := by omega
      rw [this, List.getD_cons_succ]
      split
      · exact ih (a + 1) (by omega) (by omega)
      · rw [readByte, aget, if_neg (Ne.symm e)]
        exact ih (a + 1) (by omega) (by omega)

/-- Writing bytes keeps the canonical form. -/
theorem writeBytes_wf {m : List Host.Cell} (h : Memory.wf m = true) (a : Nat) (bs : List Byte) :
    Memory.wf (writeBytes m a bs) = true := memSplice_wf h (cellsOf_wf a bs) cellsOf_mem

/-- A byte after bytes were written: the byte written, or the byte before. -/
theorem readByte_writeBytes (m : List Host.Cell) (a : Nat) (bs : List Byte) (x : Nat) :
    readByte (writeBytes m a bs) x = if a ≤ x ∧ x < a + bs.length then bs.getD (x - a) 0 else readByte m x := by
  rw [writeBytes, readByte_memSplice cellsOf_mem]
  split
  · next h => exact readByte_cellsOf a bs x h.1 h.2
  · rfl

/-- Writing zero keeps the canonical form. -/
theorem zeroBytes_wf {m : List Host.Cell} (h : Memory.wf m = true) (a n : Nat) : Memory.wf (zeroBytes m a n) = true :=
  memSplice_wf h (by simp [Memory.wf]) (by simp)

theorem memSlice_mem {m : List Host.Cell} {a n : Nat} : ∀ c ∈ memSlice m a n, a ≤ c.1 ∧ c.1 < a + n := by
  intro c hc; simpa [memSlice] using (List.mem_filter.1 hc).2

/-- A copy keeps the canonical form. -/
theorem copyBytes_wf {m : List Host.Cell} (h : Memory.wf m = true) (src dst n : Nat) :
    Memory.wf (copyBytes m src dst n) = true := by
  apply memSplice_wf h
  · have h' : Memory.wf (memSlice m src n) = true := Memory.wf_filter h _
    rw [Memory.wf_iff] at h' ⊢
    refine ⟨?_, ?_⟩
    · rw [List.pairwise_map]
      refine h'.1.imp_of_mem ?_
      intro c d hc hd hcd
      have h1 := memSlice_mem c hc
      have h2 := memSlice_mem d hd
      simp only; omega
    · intro c hc
      obtain ⟨d, hd, rfl⟩ := List.mem_map.1 hc
      exact h'.2 d hd
  · intro c hc
    obtain ⟨d, hd, rfl⟩ := List.mem_map.1 hc
    have := memSlice_mem d hd
    simp only; omega

/-- A byte after bytes were zeroed. -/
theorem readByte_zeroBytes (m : List Host.Cell) (a n x : Nat) :
    readByte (zeroBytes m a n) x = if a ≤ x ∧ x < a + n then 0 else readByte m x := by
  rw [zeroBytes, readByte_memSplice (by simp)]
  rfl

theorem aget_shift (d : Byte) (l : List Host.Cell) (src dst k : Nat) (hl : ∀ c ∈ l, src ≤ c.1) (hk : dst ≤ k) :
    aget d (l.map fun c => (c.1 - src + dst, c.2)) k = aget d l (k - dst + src) := by
  induction l with
  | nil => rfl
  | cons c l ih =>
    simp only [List.mem_cons, forall_eq_or_imp] at hl
    have hc := hl.1
    simp only [List.map_cons, aget, ih hl.2]
    by_cases e : c.1 - src + dst = k
    · rw [if_pos e, if_pos (by omega)]
    · rw [if_neg e, if_neg (by omega)]

/-- A byte after a copy: the byte that stood in the source before, or the byte before. -/
theorem readByte_copyBytes (m : List Host.Cell) (src dst n x : Nat) :
    readByte (copyBytes m src dst n) x = if dst ≤ x ∧ x < dst + n then readByte m (x - dst + src) else readByte m x := by
  rw [copyBytes, readByte_memSplice (by
    intro c hc
    obtain ⟨d, hd, rfl⟩ := List.mem_map.1 hc
    have := memSlice_mem d hd
    simp only; omega)]
  split
  · next h =>
    rw [readByte, aget_shift _ _ _ _ _ (fun c hc => (memSlice_mem c hc).1) h.1, memSlice]
    have := aget_filter memDefault (fun k => decide (src ≤ k) && decide (k < src + n)) m (x - dst + src)
    rw [this, if_pos (by simp; omega)]
    rfl
  · rfl

/-- A store changes memory and the marks of the lines it covers, nothing else, and keeps the canonical form. -/
theorem State.store_shape (s : State) (a : Nat) (bs : List Byte) :
    ∃ p, s.store a bs = { s with mem := writeBytes s.mem a bs, poison := p } := ⟨_, rfl⟩

/-- Zeroing changes memory and the marks of the lines it covers, nothing else. -/
theorem State.zero_shape (s : State) (a n : Nat) :
    ∃ p, s.zero a n = { s with mem := zeroBytes s.mem a n, poison := p } := ⟨_, rfl⟩

/-- A copy changes memory and the marks of the lines it covers, nothing else. -/
theorem State.copyMem_shape (s : State) (src dst n : Nat) :
    ∃ p, s.copyMem src dst n = { s with mem := copyBytes s.mem src dst n, poison := p } := ⟨_, rfl⟩

end Sys2Proof.Machine
end

