-- ==== Sys2Proof/Laws/State.lean ====
section
/-!
SUPPORT. State.lean: for each field of the state, what an update by a named operation leaves of it; and the one shape every
shared operation over registers and outputs has.
-/

namespace Sys2Proof.Machine

open Sys2Proof

/-! ## The shapes of the operations that are not one record update -/

/-- A message of the table goes out or is left pending (20 R480). -/
theorem State.msix_shape (s : State) (port part vec : Nat) :
    ∃ o q, s.msix port part vec = { s with out := o, msixPend := q } := by
  by_cases h : (!s.portUp port || decide (msixCount (fnOf part) ≤ vec)) = true
  · exact ⟨s.out, s.msixPend, by simp only [State.msix, h, if_true]⟩
  · by_cases h' : s.msixMasked (msixKey port (fnOf part) vec) = true
    · exact ⟨s.out, _, by simp only [State.msix, h, h', if_true, if_false, Bool.false_eq_true]; rfl⟩
    · exact ⟨_, s.msixPend, by simp only [State.msix, State.emit, h, h', if_false, Bool.false_eq_true]; rfl⟩

theorem State.pendRise_shape (s : State) (page : Nat) (b : Bool) :
    ∃ o q, s.pendRise page b = { s with out := o, msixPend := q } := by
  unfold State.pendRise
  split
  · exact s.msix_shape _ _ _
  · exact ⟨s.out, s.msixPend, rfl⟩

theorem State.event_shape (s : State) (page : Nat) :
    ∃ r o q, s.event page = { s with regs := r, out := o, msixPend := q } := by
  obtain ⟨o, q, h⟩ := (s.fset page Reg.INT_STATUS_EVT 1).pendRise_shape page (s.pend page)
  exact ⟨_, o, q, h⟩

/-- A capture changes registers and outputs alone, with the messages left pending (12 R314). -/
theorem State.capture_shape (s : State) (page : Nat) (e : Err) (addr : Nat) :
    ∃ r o q, s.capture page e addr = { s with regs := r, out := o, msixPend := q } := by
  unfold State.capture
  split
  · obtain ⟨o, q, h⟩ := (s.fset page Reg.INT_STATUS_ERR 1).pendRise_shape page (s.pend page)
    exact ⟨_, o, q, h⟩
  · obtain ⟨o, q, h⟩ := ((((s.fset page Reg.ERR_CODE_CODE e.code).setReg page 0 0x028 (BitVec.ofNat 32 addr)).fset page
      Reg.ERR_ADDR_HI_ADDR (addr / 2 ^ 32)).fset page Reg.INT_STATUS_ERR 1).pendRise_shape page (s.pend page)
    exact ⟨_, o, q, h⟩

theorem State.pulse_shape (s : State) (line : Nat) : ∃ a b, s.pulse line = { s with snA := a, snB := b } := by
  unfold State.pulse
  split
  · exact ⟨_, _, rfl⟩
  · exact ⟨s.snA, s.snB, rfl⟩

/-- An error that pulses its line changes registers, outputs and the lines that wait at the Snuffers (12 R314). -/
theorem State.captureLine_shape (s : State) (page : Nat) (e : Err) (addr line : Nat) :
    ∃ r o q a b, s.captureLine page e addr line = { s with regs := r, out := o, msixPend := q, snA := a, snB := b } := by
  obtain ⟨r, o, q, h⟩ := s.capture_shape page e addr
  obtain ⟨a, b, h'⟩ := (s.capture page e addr).pulse_shape line
  refine ⟨r, o, q, a, b, ?_⟩
  unfold State.captureLine
  rw [h', h]

/-! ## setReg -/

@[simp] theorem State.setReg_pending (s : State) (page idx off : Nat) (v : Word32) :
    (s.setReg page idx off v).pending = s.pending := rfl
@[simp] theorem State.setReg_now (s : State) (page idx off : Nat) (v : Word32) : (s.setReg page idx off v).now = s.now := rfl
@[simp] theorem State.setReg_mem (s : State) (page idx off : Nat) (v : Word32) : (s.setReg page idx off v).mem = s.mem := rfl
@[simp] theorem State.setReg_poison (s : State) (page idx off : Nat) (v : Word32) :
    (s.setReg page idx off v).poison = s.poison := rfl
@[simp] theorem State.setReg_out (s : State) (page idx off : Nat) (v : Word32) : (s.setReg page idx off v).out = s.out := rfl
@[simp] theorem State.setReg_draws (s : State) (page idx off : Nat) (v : Word32) :
    (s.setReg page idx off v).draws = s.draws := rfl
@[simp] theorem State.setReg_tbu (s : State) (page idx off : Nat) (v : Word32) : (s.setReg page idx off v).tbu = s.tbu := rfl
@[simp] theorem State.setReg_frm (s : State) (page idx off : Nat) (v : Word32) : (s.setReg page idx off v).frm = s.frm := rfl
@[simp] theorem State.setReg_queues (s : State) (page idx off : Nat) (v : Word32) :
    (s.setReg page idx off v).queues = s.queues := rfl
@[simp] theorem State.setReg_jobs (s : State) (page idx off : Nat) (v : Word32) :
    (s.setReg page idx off v).jobs = s.jobs := rfl
@[simp] theorem State.setReg_vbufs (s : State) (page idx off : Nat) (v : Word32) :
    (s.setReg page idx off v).vbufs = s.vbufs := rfl
@[simp] theorem State.setReg_ing (s : State) (page idx off : Nat) (v : Word32) : (s.setReg page idx off v).ing = s.ing := rfl
@[simp] theorem State.setReg_ethTx (s : State) (page idx off : Nat) (v : Word32) :
    (s.setReg page idx off v).ethTx = s.ethTx := rfl
@[simp] theorem State.setReg_aps (s : State) (page idx off : Nat) (v : Word32) : (s.setReg page idx off v).aps = s.aps := rfl
@[simp] theorem State.setReg_wicks (s : State) (page idx off : Nat) (v : Word32) :
    (s.setReg page idx off v).wicks = s.wicks := rfl
@[simp] theorem State.setReg_hUp0 (s : State) (page idx off : Nat) (v : Word32) :
    (s.setReg page idx off v).hUp0 = s.hUp0 := rfl
@[simp] theorem State.setReg_hUp1 (s : State) (page idx off : Nat) (v : Word32) :
    (s.setReg page idx off v).hUp1 = s.hUp1 := rfl
@[simp] theorem State.setReg_snA (s : State) (page idx off : Nat) (v : Word32) : (s.setReg page idx off v).snA = s.snA := rfl
@[simp] theorem State.setReg_snB (s : State) (page idx off : Nat) (v : Word32) : (s.setReg page idx off v).snB = s.snB := rfl
@[simp] theorem State.setReg_gate (s : State) (page idx off : Nat) (v : Word32) :
    (s.setReg page idx off v).gate = s.gate := rfl
@[simp] theorem State.setReg_powered (s : State) (page idx off : Nat) (v : Word32) :
    (s.setReg page idx off v).powered = s.powered := rfl
@[simp] theorem State.setReg_cfg (s : State) (page idx off : Nat) (v : Word32) : (s.setReg page idx off v).cfg = s.cfg := rfl
@[simp] theorem State.setReg_lmp (s : State) (page idx off : Nat) (v : Word32) : (s.setReg page idx off v).lmp = s.lmp := rfl
@[simp] theorem State.setReg_rgl (s : State) (page idx off : Nat) (v : Word32) : (s.setReg page idx off v).rgl = s.rgl := rfl
@[simp] theorem State.setReg_dmc (s : State) (page idx off : Nat) (v : Word32) : (s.setReg page idx off v).dmc = s.dmc := rfl
@[simp] theorem State.setReg_bonds (s : State) (page idx off : Nat) (v : Word32) :
    (s.setReg page idx off v).bonds = s.bonds := rfl
@[simp] theorem State.setReg_released (s : State) (page idx off : Nat) (v : Word32) :
    (s.setReg page idx off v).released = s.released := rfl
@[simp] theorem State.setReg_shToks (s : State) (page idx off : Nat) (v : Word32) :
    (s.setReg page idx off v).shToks = s.shToks := rfl
@[simp] theorem State.setReg_arrivals (s : State) (page idx off : Nat) (v : Word32) :
    (s.setReg page idx off v).arrivals = s.arrivals := rfl
@[simp] theorem State.setReg_cmbs (s : State) (page idx off : Nat) (v : Word32) :
    (s.setReg page idx off v).cmbs = s.cmbs := rfl
@[simp] theorem State.setReg_sconces (s : State) (page idx off : Nat) (v : Word32) :
    (s.setReg page idx off v).sconces = s.sconces := rfl
@[simp] theorem State.setReg_flog (s : State) (page idx off : Nat) (v : Word32) :
    (s.setReg page idx off v).flog = s.flog := rfl
@[simp] theorem State.setReg_ccu (s : State) (page idx off : Nat) (v : Word32) : (s.setReg page idx off v).ccu = s.ccu := rfl
@[simp] theorem State.setReg_cov (s : State) (page idx off : Nat) (v : Word32) : (s.setReg page idx off v).cov = s.cov := rfl
@[simp] theorem State.setReg_links (s : State) (page idx off : Nat) (v : Word32) :
    (s.setReg page idx off v).links = s.links := rfl
@[simp] theorem State.setReg_lnkWin (s : State) (page idx off : Nat) (v : Word32) :
    (s.setReg page idx off v).lnkWin = s.lnkWin := rfl
@[simp] theorem State.setReg_guestDie (s : State) (page idx off : Nat) (v : Word32) :
    (s.setReg page idx off v).guestDie = s.guestDie := rfl
@[simp] theorem State.setReg_dies (s : State) (page idx off : Nat) (v : Word32) :
    (s.setReg page idx off v).dies = s.dies := rfl
@[simp] theorem State.setReg_updFrame (s : State) (page idx off : Nat) (v : Word32) :
    (s.setReg page idx off v).updFrame = s.updFrame := rfl
@[simp] theorem State.setReg_trm (s : State) (page idx off : Nat) (v : Word32) : (s.setReg page idx off v).trm = s.trm := rfl
@[simp] theorem State.setReg_pwr (s : State) (page idx off : Nat) (v : Word32) : (s.setReg page idx off v).pwr = s.pwr := rfl
@[simp] theorem State.setReg_fuses (s : State) (page idx off : Nat) (v : Word32) :
    (s.setReg page idx off v).fuses = s.fuses := rfl
@[simp] theorem State.setReg_flash (s : State) (page idx off : Nat) (v : Word32) :
    (s.setReg page idx off v).flash = s.flash := rfl
@[simp] theorem State.setReg_dbg (s : State) (page idx off : Nat) (v : Word32) : (s.setReg page idx off v).dbg = s.dbg := rfl
@[simp] theorem State.setReg_flt (s : State) (page idx off : Nat) (v : Word32) : (s.setReg page idx off v).flt = s.flt := rfl
@[simp] theorem State.setReg_keys (s : State) (page idx off : Nat) (v : Word32) :
    (s.setReg page idx off v).keys = s.keys := rfl
@[simp] theorem State.setReg_lineKeys (s : State) (page idx off : Nat) (v : Word32) :
    (s.setReg page idx off v).lineKeys = s.lineKeys := rfl
@[simp] theorem State.setReg_msixTab (s : State) (page idx off : Nat) (v : Word32) :
    (s.setReg page idx off v).msixTab = s.msixTab := rfl
@[simp] theorem State.setReg_msixPend (s : State) (page idx off : Nat) (v : Word32) :
    (s.setReg page idx off v).msixPend = s.msixPend := rfl

/-! ## fset -/

@[simp] theorem State.fset_pending (s : State) (page : Nat) (f : Fld) (x : Nat) :
    (s.fset page f x).pending = s.pending := rfl
@[simp] theorem State.fset_now (s : State) (page : Nat) (f : Fld) (x : Nat) : (s.fset page f x).now = s.now := rfl
@[simp] theorem State.fset_mem (s : State) (page : Nat) (f : Fld) (x : Nat) : (s.fset page f x).mem = s.mem := rfl
@[simp] theorem State.fset_poison (s : State) (page : Nat) (f : Fld) (x : Nat) : (s.fset page f x).poison = s.poison := rfl
@[simp] theorem State.fset_out (s : State) (page : Nat) (f : Fld) (x : Nat) : (s.fset page f x).out = s.out := rfl
@[simp] theorem State.fset_draws (s : State) (page : Nat) (f : Fld) (x : Nat) : (s.fset page f x).draws = s.draws := rfl
@[simp] theorem State.fset_tbu (s : State) (page : Nat) (f : Fld) (x : Nat) : (s.fset page f x).tbu = s.tbu := rfl
@[simp] theorem State.fset_frm (s : State) (page : Nat) (f : Fld) (x : Nat) : (s.fset page f x).frm = s.frm := rfl
@[simp] theorem State.fset_queues (s : State) (page : Nat) (f : Fld) (x : Nat) : (s.fset page f x).queues = s.queues := rfl
@[simp] theorem State.fset_jobs (s : State) (page : Nat) (f : Fld) (x : Nat) : (s.fset page f x).jobs = s.jobs := rfl
@[simp] theorem State.fset_vbufs (s : State) (page : Nat) (f : Fld) (x : Nat) : (s.fset page f x).vbufs = s.vbufs := rfl
@[simp] theorem State.fset_ing (s : State) (page : Nat) (f : Fld) (x : Nat) : (s.fset page f x).ing = s.ing := rfl
@[simp] theorem State.fset_ethTx (s : State) (page : Nat) (f : Fld) (x : Nat) : (s.fset page f x).ethTx = s.ethTx := rfl
@[simp] theorem State.fset_aps (s : State) (page : Nat) (f : Fld) (x : Nat) : (s.fset page f x).aps = s.aps := rfl
@[simp] theorem State.fset_wicks (s : State) (page : Nat) (f : Fld) (x : Nat) : (s.fset page f x).wicks = s.wicks := rfl
@[simp] theorem State.fset_hUp0 (s : State) (page : Nat) (f : Fld) (x : Nat) : (s.fset page f x).hUp0 = s.hUp0 := rfl
@[simp] theorem State.fset_hUp1 (s : State) (page : Nat) (f : Fld) (x : Nat) : (s.fset page f x).hUp1 = s.hUp1 := rfl
@[simp] theorem State.fset_snA (s : State) (page : Nat) (f : Fld) (x : Nat) : (s.fset page f x).snA = s.snA := rfl
@[simp] theorem State.fset_snB (s : State) (page : Nat) (f : Fld) (x : Nat) : (s.fset page f x).snB = s.snB := rfl
@[simp] theorem State.fset_gate (s : State) (page : Nat) (f : Fld) (x : Nat) : (s.fset page f x).gate = s.gate := rfl
@[simp] theorem State.fset_powered (s : State) (page : Nat) (f : Fld) (x : Nat) :
    (s.fset page f x).powered = s.powered := rfl
@[simp] theorem State.fset_cfg (s : State) (page : Nat) (f : Fld) (x : Nat) : (s.fset page f x).cfg = s.cfg := rfl
@[simp] theorem State.fset_lmp (s : State) (page : Nat) (f : Fld) (x : Nat) : (s.fset page f x).lmp = s.lmp := rfl
@[simp] theorem State.fset_rgl (s : State) (page : Nat) (f : Fld) (x : Nat) : (s.fset page f x).rgl = s.rgl := rfl
@[simp] theorem State.fset_dmc (s : State) (page : Nat) (f : Fld) (x : Nat) : (s.fset page f x).dmc = s.dmc := rfl
@[simp] theorem State.fset_bonds (s : State) (page : Nat) (f : Fld) (x : Nat) : (s.fset page f x).bonds = s.bonds := rfl
@[simp] theorem State.fset_released (s : State) (page : Nat) (f : Fld) (x : Nat) :
    (s.fset page f x).released = s.released := rfl
@[simp] theorem State.fset_shToks (s : State) (page : Nat) (f : Fld) (x : Nat) : (s.fset page f x).shToks = s.shToks := rfl
@[simp] theorem State.fset_arrivals (s : State) (page : Nat) (f : Fld) (x : Nat) :
    (s.fset page f x).arrivals = s.arrivals := rfl
@[simp] theorem State.fset_cmbs (s : State) (page : Nat) (f : Fld) (x : Nat) : (s.fset page f x).cmbs = s.cmbs := rfl
@[simp] theorem State.fset_sconces (s : State) (page : Nat) (f : Fld) (x : Nat) :
    (s.fset page f x).sconces = s.sconces := rfl
@[simp] theorem State.fset_flog (s : State) (page : Nat) (f : Fld) (x : Nat) : (s.fset page f x).flog = s.flog := rfl
@[simp] theorem State.fset_ccu (s : State) (page : Nat) (f : Fld) (x : Nat) : (s.fset page f x).ccu = s.ccu := rfl
@[simp] theorem State.fset_cov (s : State) (page : Nat) (f : Fld) (x : Nat) : (s.fset page f x).cov = s.cov := rfl
@[simp] theorem State.fset_links (s : State) (page : Nat) (f : Fld) (x : Nat) : (s.fset page f x).links = s.links := rfl
@[simp] theorem State.fset_lnkWin (s : State) (page : Nat) (f : Fld) (x : Nat) : (s.fset page f x).lnkWin = s.lnkWin := rfl
@[simp] theorem State.fset_guestDie (s : State) (page : Nat) (f : Fld) (x : Nat) :
    (s.fset page f x).guestDie = s.guestDie := rfl
@[simp] theorem State.fset_dies (s : State) (page : Nat) (f : Fld) (x : Nat) : (s.fset page f x).dies = s.dies := rfl
@[simp] theorem State.fset_updFrame (s : State) (page : Nat) (f : Fld) (x : Nat) :
    (s.fset page f x).updFrame = s.updFrame := rfl
@[simp] theorem State.fset_trm (s : State) (page : Nat) (f : Fld) (x : Nat) : (s.fset page f x).trm = s.trm := rfl
@[simp] theorem State.fset_pwr (s : State) (page : Nat) (f : Fld) (x : Nat) : (s.fset page f x).pwr = s.pwr := rfl
@[simp] theorem State.fset_fuses (s : State) (page : Nat) (f : Fld) (x : Nat) : (s.fset page f x).fuses = s.fuses := rfl
@[simp] theorem State.fset_flash (s : State) (page : Nat) (f : Fld) (x : Nat) : (s.fset page f x).flash = s.flash := rfl
@[simp] theorem State.fset_dbg (s : State) (page : Nat) (f : Fld) (x : Nat) : (s.fset page f x).dbg = s.dbg := rfl
@[simp] theorem State.fset_flt (s : State) (page : Nat) (f : Fld) (x : Nat) : (s.fset page f x).flt = s.flt := rfl
@[simp] theorem State.fset_keys (s : State) (page : Nat) (f : Fld) (x : Nat) : (s.fset page f x).keys = s.keys := rfl
@[simp] theorem State.fset_lineKeys (s : State) (page : Nat) (f : Fld) (x : Nat) :
    (s.fset page f x).lineKeys = s.lineKeys := rfl
@[simp] theorem State.fset_msixTab (s : State) (page : Nat) (f : Fld) (x : Nat) :
    (s.fset page f x).msixTab = s.msixTab := rfl
@[simp] theorem State.fset_msixPend (s : State) (page : Nat) (f : Fld) (x : Nat) :
    (s.fset page f x).msixPend = s.msixPend := rfl

/-! ## emit -/

@[simp] theorem State.emit_pending (s : State) (e : OutEvent) : (s.emit e).pending = s.pending := rfl
@[simp] theorem State.emit_now (s : State) (e : OutEvent) : (s.emit e).now = s.now := rfl
@[simp] theorem State.emit_regs (s : State) (e : OutEvent) : (s.emit e).regs = s.regs := rfl
@[simp] theorem State.emit_mem (s : State) (e : OutEvent) : (s.emit e).mem = s.mem := rfl
@[simp] theorem State.emit_poison (s : State) (e : OutEvent) : (s.emit e).poison = s.poison := rfl
@[simp] theorem State.emit_draws (s : State) (e : OutEvent) : (s.emit e).draws = s.draws := rfl
@[simp] theorem State.emit_tbu (s : State) (e : OutEvent) : (s.emit e).tbu = s.tbu := rfl
@[simp] theorem State.emit_frm (s : State) (e : OutEvent) : (s.emit e).frm = s.frm := rfl
@[simp] theorem State.emit_queues (s : State) (e : OutEvent) : (s.emit e).queues = s.queues := rfl
@[simp] theorem State.emit_jobs (s : State) (e : OutEvent) : (s.emit e).jobs = s.jobs := rfl
@[simp] theorem State.emit_vbufs (s : State) (e : OutEvent) : (s.emit e).vbufs = s.vbufs := rfl
@[simp] theorem State.emit_ing (s : State) (e : OutEvent) : (s.emit e).ing = s.ing := rfl
@[simp] theorem State.emit_ethTx (s : State) (e : OutEvent) : (s.emit e).ethTx = s.ethTx := rfl
@[simp] theorem State.emit_aps (s : State) (e : OutEvent) : (s.emit e).aps = s.aps := rfl
@[simp] theorem State.emit_wicks (s : State) (e : OutEvent) : (s.emit e).wicks = s.wicks := rfl
@[simp] theorem State.emit_hUp0 (s : State) (e : OutEvent) : (s.emit e).hUp0 = s.hUp0 := rfl
@[simp] theorem State.emit_hUp1 (s : State) (e : OutEvent) : (s.emit e).hUp1 = s.hUp1 := rfl
@[simp] theorem State.emit_snA (s : State) (e : OutEvent) : (s.emit e).snA = s.snA := rfl
@[simp] theorem State.emit_snB (s : State) (e : OutEvent) : (s.emit e).snB = s.snB := rfl
@[simp] theorem State.emit_gate (s : State) (e : OutEvent) : (s.emit e).gate = s.gate := rfl
@[simp] theorem State.emit_powered (s : State) (e : OutEvent) : (s.emit e).powered = s.powered := rfl
@[simp] theorem State.emit_cfg (s : State) (e : OutEvent) : (s.emit e).cfg = s.cfg := rfl
@[simp] theorem State.emit_lmp (s : State) (e : OutEvent) : (s.emit e).lmp = s.lmp := rfl
@[simp] theorem State.emit_rgl (s : State) (e : OutEvent) : (s.emit e).rgl = s.rgl := rfl
@[simp] theorem State.emit_dmc (s : State) (e : OutEvent) : (s.emit e).dmc = s.dmc := rfl
@[simp] theorem State.emit_bonds (s : State) (e : OutEvent) : (s.emit e).bonds = s.bonds := rfl
@[simp] theorem State.emit_released (s : State) (e : OutEvent) : (s.emit e).released = s.released := rfl
@[simp] theorem State.emit_shToks (s : State) (e : OutEvent) : (s.emit e).shToks = s.shToks := rfl
@[simp] theorem State.emit_arrivals (s : State) (e : OutEvent) : (s.emit e).arrivals = s.arrivals := rfl
@[simp] theorem State.emit_cmbs (s : State) (e : OutEvent) : (s.emit e).cmbs = s.cmbs := rfl
@[simp] theorem State.emit_sconces (s : State) (e : OutEvent) : (s.emit e).sconces = s.sconces := rfl
@[simp] theorem State.emit_flog (s : State) (e : OutEvent) : (s.emit e).flog = s.flog := rfl
@[simp] theorem State.emit_ccu (s : State) (e : OutEvent) : (s.emit e).ccu = s.ccu := rfl
@[simp] theorem State.emit_cov (s : State) (e : OutEvent) : (s.emit e).cov = s.cov := rfl
@[simp] theorem State.emit_links (s : State) (e : OutEvent) : (s.emit e).links = s.links := rfl
@[simp] theorem State.emit_lnkWin (s : State) (e : OutEvent) : (s.emit e).lnkWin = s.lnkWin := rfl
@[simp] theorem State.emit_guestDie (s : State) (e : OutEvent) : (s.emit e).guestDie = s.guestDie := rfl
@[simp] theorem State.emit_dies (s : State) (e : OutEvent) : (s.emit e).dies = s.dies := rfl
@[simp] theorem State.emit_updFrame (s : State) (e : OutEvent) : (s.emit e).updFrame = s.updFrame := rfl
@[simp] theorem State.emit_trm (s : State) (e : OutEvent) : (s.emit e).trm = s.trm := rfl
@[simp] theorem State.emit_pwr (s : State) (e : OutEvent) : (s.emit e).pwr = s.pwr := rfl
@[simp] theorem State.emit_fuses (s : State) (e : OutEvent) : (s.emit e).fuses = s.fuses := rfl
@[simp] theorem State.emit_flash (s : State) (e : OutEvent) : (s.emit e).flash = s.flash := rfl
@[simp] theorem State.emit_dbg (s : State) (e : OutEvent) : (s.emit e).dbg = s.dbg := rfl
@[simp] theorem State.emit_flt (s : State) (e : OutEvent) : (s.emit e).flt = s.flt := rfl
@[simp] theorem State.emit_keys (s : State) (e : OutEvent) : (s.emit e).keys = s.keys := rfl
@[simp] theorem State.emit_lineKeys (s : State) (e : OutEvent) : (s.emit e).lineKeys = s.lineKeys := rfl
@[simp] theorem State.emit_msixTab (s : State) (e : OutEvent) : (s.emit e).msixTab = s.msixTab := rfl
@[simp] theorem State.emit_msixPend (s : State) (e : OutEvent) : (s.emit e).msixPend = s.msixPend := rfl

/-! ## draw -/

@[simp] theorem State.draw_pending (s : State) : (s.draw).pending = s.pending := rfl
@[simp] theorem State.draw_now (s : State) : (s.draw).now = s.now := rfl
@[simp] theorem State.draw_regs (s : State) : (s.draw).regs = s.regs := rfl
@[simp] theorem State.draw_mem (s : State) : (s.draw).mem = s.mem := rfl
@[simp] theorem State.draw_poison (s : State) : (s.draw).poison = s.poison := rfl
@[simp] theorem State.draw_out (s : State) : (s.draw).out = s.out := rfl
@[simp] theorem State.draw_tbu (s : State) : (s.draw).tbu = s.tbu := rfl
@[simp] theorem State.draw_frm (s : State) : (s.draw).frm = s.frm := rfl
@[simp] theorem State.draw_queues (s : State) : (s.draw).queues = s.queues := rfl
@[simp] theorem State.draw_jobs (s : State) : (s.draw).jobs = s.jobs := rfl
@[simp] theorem State.draw_vbufs (s : State) : (s.draw).vbufs = s.vbufs := rfl
@[simp] theorem State.draw_ing (s : State) : (s.draw).ing = s.ing := rfl
@[simp] theorem State.draw_ethTx (s : State) : (s.draw).ethTx = s.ethTx := rfl
@[simp] theorem State.draw_aps (s : State) : (s.draw).aps = s.aps := rfl
@[simp] theorem State.draw_wicks (s : State) : (s.draw).wicks = s.wicks := rfl
@[simp] theorem State.draw_hUp0 (s : State) : (s.draw).hUp0 = s.hUp0 := rfl
@[simp] theorem State.draw_hUp1 (s : State) : (s.draw).hUp1 = s.hUp1 := rfl
@[simp] theorem State.draw_snA (s : State) : (s.draw).snA = s.snA := rfl
@[simp] theorem State.draw_snB (s : State) : (s.draw).snB = s.snB := rfl
@[simp] theorem State.draw_gate (s : State) : (s.draw).gate = s.gate := rfl
@[simp] theorem State.draw_powered (s : State) : (s.draw).powered = s.powered := rfl
@[simp] theorem State.draw_cfg (s : State) : (s.draw).cfg = s.cfg := rfl
@[simp] theorem State.draw_lmp (s : State) : (s.draw).lmp = s.lmp := rfl
@[simp] theorem State.draw_rgl (s : State) : (s.draw).rgl = s.rgl := rfl
@[simp] theorem State.draw_dmc (s : State) : (s.draw).dmc = s.dmc := rfl
@[simp] theorem State.draw_bonds (s : State) : (s.draw).bonds = s.bonds := rfl
@[simp] theorem State.draw_released (s : State) : (s.draw).released = s.released := rfl
@[simp] theorem State.draw_shToks (s : State) : (s.draw).shToks = s.shToks := rfl
@[simp] theorem State.draw_arrivals (s : State) : (s.draw).arrivals = s.arrivals := rfl
@[simp] theorem State.draw_cmbs (s : State) : (s.draw).cmbs = s.cmbs := rfl
@[simp] theorem State.draw_sconces (s : State) : (s.draw).sconces = s.sconces := rfl
@[simp] theorem State.draw_flog (s : State) : (s.draw).flog = s.flog := rfl
@[simp] theorem State.draw_ccu (s : State) : (s.draw).ccu = s.ccu := rfl
@[simp] theorem State.draw_cov (s : State) : (s.draw).cov = s.cov := rfl
@[simp] theorem State.draw_links (s : State) : (s.draw).links = s.links := rfl
@[simp] theorem State.draw_lnkWin (s : State) : (s.draw).lnkWin = s.lnkWin := rfl
@[simp] theorem State.draw_guestDie (s : State) : (s.draw).guestDie = s.guestDie := rfl
@[simp] theorem State.draw_dies (s : State) : (s.draw).dies = s.dies := rfl
@[simp] theorem State.draw_updFrame (s : State) : (s.draw).updFrame = s.updFrame := rfl
@[simp] theorem State.draw_trm (s : State) : (s.draw).trm = s.trm := rfl
@[simp] theorem State.draw_pwr (s : State) : (s.draw).pwr = s.pwr := rfl
@[simp] theorem State.draw_fuses (s : State) : (s.draw).fuses = s.fuses := rfl
@[simp] theorem State.draw_flash (s : State) : (s.draw).flash = s.flash := rfl
@[simp] theorem State.draw_dbg (s : State) : (s.draw).dbg = s.dbg := rfl
@[simp] theorem State.draw_flt (s : State) : (s.draw).flt = s.flt := rfl
@[simp] theorem State.draw_keys (s : State) : (s.draw).keys = s.keys := rfl
@[simp] theorem State.draw_lineKeys (s : State) : (s.draw).lineKeys = s.lineKeys := rfl
@[simp] theorem State.draw_msixTab (s : State) : (s.draw).msixTab = s.msixTab := rfl
@[simp] theorem State.draw_msixPend (s : State) : (s.draw).msixPend = s.msixPend := rfl

/-! ## touch -/

@[simp] theorem State.touch_pending (s : State) : (s.touch).pending = s.pending := rfl
@[simp] theorem State.touch_now (s : State) : (s.touch).now = s.now := rfl
@[simp] theorem State.touch_regs (s : State) : (s.touch).regs = s.regs := rfl
@[simp] theorem State.touch_mem (s : State) : (s.touch).mem = s.mem := rfl
@[simp] theorem State.touch_poison (s : State) : (s.touch).poison = s.poison := rfl
@[simp] theorem State.touch_out (s : State) : (s.touch).out = s.out := rfl
@[simp] theorem State.touch_draws (s : State) : (s.touch).draws = s.draws := rfl
@[simp] theorem State.touch_tbu (s : State) : (s.touch).tbu = s.tbu := rfl
@[simp] theorem State.touch_frm (s : State) : (s.touch).frm = s.frm := rfl
@[simp] theorem State.touch_queues (s : State) : (s.touch).queues = s.queues := rfl
@[simp] theorem State.touch_jobs (s : State) : (s.touch).jobs = s.jobs := rfl
@[simp] theorem State.touch_vbufs (s : State) : (s.touch).vbufs = s.vbufs := rfl
@[simp] theorem State.touch_ing (s : State) : (s.touch).ing = s.ing := rfl
@[simp] theorem State.touch_ethTx (s : State) : (s.touch).ethTx = s.ethTx := rfl
@[simp] theorem State.touch_aps (s : State) : (s.touch).aps = s.aps := rfl
@[simp] theorem State.touch_wicks (s : State) : (s.touch).wicks = s.wicks := rfl
@[simp] theorem State.touch_hUp0 (s : State) : (s.touch).hUp0 = s.hUp0 := rfl
@[simp] theorem State.touch_hUp1 (s : State) : (s.touch).hUp1 = s.hUp1 := rfl
@[simp] theorem State.touch_snA (s : State) : (s.touch).snA = s.snA := rfl
@[simp] theorem State.touch_snB (s : State) : (s.touch).snB = s.snB := rfl
@[simp] theorem State.touch_gate (s : State) : (s.touch).gate = s.gate := rfl
@[simp] theorem State.touch_powered (s : State) : (s.touch).powered = s.powered := rfl
@[simp] theorem State.touch_cfg (s : State) : (s.touch).cfg = s.cfg := rfl
@[simp] theorem State.touch_lmp (s : State) : (s.touch).lmp = s.lmp := rfl
@[simp] theorem State.touch_rgl (s : State) : (s.touch).rgl = s.rgl := rfl
@[simp] theorem State.touch_dmc (s : State) : (s.touch).dmc = s.dmc := rfl
@[simp] theorem State.touch_bonds (s : State) : (s.touch).bonds = s.bonds := rfl
@[simp] theorem State.touch_released (s : State) : (s.touch).released = s.released := rfl
@[simp] theorem State.touch_shToks (s : State) : (s.touch).shToks = s.shToks := rfl
@[simp] theorem State.touch_arrivals (s : State) : (s.touch).arrivals = s.arrivals := rfl
@[simp] theorem State.touch_cmbs (s : State) : (s.touch).cmbs = s.cmbs := rfl
@[simp] theorem State.touch_sconces (s : State) : (s.touch).sconces = s.sconces := rfl
@[simp] theorem State.touch_flog (s : State) : (s.touch).flog = s.flog := rfl
@[simp] theorem State.touch_ccu (s : State) : (s.touch).ccu = s.ccu := rfl
@[simp] theorem State.touch_cov (s : State) : (s.touch).cov = s.cov := rfl
@[simp] theorem State.touch_links (s : State) : (s.touch).links = s.links := rfl
@[simp] theorem State.touch_lnkWin (s : State) : (s.touch).lnkWin = s.lnkWin := rfl
@[simp] theorem State.touch_guestDie (s : State) : (s.touch).guestDie = s.guestDie := rfl
@[simp] theorem State.touch_dies (s : State) : (s.touch).dies = s.dies := rfl
@[simp] theorem State.touch_updFrame (s : State) : (s.touch).updFrame = s.updFrame := rfl
@[simp] theorem State.touch_trm (s : State) : (s.touch).trm = s.trm := rfl
@[simp] theorem State.touch_fuses (s : State) : (s.touch).fuses = s.fuses := rfl
@[simp] theorem State.touch_flash (s : State) : (s.touch).flash = s.flash := rfl
@[simp] theorem State.touch_dbg (s : State) : (s.touch).dbg = s.dbg := rfl
@[simp] theorem State.touch_flt (s : State) : (s.touch).flt = s.flt := rfl
@[simp] theorem State.touch_keys (s : State) : (s.touch).keys = s.keys := rfl
@[simp] theorem State.touch_lineKeys (s : State) : (s.touch).lineKeys = s.lineKeys := rfl
@[simp] theorem State.touch_msixTab (s : State) : (s.touch).msixTab = s.msixTab := rfl
@[simp] theorem State.touch_msixPend (s : State) : (s.touch).msixPend = s.msixPend := rfl

/-! ## setWick -/

@[simp] theorem State.setWick_pending (s : State) (w : Nat) (x : Wick) : (s.setWick w x).pending = s.pending := rfl
@[simp] theorem State.setWick_now (s : State) (w : Nat) (x : Wick) : (s.setWick w x).now = s.now := rfl
@[simp] theorem State.setWick_regs (s : State) (w : Nat) (x : Wick) : (s.setWick w x).regs = s.regs := rfl
@[simp] theorem State.setWick_mem (s : State) (w : Nat) (x : Wick) : (s.setWick w x).mem = s.mem := rfl
@[simp] theorem State.setWick_poison (s : State) (w : Nat) (x : Wick) : (s.setWick w x).poison = s.poison := rfl
@[simp] theorem State.setWick_out (s : State) (w : Nat) (x : Wick) : (s.setWick w x).out = s.out := rfl
@[simp] theorem State.setWick_draws (s : State) (w : Nat) (x : Wick) : (s.setWick w x).draws = s.draws := rfl
@[simp] theorem State.setWick_tbu (s : State) (w : Nat) (x : Wick) : (s.setWick w x).tbu = s.tbu := rfl
@[simp] theorem State.setWick_frm (s : State) (w : Nat) (x : Wick) : (s.setWick w x).frm = s.frm := rfl
@[simp] theorem State.setWick_queues (s : State) (w : Nat) (x : Wick) : (s.setWick w x).queues = s.queues := rfl
@[simp] theorem State.setWick_jobs (s : State) (w : Nat) (x : Wick) : (s.setWick w x).jobs = s.jobs := rfl
@[simp] theorem State.setWick_vbufs (s : State) (w : Nat) (x : Wick) : (s.setWick w x).vbufs = s.vbufs := rfl
@[simp] theorem State.setWick_ing (s : State) (w : Nat) (x : Wick) : (s.setWick w x).ing = s.ing := rfl
@[simp] theorem State.setWick_ethTx (s : State) (w : Nat) (x : Wick) : (s.setWick w x).ethTx = s.ethTx := rfl
@[simp] theorem State.setWick_aps (s : State) (w : Nat) (x : Wick) : (s.setWick w x).aps = s.aps := rfl
@[simp] theorem State.setWick_hUp0 (s : State) (w : Nat) (x : Wick) : (s.setWick w x).hUp0 = s.hUp0 := rfl
@[simp] theorem State.setWick_hUp1 (s : State) (w : Nat) (x : Wick) : (s.setWick w x).hUp1 = s.hUp1 := rfl
@[simp] theorem State.setWick_snA (s : State) (w : Nat) (x : Wick) : (s.setWick w x).snA = s.snA := rfl
@[simp] theorem State.setWick_snB (s : State) (w : Nat) (x : Wick) : (s.setWick w x).snB = s.snB := rfl
@[simp] theorem State.setWick_gate (s : State) (w : Nat) (x : Wick) : (s.setWick w x).gate = s.gate := rfl
@[simp] theorem State.setWick_powered (s : State) (w : Nat) (x : Wick) : (s.setWick w x).powered = s.powered := rfl
@[simp] theorem State.setWick_cfg (s : State) (w : Nat) (x : Wick) : (s.setWick w x).cfg = s.cfg := rfl
@[simp] theorem State.setWick_lmp (s : State) (w : Nat) (x : Wick) : (s.setWick w x).lmp = s.lmp := rfl
@[simp] theorem State.setWick_rgl (s : State) (w : Nat) (x : Wick) : (s.setWick w x).rgl = s.rgl := rfl
@[simp] theorem State.setWick_dmc (s : State) (w : Nat) (x : Wick) : (s.setWick w x).dmc = s.dmc := rfl
@[simp] theorem State.setWick_bonds (s : State) (w : Nat) (x : Wick) : (s.setWick w x).bonds = s.bonds := rfl
@[simp] theorem State.setWick_released (s : State) (w : Nat) (x : Wick) : (s.setWick w x).released = s.released := rfl
@[simp] theorem State.setWick_shToks (s : State) (w : Nat) (x : Wick) : (s.setWick w x).shToks = s.shToks := rfl
@[simp] theorem State.setWick_arrivals (s : State) (w : Nat) (x : Wick) : (s.setWick w x).arrivals = s.arrivals := rfl
@[simp] theorem State.setWick_cmbs (s : State) (w : Nat) (x : Wick) : (s.setWick w x).cmbs = s.cmbs := rfl
@[simp] theorem State.setWick_sconces (s : State) (w : Nat) (x : Wick) : (s.setWick w x).sconces = s.sconces := rfl
@[simp] theorem State.setWick_flog (s : State) (w : Nat) (x : Wick) : (s.setWick w x).flog = s.flog := rfl
@[simp] theorem State.setWick_ccu (s : State) (w : Nat) (x : Wick) : (s.setWick w x).ccu = s.ccu := rfl
@[simp] theorem State.setWick_cov (s : State) (w : Nat) (x : Wick) : (s.setWick w x).cov = s.cov := rfl
@[simp] theorem State.setWick_links (s : State) (w : Nat) (x : Wick) : (s.setWick w x).links = s.links := rfl
@[simp] theorem State.setWick_lnkWin (s : State) (w : Nat) (x : Wick) : (s.setWick w x).lnkWin = s.lnkWin := rfl
@[simp] theorem State.setWick_guestDie (s : State) (w : Nat) (x : Wick) : (s.setWick w x).guestDie = s.guestDie := rfl
@[simp] theorem State.setWick_dies (s : State) (w : Nat) (x : Wick) : (s.setWick w x).dies = s.dies := rfl
@[simp] theorem State.setWick_updFrame (s : State) (w : Nat) (x : Wick) : (s.setWick w x).updFrame = s.updFrame := rfl
@[simp] theorem State.setWick_trm (s : State) (w : Nat) (x : Wick) : (s.setWick w x).trm = s.trm := rfl
@[simp] theorem State.setWick_pwr (s : State) (w : Nat) (x : Wick) : (s.setWick w x).pwr = s.pwr := rfl
@[simp] theorem State.setWick_fuses (s : State) (w : Nat) (x : Wick) : (s.setWick w x).fuses = s.fuses := rfl
@[simp] theorem State.setWick_flash (s : State) (w : Nat) (x : Wick) : (s.setWick w x).flash = s.flash := rfl
@[simp] theorem State.setWick_dbg (s : State) (w : Nat) (x : Wick) : (s.setWick w x).dbg = s.dbg := rfl
@[simp] theorem State.setWick_flt (s : State) (w : Nat) (x : Wick) : (s.setWick w x).flt = s.flt := rfl
@[simp] theorem State.setWick_keys (s : State) (w : Nat) (x : Wick) : (s.setWick w x).keys = s.keys := rfl
@[simp] theorem State.setWick_lineKeys (s : State) (w : Nat) (x : Wick) : (s.setWick w x).lineKeys = s.lineKeys := rfl
@[simp] theorem State.setWick_msixTab (s : State) (w : Nat) (x : Wick) : (s.setWick w x).msixTab = s.msixTab := rfl
@[simp] theorem State.setWick_msixPend (s : State) (w : Nat) (x : Wick) : (s.setWick w x).msixPend = s.msixPend := rfl

/-! ## msix -/

@[simp] theorem State.msix_pending (s : State) (port part vec : Nat) : (s.msix port part vec).pending = s.pending := by
  obtain ⟨_, _, h⟩ := s.msix_shape port part vec; rw [h]
@[simp] theorem State.msix_now (s : State) (port part vec : Nat) : (s.msix port part vec).now = s.now := by
  obtain ⟨_, _, h⟩ := s.msix_shape port part vec; rw [h]
@[simp] theorem State.msix_regs (s : State) (port part vec : Nat) : (s.msix port part vec).regs = s.regs := by
  obtain ⟨_, _, h⟩ := s.msix_shape port part vec; rw [h]
@[simp] theorem State.msix_mem (s : State) (port part vec : Nat) : (s.msix port part vec).mem = s.mem := by
  obtain ⟨_, _, h⟩ := s.msix_shape port part vec; rw [h]
@[simp] theorem State.msix_poison (s : State) (port part vec : Nat) : (s.msix port part vec).poison = s.poison := by
  obtain ⟨_, _, h⟩ := s.msix_shape port part vec; rw [h]
@[simp] theorem State.msix_draws (s : State) (port part vec : Nat) : (s.msix port part vec).draws = s.draws := by
  obtain ⟨_, _, h⟩ := s.msix_shape port part vec; rw [h]
@[simp] theorem State.msix_tbu (s : State) (port part vec : Nat) : (s.msix port part vec).tbu = s.tbu := by
  obtain ⟨_, _, h⟩ := s.msix_shape port part vec; rw [h]
@[simp] theorem State.msix_frm (s : State) (port part vec : Nat) : (s.msix port part vec).frm = s.frm := by
  obtain ⟨_, _, h⟩ := s.msix_shape port part vec; rw [h]
@[simp] theorem State.msix_queues (s : State) (port part vec : Nat) : (s.msix port part vec).queues = s.queues := by
  obtain ⟨_, _, h⟩ := s.msix_shape port part vec; rw [h]
@[simp] theorem State.msix_jobs (s : State) (port part vec : Nat) : (s.msix port part vec).jobs = s.jobs := by
  obtain ⟨_, _, h⟩ := s.msix_shape port part vec; rw [h]
@[simp] theorem State.msix_vbufs (s : State) (port part vec : Nat) : (s.msix port part vec).vbufs = s.vbufs := by
  obtain ⟨_, _, h⟩ := s.msix_shape port part vec; rw [h]
@[simp] theorem State.msix_ing (s : State) (port part vec : Nat) : (s.msix port part vec).ing = s.ing := by
  obtain ⟨_, _, h⟩ := s.msix_shape port part vec; rw [h]
@[simp] theorem State.msix_ethTx (s : State) (port part vec : Nat) : (s.msix port part vec).ethTx = s.ethTx := by
  obtain ⟨_, _, h⟩ := s.msix_shape port part vec; rw [h]
@[simp] theorem State.msix_aps (s : State) (port part vec : Nat) : (s.msix port part vec).aps = s.aps := by
  obtain ⟨_, _, h⟩ := s.msix_shape port part vec; rw [h]
@[simp] theorem State.msix_wicks (s : State) (port part vec : Nat) : (s.msix port part vec).wicks = s.wicks := by
  obtain ⟨_, _, h⟩ := s.msix_shape port part vec; rw [h]
@[simp] theorem State.msix_hUp0 (s : State) (port part vec : Nat) : (s.msix port part vec).hUp0 = s.hUp0 := by
  obtain ⟨_, _, h⟩ := s.msix_shape port part vec; rw [h]
@[simp] theorem State.msix_hUp1 (s : State) (port part vec : Nat) : (s.msix port part vec).hUp1 = s.hUp1 := by
  obtain ⟨_, _, h⟩ := s.msix_shape port part vec; rw [h]
@[simp] theorem State.msix_snA (s : State) (port part vec : Nat) : (s.msix port part vec).snA = s.snA := by
  obtain ⟨_, _, h⟩ := s.msix_shape port part vec; rw [h]
@[simp] theorem State.msix_snB (s : State) (port part vec : Nat) : (s.msix port part vec).snB = s.snB := by
  obtain ⟨_, _, h⟩ := s.msix_shape port part vec; rw [h]
@[simp] theorem State.msix_gate (s : State) (port part vec : Nat) : (s.msix port part vec).gate = s.gate := by
  obtain ⟨_, _, h⟩ := s.msix_shape port part vec; rw [h]
@[simp] theorem State.msix_powered (s : State) (port part vec : Nat) : (s.msix port part vec).powered = s.powered := by
  obtain ⟨_, _, h⟩ := s.msix_shape port part vec; rw [h]
@[simp] theorem State.msix_cfg (s : State) (port part vec : Nat) : (s.msix port part vec).cfg = s.cfg := by
  obtain ⟨_, _, h⟩ := s.msix_shape port part vec; rw [h]
@[simp] theorem State.msix_lmp (s : State) (port part vec : Nat) : (s.msix port part vec).lmp = s.lmp := by
  obtain ⟨_, _, h⟩ := s.msix_shape port part vec; rw [h]
@[simp] theorem State.msix_rgl (s : State) (port part vec : Nat) : (s.msix port part vec).rgl = s.rgl := by
  obtain ⟨_, _, h⟩ := s.msix_shape port part vec; rw [h]
@[simp] theorem State.msix_dmc (s : State) (port part vec : Nat) : (s.msix port part vec).dmc = s.dmc := by
  obtain ⟨_, _, h⟩ := s.msix_shape port part vec; rw [h]
@[simp] theorem State.msix_bonds (s : State) (port part vec : Nat) : (s.msix port part vec).bonds = s.bonds := by
  obtain ⟨_, _, h⟩ := s.msix_shape port part vec; rw [h]
@[simp] theorem State.msix_released (s : State) (port part vec : Nat) : (s.msix port part vec).released = s.released := by
  obtain ⟨_, _, h⟩ := s.msix_shape port part vec; rw [h]
@[simp] theorem State.msix_shToks (s : State) (port part vec : Nat) : (s.msix port part vec).shToks = s.shToks := by
  obtain ⟨_, _, h⟩ := s.msix_shape port part vec; rw [h]
@[simp] theorem State.msix_arrivals (s : State) (port part vec : Nat) : (s.msix port part vec).arrivals = s.arrivals := by
  obtain ⟨_, _, h⟩ := s.msix_shape port part vec; rw [h]
@[simp] theorem State.msix_cmbs (s : State) (port part vec : Nat) : (s.msix port part vec).cmbs = s.cmbs := by
  obtain ⟨_, _, h⟩ := s.msix_shape port part vec; rw [h]
@[simp] theorem State.msix_sconces (s : State) (port part vec : Nat) : (s.msix port part vec).sconces = s.sconces := by
  obtain ⟨_, _, h⟩ := s.msix_shape port part vec; rw [h]
@[simp] theorem State.msix_flog (s : State) (port part vec : Nat) : (s.msix port part vec).flog = s.flog := by
  obtain ⟨_, _, h⟩ := s.msix_shape port part vec; rw [h]
@[simp] theorem State.msix_ccu (s : State) (port part vec : Nat) : (s.msix port part vec).ccu = s.ccu := by
  obtain ⟨_, _, h⟩ := s.msix_shape port part vec; rw [h]
@[simp] theorem State.msix_cov (s : State) (port part vec : Nat) : (s.msix port part vec).cov = s.cov := by
  obtain ⟨_, _, h⟩ := s.msix_shape port part vec; rw [h]
@[simp] theorem State.msix_links (s : State) (port part vec : Nat) : (s.msix port part vec).links = s.links := by
  obtain ⟨_, _, h⟩ := s.msix_shape port part vec; rw [h]
@[simp] theorem State.msix_lnkWin (s : State) (port part vec : Nat) : (s.msix port part vec).lnkWin = s.lnkWin := by
  obtain ⟨_, _, h⟩ := s.msix_shape port part vec; rw [h]
@[simp] theorem State.msix_guestDie (s : State) (port part vec : Nat) : (s.msix port part vec).guestDie = s.guestDie := by
  obtain ⟨_, _, h⟩ := s.msix_shape port part vec; rw [h]
@[simp] theorem State.msix_dies (s : State) (port part vec : Nat) : (s.msix port part vec).dies = s.dies := by
  obtain ⟨_, _, h⟩ := s.msix_shape port part vec; rw [h]
@[simp] theorem State.msix_updFrame (s : State) (port part vec : Nat) : (s.msix port part vec).updFrame = s.updFrame := by
  obtain ⟨_, _, h⟩ := s.msix_shape port part vec; rw [h]
@[simp] theorem State.msix_trm (s : State) (port part vec : Nat) : (s.msix port part vec).trm = s.trm := by
  obtain ⟨_, _, h⟩ := s.msix_shape port part vec; rw [h]
@[simp] theorem State.msix_pwr (s : State) (port part vec : Nat) : (s.msix port part vec).pwr = s.pwr := by
  obtain ⟨_, _, h⟩ := s.msix_shape port part vec; rw [h]
@[simp] theorem State.msix_fuses (s : State) (port part vec : Nat) : (s.msix port part vec).fuses = s.fuses := by
  obtain ⟨_, _, h⟩ := s.msix_shape port part vec; rw [h]
@[simp] theorem State.msix_flash (s : State) (port part vec : Nat) : (s.msix port part vec).flash = s.flash := by
  obtain ⟨_, _, h⟩ := s.msix_shape port part vec; rw [h]
@[simp] theorem State.msix_dbg (s : State) (port part vec : Nat) : (s.msix port part vec).dbg = s.dbg := by
  obtain ⟨_, _, h⟩ := s.msix_shape port part vec; rw [h]
@[simp] theorem State.msix_flt (s : State) (port part vec : Nat) : (s.msix port part vec).flt = s.flt := by
  obtain ⟨_, _, h⟩ := s.msix_shape port part vec; rw [h]
@[simp] theorem State.msix_keys (s : State) (port part vec : Nat) : (s.msix port part vec).keys = s.keys := by
  obtain ⟨_, _, h⟩ := s.msix_shape port part vec; rw [h]
@[simp] theorem State.msix_lineKeys (s : State) (port part vec : Nat) : (s.msix port part vec).lineKeys = s.lineKeys := by
  obtain ⟨_, _, h⟩ := s.msix_shape port part vec; rw [h]
@[simp] theorem State.msix_msixTab (s : State) (port part vec : Nat) : (s.msix port part vec).msixTab = s.msixTab := by
  obtain ⟨_, _, h⟩ := s.msix_shape port part vec; rw [h]

/-! ## event -/

@[simp] theorem State.event_pending (s : State) (page : Nat) : (s.event page).pending = s.pending := by
  obtain ⟨_, _, _, h⟩ := s.event_shape page; rw [h]
@[simp] theorem State.event_now (s : State) (page : Nat) : (s.event page).now = s.now := by
  obtain ⟨_, _, _, h⟩ := s.event_shape page; rw [h]
@[simp] theorem State.event_mem (s : State) (page : Nat) : (s.event page).mem = s.mem := by
  obtain ⟨_, _, _, h⟩ := s.event_shape page; rw [h]
@[simp] theorem State.event_poison (s : State) (page : Nat) : (s.event page).poison = s.poison := by
  obtain ⟨_, _, _, h⟩ := s.event_shape page; rw [h]
@[simp] theorem State.event_draws (s : State) (page : Nat) : (s.event page).draws = s.draws := by
  obtain ⟨_, _, _, h⟩ := s.event_shape page; rw [h]
@[simp] theorem State.event_tbu (s : State) (page : Nat) : (s.event page).tbu = s.tbu := by
  obtain ⟨_, _, _, h⟩ := s.event_shape page; rw [h]
@[simp] theorem State.event_frm (s : State) (page : Nat) : (s.event page).frm = s.frm := by
  obtain ⟨_, _, _, h⟩ := s.event_shape page; rw [h]
@[simp] theorem State.event_queues (s : State) (page : Nat) : (s.event page).queues = s.queues := by
  obtain ⟨_, _, _, h⟩ := s.event_shape page; rw [h]
@[simp] theorem State.event_jobs (s : State) (page : Nat) : (s.event page).jobs = s.jobs := by
  obtain ⟨_, _, _, h⟩ := s.event_shape page; rw [h]
@[simp] theorem State.event_vbufs (s : State) (page : Nat) : (s.event page).vbufs = s.vbufs := by
  obtain ⟨_, _, _, h⟩ := s.event_shape page; rw [h]
@[simp] theorem State.event_ing (s : State) (page : Nat) : (s.event page).ing = s.ing := by
  obtain ⟨_, _, _, h⟩ := s.event_shape page; rw [h]
@[simp] theorem State.event_ethTx (s : State) (page : Nat) : (s.event page).ethTx = s.ethTx := by
  obtain ⟨_, _, _, h⟩ := s.event_shape page; rw [h]
@[simp] theorem State.event_aps (s : State) (page : Nat) : (s.event page).aps = s.aps := by
  obtain ⟨_, _, _, h⟩ := s.event_shape page; rw [h]
@[simp] theorem State.event_wicks (s : State) (page : Nat) : (s.event page).wicks = s.wicks := by
  obtain ⟨_, _, _, h⟩ := s.event_shape page; rw [h]
@[simp] theorem State.event_hUp0 (s : State) (page : Nat) : (s.event page).hUp0 = s.hUp0 := by
  obtain ⟨_, _, _, h⟩ := s.event_shape page; rw [h]
@[simp] theorem State.event_hUp1 (s : State) (page : Nat) : (s.event page).hUp1 = s.hUp1 := by
  obtain ⟨_, _, _, h⟩ := s.event_shape page; rw [h]
@[simp] theorem State.event_snA (s : State) (page : Nat) : (s.event page).snA = s.snA := by
  obtain ⟨_, _, _, h⟩ := s.event_shape page; rw [h]
@[simp] theorem State.event_snB (s : State) (page : Nat) : (s.event page).snB = s.snB := by
  obtain ⟨_, _, _, h⟩ := s.event_shape page; rw [h]
@[simp] theorem State.event_gate (s : State) (page : Nat) : (s.event page).gate = s.gate := by
  obtain ⟨_, _, _, h⟩ := s.event_shape page; rw [h]
@[simp] theorem State.event_powered (s : State) (page : Nat) : (s.event page).powered = s.powered := by
  obtain ⟨_, _, _, h⟩ := s.event_shape page; rw [h]
@[simp] theorem State.event_cfg (s : State) (page : Nat) : (s.event page).cfg = s.cfg := by
  obtain ⟨_, _, _, h⟩ := s.event_shape page; rw [h]
@[simp] theorem State.event_lmp (s : State) (page : Nat) : (s.event page).lmp = s.lmp := by
  obtain ⟨_, _, _, h⟩ := s.event_shape page; rw [h]
@[simp] theorem State.event_rgl (s : State) (page : Nat) : (s.event page).rgl = s.rgl := by
  obtain ⟨_, _, _, h⟩ := s.event_shape page; rw [h]
@[simp] theorem State.event_dmc (s : State) (page : Nat) : (s.event page).dmc = s.dmc := by
  obtain ⟨_, _, _, h⟩ := s.event_shape page; rw [h]
@[simp] theorem State.event_bonds (s : State) (page : Nat) : (s.event page).bonds = s.bonds := by
  obtain ⟨_, _, _, h⟩ := s.event_shape page; rw [h]
@[simp] theorem State.event_released (s : State) (page : Nat) : (s.event page).released = s.released := by
  obtain ⟨_, _, _, h⟩ := s.event_shape page; rw [h]
@[simp] theorem State.event_shToks (s : State) (page : Nat) : (s.event page).shToks = s.shToks := by
  obtain ⟨_, _, _, h⟩ := s.event_shape page; rw [h]
@[simp] theorem State.event_arrivals (s : State) (page : Nat) : (s.event page).arrivals = s.arrivals := by
  obtain ⟨_, _, _, h⟩ := s.event_shape page; rw [h]
@[simp] theorem State.event_cmbs (s : State) (page : Nat) : (s.event page).cmbs = s.cmbs := by
  obtain ⟨_, _, _, h⟩ := s.event_shape page; rw [h]
@[simp] theorem State.event_sconces (s : State) (page : Nat) : (s.event page).sconces = s.sconces := by
  obtain ⟨_, _, _, h⟩ := s.event_shape page; rw [h]
@[simp] theorem State.event_flog (s : State) (page : Nat) : (s.event page).flog = s.flog := by
  obtain ⟨_, _, _, h⟩ := s.event_shape page; rw [h]
@[simp] theorem State.event_ccu (s : State) (page : Nat) : (s.event page).ccu = s.ccu := by
  obtain ⟨_, _, _, h⟩ := s.event_shape page; rw [h]
@[simp] theorem State.event_cov (s : State) (page : Nat) : (s.event page).cov = s.cov := by
  obtain ⟨_, _, _, h⟩ := s.event_shape page; rw [h]
@[simp] theorem State.event_links (s : State) (page : Nat) : (s.event page).links = s.links := by
  obtain ⟨_, _, _, h⟩ := s.event_shape page; rw [h]
@[simp] theorem State.event_lnkWin (s : State) (page : Nat) : (s.event page).lnkWin = s.lnkWin := by
  obtain ⟨_, _, _, h⟩ := s.event_shape page; rw [h]
@[simp] theorem State.event_guestDie (s : State) (page : Nat) : (s.event page).guestDie = s.guestDie := by
  obtain ⟨_, _, _, h⟩ := s.event_shape page; rw [h]
@[simp] theorem State.event_dies (s : State) (page : Nat) : (s.event page).dies = s.dies := by
  obtain ⟨_, _, _, h⟩ := s.event_shape page; rw [h]
@[simp] theorem State.event_updFrame (s : State) (page : Nat) : (s.event page).updFrame = s.updFrame := by
  obtain ⟨_, _, _, h⟩ := s.event_shape page; rw [h]
@[simp] theorem State.event_trm (s : State) (page : Nat) : (s.event page).trm = s.trm := by
  obtain ⟨_, _, _, h⟩ := s.event_shape page; rw [h]
@[simp] theorem State.event_pwr (s : State) (page : Nat) : (s.event page).pwr = s.pwr := by
  obtain ⟨_, _, _, h⟩ := s.event_shape page; rw [h]
@[simp] theorem State.event_fuses (s : State) (page : Nat) : (s.event page).fuses = s.fuses := by
  obtain ⟨_, _, _, h⟩ := s.event_shape page; rw [h]
@[simp] theorem State.event_flash (s : State) (page : Nat) : (s.event page).flash = s.flash := by
  obtain ⟨_, _, _, h⟩ := s.event_shape page; rw [h]
@[simp] theorem State.event_dbg (s : State) (page : Nat) : (s.event page).dbg = s.dbg := by
  obtain ⟨_, _, _, h⟩ := s.event_shape page; rw [h]
@[simp] theorem State.event_flt (s : State) (page : Nat) : (s.event page).flt = s.flt := by
  obtain ⟨_, _, _, h⟩ := s.event_shape page; rw [h]
@[simp] theorem State.event_keys (s : State) (page : Nat) : (s.event page).keys = s.keys := by
  obtain ⟨_, _, _, h⟩ := s.event_shape page; rw [h]
@[simp] theorem State.event_lineKeys (s : State) (page : Nat) : (s.event page).lineKeys = s.lineKeys := by
  obtain ⟨_, _, _, h⟩ := s.event_shape page; rw [h]
@[simp] theorem State.event_msixTab (s : State) (page : Nat) : (s.event page).msixTab = s.msixTab := by
  obtain ⟨_, _, _, h⟩ := s.event_shape page; rw [h]

/-! ## capture -/

@[simp] theorem State.capture_pending (s : State) (page : Nat) (e : Err) (addr : Nat) :
    (s.capture page e addr).pending = s.pending := by
  obtain ⟨_, _, _, h⟩ := s.capture_shape page e addr; rw [h]
@[simp] theorem State.capture_now (s : State) (page : Nat) (e : Err) (addr : Nat) : (s.capture page e addr).now = s.now := by
  obtain ⟨_, _, _, h⟩ := s.capture_shape page e addr; rw [h]
@[simp] theorem State.capture_mem (s : State) (page : Nat) (e : Err) (addr : Nat) : (s.capture page e addr).mem = s.mem := by
  obtain ⟨_, _, _, h⟩ := s.capture_shape page e addr; rw [h]
@[simp] theorem State.capture_poison (s : State) (page : Nat) (e : Err) (addr : Nat) :
    (s.capture page e addr).poison = s.poison := by
  obtain ⟨_, _, _, h⟩ := s.capture_shape page e addr; rw [h]
@[simp] theorem State.capture_draws (s : State) (page : Nat) (e : Err) (addr : Nat) :
    (s.capture page e addr).draws = s.draws := by
  obtain ⟨_, _, _, h⟩ := s.capture_shape page e addr; rw [h]
@[simp] theorem State.capture_tbu (s : State) (page : Nat) (e : Err) (addr : Nat) : (s.capture page e addr).tbu = s.tbu := by
  obtain ⟨_, _, _, h⟩ := s.capture_shape page e addr; rw [h]
@[simp] theorem State.capture_frm (s : State) (page : Nat) (e : Err) (addr : Nat) : (s.capture page e addr).frm = s.frm := by
  obtain ⟨_, _, _, h⟩ := s.capture_shape page e addr; rw [h]
@[simp] theorem State.capture_queues (s : State) (page : Nat) (e : Err) (addr : Nat) :
    (s.capture page e addr).queues = s.queues := by
  obtain ⟨_, _, _, h⟩ := s.capture_shape page e addr; rw [h]
@[simp] theorem State.capture_jobs (s : State) (page : Nat) (e : Err) (addr : Nat) :
    (s.capture page e addr).jobs = s.jobs := by
  obtain ⟨_, _, _, h⟩ := s.capture_shape page e addr; rw [h]
@[simp] theorem State.capture_vbufs (s : State) (page : Nat) (e : Err) (addr : Nat) :
    (s.capture page e addr).vbufs = s.vbufs := by
  obtain ⟨_, _, _, h⟩ := s.capture_shape page e addr; rw [h]
@[simp] theorem State.capture_ing (s : State) (page : Nat) (e : Err) (addr : Nat) : (s.capture page e addr).ing = s.ing := by
  obtain ⟨_, _, _, h⟩ := s.capture_shape page e addr; rw [h]
@[simp] theorem State.capture_ethTx (s : State) (page : Nat) (e : Err) (addr : Nat) :
    (s.capture page e addr).ethTx = s.ethTx := by
  obtain ⟨_, _, _, h⟩ := s.capture_shape page e addr; rw [h]
@[simp] theorem State.capture_aps (s : State) (page : Nat) (e : Err) (addr : Nat) : (s.capture page e addr).aps = s.aps := by
  obtain ⟨_, _, _, h⟩ := s.capture_shape page e addr; rw [h]
@[simp] theorem State.capture_wicks (s : State) (page : Nat) (e : Err) (addr : Nat) :
    (s.capture page e addr).wicks = s.wicks := by
  obtain ⟨_, _, _, h⟩ := s.capture_shape page e addr; rw [h]
@[simp] theorem State.capture_hUp0 (s : State) (page : Nat) (e : Err) (addr : Nat) :
    (s.capture page e addr).hUp0 = s.hUp0 := by
  obtain ⟨_, _, _, h⟩ := s.capture_shape page e addr; rw [h]
@[simp] theorem State.capture_hUp1 (s : State) (page : Nat) (e : Err) (addr : Nat) :
    (s.capture page e addr).hUp1 = s.hUp1 := by
  obtain ⟨_, _, _, h⟩ := s.capture_shape page e addr; rw [h]
@[simp] theorem State.capture_snA (s : State) (page : Nat) (e : Err) (addr : Nat) : (s.capture page e addr).snA = s.snA := by
  obtain ⟨_, _, _, h⟩ := s.capture_shape page e addr; rw [h]
@[simp] theorem State.capture_snB (s : State) (page : Nat) (e : Err) (addr : Nat) : (s.capture page e addr).snB = s.snB := by
  obtain ⟨_, _, _, h⟩ := s.capture_shape page e addr; rw [h]
@[simp] theorem State.capture_gate (s : State) (page : Nat) (e : Err) (addr : Nat) :
    (s.capture page e addr).gate = s.gate := by
  obtain ⟨_, _, _, h⟩ := s.capture_shape page e addr; rw [h]
@[simp] theorem State.capture_powered (s : State) (page : Nat) (e : Err) (addr : Nat) :
    (s.capture page e addr).powered = s.powered := by
  obtain ⟨_, _, _, h⟩ := s.capture_shape page e addr; rw [h]
@[simp] theorem State.capture_cfg (s : State) (page : Nat) (e : Err) (addr : Nat) : (s.capture page e addr).cfg = s.cfg := by
  obtain ⟨_, _, _, h⟩ := s.capture_shape page e addr; rw [h]
@[simp] theorem State.capture_lmp (s : State) (page : Nat) (e : Err) (addr : Nat) : (s.capture page e addr).lmp = s.lmp := by
  obtain ⟨_, _, _, h⟩ := s.capture_shape page e addr; rw [h]
@[simp] theorem State.capture_rgl (s : State) (page : Nat) (e : Err) (addr : Nat) : (s.capture page e addr).rgl = s.rgl := by
  obtain ⟨_, _, _, h⟩ := s.capture_shape page e addr; rw [h]
@[simp] theorem State.capture_dmc (s : State) (page : Nat) (e : Err) (addr : Nat) : (s.capture page e addr).dmc = s.dmc := by
  obtain ⟨_, _, _, h⟩ := s.capture_shape page e addr; rw [h]
@[simp] theorem State.capture_bonds (s : State) (page : Nat) (e : Err) (addr : Nat) :
    (s.capture page e addr).bonds = s.bonds := by
  obtain ⟨_, _, _, h⟩ := s.capture_shape page e addr; rw [h]
@[simp] theorem State.capture_released (s : State) (page : Nat) (e : Err) (addr : Nat) :
    (s.capture page e addr).released = s.released := by
  obtain ⟨_, _, _, h⟩ := s.capture_shape page e addr; rw [h]
@[simp] theorem State.capture_shToks (s : State) (page : Nat) (e : Err) (addr : Nat) :
    (s.capture page e addr).shToks = s.shToks := by
  obtain ⟨_, _, _, h⟩ := s.capture_shape page e addr; rw [h]
@[simp] theorem State.capture_arrivals (s : State) (page : Nat) (e : Err) (addr : Nat) :
    (s.capture page e addr).arrivals = s.arrivals := by
  obtain ⟨_, _, _, h⟩ := s.capture_shape page e addr; rw [h]
@[simp] theorem State.capture_cmbs (s : State) (page : Nat) (e : Err) (addr : Nat) :
    (s.capture page e addr).cmbs = s.cmbs := by
  obtain ⟨_, _, _, h⟩ := s.capture_shape page e addr; rw [h]
@[simp] theorem State.capture_sconces (s : State) (page : Nat) (e : Err) (addr : Nat) :
    (s.capture page e addr).sconces = s.sconces := by
  obtain ⟨_, _, _, h⟩ := s.capture_shape page e addr; rw [h]
@[simp] theorem State.capture_flog (s : State) (page : Nat) (e : Err) (addr : Nat) :
    (s.capture page e addr).flog = s.flog := by
  obtain ⟨_, _, _, h⟩ := s.capture_shape page e addr; rw [h]
@[simp] theorem State.capture_ccu (s : State) (page : Nat) (e : Err) (addr : Nat) : (s.capture page e addr).ccu = s.ccu := by
  obtain ⟨_, _, _, h⟩ := s.capture_shape page e addr; rw [h]
@[simp] theorem State.capture_cov (s : State) (page : Nat) (e : Err) (addr : Nat) : (s.capture page e addr).cov = s.cov := by
  obtain ⟨_, _, _, h⟩ := s.capture_shape page e addr; rw [h]
@[simp] theorem State.capture_links (s : State) (page : Nat) (e : Err) (addr : Nat) :
    (s.capture page e addr).links = s.links := by
  obtain ⟨_, _, _, h⟩ := s.capture_shape page e addr; rw [h]
@[simp] theorem State.capture_lnkWin (s : State) (page : Nat) (e : Err) (addr : Nat) :
    (s.capture page e addr).lnkWin = s.lnkWin := by
  obtain ⟨_, _, _, h⟩ := s.capture_shape page e addr; rw [h]
@[simp] theorem State.capture_guestDie (s : State) (page : Nat) (e : Err) (addr : Nat) :
    (s.capture page e addr).guestDie = s.guestDie := by
  obtain ⟨_, _, _, h⟩ := s.capture_shape page e addr; rw [h]
@[simp] theorem State.capture_dies (s : State) (page : Nat) (e : Err) (addr : Nat) :
    (s.capture page e addr).dies = s.dies := by
  obtain ⟨_, _, _, h⟩ := s.capture_shape page e addr; rw [h]
@[simp] theorem State.capture_updFrame (s : State) (page : Nat) (e : Err) (addr : Nat) :
    (s.capture page e addr).updFrame = s.updFrame := by
  obtain ⟨_, _, _, h⟩ := s.capture_shape page e addr; rw [h]
@[simp] theorem State.capture_trm (s : State) (page : Nat) (e : Err) (addr : Nat) : (s.capture page e addr).trm = s.trm := by
  obtain ⟨_, _, _, h⟩ := s.capture_shape page e addr; rw [h]
@[simp] theorem State.capture_pwr (s : State) (page : Nat) (e : Err) (addr : Nat) : (s.capture page e addr).pwr = s.pwr := by
  obtain ⟨_, _, _, h⟩ := s.capture_shape page e addr; rw [h]
@[simp] theorem State.capture_fuses (s : State) (page : Nat) (e : Err) (addr : Nat) :
    (s.capture page e addr).fuses = s.fuses := by
  obtain ⟨_, _, _, h⟩ := s.capture_shape page e addr; rw [h]
@[simp] theorem State.capture_flash (s : State) (page : Nat) (e : Err) (addr : Nat) :
    (s.capture page e addr).flash = s.flash := by
  obtain ⟨_, _, _, h⟩ := s.capture_shape page e addr; rw [h]
@[simp] theorem State.capture_dbg (s : State) (page : Nat) (e : Err) (addr : Nat) : (s.capture page e addr).dbg = s.dbg := by
  obtain ⟨_, _, _, h⟩ := s.capture_shape page e addr; rw [h]
@[simp] theorem State.capture_flt (s : State) (page : Nat) (e : Err) (addr : Nat) : (s.capture page e addr).flt = s.flt := by
  obtain ⟨_, _, _, h⟩ := s.capture_shape page e addr; rw [h]
@[simp] theorem State.capture_keys (s : State) (page : Nat) (e : Err) (addr : Nat) :
    (s.capture page e addr).keys = s.keys := by
  obtain ⟨_, _, _, h⟩ := s.capture_shape page e addr; rw [h]
@[simp] theorem State.capture_lineKeys (s : State) (page : Nat) (e : Err) (addr : Nat) :
    (s.capture page e addr).lineKeys = s.lineKeys := by
  obtain ⟨_, _, _, h⟩ := s.capture_shape page e addr; rw [h]
@[simp] theorem State.capture_msixTab (s : State) (page : Nat) (e : Err) (addr : Nat) :
    (s.capture page e addr).msixTab = s.msixTab := by
  obtain ⟨_, _, _, h⟩ := s.capture_shape page e addr; rw [h]

/-! ## pulse -/

@[simp] theorem State.pulse_pending (s : State) (line : Nat) : (s.pulse line).pending = s.pending := by
  obtain ⟨_, _, h⟩ := s.pulse_shape line; rw [h]
@[simp] theorem State.pulse_now (s : State) (line : Nat) : (s.pulse line).now = s.now := by
  obtain ⟨_, _, h⟩ := s.pulse_shape line; rw [h]
@[simp] theorem State.pulse_regs (s : State) (line : Nat) : (s.pulse line).regs = s.regs := by
  obtain ⟨_, _, h⟩ := s.pulse_shape line; rw [h]
@[simp] theorem State.pulse_mem (s : State) (line : Nat) : (s.pulse line).mem = s.mem := by
  obtain ⟨_, _, h⟩ := s.pulse_shape line; rw [h]
@[simp] theorem State.pulse_poison (s : State) (line : Nat) : (s.pulse line).poison = s.poison := by
  obtain ⟨_, _, h⟩ := s.pulse_shape line; rw [h]
@[simp] theorem State.pulse_out (s : State) (line : Nat) : (s.pulse line).out = s.out := by
  obtain ⟨_, _, h⟩ := s.pulse_shape line; rw [h]
@[simp] theorem State.pulse_draws (s : State) (line : Nat) : (s.pulse line).draws = s.draws := by
  obtain ⟨_, _, h⟩ := s.pulse_shape line; rw [h]
@[simp] theorem State.pulse_tbu (s : State) (line : Nat) : (s.pulse line).tbu = s.tbu := by
  obtain ⟨_, _, h⟩ := s.pulse_shape line; rw [h]
@[simp] theorem State.pulse_frm (s : State) (line : Nat) : (s.pulse line).frm = s.frm := by
  obtain ⟨_, _, h⟩ := s.pulse_shape line; rw [h]
@[simp] theorem State.pulse_queues (s : State) (line : Nat) : (s.pulse line).queues = s.queues := by
  obtain ⟨_, _, h⟩ := s.pulse_shape line; rw [h]
@[simp] theorem State.pulse_jobs (s : State) (line : Nat) : (s.pulse line).jobs = s.jobs := by
  obtain ⟨_, _, h⟩ := s.pulse_shape line; rw [h]
@[simp] theorem State.pulse_vbufs (s : State) (line : Nat) : (s.pulse line).vbufs = s.vbufs := by
  obtain ⟨_, _, h⟩ := s.pulse_shape line; rw [h]
@[simp] theorem State.pulse_ing (s : State) (line : Nat) : (s.pulse line).ing = s.ing := by
  obtain ⟨_, _, h⟩ := s.pulse_shape line; rw [h]
@[simp] theorem State.pulse_ethTx (s : State) (line : Nat) : (s.pulse line).ethTx = s.ethTx := by
  obtain ⟨_, _, h⟩ := s.pulse_shape line; rw [h]
@[simp] theorem State.pulse_aps (s : State) (line : Nat) : (s.pulse line).aps = s.aps := by
  obtain ⟨_, _, h⟩ := s.pulse_shape line; rw [h]
@[simp] theorem State.pulse_wicks (s : State) (line : Nat) : (s.pulse line).wicks = s.wicks := by
  obtain ⟨_, _, h⟩ := s.pulse_shape line; rw [h]
@[simp] theorem State.pulse_hUp0 (s : State) (line : Nat) : (s.pulse line).hUp0 = s.hUp0 := by
  obtain ⟨_, _, h⟩ := s.pulse_shape line; rw [h]
@[simp] theorem State.pulse_hUp1 (s : State) (line : Nat) : (s.pulse line).hUp1 = s.hUp1 := by
  obtain ⟨_, _, h⟩ := s.pulse_shape line; rw [h]
@[simp] theorem State.pulse_gate (s : State) (line : Nat) : (s.pulse line).gate = s.gate := by
  obtain ⟨_, _, h⟩ := s.pulse_shape line; rw [h]
@[simp] theorem State.pulse_powered (s : State) (line : Nat) : (s.pulse line).powered = s.powered := by
  obtain ⟨_, _, h⟩ := s.pulse_shape line; rw [h]
@[simp] theorem State.pulse_cfg (s : State) (line : Nat) : (s.pulse line).cfg = s.cfg := by
  obtain ⟨_, _, h⟩ := s.pulse_shape line; rw [h]
@[simp] theorem State.pulse_lmp (s : State) (line : Nat) : (s.pulse line).lmp = s.lmp := by
  obtain ⟨_, _, h⟩ := s.pulse_shape line; rw [h]
@[simp] theorem State.pulse_rgl (s : State) (line : Nat) : (s.pulse line).rgl = s.rgl := by
  obtain ⟨_, _, h⟩ := s.pulse_shape line; rw [h]
@[simp] theorem State.pulse_dmc (s : State) (line : Nat) : (s.pulse line).dmc = s.dmc := by
  obtain ⟨_, _, h⟩ := s.pulse_shape line; rw [h]
@[simp] theorem State.pulse_bonds (s : State) (line : Nat) : (s.pulse line).bonds = s.bonds := by
  obtain ⟨_, _, h⟩ := s.pulse_shape line; rw [h]
@[simp] theorem State.pulse_released (s : State) (line : Nat) : (s.pulse line).released = s.released := by
  obtain ⟨_, _, h⟩ := s.pulse_shape line; rw [h]
@[simp] theorem State.pulse_shToks (s : State) (line : Nat) : (s.pulse line).shToks = s.shToks := by
  obtain ⟨_, _, h⟩ := s.pulse_shape line; rw [h]
@[simp] theorem State.pulse_arrivals (s : State) (line : Nat) : (s.pulse line).arrivals = s.arrivals := by
  obtain ⟨_, _, h⟩ := s.pulse_shape line; rw [h]
@[simp] theorem State.pulse_cmbs (s : State) (line : Nat) : (s.pulse line).cmbs = s.cmbs := by
  obtain ⟨_, _, h⟩ := s.pulse_shape line; rw [h]
@[simp] theorem State.pulse_sconces (s : State) (line : Nat) : (s.pulse line).sconces = s.sconces := by
  obtain ⟨_, _, h⟩ := s.pulse_shape line; rw [h]
@[simp] theorem State.pulse_flog (s : State) (line : Nat) : (s.pulse line).flog = s.flog := by
  obtain ⟨_, _, h⟩ := s.pulse_shape line; rw [h]
@[simp] theorem State.pulse_ccu (s : State) (line : Nat) : (s.pulse line).ccu = s.ccu := by
  obtain ⟨_, _, h⟩ := s.pulse_shape line; rw [h]
@[simp] theorem State.pulse_cov (s : State) (line : Nat) : (s.pulse line).cov = s.cov := by
  obtain ⟨_, _, h⟩ := s.pulse_shape line; rw [h]
@[simp] theorem State.pulse_links (s : State) (line : Nat) : (s.pulse line).links = s.links := by
  obtain ⟨_, _, h⟩ := s.pulse_shape line; rw [h]
@[simp] theorem State.pulse_lnkWin (s : State) (line : Nat) : (s.pulse line).lnkWin = s.lnkWin := by
  obtain ⟨_, _, h⟩ := s.pulse_shape line; rw [h]
@[simp] theorem State.pulse_guestDie (s : State) (line : Nat) : (s.pulse line).guestDie = s.guestDie := by
  obtain ⟨_, _, h⟩ := s.pulse_shape line; rw [h]
@[simp] theorem State.pulse_dies (s : State) (line : Nat) : (s.pulse line).dies = s.dies := by
  obtain ⟨_, _, h⟩ := s.pulse_shape line; rw [h]
@[simp] theorem State.pulse_updFrame (s : State) (line : Nat) : (s.pulse line).updFrame = s.updFrame := by
  obtain ⟨_, _, h⟩ := s.pulse_shape line; rw [h]
@[simp] theorem State.pulse_trm (s : State) (line : Nat) : (s.pulse line).trm = s.trm := by
  obtain ⟨_, _, h⟩ := s.pulse_shape line; rw [h]
@[simp] theorem State.pulse_pwr (s : State) (line : Nat) : (s.pulse line).pwr = s.pwr := by
  obtain ⟨_, _, h⟩ := s.pulse_shape line; rw [h]
@[simp] theorem State.pulse_fuses (s : State) (line : Nat) : (s.pulse line).fuses = s.fuses := by
  obtain ⟨_, _, h⟩ := s.pulse_shape line; rw [h]
@[simp] theorem State.pulse_flash (s : State) (line : Nat) : (s.pulse line).flash = s.flash := by
  obtain ⟨_, _, h⟩ := s.pulse_shape line; rw [h]
@[simp] theorem State.pulse_dbg (s : State) (line : Nat) : (s.pulse line).dbg = s.dbg := by
  obtain ⟨_, _, h⟩ := s.pulse_shape line; rw [h]
@[simp] theorem State.pulse_flt (s : State) (line : Nat) : (s.pulse line).flt = s.flt := by
  obtain ⟨_, _, h⟩ := s.pulse_shape line; rw [h]
@[simp] theorem State.pulse_keys (s : State) (line : Nat) : (s.pulse line).keys = s.keys := by
  obtain ⟨_, _, h⟩ := s.pulse_shape line; rw [h]
@[simp] theorem State.pulse_lineKeys (s : State) (line : Nat) : (s.pulse line).lineKeys = s.lineKeys := by
  obtain ⟨_, _, h⟩ := s.pulse_shape line; rw [h]
@[simp] theorem State.pulse_msixTab (s : State) (line : Nat) : (s.pulse line).msixTab = s.msixTab := by
  obtain ⟨_, _, h⟩ := s.pulse_shape line; rw [h]
@[simp] theorem State.pulse_msixPend (s : State) (line : Nat) : (s.pulse line).msixPend = s.msixPend := by
  obtain ⟨_, _, h⟩ := s.pulse_shape line; rw [h]

end Sys2Proof.Machine
end

