-- ==== Sys2Proof/Laws/Regs.lean ====
section
/-!
SUPPORT. Regs.lean: the register file: what is written is read back, other registers and other fields stay; and what the
shared operations leave in the registers (00 R16; 12 R314; 20 R480).
-/

namespace Sys2Proof.Machine

open Sys2Proof

/-! ## Registers -/

/-- A register that was written reads what was written. -/
theorem State.reg_setReg_same (s : State) (page idx off : Nat) (v : Word32) :
    (s.setReg page idx off v).reg page idx off = v := by
  simp [State.reg, State.setReg, aget_aset_same]

/-- A register with another key keeps its value. -/
theorem State.reg_setReg_other (s : State) {page idx off p i o : Nat} (v : Word32)
    (h : regKey page idx off ≠ regKey p i o) : (s.setReg page idx off v).reg p i o = s.reg p i o := by
  simp [State.reg, State.setReg, aget_aset_other _ _ _ _ _ h]

/-- Registers of one page and bank at different offsets have different keys. -/
theorem regKey_ne_of_off {page idx o o' : Nat} (h : o ≠ o') : regKey page idx o ≠ regKey page idx o' := by
  unfold regKey; omega

/-- Registers of different pages have different keys, the bank below 256 and the offset below 4096. -/
theorem regKey_ne_of_page {p p' i i' o o' : Nat} (h : p ≠ p') (hi : i < 256) (hi' : i' < 256) (ho : o < 4096)
    (ho' : o' < 4096) : regKey p i o ≠ regKey p' i' o' := by
  unfold regKey; omega

/-- The value of a register depends on the register file alone. -/
theorem State.reg_congr {s t : State} (h : t.regs = s.regs) (page idx off : Nat) : t.reg page idx off = s.reg page idx off := by
  simp [State.reg, h]

@[simp] theorem State.reg_emit (s : State) (e : OutEvent) (p i o : Nat) : (s.emit e).reg p i o = s.reg p i o := rfl
@[simp] theorem State.reg_touch (s : State) (p i o : Nat) : s.touch.reg p i o = s.reg p i o := rfl
@[simp] theorem State.reg_draw (s : State) (p i o : Nat) : s.draw.reg p i o = s.reg p i o := rfl
@[simp] theorem State.reg_setWick (s : State) (w : Nat) (x : Wick) (p i o : Nat) : (s.setWick w x).reg p i o = s.reg p i o := rfl

@[simp] theorem State.reg_pulse (s : State) (l p i o : Nat) : (s.pulse l).reg p i o = s.reg p i o :=
  State.reg_congr (by simp) p i o

@[simp] theorem State.reg_msix (s : State) (a b c p i o : Nat) : (s.msix a b c).reg p i o = s.reg p i o := by
  obtain ⟨x, q, h⟩ := s.msix_shape a b c; rw [h]; rfl

@[simp] theorem State.reg_pendRise (s : State) (page : Nat) (b : Bool) (p i o : Nat) :
    (s.pendRise page b).reg p i o = s.reg p i o := by
  obtain ⟨x, q, h⟩ := s.pendRise_shape page b; rw [h]; rfl

/-! ## Fields -/

/-- A field within a register of 32 bits. -/
abbrev Fld.ok (f : Fld) : Prop := f.lo ≤ f.hi ∧ f.hi < 32

theorem Fld.get_testBit (f : Fld) (v : Word32) (j : Nat) :
    (f.get v).testBit j = (decide (j < f.hi - f.lo + 1) && v.getLsbD (f.lo + j)) := by
  simp [Fld.get, Nat.testBit_mod_two_pow, Nat.testBit_div_two_pow, BitVec.getLsbD, Nat.add_comm]

/-- Bit by bit, what a register holds after one of its fields was put. -/
theorem Fld.put_getLsbD (f : Fld) (h : f.ok) (v : Word32) (x k : Nat) :
    (f.put v x).getLsbD k = if f.lo ≤ k ∧ k ≤ f.hi then x.testBit (k - f.lo) else v.getLsbD k := by
  obtain ⟨h1, h2⟩ := h
  obtain ⟨w, hw⟩ : ∃ w, w = f.hi - f.lo + 1 := ⟨_, rfl⟩
  have hV : v.toNat < 2 ^ 32 := v.isLt
  have e1 : v.toNat = 2 ^ f.lo * (2 ^ w * (v.toNat / 2 ^ f.lo / 2 ^ w) + v.toNat / 2 ^ f.lo % 2 ^ w) + v.toNat % 2 ^ f.lo := by
    rw [Nat.div_add_mod, Nat.div_add_mod]
  have e2 : v.toNat - placeBits f.hi f.lo (f.get v) + placeBits f.hi f.lo x =
      2 ^ f.lo * (2 ^ w * (v.toNat / 2 ^ f.lo / 2 ^ w) + x % 2 ^ w) + v.toNat % 2 ^ f.lo := by
    have : placeBits f.hi f.lo (f.get v) = 2 ^ f.lo * (v.toNat / 2 ^ f.lo % 2 ^ w) := by
      simp [placeBits, Fld.get, ← hw, Nat.mul_comm]
    rw [this]
    have : placeBits f.hi f.lo x = 2 ^ f.lo * (x % 2 ^ w) := by simp [placeBits, ← hw, Nat.mul_comm]
    rw [this]
    have e3 := e1
    simp only [Nat.mul_add] at e3 ⊢
    omega
  have key : (f.put v x).getLsbD k = (decide (k < 32) &&
      (2 ^ f.lo * (2 ^ w * (v.toNat / 2 ^ f.lo / 2 ^ w) + x % 2 ^ w) + v.toNat % 2 ^ f.lo).testBit k) := by
    rw [Fld.put, e2]; simp [BitVec.getLsbD_ofNat]
  have hv : v.getLsbD k =
      (2 ^ f.lo * (2 ^ w * (v.toNat / 2 ^ f.lo / 2 ^ w) + v.toNat / 2 ^ f.lo % 2 ^ w) + v.toNat % 2 ^ f.lo).testBit k := by
    rw [← e1]; rfl
  have hlt : v.toNat % 2 ^ f.lo < 2 ^ f.lo := Nat.mod_lt _ (Nat.two_pow_pos _)
  have hx : x % 2 ^ w < 2 ^ w := Nat.mod_lt _ (Nat.two_pow_pos _)
  have hm : v.toNat / 2 ^ f.lo % 2 ^ w < 2 ^ w := Nat.mod_lt _ (Nat.two_pow_pos _)
  rw [Nat.testBit_two_pow_mul_add _ hlt, Nat.testBit_two_pow_mul_add _ hx] at key
  rw [Nat.testBit_two_pow_mul_add _ hlt, Nat.testBit_two_pow_mul_add _ hm] at hv
  by_cases h32 : k < 32
  · by_cases a : k < f.lo
    · rw [key, hv]; simp only [a, h32, Nat.not_le.2 a, false_and, if_true, if_false, decide_true, Bool.true_and]
    · by_cases b : k - f.lo < w
      · have : f.lo ≤ k ∧ k ≤ f.hi := by omega
        rw [key]; simp only [a, b, h32, this, Nat.testBit_mod_two_pow, and_self, if_true, if_false, decide_true, Bool.true_and]
      · have : ¬ (f.lo ≤ k ∧ k ≤ f.hi) := by omega
        rw [key, hv]; simp only [a, b, h32, this, if_false, decide_true, Bool.true_and]
  · have : ¬ (f.lo ≤ k ∧ k ≤ f.hi) := by omega
    rw [key, BitVec.getLsbD_of_ge _ _ (by omega)]; simp [h32, this]

/-- A field that was put reads what was put, cut to its width. -/
theorem Fld.get_put_same (f : Fld) (h : f.ok) (v : Word32) (x : Nat) :
    f.get (f.put v x) = x % 2 ^ (f.hi - f.lo + 1) := by
  apply Nat.eq_of_testBit_eq
  intro j
  rw [Fld.get_testBit, Fld.put_getLsbD f h, Nat.testBit_mod_two_pow]
  obtain ⟨h1, h2⟩ := h
  by_cases hj : j < f.hi - f.lo + 1
  · have : f.lo ≤ f.lo + j ∧ f.lo + j ≤ f.hi := by omega
    simp [hj, this]
  · simp [hj]

/-- A field of the same register that shares no bit keeps its value. -/
theorem Fld.get_put_other (f g : Fld) (h : f.ok) (v : Word32) (x : Nat) (d : g.hi < f.lo ∨ f.hi < g.lo) (hg : g.lo ≤ g.hi) :
    g.get (f.put v x) = g.get v := by
  apply Nat.eq_of_testBit_eq
  intro j
  rw [Fld.get_testBit, Fld.get_testBit, Fld.put_getLsbD f h]
  by_cases hj : j < g.hi - g.lo + 1
  · have : ¬ (f.lo ≤ g.lo + j ∧ g.lo + j ≤ f.hi) := by omega
    simp [this]
  · simp [hj]

theorem State.reg_fset_same (s : State) (page : Nat) (f : Fld) (x : Nat) :
    (s.fset page f x).reg page 0 f.off = f.put (s.reg page 0 f.off) x := s.reg_setReg_same _ _ _ _

theorem State.reg_fset_other (s : State) {page p i o : Nat} (f : Fld) (x : Nat) (h : regKey page 0 f.off ≠ regKey p i o) :
    (s.fset page f x).reg p i o = s.reg p i o := s.reg_setReg_other _ h

theorem State.fget_fset_same (s : State) (page : Nat) (f : Fld) (h : f.ok) (x : Nat) :
    (s.fset page f x).fget page f = x % 2 ^ (f.hi - f.lo + 1) := by
  simp [State.fget, State.fgetI, s.reg_fset_same, f.get_put_same h]

/-- Another field of the page keeps its value. -/
theorem State.fget_fset_other (s : State) (page : Nat) (f g : Fld) (x : Nat) (h : f.ok) (hg : g.lo ≤ g.hi)
    (d : f.off ≠ g.off ∨ g.hi < f.lo ∨ f.hi < g.lo) : (s.fset page f x).fget page g = s.fget page g := by
  by_cases e : f.off = g.off
  · simp only [State.fget, State.fgetI, ← e, s.reg_fset_same]
    exact f.get_put_other g h _ _ (by rcases d with d | d | d <;> simp_all) hg
  · simp only [State.fget, State.fgetI]
    rw [s.reg_fset_other f x (regKey_ne_of_off e)]

theorem State.fget_fset_page (s : State) {page p : Nat} (f g : Fld) (x : Nat) (h : page ≠ p) (hf : f.off < 4096)
    (hg : g.off < 4096) : (s.fset page f x).fget p g = s.fget p g := by
  simp only [State.fget, State.fgetI]
  rw [s.reg_fset_other f x (regKey_ne_of_page h (by decide) (by decide) hf hg)]

/-! ## Shared operations -/

/-- The registers a capture may write (12 R314). -/
theorem State.reg_capture_other (s : State) (page : Nat) (e : Err) (addr : Nat) {p i o : Nat}
    (h : regKey p i o ∉ [regKey page 0 0x018, regKey page 0 0x024, regKey page 0 0x028, regKey page 0 0x02C]) :
    (s.capture page e addr).reg p i o = s.reg p i o := by
  simp only [List.mem_cons, List.not_mem_nil, or_false, not_or] at h
  obtain ⟨h1, h2, h3, h4⟩ := h
  unfold State.capture
  split
  · rw [State.reg_pendRise, State.reg_fset_other _ _ _ (Ne.symm h1)]
  · rw [State.reg_pendRise, State.reg_fset_other _ _ _ (Ne.symm h1), State.reg_fset_other _ _ _ (Ne.symm h4),
      State.reg_setReg_other _ _ (Ne.symm h3), State.reg_fset_other _ _ _ (Ne.symm h2)]

/-- After a capture the page's error bit is set. -/
theorem State.flag_capture (s : State) (page : Nat) (e : Err) (addr : Nat) :
    (s.capture page e addr).flag page Reg.INT_STATUS_ERR = true := by
  unfold State.capture State.flag State.fget State.fgetI
  simp only [State.reg_pendRise]
  rw [State.reg_fset_same, Fld.get_put_same _ (by decide)]
  rfl

/-- A capture into a page without an error takes the code. -/
theorem State.code_capture (s : State) (page : Nat) (e : Err) (addr : Nat) (h : s.flag page Reg.INT_STATUS_ERR = false) :
    (s.capture page e addr).fget page Reg.ERR_CODE_CODE = e.code := by
  unfold State.capture State.fget State.fgetI
  simp only [State.reg_pendRise, h]
  rw [State.reg_fset_other _ _ _ (regKey_ne_of_off (by decide)), if_neg (by decide),
    State.reg_fset_other _ _ _ (regKey_ne_of_off (by decide)), State.reg_setReg_other _ _ (regKey_ne_of_off (by decide)),
    State.reg_fset_same, Fld.get_put_same _ (by decide)]
  cases e <;> rfl

end Sys2Proof.Machine
end

