-- ==== Sys2Proof/Laws/Access.lean ====
section
/-!
SUPPORT. Access.lean: what a read without an error, a write that memory takes and the units' own traffic leave behind.
-/

namespace Sys2Proof.Machine

open Sys2Proof

/-! ## Traffic -/

theorem State.onlyMoved_refl (s : State) : s.onlyMoved s :=
  ⟨s.regs, s.rgl, s.mem, s.lineKeys, rfl, fun _ _ _ _ _ _ _ => rfl, fun _ => ⟨rfl, rfl⟩⟩

theorem State.onlyMoved_trans {s t u : State} (h : s.onlyMoved t) (h' : t.onlyMoved u) : s.onlyMoved u := by
  obtain ⟨r, g, m, k, rfl, hr, hk⟩ := h
  obtain ⟨r', g', m', k', rfl, hr', hk'⟩ := h'
  refine ⟨r', g', m', k', rfl, fun p i o h1 h2 h3 h4 => (hr' p i o h1 h2 h3 h4).trans (hr p i o h1 h2 h3 h4), fun hc => ?_⟩
  obtain ⟨e1, e2⟩ := hk hc
  obtain ⟨e3, e4⟩ := hk' hc
  exact ⟨e3.trans e1, e4.trans e2⟩

/-- A change of one register of an RGL page. -/
theorem State.onlyMoved_setReg (s : State) {page : Nat} (idx off : Nat) (v : Word32)
    (h : page = pgRGL ∨ 0x040 ≤ page ∧ page < 0x060) (hi : idx < 256) (ho : off < 4096) : s.onlyMoved (s.setReg page idx off v) := by
  refine ⟨_, s.rgl, s.mem, s.lineKeys, rfl, fun p i o h1 h2 h3 h4 => ?_, fun _ => ⟨rfl, rfl⟩⟩
  exact State.reg_setReg_other _ _ (regKey_ne_of_page (by rcases h with h | h <;> omega) hi h3 ho h4)

/-- A line that comes under another key changes no more than traffic may, in Cormer mode. -/
theorem State.onlyMoved_rekey (s : State) (l p : Nat) (hc : s.cfg.cormer = true) : s.onlyMoved (s.rekey l p) := by
  unfold State.rekey
  split
  · exact s.onlyMoved_refl
  · exact ⟨s.regs, s.rgl, _, _, rfl, fun _ _ _ _ _ _ _ => rfl, fun h => by rw [h] at hc; cases hc⟩

/-- Lines that come under other keys one by one. -/
theorem State.onlyMoved_keyLines (m : Master) (ls : List Nat) (s : State) (hc : s.cfg.cormer = true) :
    s.onlyMoved (ls.foldl (fun t l => match t.cfg.fwWin m (l * 64) with
      | some w => t.rekey l w.part
      | none => t) s) := by
  induction ls generalizing s with
  | nil => exact s.onlyMoved_refl
  | cons l ls ih =>
    rw [List.foldl_cons]
    split
    · next w _ =>
      have h1 := s.onlyMoved_rekey l w.part hc
      refine State.onlyMoved_trans h1 (ih _ ?_)
      obtain ⟨r, g, m', k, e, _⟩ := h1
      rw [e]; exact hc
    · exact ih s hc

theorem State.onlyMoved_keyed (s : State) (m : Option Master) (a n : Nat) : s.onlyMoved (s.keyed m a n) := by
  unfold State.keyed
  cases m with
  | none => exact s.onlyMoved_refl
  | some m =>
    dsimp only
    split
    · next hc =>
      simp only [Bool.and_eq_true] at hc
      exact State.onlyMoved_keyLines m _ s hc.1
    · exact s.onlyMoved_refl

theorem State.onlyMoved_setCtr64 (s : State) {page : Nat} (off v : Nat) (h : page = pgRGL ∨ 0x040 ≤ page ∧ page < 0x060)
    (ho : off + 4 < 4096) : s.onlyMoved (s.setCtr64 page off v) := by
  unfold State.setCtr64
  exact State.onlyMoved_trans (State.onlyMoved_setReg _ _ _ _ h (by decide) (by omega))
    (State.onlyMoved_setReg _ _ _ _ h (by decide) (by omega))

theorem State.onlyMoved_serveDdr (s : State) (port tc p n : Nat) (write : Bool) : s.onlyMoved (s.serveDdr port tc p n write) := by
  unfold State.serveDdr
  have h : s.onlyMoved (if (tc == 0 && !write && !s.designated port) = true
      then s.fadd pgRGL Reg.RGL_TC0_DEMOTE_COUNT ((n + 63) / 64) else s) := by
    split
    · exact State.onlyMoved_setReg _ _ _ _ (.inl rfl) (by decide) (by decide)
    · exact s.onlyMoved_refl
  refine State.onlyMoved_trans h ?_
  exact ⟨_, _, _, _, rfl, fun _ _ _ _ _ _ _ => rfl, fun _ => ⟨rfl, rfl⟩⟩

/-- All that a unit's traffic can change. -/
theorem State.traffic_onlyMoved (s : State) (m : Option Master) (port tc p a n : Nat) (write : Bool) (hp : port < 32) (ht : tc < 8) :
    s.onlyMoved (s.traffic m port tc p a n write) := by
  unfold State.traffic
  split
  · exact s.onlyMoved_refl
  · have ho : (if write then 0x048 else 0x040) + 0x20 * tc + 4 < 4096 := by split <;> omega
    dsimp only
    generalize (if write then 0x048 else 0x040) + 0x20 * tc = off at ho ⊢
    have h := State.onlyMoved_trans (s.onlyMoved_keyed m a n) ((s.keyed m a n).onlyMoved_setCtr64 (page := pgPort port) off
      (s.ctr64 (pgPort port) off + n) (by unfold pgPort; omega) ho)
    split
    · exact State.onlyMoved_trans h (State.onlyMoved_serveDdr _ _ _ _ _ _)
    · exact h

/-! ## Reads and writes -/

/-- A read without an error leaves no mark. -/
theorem readMarks_of_readsOk (s : State) (p a n : Nat) (h : s.readsOk p a n) : s.readMarks a n .ok = s := by
  obtain ⟨⟨_, _, h1⟩, h2⟩ := h
  have hm : s.mapAccess a n = s := by
    unfold State.mapAccess
    split
    · next hc => rcases h1 with h1 | h1
                 · exact absurd h1 hc.1
                 · exact absurd hc.2 h1.1
    · rfl
  simp only [State.readMarks, hm, h2, State.checkEnd]

/-- A read without an error draws no byte from the guest. -/
theorem guestIn_of_readsOk (s : State) (p a n : Nat) (h : s.readsOk p a n) : s.guestIn a n = s := by
  obtain ⟨⟨_, _, h1⟩, _⟩ := h
  unfold State.guestIn
  rw [if_pos]
  rcases h1 with h1 | h1
  · exact .inl h1
  · exact .inr h1.2

/-- A unit's read without an error moves its bytes and goes on with them. -/
theorem unitRead_of_readsOk (s : State) (j : Job) (a n : Nat) (ok : State → State) (h : s.readsOk j.part a n) :
    s.unitRead j a n .ok ok = ok (s.jobMoves j a n false) := by
  simp only [State.unitRead, readMarks_of_readsOk s j.part a n h, guestIn_of_readsOk s j.part a n h, h.1.1, h.1.2.1, h.2,
    Bool.false_eq_true, if_false]

/-- A unit's write where the place takes it. -/
theorem unitWrite_of_writesOk (s : State) (j : Job) (a n : Nat) (ok : State → State) (h : s.writesOk j.part a n) :
    s.unitWrite j a n ok = ok (s.jobMoves j a n true) := by
  simp only [State.unitWrite, h.1.1, h.1.2.1, Bool.false_eq_true, if_false]

end Sys2Proof.Machine
end

