-- ==== Sys2Proof/Laws/Cap.lean ====
section
/-!
SUPPORT. Cap.lean: which bricks a placed box reaches, and how many cycles a check that reaches them takes at least (10 R257, R260).
-/

namespace Sys2Proof.Machine

theorem mem_insertUniq (k x : Nat) (l : List Nat) : x ∈ insertUniq k l ↔ x = k ∨ x ∈ l := by
  induction l with
  | nil => simp [insertUniq]
  | cons y ys ih =>
    unfold insertUniq
    split
    · simp
    · split
      · rename_i h; simp [h]
      · simp [ih, or_left_comm]

theorem mem_foldl_insertUniq {α : Type} (f : α → Nat) (x : Nat) (vs : List α) (l : List Nat) :
    x ∈ vs.foldl (fun l v => insertUniq (f v) l) l ↔ x ∈ l ∨ ∃ v ∈ vs, x = f v := by
  induction vs generalizing l with
  | nil => simp
  | cons v vs ih => simp [ih, mem_insertUniq, or_assoc, or_left_comm]

theorem mem_intRange (a b x : Int) : x ∈ intRange a b ↔ a ≤ x ∧ x ≤ b := by
  unfold intRange
  simp only [List.mem_map, List.mem_range]
  constructor
  · rintro ⟨i, hi, rfl⟩; omega
  · intro h; exact ⟨(x - a).toNat, by omega, by omega⟩

/-- A voxel of the map within 1.0 m of a box, in one of its layers, makes the box reach the voxel's brick. -/
theorem PBox.mem_bricks (b : PBox) (ix iy iz : Nat) (hx : ix < 2048) (hy : iy < 2048) (hz : iz < 64)
    (h1 : let r := fxHypot b.hx b.hy + 113 * fxOne / 100
      (voxIdx (b.x - r) ≤ ix ∧ (ix : Int) ≤ voxIdx (b.x + r)) ∧ voxIdx (b.y - r) ≤ iy ∧ (iy : Int) ≤ voxIdx (b.y + r))
    (h2 : b.dist ix iy ≤ fxOne) (h3 : voxIdx b.z0 ≤ iz ∧ (iz : Int) ≤ voxIdx b.z1) :
    blockOf ix iy iz * 256 + brickOf ix iy iz ∈ b.bricks := by
  have hc : ((ix : Int), (iy : Int), b.dist ix iy) ∈ b.columns := by
    unfold PBox.columns
    refine List.mem_flatMap.mpr ⟨ix, (mem_intRange _ _ _).mpr h1.1, List.mem_filter.mpr ⟨?_, ?_⟩⟩
    · exact List.mem_map.mpr ⟨iy, (mem_intRange _ _ _).mpr h1.2, rfl⟩
    · have : (0 : Int) ≤ fxOne := by decide
      simp only [decide_eq_true_eq]
      omega
  have hn : (ix, iy, iz) ∈ b.near := by
    unfold PBox.near
    refine List.mem_flatMap.mpr ⟨_, List.mem_filter.mpr ⟨hc, by simpa using h2⟩, ?_⟩
    refine List.mem_filterMap.mpr ⟨iz, (mem_intRange _ _ _).mpr h3, ?_⟩
    rw [if_pos (by simp only []; omega)]
    simp
  unfold PBox.bricks
  exact (mem_foldl_insertUniq (fun v : Nat × Nat × Nat => blockOf v.1 v.2.1 v.2.2 * 256 + brickOf v.1 v.2.1 v.2.2) _ _ _).mpr
    (Or.inr ⟨_, hn, rfl⟩)

/-- What the counts of the bricks with `ok` add up to. -/
def countOf (ok : Nat → Bool) (l : List (Nat × Nat)) : Nat := ((l.filter fun p => ok p.1).map (·.2)).sum

theorem countOf_aset (ok : Nat → Bool) (l : List (Nat × Nat)) (b : Nat) :
    countOf ok l + (if ok b then 1 else 0) ≤ countOf ok (aset l b (aget 0 l b + 1)) := by
  induction l with
  | nil => by_cases h : ok b <;> simp [countOf, aset, aget, h]
  | cons p ps ih =>
    obtain ⟨k, v⟩ := p
    unfold aset aget
    by_cases hk : k = b
    · subst hk
      by_cases h : ok k <;>
        simp only [countOf, List.filter_cons, h, if_true, if_false, List.map_cons, List.sum_cons, Bool.false_eq_true] <;> omega
    · simp only [if_neg hk]
      by_cases hb : b < k
      · rw [if_pos hb]
        by_cases h : ok b <;> by_cases h' : ok k <;>
          simp only [countOf, List.filter_cons, h, h', if_true, if_false, List.map_cons, List.sum_cons, Bool.false_eq_true] <;> omega
      · rw [if_neg hb]
        by_cases h' : ok k <;> simp [countOf, h'] at ih ⊢ <;> omega

theorem countOf_fold (ok : Nat → Bool) (l : List Nat) (acc : List (Nat × Nat)) :
    countOf ok acc + (l.filter ok).length ≤ countOf ok (l.foldl (fun a b => aset a b (aget 0 a b + 1)) acc) := by
  induction l generalizing acc with
  | nil => simp
  | cons b bs ih =>
    have h1 := countOf_aset ok acc b
    have h2 := ih (aset acc b (aget 0 acc b + 1))
    simp only [List.foldl_cons]
    by_cases h : ok b <;> simp [h] at h1 ⊢ <;> omega

theorem countOf_folds (ok : Nat → Bool) (n : Nat) (l : List Nat) (acc : List (Nat × Nat)) :
    countOf ok acc + n * (l.filter ok).length ≤
      countOf ok ((List.replicate n l).foldl (fun a l => l.foldl (fun a b => aset a b (aget 0 a b + 1)) a) acc) := by
  induction n generalizing acc with
  | zero => simp
  | succ n ih =>
    have h1 := countOf_fold ok l acc
    have h2 := ih (l.foldl (fun a b => aset a b (aget 0 a b + 1)) acc)
    rw [Nat.succ_mul]
    simp only [List.replicate_succ, List.foldl_cons]
    omega

theorem sum_le_eighths (l : List (Nat × Nat)) (a : Nat) : 8 * a + (l.map (·.2)).sum ≤ 8 * l.foldl (fun a p => a + (p.2 + 7) / 8) a := by
  induction l generalizing a with
  | nil => simp
  | cons p ps ih =>
    have := ih (a + (p.2 + 7) / 8)
    simp only [List.map_cons, List.sum_cons, List.foldl_cons]
    omega

/-- `n` boxes that each reach the bricks `l` take at least an eighth of a cycle for each of them in an allocated block. -/
theorem checkCycles_lower (t : List (Nat × Nat)) (nsamp nbox n : Nat) (l blocks : List Nat) :
    n * (l.filter fun b => entAlloc (tabGet t (b / 256))).length ≤ 8 * checkCycles t nsamp nbox (List.replicate n l) blocks := by
  have h1 := countOf_folds (fun b => entAlloc (tabGet t (b / 256))) n l []
  have h2 := sum_le_eighths (((List.replicate n l).foldl (fun acc l => l.foldl (fun a b => aset a b (aget 0 a b + 1)) acc) []).filter
    fun p => entAlloc (tabGet t (p.1 / 256))) 0
  simp only [countOf, List.filter_nil, List.map_nil, List.sum_nil, Nat.zero_add] at h1
  have h3 : ((List.foldl (fun a p => a + (p.2 + 7) / 8) 0 (((List.replicate n l).foldl (fun acc l => l.foldl
      (fun a b => aset a b (aget 0 a b + 1)) acc) []).filter fun p => entAlloc (tabGet t (p.1 / 256))))) ≤
      checkCycles t nsamp nbox (List.replicate n l) blocks := Nat.le_add_left _ _
  omega

theorem length_le_of_subset (bs l : List Nat) (hn : bs.Nodup) (hm : ∀ b ∈ bs, b ∈ l) : bs.length ≤ l.length := by
  induction bs generalizing l with
  | nil => simp
  | cons b bs ih =>
    obtain ⟨hb, hn⟩ := List.nodup_cons.mp hn
    have := ih (l.erase b) hn fun x hx =>
      (List.mem_erase_of_ne (by rintro rfl; exact hb hx)).mpr (hm x (List.mem_cons_of_mem _ hx))
    have hl := List.length_erase_of_mem (hm b List.mem_cons_self)
    have := List.length_pos_of_mem (hm b List.mem_cons_self)
    simp only [List.length_cons]
    omega

theorem length_le_of_bricks (ok : Nat → Bool) (bs l : List Nat) (hn : bs.Nodup) (hm : ∀ b ∈ bs, b ∈ l ∧ ok b = true) :
    bs.length ≤ (l.filter ok).length :=
  length_le_of_subset _ _ hn fun b hb => List.mem_filter.mpr (hm b hb)

end Sys2Proof.Machine
end

