-- ==== Sys2Proof/Laws/Mailbox.lean ====
section
/-!
SUPPORT. Mailbox.lean: what Flint's read of an object through IN leaves behind.
-/

namespace Sys2Proof.Machine

open Sys2Proof

/-- A read through IN that nothing stops moves bytes through Flint's port and changes nothing else. -/
theorem State.inRead_onlyMoved (s : State) (ref : Word64) (n : Nat) (h : (s.inRead ref n).2 = none) :
    s.onlyMoved (s.inRead ref n).1 := by
  unfold State.inRead at h ⊢
  split
  · exact s.onlyMoved_refl
  · next a ha =>
    rw [ha] at h
    dsimp only at h ⊢
    split
    · exact s.onlyMoved_refl
    · next h1 h2 => rw [h1, h2] at h; cases h
    · exact s.traffic_onlyMoved none 24 5 0 a n false (by decide) (by decide)

/-- The same of a mailbox command's object. -/
theorem State.inObj_onlyMoved (s : State) (r : MbRun) (h : (s.inObj r).2 = none) : s.onlyMoved (s.inObj r).1 := by
  unfold State.inObj at h ⊢
  split
  · split
    · next o ho hb => rw [ho] at h; simp only [hb, if_true] at h; exact s.inRead_onlyMoved _ _ h
    · exact s.onlyMoved_refl
  · exact s.onlyMoved_refl

end Sys2Proof.Machine
end

