-- ==== Sys2Proof/Laws/Time.lean ====
section
/-!
SUPPORT. Time.lean: what passing time can change: real time, the counter, the idle time, and registers of the DBG and TBU
pages alone (17 R414, R420; 18 R427; 21 R496).
-/

namespace Sys2Proof.Machine

open Sys2Proof

/-- Folding operations that change registers alone changes registers alone. -/
theorem foldl_regs_shape {α : Type} (f : State → α → State) (hf : ∀ s a, ∃ r, f s a = { s with regs := r }) (l : List α)
    (s : State) : ∃ r, l.foldl f s = { s with regs := r } := by
  induction l generalizing s with
  | nil => exact ⟨s.regs, rfl⟩
  | cons a l ih =>
    obtain ⟨r, h⟩ := hf s a
    obtain ⟨r', h'⟩ := ih (f s a)
    exact ⟨r', by rw [List.foldl_cons, h', h]⟩

/-- Counting trace events changes registers alone. -/
theorem State.trace_shape (s : State) (code inst n : Nat) : ∃ r, s.trace code inst n = { s with regs := r } := by
  apply foldl_regs_shape
  intro t k
  by_cases h : t.traces k code inst
  · exact ⟨_, by rw [if_pos h]; rfl⟩
  · exact ⟨t.regs, by rw [if_neg h]⟩

/-- Counting trace events writes no page but DBG. -/
theorem State.reg_trace (s : State) (code inst n : Nat) {p i o : Nat} (h : p ≠ pgDBG) (hi : i < 256) (ho : o < 4096) :
    (s.trace code inst n).reg p i o = s.reg p i o := by
  unfold State.trace
  have key : ∀ (l : List Nat), (∀ k ∈ l, k < 8) → ∀ t : State,
      (l.foldl (fun t k => if t.traces k code inst then t.traceAdd k n else t) t).reg p i o = t.reg p i o := by
    intro l
    induction l with
    | nil => intro _ t; rfl
    | cons k l ih =>
      intro hl t
      rw [List.foldl_cons, ih (fun k hk => hl k (List.mem_cons_of_mem _ hk))]
      have hk := hl k (List.mem_cons_self ..)
      split
      · unfold State.traceAdd
        rw [State.reg_setReg_other _ _ (regKey_ne_of_page (Ne.symm h) (by omega) hi (by decide) ho),
          State.reg_setReg_other _ _ (regKey_ne_of_page (Ne.symm h) (by omega) hi (by decide) ho)]
      · rfl
  exact key _ (fun k hk => List.mem_range.1 hk) s

/-- One Wick's cycle counters change registers alone. -/
theorem State.wickBusy_shape (s : State) (e w : Nat) (x : Wick) : ∃ r, s.wickBusy e w x = { s with regs := r } := by
  unfold State.wickBusy
  split
  · exact ⟨s.regs, rfl⟩
  · dsimp only
    split <;> exact ⟨_, rfl⟩

/-- A change of registers alone, where a condition holds. -/
theorem regs_shape_ite {s u v : State} (c : Prop) [Decidable c] (hu : ∃ r, u = { s with regs := r })
    (hv : ∃ r, v = { s with regs := r }) : ∃ r, (if c then u else v) = { s with regs := r } := by
  split
  · exact hu
  · exact hv

/-- The cycle counters of the units at work change registers alone. -/
theorem State.busy_shape (s : State) (e : Nat) : ∃ r, s.busy e = { s with regs := r } := by
  unfold State.busy
  refine regs_shape_ite _ ⟨s.regs, rfl⟩ ?_
  obtain ⟨r, h⟩ := foldl_regs_shape (fun t (p : Nat × Wick) => t.wickBusy e p.1 p.2) (fun t p => t.wickBusy_shape e p.1 p.2) s.wicks s
  dsimp only
  rw [h]
  split <;> split <;> split <;> split <;> exact ⟨_, rfl⟩

/-- All that passing time can change. -/
theorem elapse_shape (e : Nat) (s : State) :
    ∃ r tb p, elapse e s = { s with now := s.nowAfter e, dbg := s.dbgAfter e, regs := r, tbu := tb, pwr := p } := by
  unfold elapse
  have h0 : ∃ r, (if s.tclkOn && decide (s.fget pgPWR Reg.PWR_CTRL_STATE ≤ 1) then s.trace 8 0 (s.nclk e) else s) =
      { s with regs := r } := regs_shape_ite _ (s.trace_shape 8 0 (s.nclk e)) ⟨s.regs, rfl⟩
  obtain ⟨r0, h0⟩ := h0
  dsimp only
  rw [h0]
  generalize hu : ({ s with regs := r0 } : State) = u
  have h1 : ∃ r, (if u.tclkOn then u.busy e else u) = { u with regs := r } := regs_shape_ite _ (u.busy_shape e) ⟨u.regs, rfl⟩
  obtain ⟨r1, h1⟩ := h1
  rw [h1, ← hu]
  repeat' split
  all_goals exact ⟨_, _, _, rfl⟩

/-- The device's time passes unless it is frozen; the time of ACLK always, the Snuffers' unless they are frozen with it. -/
theorem elapse_now (e : Nat) (s : State) (hf : s.frozen = false) : (elapse e s).now = s.now + e := by
  obtain ⟨_, _, _, h⟩ := elapse_shape e s; rw [h]; simp [State.nowAfter, hf]
theorem elapse_realNow (e : Nat) (s : State) : (elapse e s).realNow = s.realNow + e := by
  obtain ⟨_, _, _, h⟩ := elapse_shape e s; rw [h]
  unfold State.realNow State.nowAfter State.dbgAfter
  split <;> simp <;> omega
theorem elapse_snNow (e : Nat) (s : State) (hf : s.flag pgDBG Reg.DBG_FRZ_SNUFFERS = false) :
    (elapse e s).snNow = s.snNow + e := by
  obtain ⟨_, _, _, h⟩ := elapse_shape e s; rw [h]
  unfold State.snNow State.nowAfter State.dbgAfter
  split <;> simp [hf] <;> omega
@[simp] theorem elapse_mem (e : Nat) (s : State) : (elapse e s).mem = s.mem := by
  obtain ⟨_, _, _, h⟩ := elapse_shape e s; rw [h]
@[simp] theorem elapse_jobs (e : Nat) (s : State) : (elapse e s).jobs = s.jobs := by
  obtain ⟨_, _, _, h⟩ := elapse_shape e s; rw [h]
@[simp] theorem elapse_frm (e : Nat) (s : State) : (elapse e s).frm = s.frm := by
  obtain ⟨_, _, _, h⟩ := elapse_shape e s; rw [h]
@[simp] theorem elapse_pending (e : Nat) (s : State) : (elapse e s).pending = s.pending := by
  obtain ⟨_, _, _, h⟩ := elapse_shape e s; rw [h]
@[simp] theorem elapse_out (e : Nat) (s : State) : (elapse e s).out = s.out := by
  obtain ⟨_, _, _, h⟩ := elapse_shape e s; rw [h]

/-- The cycle counters stand on the pages of the Wicks and of the CCU, the PRU and the XCU. -/
theorem State.reg_busy (s : State) (e : Nat) {p i o : Nat} (h : p ≠ pgCCU) (h' : p ≠ pgPRU) (h'' : p ≠ pgXCU)
    (hw : ∀ w, p ≠ pgWck w) (hi : i < 256) (ho : o < 4096) : (s.busy e).reg p i o = s.reg p i o := by
  have other : ∀ (t : State) (page : Nat) (f : Fld) (n : Nat), p ≠ page → f.off < 4096 → (t.fwrap page f n).reg p i o = t.reg p i o :=
    fun t page f n hp hf => State.reg_fset_other _ _ _ (regKey_ne_of_page (Ne.symm hp) (by decide) hi hf ho)
  have wick : ∀ (t : State) (w : Nat) (x : Wick), (t.wickBusy e w x).reg p i o = t.reg p i o := by
    intro t w x
    have key : ∀ j f, f < 4096 → j < 256 → regKey (pgWck w) j f ≠ regKey p i o :=
      fun j f hf hj => regKey_ne_of_page (Ne.symm (hw w)) hj hi hf ho
    unfold State.wickBusy State.setCtr64
    split
    · rfl
    · dsimp only
      split
      · unfold State.fadd State.faddI State.fsetI
        rw [State.reg_setReg_other _ _ (key 0 _ (by decide) (by decide)), State.reg_setReg_other _ _ (key 1 _ (by decide) (by decide)),
          State.reg_setReg_other _ _ (key 0 _ (by decide) (by decide))]
      · rw [State.reg_setReg_other _ _ (key 1 _ (by decide) (by decide)), State.reg_setReg_other _ _ (key 0 _ (by decide) (by decide))]
  have fold : ∀ (l : List (Nat × Wick)) (t : State), (l.foldl (fun t p => t.wickBusy e p.1 p.2) t).reg p i o = t.reg p i o := by
    intro l
    induction l with
    | nil => intro t; rfl
    | cons q l ih => intro t; rw [List.foldl_cons, ih, wick]
  unfold State.busy
  split
  · rfl
  · dsimp only
    generalize hu : s.wicks.foldl (fun t p => t.wickBusy e p.1 p.2) s = u
    have hu : u.reg p i o = s.reg p i o := hu ▸ fold _ _
    repeat' split
    all_goals
      simp only [other _ pgCCU Reg.CCU_PUB_WAIT_COUNT _ h (by decide), other _ pgCCU Reg.CCU_BUSY_COUNT _ h (by decide),
        other _ pgPRU Reg.PRU_BUSY_COUNT _ h' (by decide), other _ pgXCU Reg.XCU_BUSY_COUNT _ h'' (by decide), hu]

/-- The registers of pages other than DBG, TBU and those of the cycle counters stay while time passes. -/
theorem reg_elapse (e : Nat) (s : State) {p i o : Nat} (h : p ∉ [pgDBG, pgTBU, pgCCU, pgPRU, pgXCU]) (hw : ∀ w, p ≠ pgWck w)
    (hi : i < 256) (ho : o < 4096) : (elapse e s).reg p i o = s.reg p i o := by
  simp only [List.mem_cons, List.not_mem_nil, or_false, not_or] at h
  obtain ⟨h, h', h2, h3, h4⟩ := h
  unfold elapse
  dsimp only
  generalize hg : (if s.tclkOn && decide (s.fget pgPWR Reg.PWR_CTRL_STATE ≤ 1) then s.trace 8 0 (s.nclk e) else s) = u
  have h1 : u.reg p i o = s.reg p i o := by
    rw [← hg]
    split
    · exact s.reg_trace _ _ _ h hi ho
    · rfl
  generalize hv : (if u.tclkOn then u.busy e else u) = v
  have h1 : v.reg p i o = s.reg p i o := by
    rw [← hv, ← h1]
    split
    · exact u.reg_busy e h2 h3 h4 hw hi ho
    · rfl
  repeat' split
  all_goals first
    | exact h1
    | rw [State.reg_fset_other _ _ _ (regKey_ne_of_page (Ne.symm h') (by decide) hi (by decide) ho),
        State.reg_fset_other _ _ _ (regKey_ne_of_page (Ne.symm h') (by decide) hi (by decide) ho)]
      exact h1

/-- A page below those of the Lanterns is no Wick's. -/
theorem ne_pgWck_of_lt {p : Nat} (h : p < 0x200) (w : Nat) : p ≠ pgWck w := by unfold pgWck pgLantern; omega

end Sys2Proof.Machine
end

