-- ==== Sys2Proof/Machine/Defaults.lean ====
section
/-!
DEFINITION. Defaults.lean: the default configuration, as far as the spec gives it: the schedule and the placement of the
channels (02 Tables 5 and 7, R46), the tag allowances (03 Table 12), the Snuffer table (11 Tables 2 and 8), and the
Regulator's classes, slots, designated ports and guarantees (13 R325, Table 3, R329, Table 6). `lant` is the number of
Lanterns of the variant: 8, 4 or 2.
-/

namespace Sys2Proof.Machine

open Sys2Proof

/-- The Lanterns of channel A, from Lantern 0 on; the rest are channel B's (02 Table 7). -/
def defaultChanA (lant : Nat) : Nat := if lant = 8 then 6 else if lant = 4 then 3 else 1

/-- The mask of every Wick of Lanterns `lo` to `hi` - 1. -/
def lanternMask (lo hi : Nat) : BitVec 512 := BitVec.ofNat 512 (2 ^ (64 * hi) - 2 ^ (64 * lo))

/-- The Wick set of a partition (02 R46). -/
def defaultWicks (lant p : Nat) : BitVec 512 :=
  if p = 1 then lanternMask 0 (defaultChanA lant)
  else if p = 2 then lanternMask (defaultChanA lant) lant
  else if p = 3 ∨ p = 4 then lanternMask 0 lant
  else 0

/-- The criticality of a partition (02 R46). -/
def defaultCrit (p : Nat) : Option Nat := if p = 0 ∨ p = 3 then none else if p = 1 ∨ p = 2 then some 3 else some 0

/-- The windows of both groups (02 Table 5): `own` is the channel's partition; KIND 1 is self-test. -/
def defaultWins (g own : Nat) : List WinCfg :=
  [ { group := g, k := 0, start := 0, len := 41000, part := own, kind := 0 },
    { group := g, k := 1, start := 41000, len := 1500, part := 3, kind := 1 },
    { group := g, k := 2, start := 42500, len := 2500, part := 4, kind := 0 },
    { group := g, k := 3, start := 45000, len := 5000, part := own, kind := 0 } ]

/-- LMP_GROUP_MAP: channel A's Lanterns in group 0, channel B's in group 1 (02 Table 7). -/
def defaultGroups (lant : Nat) : Nat :=
  (List.range lant).foldl (fun a n => a + (if n < defaultChanA lant then 0 else 2 ^ (3 * n))) 0

/-- The frame record (02 R42, Tables 2 and 5). -/
def defaultFrame (lant : Nat) : FrameCfg :=
  { FrameCfg.empty with groupMap := defaultGroups lant, wins := defaultWins 0 1 ++ defaultWins 1 2 }

/-- The classes of a partition (13 R325). -/
def defaultClasses (p : Nat) : List Nat :=
  match p with
  | 0 => [4, 5]
  | 1 => [0, 1, 2, 4, 5]
  | 2 => [0, 1, 3, 4]
  | 3 => [5]
  | 4 => [6]
  | 5 => [6]
  | _ => [7]

/-- RGL_PCLASS: bit 8p + c where partition p holds class c (13 R325). -/
def defaultPclass : BitVec 64 :=
  BitVec.ofNat 64 ((List.range 8).foldl (fun a p => a + (defaultClasses p).foldl (fun b c => b + 2 ^ (8 * p + c)) 0) 0)

/-- The slots of a port, class 0 first (13 Table 3); the ports of absent Lanterns and ports 27 to 31 have none. -/
def defaultPortSlots (lant port : Nat) : List Nat :=
  if port < 8 then
    (if port < defaultChanA lant then [8, 0, 320, 0, 16, 64, 64, 32]
     else if port < lant then [8, 0, 0, 320, 16, 64, 64, 32]
     else [0, 0, 0, 0, 0, 0, 0, 0])
  else if port = 8 then [14, 8, 32, 32, 16, 8, 8, 8]
  else if port = 9 then [0, 0, 32, 16, 16, 32, 16, 14]
  else if port = 10 then [0, 0, 32, 16, 0, 14, 0, 0]
  else if port = 11 ∨ port = 12 then [0, 0, 16, 8, 0, 6, 0, 0]
  else if 13 ≤ port ∧ port ≤ 17 then [0, 62, 0, 0, 0, 0, 0, 0]
  else if port = 18 then [0, 0, 16, 16, 16, 0, 14, 0]
  else if port = 19 ∨ port = 20 then [0, 0, 0, 0, 96, 0, 16, 14]
  else if 21 ≤ port ∧ port ≤ 23 then [2, 0, 0, 0, 0, 0, 0, 0]
  else if port = 24 then [0, 0, 0, 0, 0, 14, 0, 0]
  else if port = 25 then [0, 0, 0, 0, 0, 30, 0, 0]
  else if port = 26 then [0, 0, 0, 0, 0, 0, 0, 126]
  else [0, 0, 0, 0, 0, 0, 0, 0]

/-- The slots of every (port, class), as the Regulator's record lists them. -/
def defaultSlots (lant : Nat) : List (Nat × Nat × Nat) :=
  (List.range 32).flatMap fun n => (List.range 8).map fun c => (n, c, (defaultPortSlots lant n).getD c 0)

/-- The designated TC0 ports (13 R329). -/
def defaultTc0Ports (lant : Nat) : List Nat := [21, 22, 23, 0, defaultChanA lant]

/-- The guarantees, in 100 MB/s (13 Table 6); the table names no window. -/
def defaultGuars : List GuarCfg :=
  [ { part := 1, tc := 1, bw := 40, win := 0 }, { part := 1, tc := 2, bw := 1100, win := 0 },
    { part := 1, tc := 4, bw := 80, win := 0 }, { part := 1, tc := 5, bw := 200, win := 0 },
    { part := 2, tc := 1, bw := 20, win := 0 }, { part := 2, tc := 3, bw := 400, win := 0 },
    { part := 2, tc := 4, bw := 40, win := 0 }, { part := 3, tc := 5, bw := 100, win := 0 },
    { part := 4, tc := 6, bw := 200, win := 0 }, { part := 5, tc := 6, bw := 100, win := 0 },
    { part := 6, tc := 7, bw := 50, win := 0 }, { part := 7, tc := 7, bw := 50, win := 0 } ]

/-- The urgency thresholds of masters 0 to 4 (13 R334). -/
def defaultUrg : List (Nat × Nat × Nat × Nat) := (List.range 5).map fun m => (m, 128, 192, 230)

/-- The Regulator's record. -/
def defaultRgl (lant : Nat) : RglCfg :=
  { pclass := defaultPclass, slots := defaultSlots lant
    tc0port := BitVec.ofNat 32 ((defaultTc0Ports lant).foldl (fun a n => a + 2 ^ n) 0)
    derate := 0xB852, urg := defaultUrg, guars := defaultGuars }

/-- The resources of a partition. -/
def defaultPart (lant p : Nat) : PartCfg :=
  { PartCfg.empty with
    crit := defaultCrit p, wicks := defaultWicks lant p, tagMin := (defaultTags p).1, tagMax := (defaultTags p).2 }

/-- The action of an aggregator line (11 Table 8): 2 STOP, 1 COUNT, 0 REPORT. -/
def defaultAction (n : Nat) : Nat :=
  if n = 184 ∨ n = 359 ∨ n = 384 ∨ n = 386 then 2
  else if n = 1 ∨ n = 2 ∨ n = 153 ∨ (304 ≤ n ∧ n ≤ 335) ∨ n = 368 ∨ n = 369 ∨ n = 385 then 1
  else 0

/-- The Snuffer table as the table tools write it where the integrator names nothing (11 Table 2); the fields without a
default are zero here. -/
def defaultTable : SnTable :=
  { SnTable.empty with
    chanA := 1, chanB := 2, pubUs := 45000, periodUs := 50000, watch := 30000, poll := 10, guard_ := 200
    m1 := 0x3E99999A, agreeMin := 0xF333, critR := 3, minCmp := 100, holdHzn := 1500, hbEn := true, hbTmo := 10
    tickTol := 500, action := (List.range 512).map defaultAction }

/-- The defaults of a camera stream entry (16 Table 2) and of an Ethernet stream (09 R221, R223). -/
def defaultCamClose : Nat := 10000
def defaultEthClose : Nat := 1000
def defaultEthLate : Nat := 256

/-- The default configuration: what the tables give, and nothing in the fields for which they give no default. -/
def Cfg.default (lant : Nat) : Cfg :=
  { Cfg.empty with
    types := [1, 2, 3, 4, 5, 6, 7]
    parts := (List.range 8).map (defaultPart lant), frame := defaultFrame lant, rgl := defaultRgl lant
    snA := { head := ObjHead.empty, table := defaultTable }, snB := { head := ObjHead.empty, table := defaultTable } }

end Sys2Proof.Machine
end

