-- ==== Sys2Proof/Tests/Slice0.lean ====
section
/-!
SUPPORT. Slice0.lean: tests. The smoke test of WellFormed; commands worked out from the spec's tables and examples; and for
every obligation with hypotheses a state and operands that meet them.
-/

namespace Sys2Proof.Tests

set_option Elab.async false

open Sys2Proof Sys2Proof.Machine

set_option maxRecDepth 100000

/-- Instruction fields of zeros. -/
def sz : SFields := SFields.mk 0 0 0 false 0 0
def vz : VFields := VFields.mk 0 0 0 0 0 false 0 0 false false 0 0 0
def mz : MFields := MFields.mk 0 0 false 0 0 false 0 0 0 false

/-! ## WellFormed refuses each kind of ill-formed operand -/

theorem smoke_wellFormed : (Instr.queueEnable (.host 1 8) 7).wellFormed = true ∧ (Instr.vld 511 mz (.stored 0)).wellFormed = true := by
  decide +kernel

theorem smoke_ill_formed : ∀ c ∈ ([.queueEnable (.host 2 0) 0, .queueEnable (.host 0 9) 0, .queueEnable .flint 8,
    .registerWrite .flint 4105 0 4 0, .registerWrite .flint 0 4096 4 0, .registerWrite .flint 0 0 3 0, .doorbell .flint 262144 0 false,
    .contextFetchDone 0 (.stored 0x1000000000000), .hostReadTimeout .flint 0 16, .jobStart 65536, .unitPlace 0 65536 [] .ok,
    .unitPlace 0 0 [512] .ok, .sadd 512 sz, .dmaCommandComplete 0 4 .ok, .combineFold 0 64 0 .ok, .regroupRowDone 64 .ok,
    .pipeCheckStart 64, .aggregatorPulse .a 512, .snufferStartTestsDone .a .pass 65536, .refreshDue 16 0,
    .refreshDue 0 2] : List Instr), c.wellFormed = false := by
  decide +kernel

theorem smoke_ill_formed_io : ∀ c ∈ ([.guaranteeWindowEnd 8 0 0, .guaranteeWindowEnd 0 8 0, .retrainDone 0 0 256 true,
    .reservoirBondTestDone 8 0 .pass, .reservoirBondTestDone 0 64 .pass, .lctlNak ⟨.lc 8 0, true⟩ 0, .lctlNak ⟨.ring 8, true⟩ 0,
    .flitReceive ⟨.guest, true⟩ [] 0, .lctlNak ⟨.guest, true⟩ 256, .lctlWidth ⟨.guest, true⟩ 8 0, .lctlWidth ⟨.guest, true⟩ 2 4,
    .lctlCredit ⟨.guest, true⟩ [], .csi2Packet 16 0 0 true true [], .csi2Packet 0 16 0 true true [], .csi2Packet 0 0 64 true true [],
    .csi2FrameStart 0 0 65536 true 0, .inputVersionClose 2 0 0, .ethLinkDown 8, .ethTxLate 0 8 0,
    .apertureAccess .flint 64 0 none 0 .ok, .apertureAccess .flint 0 0x40000000 none 0 .ok, .pcieLinkDown 2,
    .functionLevelReset 0 9, .wake 2048 0, .freezeComplete 65536, .dbgReg 0x1000000000000 0 0, .dbgReg 0 4 0,
    .dbgMem 0x1000000000000, .bypass 256, .ethLinkUp 0 8] : List Instr), c.wellFormed = false := by
  decide +kernel

/-! ## The device that the tests use -/

/-- A released part of 8 Lanterns, all in service. -/
def dev : State :=
  (({ State.reset with powered := true, released := true }.fset pgFUS Reg.FUS_CAPS_LANTERNS 8).fset pgLNKC Reg.LNK_INSVC_MASK 0xFF)

/-- PF0 of port H0. -/
def pf : Writer := .host 0 0

theorem test_dev_awake : dev.awake = true ∧ dev.lanterns = 8 := by decide +kernel


/-- Run a command and look at the next state. -/
def after (c : Instr) (s : State) (p : State → Bool) : Bool :=
  match exec c s with
  | .next t => p t
  | _ => false

/-! ## Frames, registers, time base -/

/-- Ticks run, the counter as their source, the next tick due now. -/
def ticking : State := dev.fset pgLMP Reg.LMP_FRAME_CTRL_ENABLE 1

/-- Ticks come from FTICK_IN, rising edges, the last tick 45 ms ago. -/
def ftick (first : Bool) : State :=
  { ticking with now := 45000 * 250, frm := { ticking.frm with tickSrc := true, tickAt := some 0, firstPending := first } }

theorem witness_TickCommandsComplete :
    (ticking.awake = true ∧ ticking.ticking = true ∧ ticking.frm.tickSrc = false ∧
      ticking.dueCtr 0 (ticking.tbu.next / nsUnit) = true) ∧
    ((ftick true).awake = true ∧ (ftick true).ticking = true ∧ (ftick true).frm.tickSrc = true ∧ (ftick true).frm.firstPending = true ∧
      true = !(ftick true).frm.tickEdge) ∧
    (∀ e ∈ [0, 10000 * 250], 9 * ((ftick false).frm.periodUs * 250) ≤ ((elapse e (ftick false)).now - (ftick false).tickBase) * 10 ∧
      ((elapse e (ftick false)).now - (ftick false).tickBase) * 10 ≤ 11 * ((ftick false).frm.periodUs * 250)) ∧
    (({ ftick false with now := 11249999 }).now - (ftick false).tickBase) * 10 < 9 * ((ftick false).frm.periodUs * 250) ∧
    (ftick false).tickBase + (ftick false).frm.periodUs * 250 * 11 / 10 - (ftick false).now = 10000 * 250 := by
  decide +kernel

theorem witness_FrameRegistersTakeEffectChecked :
    dev.flag pgLMP Reg.INT_STATUS_ERR = false ∧
    (dev.fget pgLMP Reg.LMP_PLAN_OFFSET_OFFSET + 1000 ≤ dev.fget pgLMP Reg.LMP_PUB_OFFSET_OFFSET ∧
      dev.fget pgLMP Reg.LMP_PUB_OFFSET_OFFSET + 1000 ≤ dev.frm.periodUs) ∧
    ¬ (((dev.fset pgLMP Reg.LMP_PUB_OFFSET_OFFSET 40999).fget pgLMP Reg.LMP_PLAN_OFFSET_OFFSET + 1000 ≤
      (dev.fset pgLMP Reg.LMP_PUB_OFFSET_OFFSET 40999).fget pgLMP Reg.LMP_PUB_OFFSET_OFFSET)) ∧
    (dev.fset pgLMP Reg.LMP_MAINT_WIN_START 49800).fget pgLMP Reg.LMP_MAINT_WIN_START +
      dev.fget pgLMP Reg.LMP_MAINT_WIN_LEN ≤ dev.frm.periodUs ∧
    dev.frm.periodUs < (dev.fset pgLMP Reg.LMP_MAINT_WIN_START 49801).fget pgLMP Reg.LMP_MAINT_WIN_START +
      dev.fget pgLMP Reg.LMP_MAINT_WIN_LEN := by
  decide +kernel

theorem witness_schedules :
    schedErr [(0, 1, 3, 2)] 100 = some .reservedNonzero ∧ schedErr [(0, 1, 2, 1)] 100 = some .partitionViolation ∧
    schedErr [(0, 101, 3, 1)] 100 = some .lengthExceedsExtent ∧ schedErr [(0, 51, 3, 1), (50, 50, 1, 0)] 100 = some .partitionViolation ∧
    schedErr [(0, 50, 3, 1), (50, 50, 1, 0)] 100 = none := by
  decide +kernel

theorem witness_FrameEnableWrite :
    (∀ s ∈ [dev, ticking], s.regsUp pf = true ∧ s.reaches pf pgLMP = true ∧ s.mayWrite pf pgLMP = true ∧
      s.pageBlock pgLMP = .lmpFrame) ∧ ticking.ticking = true ∧ dev.ticking = false ∧
    (let s1 := dev.putFields pgLMP 0 .lmpFrame 0x040 1 1
     deadlinesOk s1.takeUpdate.takeFrameRegs.frm.pubUs s1.takeUpdate.takeFrameRegs.frm.planUs
       s1.takeUpdate.takeFrameRegs.frm.periodUs = true) := by
  decide +kernel

theorem test_enable : after (.frameEnableWrite pf 1) dev (fun t => t.ticking) = true ∧
    after (.frameEnableWrite pf 0) ticking (fun t => t.ticking && t.frm.stopPending) = true := by decide +kernel

/-- `dev` with the Trimmer's page locked. -/
def lockedTrm : State := dev.fset pgTRM Reg.LOCK_LOCKED 1

theorem witness_RegisterWriteFollowsAccessCodes :
    (∀ s ∈ [dev, lockedTrm], s.regsUp pf = true ∧ s.reaches pf pgTRM = true ∧ s.mayWrite pf pgTRM = true ∧
      s.pageBlock pgTRM = .trm ∧ s.flag pgTRM Reg.INT_STATUS_ERR = false) ∧
    lockedTrm.flag pgTRM Reg.LOCK_LOCKED = true ∧ (dev.pageBlock pgSNA = .sna ∧ dev.reaches pf pgSNA = true) ∧
    ((0 : Word32) &&& accMask .trm 0x040 [.rwl]) != (lockedTrm.reg pgTRM 0 0x040 &&& accMask .trm 0x040 [.rwl]) := by
  decide +kernel

theorem test_register_write : after (.registerWrite pf pgTRM 0x04C 4 0xFFFFFFFF) dev (fun t => t.reg pgTRM 0 0x04C == 0x3FF) = true ∧
    after (.registerWrite pf pgTRM 0x04C 4 0xFFFFFFFF) lockedTrm (fun t => t.reg pgTRM 0 0x04C == dev.reg pgTRM 0 0x04C &&
      t.fget pgTRM Reg.ERR_CODE_CODE == 3) = true := by decide +kernel

/-- `dev` with both interrupt bits of the TBU page set and enabled, its vector open. -/
def pendTbu : State := { (dev.setReg pgTBU 0 0x018 3).setReg pgTBU 0 0x01C 3 with msixTab := [(3, 0)] }

theorem witness_PageHeadWrites :
    (∀ w ∈ [pf, .flint], pendTbu.regsUp w = true ∧ pendTbu.reaches w pgTBU = true ∧ pendTbu.mayWrite w pgTBU = true) ∧
    pendTbu.pageBlock pgTBU = .tbu ∧ pendTbu.pageBlock pgTBU ≠ .sna ∧ pendTbu.pageBlock pgTBU ≠ .snb ∧
    pendTbu.fget pgTBU Reg.INT_ROUTE_VEC < msixCount (fnOf (pendTbu.owner pgTBU)) ∧
    (let k := msixKey (pendTbu.fget pgTBU Reg.INT_ROUTE_PORT) (fnOf (pendTbu.owner pgTBU)) (pendTbu.fget pgTBU Reg.INT_ROUTE_VEC)
     pendTbu.msixMasked k = false ∧ { pendTbu with msixTab := [] }.msixMasked k = true) ∧
    pendTbu.reg pgTBU 0 0x018 &&& 1 ≠ 0#32 ∧
    pendTbu.reg pgTBU 0 0x018 &&& ~~~1 &&& pendTbu.reg pgTBU 0 0x01C ≠ 0#32 ∧
    pendTbu.portUp (pendTbu.fget pgTBU Reg.INT_ROUTE_PORT) = true ∧ pendTbu.owner pgTBU = 0 ∧
    dev.reg pgTBU 0 0x018 &&& 1 = 0#32 := by
  decide +kernel

theorem test_status_clear : after (.intStatusClear pf pgTBU 1) pendTbu (fun t => t.out.length == 1 && t.reg pgTBU 0 0x018 == 2) = true := by
  decide +kernel

theorem witness_RegisterAccessRefusals :
    dev.regsUp pf = true ∧ dev.reaches pf 0xFFF = false ∧ dev.reaches pf pgTBU = true ∧ dev.reaches pf (pgQueue 1) = true ∧
    dev.mayWrite pf (pgQueue 1) = false ∧ dev.pageBlock (pgQueue 1) = .lmpQueue ∧ dev.pageBlock (pgQueue 1) ≠ .sna ∧
    dev.pageBlock (pgQueue 1) ≠ .snb := by
  decide +kernel

theorem witness_CounterReadsLatch :
    dev.regsUp pf = true ∧ dev.flag pgDBG Reg.DBG_FRZ_SCANNED = false ∧ dev.reaches pf (pgQueue 7) = true ∧
    dev.pageBlock (pgQueue 7) = .lmpQueue ∧ dev.reaches pf pgTBU = true ∧ dev.pageBlock pgTBU = .tbu := by
  decide +kernel

theorem witness_CaptureKeepsFirstError :
    dev.flag pgTBU Reg.INT_STATUS_ERR = false ∧ (dev.capture pgTBU .misaligned 0xFFFFFFFFFFFF).flag pgTBU Reg.INT_STATUS_ERR = true ∧
    dev.pend pgTBU = false ∧ dev.msixMasked (msixKey 0 0 0) = true ∧ ((dev.setReg pgTBU 0 0x01C 1).reg pgTBU 0 0x01C).getLsbD 0 = true := by
  decide +kernel

/-- `dev` whose servo PF0 owns; in holdover or not. -/
def servo (st : Nat) : State := (dev.fset pgTBU Reg.TBU_SERVO_OWNER 1).fset pgTBU Reg.TBU_STATE_STATE st

theorem witness_TimeBaseWrites :
    (∀ s ∈ [servo 1, servo 2], s.regsUp pf = true ∧ s.reaches pf pgTBU = true ∧ s.mayWrite pf pgTBU = true ∧
      s.pageBlock pgTBU = .tbu ∧ s.servoOwner pf = true ∧ s.isGm = false) ∧ (servo 1).tbuSt ≠ 2 ∧ (servo 2).tbuSt = 2 ∧
    dev.servoOwner pf = false ∧ ((servo 1).fset pgTBU Reg.TBU_SERVO_GM 1).isGm = true ∧
    incrOk ((4 : Word32).toNat % 256 * 2 ^ 32 + (servo 1).tbu.fracStage) = true ∧
    incrOk ((5 : Word32).toNat % 256 * 2 ^ 32 + (servo 1).tbu.fracStage) = false ∧ (servo 1).reg pgTBU 0 0x058 = 0 ∧
    (1000 : Word32).toInt.natAbs ≤ 1000 ∧ ¬ (1001 : Word32).toInt.natAbs ≤ 1000 := by
  decide +kernel

/-- A port that hears Syncs of a grandmaster, a slew of one step and an alarm armed for now. -/
def synced : State :=
  let s := (dev.fset (pgETH 0) Reg.ETH_PORT_RATE 5).fset pgTBU Reg.TBU_ALARM_CTRL_ARM 1
  { s with tbu := { s.tbu with gm := some 1, lastSync := some 0, syncEdges := 10, slew := 5 } }

theorem witness_TimeBaseEvents :
    synced.awake = true ∧ synced.servoPortUp = true ∧ synced.isGm = false ∧ dev.tbu.gm = none ∧ synced.tbu.gm = some 1 ∧
    (1 : Word64) ≠ 2 ∧ synced.tbuSt ≠ 2 ∧ synced.tbu.lastSync = some 0 ∧
    0 + Nat.max 1 (synced.fget pgTBU Reg.TBU_SERVO_MISS) * synced.tbu.syncEdges - synced.now = 30 ∧ synced.tclkOn = true ∧
    synced.tbu.slew ≠ 0 ∧ (synced.tbu.slew.natAbs + slewStep - 1) / slewStep = 1 ∧
    synced.flag pgTBU Reg.TBU_ALARM_CTRL_ARM = true ∧ synced.dueCtr 0 synced.alarmNs = true := by
  decide +kernel


theorem witness_StepKeepsSoundState : { dev with pending := [.coolAlert] }.sound = true ∧
    (match step { dev with pending := [.coolAlert] } with | .next t => t.pending == [] | _ => false) = true := by
  decide +kernel
/-! ## Queues and jobs -/

/-- Eight partitions of 256 queues; P0 owns a region of 2 MiB at 0. -/
def cfg : Cfg :=
  { Cfg.empty with
    parts := (List.range 8).map fun p => { PartCfg.empty with crit := if p = 0 ∨ p = 3 then none else some 3, wicks := 0xF, qbase := 256 * p, qcount := 256, tagMin := 4, tagMax := 100 }
    regions := [DdrRegion.mk 0 0x200000 0 0xFF 0xFF] }

/-- The device with that configuration, 64 GiB, every class held, a buffer table of P0 at 0x10000. -/
def world : State :=
  let s := ({ dev with cfg := cfg }.fset pgDMC Reg.DMC_CAPACITY_GIB 64).setReg pgRGL 0 0x06C 0xFFFFFFFF
  s.fset (pgQueue 0) Reg.LMP_BUFTAB_LO_BASE (0x10000 / 64)

/-- An enabled ring of 16 descriptors at 4,096. -/
def ringQ : QCtx := { QCtx.zero with en := true, base := 1, log2size := 4 }

/-- `world` whose queue 0 has this context, in the cache. -/
def withQ (q : QCtx) : State := { world.setQueue 0 q with lmp := { Lmp.zero with ctxCache := [0] } }

/-- The setup of queue 0 for an ENABLE: a ring of 16 at 4,096. -/
def setup : State := (world.fset (pgQueue 0) Reg.LMP_QBASE_LO_BASE 1).fset (pgQueue 0) Reg.LMP_QCFG_LOG2SIZE 4

theorem witness_QueueCommandsComplete :
    (∀ s ∈ [setup, withQ ringQ], s.regsUp pf = true ∧ s.reaches pf (pgQueue 0) = true ∧ s.mayWrite pf (pgQueue 0) = true ∧
      s.pageBlock (pgQueue 0) = .lmpQueue ∧ s.ownsQueue 0 (s.selQid 0) = true) ∧
    (setup.fset (pgQueue 0) Reg.LMP_QSEL_QID 256).ownsQueue 0 ((setup.fset (pgQueue 0) Reg.LMP_QSEL_QID 256).selQid 0) = false ∧
    (setup.queue 0).en = false ∧ setup.enableRefusal 0 0 = none ∧ (setup.fset (pgQueue 0) Reg.LMP_QCFG_LOG2SIZE 3).enableRefusal 0 0 = some .countExceedsLimit ∧
    ((withQ ringQ).queue 0).en = true ∧ ((withQ { ringQ with halt := true }).queue 0).halt = true ∧ ringQ.head = ringQ.tail ∧
    (let q := { ringQ with halt := true, tail := 1 }; q.haltDoorbell = false ∧ q.head ≠ q.tail) := by
  decide +kernel

theorem test_queue_enable : after (.queueEnable pf 0) setup (fun t => (t.queue 0).en && (t.queue 0).base == 1) = true := by decide +kernel

theorem witness_EnableRefusalsInOrder :
    setup.holdsClass 0 0 = true ∧ setup.cfg.ddrWritable 0 (setup.setupBase 0) (2 ^ 4 * 64) = true ∧
    setup.cfg.ddrWritable 0 (0x200000 - 0x400) (2 ^ 4 * 64) = true ∧ setup.cfg.ddrWritable 0 (0x200000 - 0x3C0) (2 ^ 4 * 64) = false ∧
    dev.holdsClass 0 0 = false ∧ (setup.queue 0).ret = (setup.queue 0).tail ∧
    ¬ (({ ringQ with tail := 1 } : QCtx).ret = ({ ringQ with tail := 1 } : QCtx).tail) := by
  decide +kernel

theorem witness_DoorbellFollowsTable4 :
    (withQ ringQ).awake = true ∧ (withQ ringQ).writerUp pf = true ∧ (withQ ringQ).ownsQueue (writerPart pf) 256 = false ∧
    (withQ ringQ).ownsQueue (writerPart pf) 0 = true ∧ (withQ ringQ).ctxReady 0 = true ∧ (withQ ringQ).ctxReady 1 = false ∧
    (withQ ringQ).ownsQueue (writerPart pf) 1 = true ∧ (withQ { ringQ with halt := true }).ctxReady 0 = true ∧
    ({ ringQ with halt := true } : QCtx).bellErr 0x100000000 = some .reservedNonzero ∧
    ringQ.halt = false ∧ QCtx.zero.en = false ∧ (0x100000000 : Word64).toNat / 2 ^ 32 ≠ 0 ∧ (16 : Word64).toNat / 2 ^ 32 = 0 ∧
    ((16 : Word32) - ringQ.ret).toNat ≤ 2 ^ ringQ.log2size ∧ ((16 : Word32) - ringQ.tail).toNat < 2 ^ 31 ∧
    2 ^ ringQ.log2size < ((17 : Word32) - ringQ.ret).toNat ∧ 2 ^ 31 ≤ ((0xFFFFFFFF : Word32) - ringQ.tail).toNat := by
  decide +kernel

theorem test_doorbell : after (.doorbell pf 0 16 false) (withQ ringQ) (fun t => (t.queue 0).tail == 16 && !(t.queue 0).halt) = true ∧
    after (.doorbell pf 0 17 false) (withQ ringQ) (fun t => (t.queue 0).tail == 0 && (t.queue 0).halt) = true := by decide +kernel

/-- Queue 0 with one NOP to dequeue. -/
def ready : State := withQ { ringQ with tail := 1 }

/-- Queue 0 that waits for its context, its descriptor, or a buffer-table entry. -/
def fetching (st : FetchStage) (d : Nat) : State := withQ { ringQ with tail := 1, fetch := some (Fetch.mk 5 st false d) }

theorem witness_DequeueTakesWinner :
    ready.awake = true ∧ (0, 0) ∈ ready.eligible ∧ ready.pickPart ready.eligible = some 0 ∧
    ready.pickQueue ready.eligible 0 = some 0 ∧ ready.pickTag 0 (ready.queue 0).ftc = some 0xFC00 ∧
    world.pickPart world.eligible = none ∧ ((fetching .context 0).queue 0).fetch = some (Fetch.mk 5 .context false 0) ∧
    (fetching .context 0).lmp.bells = [] := by
  decide +kernel

/-- A COPY of 64 bytes from handle 1 to handle 2 by its words, and the table entries it needs. -/
def copyD : Nat := 0x02 + 1 * 2 ^ 128 + 2 * 2 ^ 192 + 64 * 2 ^ 256
def entryAt (base : Nat) : List Byte := toLE 8 (base + 3 * 2 ^ 48) ++ toLE 8 0 ++ toLE 8 0x1000 ++ toLE 8 0
def withTab (s : State) : State := (s.store 0x10020 (entryAt 0x20000)).store 0x10040 (entryAt 0x30000)

/-- Queue 0 whose descriptor is a COPY, with both entries on chip or none. -/
def copyQ (cached : List (Nat × Nat)) : State :=
  let s := (withTab (fetching .descriptor 0)).store 4096 (toLE 64 copyD)
  { s with lmp := { s.lmp with bufCache := cached } }

/-- The same at its last entry. -/
def lastEntry : State :=
  let s := withTab (fetching (.entries false) copyD)
  { s with lmp := { s.lmp with bufCache := [(0, 1)] } }

/-- The state after the descriptor's read has passed its port. -/
def fetched (s : State) : State := s.traffic none 8 0 0 4096 64 false

theorem witness_DescriptorChecksHaltOrBind :
    ready.queueOwner 0 = some 0 ∧ (fetching .descriptor 0).awake = true ∧ ringQ.ftc = 0 ∧
    (fetching .descriptor 0).readRes 4096 64 .ok = .data ∧ (fetching .descriptor 0).region 4096 = .ddr ∧
    (let u := fetched (fetching .descriptor 0)
     ringQ.slotAddr ringQ.head = 4096 ∧ u.headChecks 0 0 0 = none ∧ u.headChecks 0 0 0xFF = some .unsupportedOpcode ∧
       u.missing .nop 0 0 false = [] ∧ u.argsDue .nop 0 0 false = false ∧ u.bodyChecks .nop 0 0 = none) ∧
    (copyQ []).loadLE 4096 64 = copyD ∧
    (let u := fetched (copyQ []); u.headChecks 0 0 copyD = none ∧ u.missing .copy 0 copyD false ≠ []) ∧
    (let u := fetched (copyQ [(0, 1), (0, 2)])
     u.missing .copy 0 copyD false = [] ∧ u.bodyChecks .copy 0 copyD = none ∧
       u.bodyChecks .copy 0 (copyD + 1 * 2 ^ 256) = some .misaligned) ∧
    ({ fetching .descriptor 0 with poison := [64] }).readRes 4096 64 .ok = .poisoned 64 := by
  decide +kernel

theorem witness_BufferEntryReadDone :
    opcOf (df copyD 0 7 0) = some .copy ∧ lastEntry.missing .copy 0 copyD false = [2] ∧
    lastEntry.region (lastEntry.entryAddr 0 2) = .ddr ∧ lastEntry.readRes (lastEntry.entryAddr 0 2) 32 .ok = .data ∧
    (let v := (lastEntry.traffic none 8 0 0 (lastEntry.entryAddr 0 2) 32 false).bufTouch 0 [2]
     v.missing .copy 0 copyD false = [] ∧ v.argsDue .copy 0 copyD false = false ∧ v.bodyChecks .copy 0 copyD = none) := by
  decide +kernel

theorem witness_HaltKeepsHead : world.queueOwner 0 = some 0 ∧ world.queueOwner 256 = some 1 ∧ (world.cfg.part 1).crit = some 3 ∧
    world.flag (pgQueue 1) Reg.INT_STATUS_ERR = false := by
  decide +kernel

/-- A job of queue 0 with this opcode, phase and descriptor. -/
def mkJob (o : Opc) (ph : JPhase) (d : Nat) : Job :=
  { ready.newJob 0 0 d 5 o with phase := ph }

/-- A state in which that job, with tag 5, is alone in flight. -/
def withJob_ (j : Job) : State := { ready with jobs := [j] }

/-- A wait for job 0 of queue 1, which has failed. -/
def failedQ : State :=
  { (withJob_ (mkJob .nop .waiting (2 ^ 64 * (1 + 2 ^ 18)))).setQueue 1 { QCtx.zero with ret := 1, tail := 1, hist := 2, errs := [.misaligned] } with out := [] }

theorem witness_JobsStartRunAndEnd :
    (withJob_ (mkJob .nop .waiting 0)).awake = true ∧ (withJob_ (mkJob .nop .waiting 0)).job 5 = some (mkJob .nop .waiting 0) ∧
    (let j := mkJob .nop .waiting 0; let s := withJob_ j
     s.jobWait j = .ok ∧ s.orderOk j = true ∧ s.readsFinal j = true ∧ s.writesFree j = true ∧ s.mapFrameOk j = true) ∧
    (let j := mkJob .nop .waiting (2 ^ 64 * (1 + 2 ^ 18)); (withJob_ j).jobWait j = .open_ ∧ failedQ.jobWait j = .cancel .misaligned) ∧
    (let j := mkJob .barrier .placed 0x01; (withJob_ j).barrierWaits j = List.replicate 6 .ok) ∧
    (let j := mkJob .barrier .placed (0x01 + 2 ^ 128 * (1 + 2 ^ 18)); waitCancel (failedQ.barrierWaits j) = some .misaligned) ∧
    (let j := mkJob .copy .placed copyD; (withJob_ j).placeFree .copy 0 = true ∧ (withJob_ j).nextPlaced .copy 0 = some j) ∧
    (mkJob .copy .taken copyD).opc = .copy ∧
    (let j := mkJob .copy .running copyD; j.fail = none ∧ j.total ≤ j.step ∧ j.opc ≠ .profile) ∧
    (let j := { mkJob .copy .running copyD with fail := some .misaligned }; j.fail = some .misaligned ∧ ∀ u ∈ j.units, u.phase ≠ .running) := by
  decide +kernel

theorem test_nop : after (.descriptorNop 5) (withJob_ (mkJob .nop .placed 0)) (fun t => (t.job 5).any fun j => j.phase == .ended && j.st == .done) = true := by
  decide +kernel

/-- A COPY that runs in place 0. -/
def copying : State :=
  let s := withTab ready
  let j := { s.newJob 0 0 copyD 5 .copy with phase := .running, total := 1 }
  { s with jobs := [j] }

theorem witness_CopyMovesBytes : copying.awake = true ∧ ∃ j, copying.inPlace .copy 0 = some j ∧ j.phase = .running ∧ j.step < j.total ∧
    j.fail = none ∧ copying.readsLive j = true ∧ (j.ref 0).addr = 0x20000 ∧ (j.ref 1).addr = 0x30000 ∧ df j.desc 4 31 0 = 64 ∧
    j.tc < 8 ∧ copyPart 64 0 (decide (0x20000 < 0x30000) && decide (0x30000 < 0x20000 + 64)) = (0, 64) ∧
    copying.readsOk j.part 0x20000 64 ∧ copying.writesOk j.part 0x30000 64 := by
  unfold State.readsOk State.writesOk State.open_
  exact ⟨by decide +kernel, _, rfl, by decide +kernel⟩

theorem test_copy : after (.copyUnitDone 0 .ok) (copying.store 0x20000 [7]) (fun t => readByte t.mem 0x30000 == 7) = true := by
  decide +kernel

theorem witness_RetirementWritesBack :
    (let j := mkJob .nop .ended 0; let s := withJob_ j
     (s.queue 0).ret ≠ (s.queue 0).tail ∧ s.jobAt 0 (s.queue 0).ret = some j ∧ j.frameJob = false ∧ s.region 4096 = .ddr ∧
       (s.firstDead 4096 8).isNone = true ∧ s.firstPoison 4096 8 = none) ∧ (mkJob .nop .running 0).phase ≠ .ended ∧
    frameBelow 0 (dev.epoch + 1) = true ∧ frameBelow 0 dev.epoch = false := by
  decide +kernel

theorem test_retire : after (.jobRetire 0) (withJob_ { mkJob .nop .ended 0 with st := .done })
    (fun t => readByte t.mem 4096 == 4 && (t.queue 0).ret == 1 && t.jobs == []) = true := by decide +kernel


/-! ## Wicks -/

/-- The fields of the instruction formats, all zero. -/
def dz : DFields := DFields.mk false 0 0 0 0 0 0 0
def tz : TFields := TFields.mk 0 false 0 0 0 false false 0 .none

/-- An image with one instruction, a shape of one row of 64 bytes, and a group of one unit's sum of 64 INT32. -/
def img (enc : Nat) : TileImage :=
  { gang := false, dur := 100, nshared := 0, nref := 0, nscal := 0, shapes := [Shape.mk 1 1 1 0 0 0 0]
    groups := [Machine.Group.mk 0 0 1 0 1 0 4 4 0 0 0], insns := [BitVec.ofNat 64 enc], size := 200 }

/-- A Wick that runs unit 0 of job 5, this instruction next. -/
def wk (enc : Nat) : Wick := { Wick.zero with st := .running, tag := 5, image := some (img enc) }

/-- A job of one unit on Wick 0. -/
def unitJob : Job :=
  { mkJob .tileRun .running (2 ^ 152) with total := 1, image := some (img 0), units := [WUnit.mk 0 .running 0 0 false] }

/-- Wick 0 with this register file and instruction. -/
def onW (x : Wick) : State := { ready with jobs := [unitJob] }.setWick 0 x

theorem test_padBase : padBase 357 = 0x8116500000 ∧ sconceOf 357 = 44 := by decide +kernel

theorem test_encodings :
    let m := TFields.mk 1 false 0 10 11 true true 0
    encT (m (.trd 0 0 0 1 true)) = 0x1400000106B50150 ∧ encT (m (.trd 0 0 31 0 false)) = 0x03E0000106B50150 ∧
    encT (m (.vst 0 12)) = 0x0003000206B50150 := by
  decide +kernel

theorem witness_ScalarInstructionsCompute : (onW (wk 0)).live = true ∧
    (∀ op ∈ [0x10, 0x11, 0x12, 0x13, 0x14, 0x15, 0x16, 0x17, 0x18, 0x19, 0x1A],
      ((onW (wk (encS op (SFields.mk 3 4 5 true 1 7)))).wick 0).issues (encS op (SFields.mk 3 4 5 true 1 7)) = true) := by
  decide +kernel

theorem test_sadd_wraps :
    let f := SFields.mk 3 4 0 true 0 2
    after (.sadd 0 f) (onW ((wk (encS 0x10 f)).setS 4 0xFFFFFFFF)) (fun t => (t.wick 0).sreg 3 == 1 && (t.wick 0).pc == 1) = true := by
  decide +kernel

theorem test_sshl_masks :
    let f := SFields.mk 3 4 0 true 0 33
    after (.sshl 0 f) (onW ((wk (encS 0x16 f)).setS 4 5)) (fun t => (t.wick 0).sreg 3 == 10) = true := by
  decide +kernel

/-- A LOOP of 3 passes over 2 instructions; the same by S4. -/
def lp (csrc : Bool) : LoopF := LoopF.mk 1 csrc 4 3 2

theorem witness_SequencerLoops :
    ((onW (wk (encLoop (lp false)))).wick 0).issues (encLoop (lp false)) = true ∧
    (let x := ((onW ((wk (encLoop (lp true))).setS 4 65536)).wick 0); x.issues (encLoop (lp true)) = true ∧ 65535 < (x.sreg 4).toNat) ∧
    (let x := ((onW ((wk (encLoop (lp true))).setS 4 65535)).wick 0); x.issues (encLoop (lp true)) = true ∧ (x.sreg 4).toNat = 65535) ∧
    (let x := ((onW (wk (encLoop (lp true)))).wick 0); x.issues (encLoop (lp true)) = true ∧ (x.sreg 4).toNat = 0 ∧ x.loops = []) ∧
    (let x := { wk 0 with loops := [LoopFrame.mk 1 2 0 0] }; x.loops = [LoopFrame.mk 1 2 0 0] ∧ (0 : Nat) = x.pc) ∧
    (let x := { wk 0 with loops := [LoopFrame.mk 1 0 0 0] }; x.loops = [LoopFrame.mk 1 0 0 0] ∧ (0 : Nat) = x.pc) ∧
    (let x := { wk 0 with loops := [LoopFrame.mk 1 0 0 1] }; x.loops = [LoopFrame.mk 1 0 0 1] ∧ (1 : Nat) ≠ x.pc) := by
  decide +kernel

theorem test_loop : after (.tileLoop 0 (lp false)) (onW (wk (encLoop (lp false))))
    (fun t => (t.wick 0).loops == [LoopFrame.mk 1 2 1 2] && (t.wick 0).pc == 1) = true := by decide +kernel

/-- A store-buffer entry and a DMA command. -/
def ent : StoreEnt := StoreEnt.mk 0x100 5 (BitVec.allOnes 256)
def cmd : DmaCmd := DmaCmd.mk true 0x20000 0 0 (Shape.mk 1 1 1 0 0 0 0) none 3 none 0

/-- The two waits, ARRIVEs and FENCE of the witnesses. -/
def wt : WaitF := WaitF.mk 63 2
def ar (peer : Bool) : ArriveF := ArriveF.mk 63 peer 4
def fc : FenceF := FenceF.mk true true true

theorem witness_ControlInstructionsComplete :
    ((onW (wk 0)).wick 0).issues 0x00 = true ∧ ((onW (wk 1)).wick 0).issues 0x01 = true ∧
    (let x := (onW (wk (encFence fc))).wick 0; x.issues (encFence fc) = true ∧ x.dma0 = [] ∧ x.dma1 = [] ∧ x.dma2 = [] ∧ x.dma3 = [] ∧
      x.engOut = 0 ∧ x.sbuf = []) ∧
    (let x := (onW { wk (encFence fc) with sbuf := [ent] }).wick 0; x.issues (encFence fc) = true ∧ fc.st = true ∧ x.sbuf ≠ []) ∧
    (let x := (onW { wk (encWait wt) with toks := [(63, 2)] }).wick 0; x.issues (encWait wt) = true ∧
      wt.n.toNat ≤ (onW { wk (encWait wt) with toks := [(63, 2)] }).tokCount (tokEntry 0 x.tag 63)) ∧
    (let s := onW { wk (encWait wt) with toks := [(63, 1)] }
     (s.wick 0).issues (encWait wt) = true ∧ s.tokCount (tokEntry 0 (s.wick 0).tag 63) < wt.n.toNat) ∧
    (let s := { onW (wk (encWait { wt with tok := 256 })) with shToks := [(shKey 5 0 0, 2)] }
     (s.wick 0).issues (encWait { wt with tok := 256 }) = true ∧ s.tokCount (tokEntry 0 (s.wick 0).tag 256) = 2) ∧
    ((onW (wk (encArrive (ar false)))).wick 0).issues (encArrive (ar false)) = true ∧
    (let s := onW ((wk (encArrive (ar true))).setS 4 1)
     (s.wick 0).issues (encArrive (ar true)) = true ∧ s.nunits (s.wick 0).tag ≤ ((s.wick 0).sreg 4).toNat) ∧
    (let s := onW (wk (encArrive (ar true)))
     (s.wick 0).issues (encArrive (ar true)) = true ∧ ((s.wick 0).sreg 4).toNat < s.nunits (s.wick 0).tag ∧
      s.unitWick (s.wick 0).tag 0 = some 0 ∧ s.unitWick 4 0 = none) ∧
    (let s := { onW { wk 0 with toks := [(63, 65534)] } with arrivals := [.priv 0 63, .shared 4 0 0] }
     SbEntry.priv 0 63 ∈ s.arrivals ∧ s.entryHeld (.priv 0 63) = true ∧ s.tokCount (.priv 0 63) < 65535 ∧
      s.entryHeld (.shared 4 0 0) = false) ∧
    (let s := onW { wk 0 with hold := .wait 63 2, toks := [(63, 2)] }
     (s.wick 0).st = .running ∧ (s.wick 0).hold = .wait 63 2 ∧ 2 ≤ s.tokCount (tokEntry 0 (s.wick 0).tag 63)) ∧
    (let s := onW { wk 0 with hold := .wait 63 2, toks := [(63, 1)] }
     (s.wick 0).hold = .wait 63 2 ∧ s.tokCount (tokEntry 0 (s.wick 0).tag 63) < 2) := by
  decide +kernel

theorem witness_VectorInstructionsMergeLanes :
    ∀ op ∈ [0x20, 0x21, 0x22, 0x23, 0x24, 0x25, 0x26, 0x27, 0x28, 0x29, 0x2A, 0x2E, 0x2F, 0x30, 0x31, 0x32, 0x33],
      ((onW (wk (encV op vz))).wick 0).issues (encV op vz) = true := by
  decide +kernel

theorem test_combine_orders :
    let add := fun a b => arith2 0 0 false false a b
    add (add (add 0x4B800000 0x3F800000) 0x3F800000) 0xCB7FFFFE = 0x40000000 ∧
    add (add (add 0x3F800000 0x3F800000) 0x4B800000) 0xCB7FFFFE = 0x40800000 := by
  decide +kernel

theorem test_vadd_merges :
    let f := VFields.mk 2 0 1 0 1 false 2 0 true false 0 0 0
    let x := (((wk (encV 0x20 f)).setV 0 0xFFFFFFFF).setV 1 2).setP 1 1
    after (.vadd 0 f) (onW x) (fun t => vlane 32 ((t.wick 0).vreg 2) 0 == 0xFFFFFFFF && vlane 32 ((t.wick 0).vreg 2) 1 == 0) = true := by
  decide +kernel

theorem witness_PredicatesAndSelects :
    (∀ op ∈ [0x2B, 0x2C, 0x2D, 0x34, 0x35], ((onW (wk (encV op vz))).wick 0).issues (encV op vz) = true) ∧
    (∀ c ∈ ([0, 1, 2, 3] : List (BitVec 8)), (let f := VFields.mk 0 0 0 0 0 false 0 0 false false 0 0 c;
      ((onW (wk (encV 0x35 f))).wick 0).issues (encV 0x35 f) = true)) := by
  decide +kernel

/-- A V format with TYPE `ty` and SAT. -/
def vt (ty : BitVec 2) (sat : Bool) : VFields := VFields.mk 2 0 1 3 0 false ty 0 sat false 0 0 0

theorem witness_IntegerVectorArithmetic :
    (∀ ty ∈ ([1, 2] : List (BitVec 2)), ∀ op ∈ [0x20, 0x21, 0x22, 0x23],
      ((onW (wk (encV op (vt ty true)))).wick 0).issues (encV op (vt ty true)) = true) ∧
    (∀ op ∈ [0x26, 0x27, 0x28, 0x29, 0x2A], let s := onW (wk (encV op (vt 2 true))); let t := onW (wk (encV op (vt 2 false)))
      (s.wick 0).issues (encV op (vt 2 true)) = true ∧ (t.wick 0).issues (encV op { vt 2 true with sat := false }) = true ∧
      t.wick 0 = { s.wick 0 with image := (t.wick 0).image }) := by
  decide +kernel

theorem witness_FloatComparisonsFollowRule :
    (fp32.decode 0x7FC00000).isNan = true ∧ (fp32.decode 0x3F800000).isNan = false ∧ (bf16.decode 0x7FC0).isNan = true ∧
    (fp32.decode 0x80000000).isNan = false ∧
    (∀ op ∈ [0x24, 0x25, 0x2B], ((onW (wk (encV op vz))).wick 0).issues (encV op vz) = true) := by
  decide +kernel

/-- A format M access of V0 at S1 + `imm`. -/
def mf (imm : BitVec 20) : MFields := MFields.mk 0 1 false imm 0 false 0 0 0 false

theorem witness_ScratchpadAccesses :
    (∀ op ∈ [0x40, 0x41, 0x42, 0x43], ((onW (wk (encM op (mf 0x100)))).wick 0).issues (encM op (mf 0x100)) = true) ∧
    (let x := (onW (wk (encM 0x40 (mf 0x80)))).wick 0; x.maddr (mf 0x80) % 256 ≠ 0) ∧
    (let x := (onW ((wk (encM 0x40 (mf 0x100))).setS 1 0xFFF00)).wick 0; x.maddr (mf 0x100) = 0x100000) ∧
    (let s := onW ((wk (encM 0x40 (mf 0x100))).setS 1 0xFFE00); let a := (s.wick 0).maddr (mf 0x100)
     a = 0xFFF00 ∧ s.readRes (padBase 0 + a) 256 .ok = .data ∧ s.region (padBase 0 + a) = .pad 0) ∧
    (let s := onW { wk 0 with sbuf := [ent, ent, ent, ent] }; 4 ≤ (s.wick 0).sbuf.length ∧ s.wickInService 0 = true) ∧
    ent.mask = BitVec.allOnes 256 ∧ (onW (wk 0)).live = true := by
  decide +kernel

theorem test_vst_then_drain :
    let f := mf 0x100
    after (.vst 0 f) (onW (wk (encM 0x41 f))) (fun t => (t.wick 0).sbuf.length == 1) = true ∧
    after (.storeDrain 0) (onW { wk 0 with sbuf := [ent] }) (fun t => readByte t.mem 0x8100000100 == 5 && (t.wick 0).sbuf == []) = true := by
  decide +kernel

theorem witness_MatrixStep :
    (let s := onW (wk (encT tz)); (s.wick 0).issues (encT tz) = true ∧ tz.comp = .none ∧ tz.fmt.toNat ≤ 2 ∧
      s.readRes (padBase 0 + 0) (mmaABytes 0) .ok = .data ∧ s.readRes (padBase 0) (mmaBBytes 0) .ok = .data ∧ s.region (padBase 0) = .pad 0) ∧
    (let s := onW ((wk (encT { tz with sa := 1 })).setS 1 8)
     (s.wick 0).issues (encT { tz with sa := 1 }) = true ∧ ((s.wick 0).sreg 1).toNat % 16 ≠ 0) := by
  decide +kernel

/-- A command of the DMA engine for the peer unit 0, its remote side in S2. -/
def dm : DFields := { dz with ref := 16, sr := 2 }

theorem witness_DmaCommandsQueueAndMove :
    (∀ op ∈ [0x60, 0x61], let s := onW (wk (encD op dm)); (s.wick 0).issues (encD op dm) = true ∧ ((s.wick 0).chan 0).length < 4 ∧
      ((s.wick 0).shape 0).n1 ≠ 0 ∧ ((s.wick 0).shape 0).n2 ≠ 0) ∧
    (let s := onW { wk (encD 0x60 dm) with dma0 := [cmd, cmd, cmd, cmd] }; 4 ≤ ((s.wick 0).chan 0).length) ∧
    (∃ d, (onW (wk (encD 0x60 dm))).dmaSide 0 16 0 0 = .ok d ∧
      (onW (wk (encD 0x60 dm))).dmaFault 0 16 true d { cmd with base := d.base, tok := 0 } = none) ∧
    (∃ d, (onW (wk (encD 0x60 dm))).dmaSide 0 16 0 8 = .ok d ∧
      (onW (wk (encD 0x60 dm))).dmaFault 0 16 true d { cmd with base := d.base, remote := d.off, tok := 0 } = some .misaligned) ∧
    (let s := onW ((wk (encD 0x61 dm)).setS 2 0x100000); 0x100000 < ((s.wick 0).sreg 2).toNat + 4 * ((s.wick 0).shape 0).n0) ∧
    (let s := onW ((wk (encD 0x61 dm)).setS 2 0xFFFFC); 0xFFFFC + 4 * ((s.wick 0).shape 0).n0 = 0x100000 ∧
      s.readRes (padBase 0 + 0xFFFFC) 4 .ok = .data ∧ s.region (padBase 0 + 0xFFFFC) = .pad 0) ∧
    (let s := onW { wk 0 with dma0 := [cmd] }; (s.wick 0).chan 0 = [cmd] ∧ (s.wick 0).st = .running ∧ s.cmdLive 5 cmd = true ∧
      s.movesRead .ok (cmd.rows.map (dmaMove 0 cmd)) = none ∧ cmd.tok < 64) :=
  ⟨by decide +kernel, by decide +kernel, ⟨_, rfl, by decide +kernel⟩, ⟨_, rfl, by decide +kernel⟩, by decide +kernel, by decide +kernel, by decide +kernel⟩

theorem test_dma_moves : after (.dmaCommandComplete 0 0 .ok) ((onW { wk 0 with dma0 := [cmd] }).store 0x20000 [9])
    (fun t => readByte t.mem 0x8100000000 == 9 && t.arrivals == [.priv 0 3]) = true := by decide +kernel

/-- CMB of group 0 and SORTI with N in S3 and K in S4. -/
def cm : CmbF := CmbF.mk 0 1 2 63
def so : SortiF := SortiF.mk 1 2 3 4 0 false 63

/-- An instance of group 0 of job 5: its contribution waiting, or folded. -/
def inst (folded : Bool) : CmbInst :=
  let p := CmbPart.mk 0 0 0x400 63
  { tag := 5, grp := 0, no := 0, waiting := if folded then [] else [p], folded := if folded then [p] else []
    parts := [], acc := if folded then List.replicate 64 7 else [], merged := [] }

/-- A SORT of 8 of 16 entries in Sconce 0. -/
def sortJob (ph : JPhase) : Job :=
  { mkJob .sort ph (2 ^ 256 * (16 + 8 * 2 ^ 32)) with
    refs := [{ handle := 1, vsel := 0, off := 0, ent := BufEntry.mk 0x20000 true true false false 0 0x1000 false, rd := true, wr := false, slot := 0, vid := 0, gen := 0 }] }

/-- Job 5 on Wick 0 with group instance 0. -/
def withInst (folded : Bool) : State := { onW (wk 0) with cmbs := [inst folded] }

/-- The Sorter of Sconce 0 with the request of job 5. -/
def sorting : State :=
  let s := withJob_ (sortJob .running)
  s.setSconce 0 { s.sconce 0 with sorter := [SortReq.mk 5 none 0x20000 0x20000 16 8 0 false 0] }

theorem witness_CombineAndSortRequests :
    (let s := onW (wk (encCmb cm)); let x := s.wick 0; x.issues (encCmb cm) = true ∧ ∃ g, x.group 0 = some g ∧ g.kind ≠ 4 ∧
      s.cmbFault x g (x.shape g.shape) 0 0 = none ∧ s.cmbFault x g (x.shape g.shape) 0xFFFFF 0 = some .lengthExceeds) ∧
    (let s := onW (((wk (encSorti so)).setS 3 65536).setS 4 256); (s.wick 0).issues (encSorti so) = true ∧
      ((s.wick 0).sreg 1).toNat + 8 * 65536 ≤ 0x100000 ∧ ((s.wick 0).sreg 2).toNat + 8 * min 256 65536 ≤ 0x100000) ∧
    (let s := onW (((wk (encSorti so)).setS 3 65536).setS 4 257); (s.wick 0).issues (encSorti so) = true ∧ 256 < ((s.wick 0).sreg 4).toNat) :=
  ⟨⟨by decide +kernel, _, rfl, by decide +kernel⟩, by decide +kernel, by decide +kernel⟩

theorem witness_CombineAndSortRequests_fold : ∃ g, (withInst false).jobGroup 5 0 = some g ∧ g.kind ≠ 4 ∧
    (withInst false).live = true ∧ (withInst false).unitWick 5 0 = some 0 ∧ (withInst false).isAttn 5 = false ∧
    (withInst false).cmbs.find? (fun d => d.tag == 5 && d.grp == 0 && d.waiting.any fun q => q.unit == 0) = some (inst false) ∧
    (inst false).waiting.find? (fun q => q.unit == 0) = some (CmbPart.mk 0 0 0x400 63) ∧
    (withInst false).served (inst false) (sconceOf 0) = true ∧ (withInst false).readRes (padBase 0 + 0) g.bytes .ok = .data ∧
    (withInst true).cmbs.find? (fun d => d.tag == 5 && d.grp == 0) = some (inst true) ∧ 0 = g.rootu ∧ (inst true).full g = true ∧
    (inst true).folded.find? (fun q => q.unit == g.rootu) = some (CmbPart.mk 0 0 0x400 63) :=
  ⟨_, rfl, by decide +kernel⟩

/-- The halo pattern of shape 0 to the next unit, with token 7, of a job of two units; unit `u` has its strip waiting, or read. -/
def strip (u : Nat) (folded : Bool) : State :=
  let g := Machine.Group.mk 4 0 1 0 1 0 0 0 0 1 7
  let p := CmbPart.mk u 0 0x400 63
  let c : CmbInst :=
    { tag := 5, grp := 0, no := u, waiting := if folded then [] else [p], folded := if folded then [p] else [], parts := [], acc := [7], merged := [] }
  { onW (wk 0) with cmbs := [c], jobs := [{ unitJob with desc := 2 ^ 153, image := some { img 0 with groups := [g] }, total := 2
                                                         units := [WUnit.mk 0 .running 0 0 false, WUnit.mk 1 .running 1 0 false] }] }

theorem witness_CombineAndSortRequests_strip :
    (∀ u ∈ [0, 1], ∃ c g, (strip u false).jobGroup 5 0 = some g ∧ g.kind = 4 ∧ (strip u false).unitWick 5 u = some u ∧
      (strip u false).cmbs.find? (fun d => d.tag == 5 && d.grp == 0 && d.waiting.any fun q => q.unit == u) = some c ∧
      c.waiting.find? (fun q => q.unit == u) = some (CmbPart.mk u 0 0x400 63) ∧ (strip u false).isAttn 5 = false ∧
      (strip u false).servedAll c = true ∧ g.delta = 1 ∧ (strip u false).nunits 5 = 2 ∧
      (strip u false).rangesRead .ok ((stripRows ((strip u false).jobShape 5 g.shape) 0).map fun r => (padBase u + r.1.toNat, r.2.2)) = .data) ∧
    (∃ c g p, (strip 0 true).jobGroup 5 0 = some g ∧ g.kind = 4 ∧
      (strip 0 true).cmbs.find? (fun d => d.tag == 5 && d.grp == 0 && d.waiting.isEmpty && d.folded.any fun q => q.unit == 0) = some c ∧
      c.folded.head? = some p ∧ (strip 0 true).unitWick 5 (((0 : Nat) : Int) + g.delta).toNat = some 1) := by
  refine ⟨?_, ⟨_, _, _, rfl, rfl, rfl, rfl, by decide +kernel⟩⟩
  intro u hu
  simp only [List.mem_cons, List.not_mem_nil, or_false] at hu
  rcases hu with rfl | rfl <;> exact ⟨_, _, rfl, rfl, rfl, rfl, rfl, by decide +kernel⟩

theorem witness_CombineAndSortRequests_sort :
    (let j := sortJob .placed; let s := withJob_ j; s.awake = true ∧ s.job 5 = some j ∧ j.opc = .sort ∧ df j.desc 4 16 0 = 16 ∧
      df j.desc 4 40 32 = 8 ∧
      s.pickScn j [.sort] (fun c => c.sorter.isEmpty) = some 0) ∧
    (let j := sortJob .running; let r := SortReq.mk 5 none 0x20000 0x20000 16 8 0 false 0
     sorting.job 5 = some j ∧ j.phase = .running ∧ (sorting.sconce 0).sorter = [r] ∧ sorting.readsLive j = true ∧ j.tc < 8 ∧
      sorting.readsOk j.part r.src r.readLen ∧ sorting.open_ j.part r.dst r.writeLen true) := by
  unfold State.readsOk State.open_
  decide +kernel

theorem test_combine_folds :
    after (.combineResultWritten 5 0 0) (withInst true) (fun t => readByte t.mem 0x8100000400 == 7 && t.cmbs == [] &&
      t.arrivals == [.priv 0 63]) = true := by decide +kernel

/-- A TILE_RUN of one unit of program 0, whose image lies at 0x40000. -/
def tile (ph : JPhase) (us : List WUnit) : Job :=
  { mkJob .tileRun ph (2 ^ 152) with total := 1, image := some (img 0), units := us, cands := [DirEntry.mk 0 0 0x40000 64 1] }

/-- A TILE_RUN that selects one of 2 programs by a word. -/
def selJob : Job := { tile .placed [] with desc := 2 ^ 152 + 2 ^ 145, refs := (sortJob .placed).refs }

theorem witness_UnitsRunAndEnd :
    (let j := { tile .placed [] with desc := 0 }; (withJob_ j).awake = true ∧ (withJob_ j).job 5 = some j ∧ j.nunits = 0) ∧
    (let j := tile .placed []; let s := withJob_ j; s.job 5 = some j ∧ j.nunits ≠ 0 ∧ j.selects = false ∧ s.unplaceable j = false ∧
      j.fail = none ∧ (∃ e, j.entry = some e) ∧ { s with cfg := Cfg.empty }.unplaceable j = true) ∧
    (let s := withJob_ selJob; s.job 5 = some selJob ∧ selJob.selects = true ∧ selJob.aux = [] ∧ s.readsLive selJob = true ∧
      s.readRes (selJob.ref 0).addr 4 .ok = .data ∧ s.region (selJob.ref 0).addr = .ddr) :=
  ⟨by decide +kernel, ⟨by decide +kernel, by decide +kernel, by decide +kernel, by decide +kernel, by decide +kernel, ⟨_, rfl⟩,
    by decide +kernel⟩, by decide +kernel⟩

/-- A gang of two units, all to be placed first or again; the first has run on Wick 0 with an error of its own storage. -/
def gangJob (ph : UnitPhase) : Job :=
  { tile .running [WUnit.mk 0 ph 0 0 true, WUnit.mk 1 ph 1 0 false] with desc := 2 ^ 153, image := some { img 0 with gang := true }, total := 2 }

theorem witness_UnitsRunAndEnd_place :
    (let j := tile .running [WUnit.mk 0 .fresh 0 0 false]; let s := withJob_ j
     s.awake = true ∧ s.job 5 = some j ∧ j.placeable = true ∧ j.gang = false ∧ s.mayPlace j 0 1 = true ∧ s.nextFresh j 0 1 0 = true) ∧
    (let j := tile .running [WUnit.mk 0 .retry 0 1 true]; let s := withJob_ j
     j.placeable = true ∧ s.mayPlace j 0 1 = true ∧ ∃ x ∈ j.units, x.idx = 0 ∧ x.phase = .retry ∧
       (x.own = false ∨ x.wick ≠ 1 ∨ (s.allowedWicks j.part j.lmask).filter (fun v => s.mayPlace j 0 v && v != 1) = [])) ∧
    (let j := gangJob .fresh; let s := withJob_ j
     j.placeable = true ∧ j.gang = true ∧ j.opc = .tileRun ∧ j.fill = false ∧ (∀ x ∈ j.units, x.phase = .fresh) ∧ s.gangFits j [0, 1] = true) ∧
    (let j := gangJob .retry; let s := withJob_ j
     j.placeable = true ∧ (∀ x ∈ j.units, x.phase = .retry) ∧ s.gangFits j [2, 3] = true ∧ (∀ v ∈ [2, 3], v ∉ j.badWicks)) ∧
    ((onW (wk 0)).wick 0).used = false := by
  decide +kernel

theorem witness_UnitsRunAndEnd_end :
    (let s := onW { wk 0 with ended := true }; let x := s.wick 0; x.st = .running ∧ x.fault = none ∧ x.dmaIdle = true ∧ x.sbuf = [] ∧
      x.engOut = 0 ∧ s.job x.tag = some unitJob ∧ unitJob.opc = .tileRun) ∧
    (let x := (onW { wk 0 with fault := some .misaligned }).wick 0; x.st = .running ∧ x.fault = some .misaligned) ∧
    (let x := (onW { wk 0 with fault := some .dataError }).wick 0
     x.st = .running ∧ x.fault = some .dataError ∧ x.faultOwn = false ∧ x.faultPeer = none ∧ unitJob.gang = false ∧
      { unitJob with retry := 1 }.attemptOf 0 < 1 ∧
      unitJob.retry ≤ unitJob.attemptOf 0) ∧
    (let x := (onW (wk 0)).wick 0; x.st = .running ∧ x.ended = false ∧ x.fault = none) ∧
    (let x := (onW { wk 0 with st := .stopping }).wick 0; x.st = .stopping ∧ x.dma0 = [] ∧ x.dma1 = [] ∧ x.dma2 = [] ∧ x.dma3 = [] ∧
      x.dmaIdle = true) ∧
    (unitJob.fail = none ∧ unitJob.phase ≠ .ended) := by
  decide +kernel

theorem test_unit_starts :
    after (.unitPlace 5 0 [1] .ok) (withJob_ (tile .running [WUnit.mk 0 .fresh 0 0 false]))
      (fun t => (t.wick 1).st == .running && (t.wick 1).sreg 2 == 1 && (t.wick 1).sreg 3 == 1) = true := by decide +kernel

/-! ## Sampler, attention, fusion, map, checker, self-test -/

/-- A captured reference to `base`, read. -/
def refAt (base : Nat) : CRef :=
  { handle := 1, vsel := 0, off := 0, ent := BufEntry.mk base true true false false 0 0x10000 false, rd := true, wr := true, slot := 0, vid := 0, gen := 0 }

/-- A job with five references, 0x20000 apart from 0x20000. -/
def eng (o : Opc) (ph : JPhase) (d : Nat) : Job :=
  { mkJob o ph d with refs := [refAt 0x20000, refAt 0x40000, refAt 0x60000, refAt 0x80000, refAt 0xA0000], total := 1 }

/-- A map of 2 × 2 blocks, INT8, 4 rows; a REGROUP of it, and a CROP_RESIZE of one box to 1 × 1 pixels that
reads 0 outside the map. -/
def geo : Nat := 2 + 2 * 2 ^ 16 + 4 * 2 ^ 32
def regroupD : Nat := geo * 2 ^ 192
def cropD : Nat := 2 ^ 26 + geo * 2 ^ 192 + (1 + 2 ^ 16 + 2 ^ 24) * 2 ^ 384

/-- The job runs on the Sampler of Sconce 0. -/
def sampling (j : Job) : State :=
  let s := withJob_ j
  s.setSconce 0 { s.sconce 0 with sampler := [5] }

/-- The box (100, 100) to (104, 104). -/
def farBox : List Byte := toLE 4 0x42C80000 ++ toLE 4 0x42C80000 ++ toLE 4 0x42D00000 ++ toLE 4 0x42D00000

/-- The first box of a CROP_RESIZE, read on Sconce 0, and the bytes of its result. -/
def boxed (s : State) (j : Job) : CropBox := (s.jobMoves { j with place := 0 } 0x40000 16 false).cropBox 0x40000
def cropBytes (d : Nat) : Nat := df d 6 22 16 * df d 6 30 24 * cropCB d

theorem witness_SamplerRunsRegroupAndCrop :
    (let j := eng .regroup .placed regroupD; let s := withJob_ j; s.awake = true ∧ s.job 5 = some j ∧ j.phase = .placed ∧
      (regroupOut j.desc).isEmpty = false ∧ s.pickScn j [.regroup, .cropResize] (fun c => c.sampler.isEmpty) = some 0) ∧
    (let j := eng .cropResize .placed cropD; let s := withJob_ j; s.job 5 = some j ∧ 0 < cropTotal j.desc ∧
      s.pickScn j [.regroup, .cropResize] (fun c => c.sampler.isEmpty) = some 0) ∧
    (let j := eng .regroup .running regroupD; let s := sampling j; s.live = true ∧ s.readsLive j = true ∧ j.tc < 8 ∧ s.samplerJob 0 .regroup = some j ∧
      s.readsOk 0 (regroupReads j.desc (j.ref 0).addr 0).1 (regroupReads j.desc (j.ref 0).addr 0).2 ∧
      s.open_ 0 ((j.ref 1).addr + 0 * (regroupOut j.desc).rowStride) (regroupOut j.desc).rowStride true) ∧
    (let j := eng .cropResize .running cropD; let s := (sampling j).store 0x40000 farBox; s.samplerJob 0 .cropResize = some j ∧
      s.readsOk 0 0x40000 16 ∧ s.open_ 0 (j.ref 0).addr (geoOf (dw j.desc 3)).size false ∧ s.open_ 0 (j.ref 2).addr (cropBytes j.desc) true ∧
      (boxed s j).bad = false ∧ cropReads j.desc (j.ref 0).addr (boxed s j) = []) ∧
    (let j := eng .cropResize .running cropD; let s := (sampling j).store 0x40000 (toLE 4 0x3F800000); s.samplerJob 0 .cropResize = some j ∧
      (boxed s j).bad = true) := by
  unfold State.readsOk State.open_
  decide +kernel

/-- An attention job of one sequence of one head and one query row, NSPLIT 1; with COARSE. -/
def attnD (coarse : Bool) : Nat := (1 + 2 ^ 8 + 2 ^ 16 + 2 ^ 32) * 2 ^ 320 + (if coarse then 2 ^ 25 else 0)

/-- Its sequence, held: 16 keys in one page, table and summary at 0x100000 and 0x101000. -/
def seqHeld : SeqCap := { seq := 0, st := .held, tbase := 0x100000, sbase := 0x101000, len := 16, ver := 0, ents := [], rerun := false }

/-- The running attention job; `st` says how far its sequence has come. -/
def attn (o : Opc) (coarse : Bool) (c : SeqCap) (us : List WUnit) : Job := { eng o .running (attnD coarse) with seqs := [c], units := us }

/-- The job with its unit on Wick 0, one page left. -/
def walking (ent : Nat) : State :=
  let j := attn .attendPaged false seqHeld [WUnit.mk 0 .running 0 0 false]
  (({ ready with jobs := [j] }.setWick 0 { Wick.zero with st := .running, tag := 5, apw := some (ApwUnit.mk 0 [] [0] []) }).store 0x100000 (toLE 8 ent))

/-- A sequence whose entry as read differs from the table. -/
def seqChanged : SeqCap := { seqHeld with ents := [(0, 0, 0x8001)], rerun := true }

/-- The state after a read of the first sequence descriptor. -/
def seqRead (s : State) (j : Job) : State :=
  s.traffic (some (s.jobMaster j.opc j.part j.desc)) (s.rootLantern j 0 0) j.tc j.part (j.ref 0).addr 64 false

theorem witness_AttentionJobsCaptureWalkAndCheck :
    (∀ o ∈ [Opc.attendPaged, .pageScore], let j := eng o .placed (attnD false); let s := withJob_ j
      s.awake = true ∧ s.job 5 = some j ∧ j.attnEmpty = false ∧ s.unplaceable j = false ∧ (eng o .placed 0).attnEmpty = true) ∧
    (let c := { seqHeld with st := .open_ }; let j := attn .attendPaged false c []; let s := withJob_ j
     s.awake = true ∧ s.job 5 = some j ∧ j.attnRuns = true ∧ j.seqOf 0 = some c ∧ j.capturable c = true ∧ s.readsLive j = true ∧
      s.readsOk 0 ((j.ref 0).addr + 64 * 0) 64 ∧ (seqRead s j).seqFault j ((seqRead s j).loadLE (j.ref 0).addr 64)
        (parseSeq 0 c ((seqRead s j).loadLE (j.ref 0).addr 64)) = none) ∧
    (let c := { seqHeld with st := .open_ }; let j := attn .attendPaged false c []; let s := (withJob_ j).store 0x20020 [1]
     (seqRead s j).seqFault j ((seqRead s j).loadLE (j.ref 0).addr 64) (parseSeq 0 c ((seqRead s j).loadLE (j.ref 0).addr 64)) =
       some .reservedNonzero) ∧
    (let j := attn .attendPaged true seqHeld []; let s := withJob_ j
     j.attnRuns = true ∧ j.selectable seqHeld 0 = true ∧ s.selectWaits j seqHeld 0 = false ∧ s.readsOk 0 (j.rowAddr (j.ref 1) 0 (256 * 0)) (256 * j.rgRows 0) ∧
      s.readsOk 0 seqHeld.sbase (128 * j.candidates seqHeld)) := by
  unfold State.readsOk State.open_
  decide +kernel

/-- The entry as it is read. -/
def entRead (ent : Nat) : Nat := ((walking ent).traffic (some (.wick 0)) 0 0 0 0x100000 8 false).loadLE 0x100000 8

theorem witness_AttentionJobsCaptureWalkAndCheck_walk :
    (∃ x j, ((walking 0).wick 0).apw = some x ∧ (walking 0).job ((walking 0).wick 0).tag = some j ∧ x.left = [0] ∧
      j.seqOf (j.unitSeq ((walking 0).wick 0).unit) = some seqHeld ∧ ((walking 0).wick 0).st = .running ∧ ((walking 0).wick 0).fault = none ∧
      (walking 0).live = true) ∧
    (walking 0).readsOk 0 (seqHeld.tbase + 8 * 0) 8 ∧ (walking 0).apwWaits seqHeld 0 = false ∧
    entReserved (entRead 0) = false ∧ entRead 0 % 2 = 0 ∧ entReserved (entRead 0x8001) = false ∧ entRead 0x8001 % 2 = 1 ∧
    (walking 0x8001).cfg.mayAccess (.wick 0) 0 (entPage (entRead 0x8001)) 0x4000 false = true ∧
    (walking 0x8001).readsOk 0 (entPage (entRead 0x8001)) (pageBytes seqHeld 0) ∧ entReserved (entRead 3) = true := by
  unfold State.readsOk State.open_
  exact ⟨⟨_, _, rfl, rfl, by decide +kernel⟩, by decide +kernel⟩

theorem witness_AttentionJobsCaptureWalkAndCheck_check :
    (let j := attn .attendPaged false seqHeld [WUnit.mk 0 .done 0 0 false]; let s := withJob_ j
     j.attnRuns = true ∧ j.seqOf 0 = some seqHeld ∧ seqHeld.st = .held ∧ j.unitsDone = true ∧ s.mergesDone 5 = true ∧
      (∀ l ∈ seqHeld.entLines, s.readsOk 0 (l * 64) 64) ∧ seqHeld.ents = []) ∧
    (let j := attn .attendPaged false seqChanged [WUnit.mk 0 .done 0 0 false]; let s := withJob_ j
     j.seqOf 0 = some seqChanged ∧ (∀ l ∈ seqChanged.entLines, s.readsOk 0 (l * 64) 64) ∧
      (seqChanged.entLines.foldl (fun t l => t.traffic (some (t.jobMaster j.opc j.part j.desc)) (s.rootLantern j 0 0) j.tc j.part
        (l * 64) 64 false) s).crcMismatch seqChanged 0 = true ∧ seqChanged.rerun = true) ∧
    { seqChanged with rerun := false }.rerun = false := by
  unfold State.readsOk State.open_
  decide +kernel

/-- The attention job split over two units, in these phases on Wicks 0 and 1, the first a built-in program that has ended. -/
def split (ph : UnitPhase) : State :=
  let j := { attn .attendPaged false seqHeld [WUnit.mk 0 ph 0 0 false, WUnit.mk 1 ph 1 0 false] with desc := attnD false + 2 ^ 352 }
  let c : CmbInst := { tag := 5, grp := 0, no := 0, waiting := [CmbPart.mk 0 0 0 0], folded := [], parts := [], acc := [], merged := [] }
  { ({ ready with jobs := [j] }.setWick 0 { Wick.zero with st := .running, tag := 5, ended := true, apw := some (ApwUnit.mk 0 [] [] []) }) with cmbs := [c] }

theorem witness_AttentionUnits :
    (∃ j, (split .fresh).job 5 = some j ∧ j.opc = .attendPaged ∧ j.placeable = true ∧ (split .fresh).readsLive j = true ∧
      { split .fresh with cmbs := [], wicks := [] }.mergeFits j 0 [0, 1] = true ∧ 2 ≤ j.nsplit) ∧
    (let x := (split .running).wick 0
     (split .running).live = true ∧ x.st = .running ∧ x.ended = true ∧ x.fault = none ∧ x.dmaIdle = true ∧ x.sbuf = [] ∧ x.engOut = 0 ∧
      x.tag = 5 ∧ (split .running).isAttn 5 = true) ∧
    (∃ c g, (split .running).jobGroup 5 0 = some g ∧ g.kind ≠ 4 ∧ (split .running).unitWick 5 0 = some 0 ∧
      (split .running).cmbs.find? (fun d => d.tag == 5 && d.grp == 0 && d.waiting.any fun q => q.unit == 0) = some c ∧
      c.waiting.find? (fun q => q.unit == 0) = some (CmbPart.mk 0 0 0 0) ∧ (split .running).served c (sconceOf 0) = true) :=
  ⟨⟨_, rfl, by decide +kernel⟩, by decide +kernel, _, _, rfl, by decide +kernel, by decide +kernel, rfl, rfl, by decide +kernel⟩

/-- A vote over one sensor. -/
def vote (ph : JPhase) : Job := eng .xcuVote ph (2 ^ 448)

theorem witness_VoteFollowsTable6 :
    (let s := withJob_ (vote .taken); s.awake = true ∧ s.job 5 = some (vote .taken) ∧ (vote .taken).phase = .taken) ∧
    (let j := vote .running; let s := elapse ((withJob_ j).voteEnd j - (withJob_ j).now) (withJob_ j)
     (withJob_ j).engineJob .xcu 0 = some j ∧ s.readsLive j = true ∧ j.nsens ≤ 32 ∧
      s.readsOk 0 (j.ref 0).addr (2880 * j.nsens) ∧ s.readsOk 0 (j.ref 1).addr 2112 ∧ s.readsOk 0 (j.ref 4).addr (if j.egoChk then 64 else 0) ∧
      s.writesOk 0 (j.ref 2).addr 2112 ∧ s.writesOk 0 (j.ref 3).addr (2944 + 8 * j.nsens)) ∧
    (let e := VoteEnt.clear false; e.out = false ∧ sumL ((e.cs.set 0 (4, 1)).map (·.1)) < 5 * sumL ((e.cs.set 0 (4, 1)).map (·.2)) ∧
      5 * sumL ((e.cs.set 0 (5, 1)).map (·.2)) ≤ sumL ((e.cs.set 0 (5, 1)).map (·.1))) ∧
    (∀ r ∈ [0, 15], { VoteEnt.clear true with run := r }.out = true ∧ { VoteEnt.clear true with run := r }.run < 16) := by
  unfold State.readsOk State.writesOk State.open_
  decide +kernel

theorem test_sector_table : sectorResult 0 0 = 1 ∧ sectorResult 1 0 = 0 ∧ sectorResult 0 1 = 2 ∧ sectorResult 1 1 = 3 ∧
    sectorResult 2 0 = 0 ∧ sectorResult 2 1 = 0 ∧ sectorResult 2 2 = 3 ∧ sectorResult 1 2 = 2 := by decide +kernel

/-- A publication of one record. -/
def publ (ph : JPhase) : Job := eng .mapPublish ph (2 ^ 320)

/-- The publication at work: block 3 becomes uniform FREE. -/
def publishing : State :=
  let s := withJob_ (publ .running)
  { s with ccu := { s.ccu with pub := some (PubWork.mk 5 [(3, 3 + 2 ^ 14)]) } }

/-- The publication begun, and the state after the read of its one record, `r`. -/
def pubK : Job := (publ .taken).begin_ 1
def pubRead (r : Nat) : State := (((withJob_ (publ .taken)).store 0x20000 (toLE 8 r)).setJob pubK).jobMoves pubK 0x20000 8 false

theorem witness_PublicationMakesNewestEpoch :
    (let j := publ .taken; let s := withJob_ j; s.awake = true ∧ s.job 5 = some j ∧ j.fail = none ∧ s.ccu.pub = none ∧
      s.oldHeld = false ∧ s.readsLive j = true ∧ s.readsOk 0 (j.ref 0).addr (8 * j.nupd) ∧ j.tc < 8) ∧
    (pubRead (3 + 2 ^ 14)).pubFault pubK ((pubRead (3 + 2 ^ 14)).updRecs pubK) = none ∧
    imgRanges (publ .taken) (updWinners ((pubRead (3 + 2 ^ 14)).updRecs pubK)) = [] ∧
    (pubRead (2 ^ 63)).pubFault pubK ((pubRead (2 ^ 63)).updRecs pubK) ≠ none ∧
    (publishing.ccu.pub = some (PubWork.mk 5 [(3, 3 + 2 ^ 14)]) ∧ publishing.job 5 = some (publ .running) ∧
      publishing.readsLive (publ .running) = true ∧ [3].Nodup ∧ publishing.writesOk 0 ((publ .running).ref 2).addr 2112) := by
  unfold State.readsOk State.writesOk State.open_
  decide +kernel

/-- A table that names 8,192 slots. -/
def fullTab : List (Nat × Nat) := List.replicate 8192 (0, 2 ^ 13)

theorem slotsOf_fullTab : (slotsOf fullTab).length = 8192 := by
  have h : entAlloc (2 ^ 13) = true := by decide
  simp only [slotsOf, fullTab, List.filter_replicate, h, if_true, List.map_replicate, List.length_replicate]

theorem test_full_map (s : State) (j : Job) (h : s.ccu.newTab = fullTab) (hj : j.nimg = 1) :
    s.pubFault j [3] = some .countExceedsLimit := by
  have h1 : ([3].any updBad) = false := by decide
  have h2 : (imgRecs (updWinners [3])).length = 1 := by decide
  have h3 : ([3].any fun r => !updUniform r && decide (1 ≤ updImg r)) = false := by decide
  simp only [State.pubFault, h, hj, h1, h2, h3, slotsOf_fullTab, if_false, Bool.false_eq_true]
  rfl

theorem test_publish : after .publishComplete publishing (fun t => t.mepoch == 1 && t.ccu.pub == none) = true := by decide +kernel

/-- A candidate checked in this epoch, and one 8 epochs old. -/
def cand0 (e : Word32) (st : CandSt) : Cand :=
  { tag := 5, idx := 0, st := st, got := true, rechecked := false, mepoch := e, key := 0, res := { ChkRes.none_ 1 with touch := [3] } }

/-- Map epoch 8, its eight masks, none with block 3. -/
def epoch8 : State :=
  { dev.setReg pgCCU 0 0x044 8 with ccu := { dev.ccu with masks := (List.range 8).map fun i => (BitVec.ofNat 32 (8 - i), 1) } }

theorem witness_VerdictIsCurrent :
    ((epoch8.mepoch - (cand0 0 .has).mepoch).toNat = 8 ∧ (epoch8.ccu.masks.map (·.1)).Nodup ∧
      ∀ i, i < 8 → (∃ m ∈ epoch8.ccu.masks, m.1 = 0 + 1 + BitVec.ofNat 32 i)) ∧
    epoch8.current (cand0 0 .has) = true ∧ epoch8.current (cand0 0xFFFFFFFF .has) = false ∧ epoch8.current (cand0 8 .has) = true := by
  decide +kernel

/-- A CCU_CHECK of one candidate, no box; and with 1 box. -/
def chkJob (ph : JPhase) (boxes : Nat) : Job := eng .ccuCheck ph ((1 + boxes * 2 ^ 16) * 2 ^ 384)

/-- The registry with one candidate of job 5. -/
def checking (st : CandSt) : State :=
  let s := withJob_ (chkJob .running 1)
  { s with ccu := { s.ccu with cands := [cand0 0 st] } }

/-- The same with the check in pipe 63. -/
def inPipe : State := { checking .busy with ccu := { (checking .busy).ccu with pipes := [(63, .cand 5 0 0 false false)] } }

/-- The state after the candidate record has been read. -/
def readPipe : State := inPipe.jobMoves (chkJob .running 1) ((chkJob .running 1).candAddr 0) 1088 false

/-- The state after the footprint of a CCU_CHECK has been read. -/
def foot (s : State) (j : Job) : State := s.jobMoves j (j.ref 1).addr (32 * j.nboxC) false

theorem witness_CandidateChecksRun :
    (let j := chkJob .placed 0; let s := withJob_ j; s.awake = true ∧ s.job 5 = some j ∧ j.opc = .ccuCheck ∧ s.readsLive j = true ∧ j.tc < 8 ∧
      s.readsOk 0 (j.ref 1).addr (32 * j.nboxC) ∧ badFootprint (cutBoxes j.nboxC ((foot s j).footWords (j.ref 1).addr j.nboxC)) = false ∧
      s.ccu.cands.length + j.ncand ≤ 4096 ∧ s.ccu.deadline = false) ∧
    (let j := chkJob .placed 1; let s := (withJob_ j).store 0x4001C [1]
     s.readsOk 0 (j.ref 1).addr (32 * j.nboxC) ∧ badFootprint (cutBoxes j.nboxC ((foot s j).footWords (j.ref 1).addr j.nboxC)) = true) ∧
    4096 < (List.replicate 4096 (cand0 0 .first)).length + (chkJob .placed 0).ncand ∧
    ((checking .first).pipe 63 = none ∧ (checking .first).engineTesting .ccu = false ∧ (checking .first).ccu.fin = none ∧
      (checking .first).nextCand .first = some (cand0 0 .first)) ∧
    (let j := chkJob .running 1; inPipe.pipe 63 = some (.cand 5 0 0 false false) ∧ inPipe.job 5 = some j ∧ inPipe.cand 5 0 = some (cand0 0 .busy) ∧
      inPipe.readsLive j = true ∧ j.tc < 8 ∧ inPipe.readsOk 0 (j.candAddr 0) 1088 ∧
      readPipe.mapRes (readPipe.candLines j (cand0 0 .busy) 0) .ok = .data) ∧
    (checking .recheck).nextCand .first = none ∧ (checking .recheck).nextCand .recheck = some (cand0 0 .recheck) ∧
    (let s := { dev with frm := { dev.frm with tickAt := some 0, planUs := 0 } }; s.frm.tickAt.isSome = true ∧ s.ccu.deadline = false ∧
      s.dueCtr 0 s.planNs = true) ∧
    (cand0 0 .has).got = true ∧ { cand0 0 .has with got := false }.got = false := by
  unfold State.readsOk State.open_
  decide +kernel

theorem candRes_of_bad (s : State) (j : Job) (c : Cand) (e : Word32) (h : s.candBad (j.candAddr c.idx) = true) :
    (s.candRes j c e).cycles < 65536 := by
  unfold State.candRes State.checkCand
  rw [if_pos h]
  decide

theorem inPipe_bad : readPipe.candBad ((chkJob .running 1).candAddr (cand0 0 .busy).idx) = true := by decide +kernel

theorem witness_CandidateChecksRun_cycles : (readPipe.candRes (chkJob .running 1) (cand0 0 .busy) 0).cycles < 65536 :=
  candRes_of_bad readPipe (chkJob .running 1) (cand0 0 .busy) 0 inPipe_bad

/-- The final check of frame 0 with alternate 1 passed: 16 runs with no obstacle within 1 m. -/
def finDone : FinCheck :=
  { frame := 0, epoch := 0, reg := some (FinReg.mk 0 5 0 false [[0, 0, 0, 0, 0, 0, 0, 0]] [(0, []), (1, [])]), todo := []
    done := (List.range 16).map fun i => (1, i, clrCap), bad := [0], named := false }

/-- At the deadlines of the final check. -/
def finAt (f : Option FinCheck) : State :=
  { dev with frm := { dev.frm with tickAt := some 0, pubUs := 2 }, ccu := { dev.ccu with fin := f } }

/-- Run 0 of alternate 0 in pipe 63, all else still to do. -/
def finRun : State :=
  { finAt (some { finDone with todo := [(0, 1)], done := [] }) with
    ccu := { (finAt (some { finDone with todo := [(0, 1)], done := [] })).ccu with pipes := [(63, .fin 0 0 false)] } }

theorem witness_FinalCheckNamesLowestPassed :
    ((finAt none).awake = true ∧ (finAt none).frm.tickAt.isSome = true ∧ (finAt none).ccu.fin = none ∧
      (finAt none).dueCtr 0 ((finAt none).pubNs - 50000) = true) ∧
    ((finAt (some finDone)).ccu.fin = some finDone ∧ finDone.named = false ∧
      (finAt (some finDone)).dueCtr 0 ((finAt (some finDone)).pubNs - 2000) = true) ∧
    (finAt none).engineTesting .ccu = false ∧
    finDone.passed 1 = true ∧ finDone.passed 0 = false ∧
    (∃ f g, finRun.ccu.fin = some f ∧ f.reg = some g ∧ finRun.pipe 63 = some (.fin 0 0 false) ∧ finRun.pipe 62 = none ∧ f.todo = [(0, 1)] ∧
      finRun.mapRes (mapLines (finRun.tabOf f.epoch) (g.runBoxes 0 0)) .ok = .data ∧ finRun.runCycles f g 0 0 < 65536) :=
  ⟨by decide +kernel, by decide +kernel, by decide +kernel, by decide +kernel, by decide +kernel, _, _, rfl, rfl, by decide +kernel⟩

/-- A box of 0.5 m × 0.5 m and 6.25 m height whose centre lies 4 m ahead and 4 m to the left, and the table in which every block
near it is allocated. -/
def tallBox : List Nat := [0x40800000, 0x40800000, 0x3E800000, 0x3E800000, 0, 0, 0x40C80000, 0]
def tallTab : List (Nat × Nat) :=
  (List.range 4).flatMap fun z => [0, 1, 64, 65].map fun k => (4096 * z + k, 2 ^ 13)

/-- The box at the origin's pose, and a voxel of each of 576 bricks it reaches. -/
def tallAt : PBox := (fboxOf tallBox).at_ (poseOf (0, 0, 0, 0))
def tallVoxels : List (Nat × Nat × Nat) :=
  [31, 35, 39, 40, 44, 48].flatMap fun x => [31, 35, 39, 40, 44, 48].flatMap fun y => (List.range 16).map fun z => (x, y, 4 * z)
def tallBricks : List Nat := tallVoxels.map fun v => blockOf v.1 v.2.1 v.2.2 * 256 + brickOf v.1 v.2.1 v.2.2

theorem tallBricks_mem : ∀ b ∈ tallBricks, b ∈ tallAt.bricks ∧ entAlloc (tabGet tallTab (b / 256)) = true := by
  have h : ∀ v ∈ tallVoxels, v.1 < 2048 ∧ v.2.1 < 2048 ∧ v.2.2 < 64 ∧
      entAlloc (tabGet tallTab ((blockOf v.1 v.2.1 v.2.2 * 256 + brickOf v.1 v.2.1 v.2.2) / 256)) = true := by decide +kernel
  have hd : ∀ x ∈ [31, 35, 39, 40, 44, 48], ∀ y ∈ [31, 35, 39, 40, 44, 48], tallAt.dist (x : Nat) (y : Nat) ≤ fxOne ∧
      (let r := fxHypot tallAt.hx tallAt.hy + 113 * fxOne / 100
       (voxIdx (tallAt.x - r) ≤ (x : Nat) ∧ ((x : Nat) : Int) ≤ voxIdx (tallAt.x + r)) ∧
        voxIdx (tallAt.y - r) ≤ (y : Nat) ∧ ((y : Nat) : Int) ≤ voxIdx (tallAt.y + r)) := by decide +kernel
  have hz : ∀ z, z < 16 → voxIdx tallAt.z0 ≤ ((4 * z : Nat) : Int) ∧ ((4 * z : Nat) : Int) ≤ voxIdx tallAt.z1 := by decide +kernel
  intro b hb
  obtain ⟨v, hv, rfl⟩ := List.mem_map.mp hb
  obtain ⟨h1, h2, h3, h4⟩ := h v hv
  obtain ⟨x, hx, hv⟩ := List.mem_flatMap.mp hv
  obtain ⟨y, hy, hv⟩ := List.mem_flatMap.mp hv
  obtain ⟨z, hz', rfl⟩ := List.mem_map.mp hv
  exact ⟨tallAt.mem_bricks x y (4 * z) h1 h2 h3 (hd x hx y hy).2 (hd x hx y hy).1 (hz z (List.mem_range.mp hz')), h4⟩

theorem tall_cycles (nsamp nbox : Nat) (blocks : List Nat) :
    65536 ≤ checkCycles tallTab nsamp nbox (List.replicate 960 tallAt.bricks) blocks := by
  have h1 := checkCycles_lower tallTab nsamp nbox 960 tallAt.bricks blocks
  have h2 := length_le_of_bricks (fun b => entAlloc (tabGet tallTab (b / 256))) tallBricks tallAt.bricks (by decide +kernel) tallBricks_mem
  have h3 : tallBricks.length = 576 := by decide +kernel
  omega

/-- The check of a candidate of 64 poses at the origin with that box as each of its 15. -/
def longJob : Job := { chkJob .running 15 with aux := (List.replicate 15 tallBox).flatten }
def longPipe : State :=
  let s := ({ inPipe with jobs := [longJob] }.setReg pgCCU 0 0x044 0).store (longJob.candAddr 0 + 4) [64]
  { s with ccu := { s.ccu with newTab := tallTab } }

theorem witness_CandidateChecksRun_cap : longPipe.awake = true ∧ longPipe.pipe 63 = some (.cand 5 0 0 false false) ∧
    longPipe.job 5 = some longJob ∧ longPipe.cand 5 0 = some (cand0 0 .busy) ∧ longJob.opc = .ccuCheck ∧ longJob.tc < 8 ∧
    65536 ≤ (longPipe.candRes longJob (cand0 0 .busy) 0).cycles := by
  refine ⟨by decide +kernel, by decide +kernel, by decide +kernel, by decide +kernel, by decide +kernel, by decide +kernel, ?_⟩
  have hb : longPipe.candBad (longJob.candAddr (cand0 0 .busy).idx) = false := by decide +kernel
  have ht : longPipe.tabOf 0 = tallTab := by decide +kernel
  have hc : cutBoxes longJob.nboxC longJob.aux = List.replicate 15 tallBox := by decide +kernel
  have hp : (longPipe.candPoses (longJob.candAddr (cand0 0 .busy).idx)).map poseOf = List.replicate 64 (poseOf (0, 0, 0, 0)) := by
    decide +kernel
  have hs : sweep (rmax ((List.replicate 15 tallBox).map fboxOf)) (List.replicate 64 (poseOf (0, 0, 0, 0))) =
      some (List.replicate 64 (poseOf (0, 0, 0, 0))) := by decide +kernel
  have hr : (((List.replicate 64 (poseOf (0, 0, 0, 0))).flatMap fun p => ((List.replicate 15 tallBox).map fboxOf).map fun b => b.at_ p).map
      PBox.bricks) = List.replicate 960 tallAt.bricks := rfl
  unfold State.candRes State.checkCand Ccu.checkPath
  rw [hb, ht, hc, hp]
  simp only [Bool.false_eq_true, if_false, hs]
  rw [hr]
  exact tall_cycles _ _ _

/-- The final check whose only alternate is registered with those boxes: 64 samples in each of its 16 runs. -/
def longReg : FinReg := FinReg.mk 0 5 0 false (List.replicate 15 tallBox) [(1, List.replicate 1024 (0, 0, 0, 0))]
def longFin : State :=
  let f := { finDone with reg := some longReg, done := [] }
  { finAt (some f) with ccu := { (finAt (some f)).ccu with newTab := tallTab, pipes := [(63, .fin 0 0 false)] } }

theorem witness_FinalCheckNamesLowestPassed_cap : ∃ f, longFin.ccu.fin = some f ∧ f.reg = some longReg ∧ longFin.awake = true ∧
    longFin.pipe 63 = some (.fin 0 0 false) ∧ 65536 ≤ longFin.runCycles f longReg 0 0 := by
  refine ⟨_, rfl, rfl, by decide +kernel, by decide +kernel, ?_⟩
  have hs : longReg.samples 0 = some (List.replicate 1024 (poseOf (0, 0, 0, 0))) := by decide +kernel
  have hr : (longReg.runBoxes 0 0).map PBox.bricks = List.replicate 960 tallAt.bricks := by
    unfold FinReg.runBoxes
    rw [hs]
    rfl
  have ht : longFin.tabOf 0 = tallTab := by decide +kernel
  show 65536 ≤ checkCycles (longFin.tabOf 0) _ _ ((longReg.runBoxes 0 0).map PBox.bricks) _
  rw [hr, ht]
  exact tall_cycles _ _ _

/-- A PROFILE of one alternate; a SELFTEST of chunk 0 of Wick 1, and of the PRU. -/
def prof (ph : JPhase) (n : Nat) (aux : List Nat) : Job := { eng .profile ph (n * 2 ^ 448) with aux := aux }
def stJob (ph : JPhase) (kind : Nat) : Job :=
  { eng .selftest ph ((kind + 2 ^ 8) * 2 ^ 128 + 2 * 2 ^ 192 + 1 * 2 ^ 256) with sts := [StTarget.mk 1 [0] true 0] }

/-- The limits of a PROFILE as it reads them. -/
def limits (s : State) (j : Job) : List Nat :=
  (List.range 16).map fun i => (((s.setJob (j.begin_ j.nalt)).jobMoves (j.begin_ j.nalt) (j.ref 2).addr 64 false).jobMoves
    (j.begin_ j.nalt) (j.ref 4).addr 0 false).loadLE ((j.ref 2).addr + 4 * i) 4

theorem witness_ProfileAndSelfTestUnits :
    (let j := prof .taken 0 []; let s := withJob_ j; s.awake = true ∧ s.job 5 = some j ∧ j.fail = none ∧ j.aux = [] ∧ j.nalt = 0) ∧
    (let j := prof .taken 1 []; let s := withJob_ j; s.job 5 = some j ∧ j.nalt ≠ 0 ∧ s.readsLive j = true ∧ j.tc < 8 ∧
      s.readsOk 0 (j.ref 2).addr 64 ∧ s.readsOk 0 (j.ref 4).addr (32 * (if j.final then j.nboxP else 0)) ∧
      badLim (limits s j) = false ∧ badLim (limits (s.store 0x60000 (toLE 4 0x7FC00000)) j) = true ∧ badFootprint (cutBoxes 0 []) = false) ∧
    (let j := prof .running 1 [1]; let s := (withJob_ j).store 0x20000 (toLE 4 0x7FC00000); s.engineJob .pru 0 = some j ∧ j.aux ≠ [] ∧
      s.readsLive j = true ∧ s.readsOk 0 ((j.ref 0).addr + 8 * j.step) 8 ∧
      (fp32.decode ((s.jobMoves j 0x20000 8 false).loadLE 0x20000 8 % 2 ^ 32)).isNan = true ∧ s.readsOk 0 (j.ref 1).addr 0 ∧ s.writesOk 0 ((j.ref 3).addr + 1856 * j.step) 1856) := by
  unfold State.readsOk State.writesOk State.open_
  decide +kernel

theorem witness_ProfileAndSelfTestUnits_selftest :
    (∀ k ∈ [0, 3], let j := stJob .running k; let s := withJob_ j; s.job 5 = some j ∧ j.stKind = k ∧
      j.sts.find? (fun t => t.tgt == 1 && t.running && t.left.head? == some 0) = some (StTarget.mk 1 [0] true 0) ∧ s.writesOk 0 (j.stAddr 1 0) 16) ∧
    (stJob .placed 0).phase = .placed := by
  unfold State.writesOk State.open_
  decide +kernel

theorem test_selftest_record :
    after (.selftestChunkDone 5 1 0 0x12345678 true) (withJob_ (stJob .running 3))
      (fun t => t.load 0x20000 16 == [1, 0, 3, 0, 0, 0, 0, 0, 0x78, 0x56, 0x34, 0x12, 0, 0, 0, 0]) = true := by decide +kernel

/-! ## Snuffers and gate -/

/-- A Snuffer table with the default deadlines, a heartbeat of 1 ms, line 8 COUNT and line 9 STOP. -/
def snTab : SnTable :=
  { SnTable.empty with
    subA := 0x20000, subB := 0x40000, pubUs := 45000, guard_ := 200, watch := 30000, poll := 100, hbEn := true, hbTmo := 1, streams := 1
    action := [0, 0, 0, 0, 0, 0, 0, 0, 1, 2], hdr := [7] }

/-- A Snuffer in this state, supplied, its last tick at edge 0. -/
def snu (st : SnState) : Snuffer := { Snuffer.zero with st := st, supply := true, tickLast := some 0 }

/-- The device with those two Snuffers, at edge `now`. -/
def snDev (now : Nat) (a b : Snuffer) : State :=
  { world with cfg := { cfg with snA := { cfg.snA with table := snTab }, guardBase := 0x60000 }, snA := a, snB := b, now := now
               frm := { world.frm with tickAt := some 0 } }

/-- A settled Snuffer: both copies have arrived. -/
def settledSn (st : SnState) : Snuffer := { snu st with copyA := some [], copyB := some [] }

/-- An AGREED verdict that passes alternate 1, and a DISPUTED one. -/
def agreedV : Verdict := { frame := 0, agreed := true, mask := 2, fail := 0, agree := 1, compared := 1 }
def disputedV : Verdict := { agreedV with agreed := false, fail := 7 }

/-- Channel B's block of zeros, sealed for frame 0. -/
def sealedB : State := (snDev 0 (snu .running) (snu .running)).store (0x40000 + 2500) (toLE 4 (crc32c (List.replicate 2496 0)).toNat)

theorem witness_SnuffersReadCompareAndStop :
    (let s := snDev 0 (snu .running) (snu .running); s.snLive .a = true ∧ s.pollDue .a 7500000 = true ∧ (s.sn .a).copyA = none) ∧
    (let s := sealedB; s.snLive .a = true ∧ s.pollDue .a 7500000 = true ∧ (s.sn .a).copyB = none ∧
      let u := elapse 7500000 s
      u.readRes (0x40000 + 2496) 64 .ok = .data ∧ u.readRes 0x40000 2560 .ok = .data ∧
        BitVec.ofNat 32 (u.loadLE (0x40000 + 2496) 4) = u.epoch ∧ sealGood true (u.load 0x40000 2560) = true) ∧
    (let s := snDev 0 (snu .running) (snu .running); (s.sn .a).st.inService = true ∧ (s.sn .a).cut = false ∧ (s.sn .a).tickLast = some 0 ∧
      s.dueSn 11200000 (0 + (s.snTable.pubUs - s.snTable.guard_) * edgesPerUs) = true ∧ s.snTable.streams.getLsbD 0 = true) ∧
    (let s := (snDev 0 (snu .running) (snu .running)).setReg pgLMP 0 0x044 1; BitVec.ofNat 32 (s.loadLE (s.cfg.guardBase + 16 * 0) 4) ≠ s.epoch) ∧
    (let s := snDev 0 (settledSn .running) (snu .running); s.awake = true ∧ s.frm.tickAt.isSome = true ∧ s.gate.loaded = false ∧
      (s.sn .a).settled = true ∧ s.readsOk 0 s.snTable.subA 64 ∧ ∀ r, r < 4 → s.readsOk 0 (s.snTable.subA + 576 + 1856 * r) 1856) ∧
    (let s := { snDev 0 (settledSn .running) (snu .running) with gate := { dev.gate with loaded := true } }
     (s.sn .a).tickLast.isSome = true ∧ (s.sn .a).settled = true ∧ s.gate.loaded = true ∧ (s.sn .a).verdict = none) := by
  unfold State.readsOk State.open_
  decide +kernel

theorem witness_SnuffersReadCompareAndStop_own :
    (let s := snDev 0 { snu .running with verdict := some agreedV } { snu .stopped with verdict := some disputedV }
     (s.sn .a).st.active = true ∧ (s.sn (snOther .a)).st = .stopped ∧ (s.sn (snOther .a)).verdict = some disputedV ∧
      agreedV.differs disputedV = true) ∧
    (let s := snDev 0 (snu .armed) (snu .armed); (s.sn .a).st.active = true ∧ s.dueSn 125000 ((s.sn .a).safeAt + 125000) = true ∧
      s.snTable.hbEn = true ∧
      (s.sn .a).st.inService = true ∧ (s.sn (snOther .a)).verdict = none ∧ (s.sn (snOther .a)).st ≠ .stopped) ∧
    ((snDev 0 (snu .testing) (snu .armed)).sn .a).st.inService = false ∧
    (let s := (dev.fset pgFLT Reg.FLT_BOOT_STEP 7); let t := { s with snA := snu .stopped }
     t.snReleased .a = true ∧ t.tableOk .a = false ∧ dev.snReleased .a = false) ∧
    (let s := snDev 0 { snu .running with hbStarted := true } (snu .armed); (s.sn .a).hbStarted = true ∧
      s.dueSn 250001 ((s.sn .a).hbLast + s.snTable.hbTmo * 250000 + 1) = true) ∧
    (snTab.actionOf 7 = 0 ∧ snTab.actionOf 8 = 1 ∧ snTab.actionOf 9 = 2 ∧ snTab.actionOf 399 = 0) ∧
    (let s := snDev 0 (snu .testing) (snu .testing); s.snLive .a = true ∧ s.testsDue .a .pass 2000 = true ∧
      s.testsDue .a (.fail 5 17) 2000 = true) ∧
    (snDev 0 (snu .testing) (snu .armed)).snLive (snOther .a) = true ∧ ((snDev 0 (snu .testing) (snu .armed)).sn (snOther .a)).st.active = true ∧
    ((snDev 0 { snu .reset with supply := false } (snu .armed)).sn .a).supply = false := by
  decide +kernel

theorem test_line_actions :
    let s := snDev 0 (snu .running) (snu .running)
    after (.aggregatorPulse .a 8) s (fun t => t.snA.st == .running && t.snA.counted && t.fget pgSNA Reg.SNA_LINES_COUNT == 1) = true ∧
    after (.aggregatorPulse .b 9) s (fun t => t.snB.st == .stopped && t.fget pgSNB Reg.SNA_STATE_LINE == 9 && t.snA.st == .running) = true := by
  decide +kernel

/-- At the gate decision: the CCU named alternate 1, both Snuffers AGREED on it. -/
def gateAt (a b : Snuffer) : State :=
  { snDev 0 a b with frm := { world.frm with tickAt := some 0, pubUs := 2 }, gate := { dev.gate with named := some 1, loaded := true, recs := [[], [5]] } }

theorem witness_GateDecisionFollowsTable6 :
    (let a := { snu .running with verdict := some agreedV }; let s := gateAt a a
     s.awake = true ∧ s.frm.tickAt.isSome = true ∧ s.gate.decided = false ∧ s.dueCtr 0 (s.tickNs + s.frm.pubUs * 1000 - 2000) = true ∧
      s.gate.out = none ∧ s.gate.named = some 1 ∧ s.gate.namedFrame = s.epoch ∧ agreedV.mask.testBit 1 = true ∧ s.snA.lines = [] ∧ s.snA.counted = false ∧
      histCount (s.snA.hist <<< 1) < 3) ∧
    (gateAt (snu .running) (snu .running)).snA.verdict = none ∧
    (let h := fun (x : Word32) => (x <<< 1) ||| 1; (h 0x1).toNat % 4 = 3 ∧ (h 0x12).toNat % 4 ≠ 3 ∧ 3 ≤ histCount (h 0x12) ∧
      (h 0x10).toNat % 4 ≠ 3 ∧ histCount (h 0x10) < 3) ∧
    (let s := snDev 0 (snu .running) { snu .running with other := some agreedV }; s.silentDue 11249000 s.snA = true ∧ s.snLive .a = true ∧
      (s.sn .a).other = none ∧ (s.sn .b).other.isSome = true ∧ (s.sn .a).st.active = true ∧ (s.sn .a).tickLast.isSome = true) := by
  decide +kernel

theorem test_gate_normal :
    let a := { snu .running with verdict := some agreedV }
    after (.gateDecision 0) (gateAt a a) (fun t => (t.gate.out.map fun x => x.2[1]?) == some (some 1) && t.gate.trajNext.any fun x => x.1 == [5]) = true := by
  decide +kernel

/-! ## Regulator, DDR-4 and links -/

/-- A read of 64 bytes at port 9 of class 0 for P0, and a write. -/
def rq (data : Option (List Byte)) (a : Nat) : MemReq :=
  { port := 9, tc := 0, part := 0, master := .chimney 9, addr := a, data := data, len := 64 }

/-- A request that has left its port: at DDR-4 its channel has taken it. -/
def atTarget (data : Option (List Byte)) (a : Nat) : Req :=
  { id := 7, port := 9, tc := 3, part := 0, master := .wick 0, addr := a, len := 64, data := data, out := true, reserved := false
    servedTc := 3, started := true, at_ := 0, outAt := 0, tag := 0 }

/-- P0 with bank 0 of Reservoir 0 beside its DDR-4 region; the request is out. -/
def asked (data : Option (List Byte)) (a : Nat) : State :=
  { world with rgl := { world.rgl with reqs := [atTarget data a], nextId := 8 }
               cfg := { cfg with parts := [{ (cfg.part 0) with banks := [(0, 0)] }] } }

/-- The state in which that request is answered. -/
def counted (data : Option (List Byte)) (a : Nat) : State := ((elapse 0 (asked data a)).creditNow.dropReq 7).reqCount (atTarget data a)

/-- The guest port up, its die as it said at boot. -/
def guested : State :=
  { world.fset pgGST Reg.GST_STATE_STATE 2 with guestDie := some (GuestBoot.mk 0 0 0 0 32 1 0x1000 2) }

theorem witness_RequestsIssueAndAnswer :
    (let s := copying; let q := rq none 0x1FFFC0
     s.awake = true ∧ s.portUpR 9 = true ∧ lineReq 0x1FFFC0 64 = true ∧ s.sends q = true ∧ s.chooses q = true ∧ s.wickRoom q.master = true ∧
      s.sends (rq (some [1]) 0x20000) = true ∧ (s.rgl.reqs.map (·.id)).Nodup ∧ ∀ r, r ∈ s.rgl.reqs → r.id < s.rgl.nextId) ∧
    (let r := atTarget none 0x20000; let s := asked none 0x20000; let u := counted none 0x20000
     s.rgl.reqs.find? (fun x => x.id == 7) = some r ∧ s.answerable r = true ∧ u.reqAllowed r = true ∧ u.region r.addr = .ddr ∧
      (u.keyed (some r.master) r.addr r.len).readsOk 0 r.addr r.len) ∧
    (let r := atTarget none 0x200000; let s := asked none 0x200000; s.answerable r = true ∧ (counted none 0x200000).reqAllowed r = false) ∧
    (let r := atTarget (some [1, 2]) 0x8000000000; let s := asked (some [1, 2]) 0x8000000000; let u := counted (some [1, 2]) 0x8000000000
     s.answerable r = true ∧ u.reqAllowed r = true ∧ u.region r.addr = .reservoir 0 ∧ u.lanternUp 0 = true ∧ u.writesOk 0 r.addr 2) := by
  unfold State.readsOk State.writesOk State.open_
  decide +kernel

theorem witness_RequestsIssueAndAnswer_guest :
    guested.awake = true ∧ guested.guestUp = true ∧ 1 < (guested.guestDie.map (·.gvec)).getD 0 ∧ guested.fget pgGST Reg.GST_CFG_PART = 0 ∧
    guested.cfg.ownRange 0 0x20000 64 false = true ∧ lineReq 0x20000 64 = true ∧ guested.cfg.ownRange 0 0x1FFFFF 2 false = false ∧
    (let r := { atTarget none 0xE000000000 with port := 9 }
     let s := { guested with rgl := { guested.rgl with reqs := [r], nextId := 8 } }
     s.rgl.reqs.find? (fun x => x.id == 7) = some r ∧ r.out = true ∧ s.region r.addr = .guest ∧
      s.dueNow (s.fget pgGST Reg.GST_TMO_TMO * 25) (r.outAt + s.fget pgGST Reg.GST_TMO_TMO * 25) = true) := by
  decide +kernel

theorem witness_GuaranteesAreAdmittedOrRejected :
    (world.regsUp pf = true ∧ world.reaches pf pgRGL = true ∧ world.mayWrite pf pgRGL = true ∧ world.pageBlock pgRGL = .rgl ∧
      world.flag pgRGL Reg.LOCK_LOCKED = false) ∧
    world.slotsOk 9 3 126 = true ∧ world.slotsOk 9 3 127 = false ∧
    (let s := { world.setReg pgRGL 9 0x054 0x00640001 with rgl := { world.rgl with winAt := [(9, 0)] } }
     gWin (s.gentry 9) ≠ 0 ∧ (∃ x, x ∈ s.rgl.winAt ∧ x.1 = 9) ∧ s.dueNow 250000 (aget 0 s.rgl.winAt 9 + gWin (s.gentry 9) * 2500) = true ∧
      s.isShed 9 = false ∧ s.now + 250000 = 250000 ∧
      (let waits := { s with rgl := { s.rgl with waited := [(9, 250000)] } }
       95 * (gWin (s.gentry 9) * 2500) ≤ 100 * (aget 0 waits.rgl.waited 9 + (if waits.entryWaits 9 then 250000 else 0))) ∧
      ¬ 95 * (gWin (s.gentry 9) * 2500) ≤ 100 * (aget 0 s.rgl.waited 9 + (if s.entryWaits 9 then 250000 else 0)) ∧
      100 * aget 0 s.rgl.served 9 < 95 * (gBw (s.gentry 9) * gWin (s.gentry 9) * 1000)) := by
  decide +kernel

theorem witness_GuaranteesAreAdmittedOrRejected_ok :
    ¬ (world.fget pgRGL Reg.RGL_GSEL_ENTRY + 9 < 8) ∧ world.bwsFit (List.replicate 64 0) = true ∧ gBw 0x00640001 = 1 ∧
    (world.fset pgRGL Reg.RGL_GSEL_ENTRY 9).fget pgRGL Reg.RGL_GSEL_ENTRY = 9 := by
  decide +kernel

theorem test_tc0_guarantee_rejected :
    after (.gentryWrite pf 1) world (fun t => t.fget pgRGL Reg.ERR_CODE_CODE == Err.guaranteeRejected.code) = true := by decide +kernel

/-- Channel 0 with this state, rank 0 in service and rank 1 a spare. -/
def chan (x : DmcCh) : State :=
  (((({ world with frm := { world.frm with tickAt := some 0 } }.fset (pgDMCch 0) Reg.DMC_CHSTATE_RANK0 1).fset (pgDMCch 0)
    Reg.DMC_CHSTATE_RANK1 2)).setCh 0 x)

theorem witness_DramChannelsRefreshMigrateAndTrain :
    (let s := chan { DmcCh.zero with wbuf := [(0x800, 3, false)] }; s.awake = true ∧ (s.ch 0).training = none ∧ (s.ch 0).alert = false ∧
      (∀ r, r ∈ s.atChannel 0 → 1 < s.tier r ∧ (3 < s.tier r ∨ 48 ≤ (s.ch 0).wbuf.length)) ∧ s.drainNext 0 = some (0x800, 3, false) ∧
      s.lineOffline (0x800 * 64) = false) ∧
    (let s := chan { DmcCh.zero with wbuf := [(0x800, 3, true)] }; s.drainNext 0 = some (0x800, 3, true) ∧
      s.lineOffline (0x800 * 64) = false ∧ s.region (0x800 * 64) = .ddr ∧
      (s.setCh 0 { s.ch 0 with wbuf := [] }).readRes (0x800 * 64) 64 .ok = .data ∧
      (({ s with poison := [0x800] }).setCh 0 { s.ch 0 with wbuf := [] }).readRes (0x800 * 64) 64 .ok = .poisoned 0x800) ∧
    (chan DmcCh.zero).lineOffline (0x800 * 64) = false ∧
    ((chan DmcCh.zero).fset (pgDMCch 0) Reg.DMC_CHSTATE_RANK0 5).lineOffline (0x800 * 64) = true ∧
    (let s := chan { DmcCh.zero with refAt := [(0, 0)] }; s.rankSt 0 0 ≠ 0 ∧ aget 0 (s.ch 0).refAt 0 ≤ s.now ∧ s.rankPressed 0 0 = false) ∧
    (let r := { atTarget none 0x20000 with started := false, tc := 0 }; let c := world.ddrChannel 0x20000
     let s := ({ chan DmcCh.zero with rgl := { world.rgl with reqs := [r] } }.setReg pgRGL 0 0x074 0x200).fset (pgDMCch c) Reg.DMC_CHSTATE_RANK0 1
     s.rankPressed c 0 = true ∧ aget 0 (s.ch c).postponed 0 < 8) ∧
    (let s := chan { DmcCh.zero with alert := true, alerts := [0, 0, 0] }; (s.ch 0).alert = true ∧ (s.ch 0).alerts.length < 4) ∧
    (let s := chan { DmcCh.zero with alert := true, alerts := [0, 0, 0, 250000] }; (s.ch 0).alert = true ∧ 4 ≤ (s.ch 0).alerts.length ∧
      (s.ch 0).alerts.getD 3 0 - (s.ch 0).alerts.getD 0 0 ≤ 250000) ∧
    (let s := chan { DmcCh.zero with training := some 0 }; (s.ch 0).training = some 0 ∧ s.now + 30000 ≤ 0 + 30000) := by
  decide +kernel

theorem witness_DramChannelsRefreshMigrateAndTrain_more :
    (let s := (chan DmcCh.zero).fset (pgDMCch 0) Reg.DMC_CHSTATE_RANK0 3; s.awake = true ∧ (s.ch 0).training = none ∧ s.retiring 0 = some 0 ∧
      s.fget (pgDMCch 0) Reg.DMC_WMARK_ROWS + 1 < s.rankRows ∧ s.onRow 0 0 0 0 = true) ∧
    (let s := (chan DmcCh.zero).fset (pgDMCch 0) Reg.DMC_WMARK_ROWS 0xFFFFF; s.fget (pgDMCch 0) Reg.DMC_WMARK_ROWS + 1 = s.rankRows) ∧
    (let s := { chan { DmcCh.zero with dueSince := some 0 } with frm := { world.frm with tickAt := some 0, maintStart := 0, maintLen := 200 } }
     s.frm.tickAt.isSome = true ∧ s.frm.maintSeen = false ∧ s.dueCtr 0 (s.tickNs + s.frm.maintStart * 1000) = true ∧
      (elapse 0 s).dueAt 0 ≠ none ∧
      (elapse 0 s).frameNs + 120000 ≤ (s.frm.maintStart + s.frm.maintLen) * 1000) ∧
    (let s := chan { DmcCh.zero with dueSince := some 0 }; (elapse 0 s).dueAt 0 = some 0 ∧ (s.ch 0).overdue = false ∧
      s.dueNow 15000000000 (0 + 15000000000) = true) := by
  decide +kernel

/-- A link in this state, of this width. -/
def linked (k : LinkMod) (st : Nat) (x : LinkSt) : State :=
  ((linkPages k).foldl (fun t p => t.fset p.1 (fldLnkState.at_ p.2) st) dev).setLink k x

/-- A flit of TYPE 1 with its CRC, and with another. -/
def flt1 (c : Byte) : List Byte := 1 :: List.replicate 13 0 ++ [0x91, c] ++ List.replicate 64 0

/-- The ring segment from Lantern 0, upward. -/
def rg0 : Link := ⟨.ring 0, true⟩

theorem witness_LinksCarryFlitsAndRetireLanes :
    (let s := linked (.ring 0) 2 LinkSt.zero; let d := (s.link rg0.mod).dir rg0.up
     s.live = true ∧ s.linkUp rg0.mod = true ∧ s.linkMoves rg0.mod = true ∧ (flt1 0x55).length = 80 ∧ flitGood (flt1 0x55) = true ∧
      flitGood (flt1 0x54) = false ∧ d.nak = false ∧ d.rewound = false ∧ d.fails < 8 ∧ flitRefused false (flt1 0x55) = false ∧
      hdrBits (flt1 0x55) 2 0 = 1 ∧ hdrBits (flt1 0x55) 103 96 = d.expect ∧ d.off d.expect < 128 ∧ d.mayArrive (flt1 0x55) = true ∧
      d.raws = [] ∧ d.kept d.expect = none ∧ d.queue = [] ∧ rg0 ≠ ⟨.guest, false⟩) ∧
    (let d := { LinkDir.zero with replay := [(0, flt1 0x55)] }; (d.kept d.expect).isSome = true ∧ d.mayArrive (flt1 0x55) = true) ∧
    (let s := linked (.ring 0) 2 { LinkSt.zero with up := { LinkDir.zero with nak := true } }
     ((s.link rg0.mod).dir rg0.up).nak = true ∧ ((s.link rg0.mod).dir rg0.up).rewound = false) ∧
    (let s := linked (.ring 0) 2 { LinkSt.zero with up := { LinkDir.zero with nak := true, rewound := true, fails := 6 } }
     ((s.link rg0.mod).dir rg0.up).rewound = true ∧ ((s.link rg0.mod).dir rg0.up).fails + 1 < 8) ∧
    (let s := linked (.ring 0) 2 { LinkSt.zero with step := some (3, 1, false) }; (s.link rg0.mod).step = some (3, 1, false)) ∧
    (let s := linked (.ring 0) 2 { LinkSt.zero with step := some (3, 1, true) }; (s.link rg0.mod).step = some (3, 1, true) ∧
      (s.link rg0.mod).retIn (s.linkState rg0.mod) (s.link rg0.mod).group ≤ 4 ∧ rg0.mod = .ring 0) ∧
    (∀ b, (linked (.ring 0) 2 { LinkSt.zero with test := some b }).linkUp (.ring 0) = true ∧
      ((linked (.ring 0) 2 { LinkSt.zero with test := some b }).link (.ring 0)).test = some b) := by
  decide +kernel

theorem witness_LinksCarryFlitsAndRetireLanes_test :
    let s := linked (.ring 0) 2 { LinkSt.zero with test := some true }
    (s.retireMask (.ring 0) 0).linkUp (.ring 0) = true ∧ (s.retireMask (.ring 0) 0xFFFFFFFFFFFFFFFF).linkUp (.ring 0) = false := by
  decide +kernel

theorem witness_LinksCarryFlitsAndRetireLanes_lanes :
    (let s := linked (.ring 0) 2 { LinkSt.zero with feat := 16 }; let x := s.link (.ring 0)
     63 < x.lanes ∧ 63 ∉ x.retired ∧ x.step = none ∧ s.linkState (.ring 0) ≠ 4 ∧ 63 / groupSize x.lanes (s.linkState (.ring 0)) = x.group ∧
      s.linkSpares (.ring 0) < 4 ∧ x.feat.testBit 4 = true) ∧
    dev.dueNow (dev.fget pgLNKC Reg.LNK_THR_WIN * 250000) (dev.lnkWin + dev.fget pgLNKC Reg.LNK_THR_WIN * 250000) = true ∧
    (let s := { dev with bonds := [(7, 63)] }; s.live = true ∧ (7, 63) ∈ s.bonds) := by
  decide +kernel

theorem test_flit_accepted :
    after (.flitReceive rg0 (flt1 0x55) 0) (linked (.ring 0) 2 LinkSt.zero) (fun t => (t.link (.ring 0)).up.expect == 1 && (t.link (.ring 0)).up.credits == 31 :: List.replicate 7 32) = true ∧
    after (.flitReceive rg0 (flt1 0x54) 0) (linked (.ring 0) 2 LinkSt.zero) (fun t => (t.link (.ring 0)).up.nak) = true := by
  decide +kernel

theorem witness_SheddingRestoresLimits : (dev.setShed 9 true).isShed 9 = true ∧ dev.isShed 9 = false := by decide +kernel

/-! ## Cameras, Ethernet, PCIe -/

/-- Stream 0 on receiver 0, virtual channel 1: RAW8 of 8 × 2 pixels. -/
def cam0 : CamCfg :=
  { en := true, rx := 0, vc := 1, dt := 0x2A, cfa := 0, width := 8, height := 2, fcsrc := 0, fcoff := 0, close := 5000, part0 := 0, part1 := 0
    dual := false, lvls := [], pipe := PipeCfg.mk [] [] [] [] [] }

/-- A rule that drops ARP, one that takes PTPv1 to host queue 1, one that takes EtherType 0x0101 to stream 2. -/
def rule (ty : Nat) (a : EthAction) : EthRule := EthRule.mk 0xFF (some ty) none none 0 0 none none a

/-- The device with stream 0, an Ethernet stream 2, rules, and a ring of transmit queue 1 of port 0. -/
def netS : State :=
  let c := { cfg with
    cams := [cam0]
    eth := { cfg.eth with
      streams := [EthStream.mk 2 0 1 64 8 2 5000]
      rules := [rule 0x0806 .drop, rule 0x88F8 (.hostq 1), rule 0x0101 (.stream 2)]
      rings := [EtqCfg.mk true 1 0 3 2 0 0] } }
  ({ world with cfg := c, frm := { world.frm with tickAt := some 0 } }.store 0x10060 (entryAt 0x80000)).fset (pgETH 0) Reg.ETH_PORT_RATE 1 |>.fset (pgETH 0) Reg.ETH_PORT_MAXLEN 1522

/-- A frame on its way with these lines. -/
def camF (ls : List (List Byte)) (drop ended : Bool) : CamFrame := CamFrame.mk 1 0 0 true ls 0 drop ended true
def withFrame (f : CamFrame) : State := { netS with ing := { netS.ing with cams := [(0, [f])], closed := [(0, 1)] } }

theorem witness_CameraStreamsFollowChapter16 :
    (netS.awake = true ∧ netS.cfg.camOf 0 0 = none ∧ netS.cfg.camOf 0 1 = some (0, cam0) ∧ netS.camCur 0 = none) ∧
    (let s := withFrame (camF [[1]] false false); let f := camF [[1]] false false
     s.camCur 0 = some f ∧ cam0.dt ≠ 0x12 ∧ f.drop = false ∧ f.lines.length < cam0.height ∧ s.groupFill 0 + 1 ≤ camGroupBytes ∧
      camGroupBytes < s.groupFill 0 + (List.replicate 524288 (0 : Byte)).length ∧ s.camFrames 0 = [f] ∧ f.ended = false ∧ f.done < f.lines.length) := by
  refine ⟨by decide +kernel, ?_⟩
  rw [List.length_replicate]
  decide +kernel

theorem witness_CameraStreamsFollowChapter16_slices :
    (let f := camF [[1], [2]] false true; let s := withFrame f; s.dueNow 0 s.ing.freeAt = true ∧ (elapse 0 s).pxePick = some 0 ∧
      s.cfg.cams[0]? = some cam0 ∧ (elapse 0 s).camNext 0 cam0 = some f) ∧
    (let s := { netS with ing := { netS.ing with ticks := [(1, 0)] }, tbu := { netS.tbu with ctr := 5000000 * nsUnit } }
     s.cfg.cams[0]? = some cam0 ∧ cam0.en = true ∧ s.closeDue 0 (s.oldestOpen 0) 0 = true ∧ (s.cfg.ethStream 2).isSome = true ∧
      s.closeDue (ethKey 2) (s.oldestOpen (ethKey 2)) 0 = true) := by
  decide +kernel

/-- A frame of 60 bytes with an EtherType. -/
def frame60 (a b : Byte) : List Byte := List.replicate 12 0 ++ [a, b] ++ List.replicate 46 0

/-- Transmit queue 1 of port 0 with one descriptor, of 64 bytes of handle 1 with the launch time 0. -/
def sending : State :=
  ((netS.fset (pgTxq 0 1) Reg.ETQ_SW_INDEX 1).store 0x80000 (toLE 8 1 ++ toLE 8 (64 + 2 ^ 14))).store 0x10020 (entryAt 0x20000)

/-- The gate's frame waits at port 0. -/
def gateOut : State := { netS with gate := { netS.gate with out := some (0, [1]), trajNext := some ([5], 0, 0, 1) } }

theorem witness_EthernetReceivesAndTransmits :
    (netS.awake = true ∧ netS.ethUp 0 = true ∧ netS.ethUp 1 = false) ∧
    (let b := frame60 0x22 0x22; 64 ≤ b.length + 4 ∧ b.length + 4 ≤ netS.fget (pgETH 0) Reg.ETH_PORT_MAXLEN ∧ (parseEth b).etype = 0x2222 ∧
      netS.ethFill + b.length ≤ ethBufBytes ∧ (netS.cfg.eth.rules.find? fun r => r.hits 0 (parseEth b)) = none) ∧
    (netS.cfg.eth.rules.find? fun r => r.hits 0 (parseEth (frame60 0x08 0x06))) = some (rule 0x0806 .drop) ∧
    (netS.cfg.eth.rules.find? fun r => r.hits 0 (parseEth (frame60 0x88 0xF8))) = some (rule 0x88F8 (.hostq 1)) ∧
    (netS.cfg.eth.rules.find? fun r => r.hits 0 (parseEth (frame60 0x01 0x01))) = some (rule 0x0101 (.stream 2)) ∧
    (parseEth (frame60 0x88 0x08)).etype = 0x8808 ∧ (parseEth (frame60 0x88 0xF7)).etype = 0x88F7 ∧
    netS.flag pgTBU Reg.TBU_SERVO_OWNER = false ∧ (netS.fset pgTBU Reg.TBU_SERVO_OWNER 1).flag pgTBU Reg.TBU_SERVO_OWNER = true ∧
    (∀ r, r ∈ netS.cfg.eth.rings → r.tc < 8) ∧
    (netS.regsUp pf = true ∧ netS.reaches pf (pgTxq 0 1) = true ∧ netS.mayWrite pf (pgTxq 0 1) = true ∧ netS.pageBlock (pgTxq 0 1) = .etqTx ∧
      netS.designatedQ 0 1 = false ∧ netS.designatedQ 0 0 = true ∧ netS.flag (pgTxq 0 0) Reg.INT_STATUS_ERR = false) := by
  decide +kernel

/-- What port 0 finds when it looks for a frame; and `sending` whose descriptor names a handle that resolves to nothing. -/
def sendUp (s : State) : State := ((elapse 0 s).gateMissed.txOpen 0).txClean 0
def stale : State := sending.store 0x10020 (List.replicate 32 0)

theorem witness_EthernetReceivesAndTransmits_tx :
    (gateOut.macBusy 0 = none ∧ gateOut.gateDue 0 0 = some [1] ∧ gateOut.ethUp 0 = true ∧
      (gateOut.fset (pgETH 0) Reg.ETH_PORT_RATE 0).ethUp 0 = false) ∧
    (sending.macBusy 0 = none ∧ sending.gateDue 0 0 = none ∧ (sendUp sending).ethUp 0 = true ∧
      (sendUp sending).txPick 0 = some 1) ∧
    (let s := (stale.fset (pgETH 0) Reg.ETH_PORT_RATE 1)
     s.macBusy 0 = none ∧ s.gateDue 0 0 = none ∧ (sendUp s).txPick 0 = none ∧ (sendUp s).txLeft (pgTxq 0 1) ≠ s.txLeft (pgTxq 0 1)) ∧
    (let x := EthTx.mk none [1] 0 0; let s := { netS with ethTx := [(0, x)] }; s.macBusy 0 = some x ∧ s.dueNow 0 x.endAt = true ∧ x.queue = none) ∧
    (let s := { sending with tbu := { sending.tbu with ctr := 1000000 * nsUnit } }
     let u := s.txOpen 0
     u.txHead 0 1 = some (EtqCfg.mk true 1 0 3 2 0 0, 0x80000) ∧ txLt (u.loadLE (0x80000 + 8) 8) = true ∧ s.macBusy 0 = none ∧
      s.dueCtr 0 (u.txLaunch 0x80000 + s.fget (pgETH 0) Reg.ETH_LATETOL_NS + 1) = true) := by
  decide +kernel

theorem test_rx_short : after (.ethRxFrame 0 (List.replicate 59 0) true 0 0) netS (fun t => t.fget (pgETH 0) Reg.ETH_RX_DROP_COUNT == 1) = true := by
  decide +kernel

/-- Function 1 of port H0 (P0): aperture 0 opens handle 1, which the host may access. -/
def aper : State :=
  { world.fsetI (pgPCH 0 1) 0 Reg.PCH_AP_LO_VALID 1 with hUp0 := true, aps := [(apKey 0 1 0, BufEntry.mk 0x20000 true true false true 0 0x1000 false)] }

/-- The state after a read's passage through the aperture's port. -/
def apRead (s : State) : State := (s.traffic (some (.pcie 0 1)) 19 4 0 0x20FC0 64 false).guestIn 0x20FC0 64

theorem witness_AperturesAndPcieLinks :
    (aper.awake = true ∧ aper.portUp 0 = true ∧ aper.apResolve 0 1 0 0xFC0 64 true = .at_ 0x20FC0 ∧ aper.apResolve 0 1 0 0xFC0 64 false = .at_ 0x20FC0 ∧
      aper.bondWait 0x20FC0 64 = false ∧ (apRead aper).bondWait 0x20FC0 64 = false ∧ ((apRead aper).readRes 0x20FC0 64 .ok).err = none ∧
      ((apRead { aper with poison := [0x20FC0 / 64] }).readRes 0x20FC0 64 .ok).err = some .poisonedRead ∧
      { aper with bonds := [(0, 0)] }.bondWait 0x8000000000 64 = true ∧ aper.apResolve 0 1 0 0xFC1 64 false = .fail .lengthExceedsExtent ∧
      aper.flag (pgPCH 0 1) Reg.INT_STATUS_ERR = false) ∧
    (aper.regsUp pf = true ∧ aper.reaches pf (pgPCH 0 1) = true ∧ aper.mayWrite pf (pgPCH 0 1) = true ∧ aper.pageBlock (pgPCH 0 1) = .pch ∧
      aper.bufTab 0 ≠ 0) ∧
    (let s := { dev with hUp0 := true }.fset pgFLT Reg.FLT_BOOT_STATE 2; s.inRecovery = true ∧ s.portUp 0 = true) ∧
    ({ aper with aps := [(apKey 0 1 0, BufEntry.mk 0x20000 true true true true 0x30000 0x1000 false)] }.fsetI (pgPCH 0 1) 0
      Reg.PCH_AP_LO_SLOT 1).apResolve 0 1 0 0 64 false = .stale ∧
    { dev with hUp0 := false }.portUp 0 = false := by
  decide +kernel

theorem test_aperture_write : after (.apertureAccess (.host 0 1) 0 0xFC0 (some [5]) 0 .ok) aper (fun t => readByte t.mem 0x20FC0 == 5) = true := by
  decide +kernel

/-! ## Power, boot, mailbox, debug -/

/-- In this power state, both Snuffers reset. -/
def inPwr (st : Nat) : State := { dev with hUp0 := true, hUp1 := true }.fset pgPWR Reg.PWR_CTRL_STATE st

/-- Ember, one entry ago; and on its way there, or out of it. -/
def ember : State := inPwr 2
def entering : State := { inPwr 1 with pwr := { dev.pwr with entering := some 0 } }
def exiting : State := { ember with pwr := { dev.pwr with exiting := some 0 } }

theorem witness_PowerStatesFollowChapter18 :
    (let s := inPwr 0; s.awake = true ∧ s.pwrSt = 0 ∧ s.fget pgPWR Reg.PWR_GLOW_IDLE_US ≠ 0 ∧
      s.idleDue (s.fget pgPWR Reg.PWR_GLOW_IDLE_US * 250) (s.fget pgPWR Reg.PWR_GLOW_IDLE_US * 250) = true) ∧
    (let s := ((inPwr 1).fset pgPWR Reg.PWR_CTRL_EMBER_EN 1).fset pgPWR Reg.PWR_EMBER_IDLE_S 1; s.awake = true ∧ s.emberMay = true ∧
      s.fget pgPWR Reg.PWR_EMBER_IDLE_S = 1 ∧ s.idleDue 250000000 (1 * 250000000) = true) ∧
    (entering.live = true ∧ entering.activity = false ∧ entering.pwr.entering = some 0 ∧ entering.now + 500000 ≤ 0 + 500000 ∧ entering.pwr.lastAct ≤ 0) ∧
    (let s := (ember.fset pgPWR Reg.PWR_CTRL_DARK_EN 1).fset pgPWR Reg.PWR_DARK_IDLE_S 1; s.live = true ∧ s.pwrSt = 2 ∧ s.pwr.exiting = none ∧
      s.flag pgPWR Reg.PWR_CTRL_DARK_EN = true ∧ s.fget pgPWR Reg.PWR_DARK_IDLE_S = 1 ∧ 250000000 = s.pwr.since + 1 * 250000000 - s.realNow) := by
  decide +kernel

theorem witness_PowerStatesFollowChapter18_wake :
    ((inPwr 1).wakeFrom = some 1 ∧ ember.wakeFrom = some 2 ∧ entering.wakeFrom = some 2 ∧
      ({ ember with pwr := { dev.pwr with dark := true } } : State).wakeFrom = some 3 ∧ (inPwr 0).wakeFrom = none) ∧
    (let s := ember.fset pgPWR Reg.PWR_WAKE_EN_MASK 1; (1 % 2048) &&& s.fget pgPWR Reg.PWR_WAKE_EN_MASK &&& wakeList 2 = 1 ∧
      (0 % 2048) &&& s.fget pgPWR Reg.PWR_WAKE_EN_MASK &&& wakeList 2 = 0) ∧
    (exiting.live = true ∧ exiting.pwr.exiting = some 0 ∧ exiting.now + 800000 ≤ 0 + 800000 ∧ exiting.pwr.held = []) ∧
    (ember.live = true ∧ ember.pwrSt = 2 ∧ ember.portUp 1 = true ∧ ember.pwr.entering = none ∧ (ember.pwr.held.filter fun h => h.1 == 1).length < 64 ∧
      64 ≤ ((List.replicate 64 ((1 : Nat), PcieReq.bell 1 0 0)).filter fun h => h.1 == 1).length) := by
  decide +kernel

theorem test_wake_from_glow : after (.wake 1 0) ((inPwr 1).fset pgPWR Reg.PWR_WAKE_EN_MASK 1)
    (fun t => t.pwrSt == 0 && t.fget pgPWR Reg.PWR_WAKE_LAST_FROM == 1) = true := by decide +kernel

/-- A sample of the Trimmer; three in a row at TJ.CRIT on sensor 3. -/
def trimIn (crit : List Nat) : TrimIn := { temps := [100, 300], powers := [], pkg := 0, crit := crit, rails := [], phys := [], busy := [] }

/-- Lantern 2 at the soft limit, with this grant, and alone in service. -/
def hot (g : Nat) : State := ((dev.fset pgLNKC Reg.LNK_INSVC_MASK 4).fsetI pgTRM 2 Reg.TRM_LANTERN_T 200).fsetI pgTRM 2 Reg.TRM_LANTERN_GRANT g

theorem rule1_of_hot (s : State) (h : s.trmLanterns = [2]) (ht : s.fget pgTRM Reg.TRM_TJ_SOFT ≤ s.tcode 2) : s.rule1 = true := by
  rw [State.rule1, h]
  simp [ht]

theorem witness_TrimmerSamplesGrantsAndCounts_hot (g : Nat) (h : g = 20 ∨ g = 4) : (hot g).rule1 = true := by
  rcases h with rfl | rfl <;> exact rule1_of_hot _ (by decide +kernel) (by decide +kernel)

/-- Lantern 2 alone in service, at 0 °C, at its highest grant, its thermal resistance not yet measured. -/
def cool : State :=
  (((dev.fset pgLNKC Reg.LNK_INSVC_MASK 4).fsetI pgTRM 2 Reg.TRM_LANTERN_T 64).fsetI pgTRM 2 Reg.TRM_LANTERN_GRANT 28).fsetI pgTRM 2
    Reg.TRM_LANTERN_RTH 0

theorem rule1_of_cool (s : State) (h : s.trmLanterns = [2]) (hr : s.fgetI pgTRM 2 Reg.TRM_LANTERN_RTH = 0) (hc : s.tcode 2 = 64)
    (hs : 0 ≤ s.tjSoft) (ht : 64 < s.fget pgTRM Reg.TRM_TJ_SOFT) : s.rule1 = false := by
  have hz : (s.tp 2 (s.grant 2)).1 = 0 := by simp [State.tp, hr, hc]
  have ha : tpAbove (s.tp 2 (s.grant 2)) s.tjSoft = false := by
    rw [tpAbove, hz]
    exact decide_eq_false (by simpa using Int.mul_nonneg hs (Int.natCast_nonneg _))
  simp [State.rule1, h, ha, hc, ht]

theorem witness_TrimmerSamplesGrantsAndCounts_still : cool.rule1 = false ∧
    (cool.pkgPower ≤ cool.fget pgTRM Reg.TRM_PLIMIT_W * 1000 ∧ (∀ n, n ∈ cool.trmLanterns → cool.grant n ≤ cool.ramp n) ∧
      (∀ n, n ∈ cool.trmLanterns → cool.mayRaise n = false) ∧ cool.trmLanterns = [2]) :=
  ⟨rule1_of_cool _ (by decide +kernel) (by decide +kernel) (by decide +kernel) (by decide +kernel) (by decide +kernel), by decide +kernel⟩

theorem witness_TrimmerSamplesGrantsAndCounts :
    (dev.awake = true ∧ dev.dueNow 250000 (dev.trm.sampleAt + 250000) = true ∧ dev.trm.tripped = false ∧ (trimIn []).crit = [] ∧ (trimIn []).rails = []) ∧
    (let s := { dev with trm := { dev.trm with crit := [(3, 2)] } }; 3 ∈ (trimIn [3]).crit ∧ 2 ≤ aget 0 s.trm.crit 3) ∧
    ((hot 20).hottest = some 2 ∧ (hot 20).flag pgTRM Reg.TRM_STATUS_ALERT = false ∧ (hot 20).fmin < (hot 20).grant 2) ∧
    ((hot 4).hottest = some 2 ∧ (hot 4).grant 2 ≤ (hot 4).fmin) ∧
    (dev.flag pgLMP Reg.LMP_FRAME_CTRL_ENABLE = false ∧
      (let s := { dev with tbu := { dev.tbu with ctr := 50000000 * nsUnit } }; s.dueCtr 0 (s.trm.perAt + 50000000) = true)) ∧
    (dev.fset pgTRM Reg.TRM_STATUS_ALERT 1).flag pgTRM Reg.TRM_STATUS_ALERT = true ∧
    dev.dueNow 250000000 (dev.trm.cycAt + 250000000) = true ∧ dev.dueNow 150000000000 (dev.trm.saveAt + 150000000000) = true := by
  decide +kernel

/-- A header of the owner's key with the signature good, and a configuration by it. -/
def head (kind : Nat) : ObjHead :=
  { ObjHead.empty with magic := 0x4F534C57, ver := 1, kind := kind, keyHash := 1, sigOk := true, serial := 1 }
def cfgObj : SignedObj := SignedObj.mk (head 2) (.config Cfg.empty)

/-- A board record: 8 Gb x16 devices at 3200 MT/s, one rank. -/
def board (ranks : Nat) : BoardRec :=
  { dens := 8, x16 := true, ranks := ranks, grade := 3200, trc := 46, turn := 20, ref2x := false
    masks := [0x40, 0x80, 0x100, 0x200, 0x400, 0x800, 0x1000, 0] }

/-- The flash with an image that carries a board record. -/
def imaged (ranks : Nat) : State :=
  { State.reset with flash := { Flash.blank with image := some (SignedObj.mk (head 1) (.image (board ranks))) } }

/-- A boot in which nothing fails. -/
def boot0 (fuse : Bool) : BootIn :=
  { edges := 25000000, fuseOk := fuse, imgBad := 0, cfgBad := 0, logBad := [], ranks := [], temps := [], lanes := [], links := [], wicks := []
    dcds := List.replicate 8 (lanternDcd 0 0 0), guest := none }

/-- The state in which that boot has trained the channels: what `imaged 1` holds after step 4. -/
def trained : State :=
  let b := boot0 true
  let s := imaged 1
  let p : State := { s.chipReset with powered := true, hUp0 := true, hUp1 := true, flt := { Flt.zero with goodAt := s.now, boot := some b } }
  let u := (elapse b.edges { p with trm := { p.trm with vset := p.railsUp } }).drawKeys
  let v := (((u.loadFuses.fset pgFLT Reg.FLT_BOOT_STATE 0).fset pgFLT Reg.FLT_BOOT_STEP 3).runImage (head 1)).readLog b
  (List.range 16).foldl (fun t c => t.trainChannel b c) (((v.countBin 0 5).lifeRegs.fset pgFLT Reg.FLT_BOOT_STEP 4).loadBoard (board 1))

theorem witness_BootAndSupplies :
    (State.reset.powered = false ∧ State.reset.pwr.dark = false ∧ (boot0 false).fuseOk = false ∧ State.reset.flash.image = none) ∧
    (∃ h r, (imaged 0).imageAt = .ok (h, r) ∧ r.ok = false) ∧ (∃ h r, (imaged 1).imageAt = .ok (h, r) ∧ r.ok = true) ∧
    (dev.powered = true ∧ dev.flt.mb = none) ∧ (List.range 16).any trained.trainBad = false ∧
    (let s := { dev.fset pgFLT Reg.FLT_BOOT_STEP 7 with
       cfg := { cfg with snA := { cfg.snA with head := head 5 } }, fuses := { Fuses.initial with okh := [1, 1, 0, 0] } }
     s.snReleased .a = true ∧ s.tableOk .a = true) ∧
    (let s := { dev with flt := { Flt.zero with readyAt := some 0 } }; s.live = true ∧ s.flt.keyReady = false ∧ s.now + 50000000 ≤ 0 + 50000000) :=
  ⟨by decide +kernel, ⟨_, _, rfl, by decide +kernel⟩, ⟨_, _, rfl, by decide +kernel⟩, by decide +kernel, by decide +kernel, by decide +kernel, by decide +kernel⟩

/-- Flint RUNNING with a command in progress; IN names handle 0 of P0, a buffer of 4 KiB. -/
def mailing (cmd : Nat) (o : Option SignedObj) (fail : Option Nat) : State :=
  { (world.store 0x10000 (entryAt 0x20000)).fset pgFLT Reg.FLT_BOOT_STATE 1 with
    flt := { Flt.zero with mb := some (MbRun.mk cmd o 0 0 fail), keyReady := true, nonce := some 77 }, fuses := { Fuses.initial with okh := [1, 1, 0, 0] } }

/-- A revocation of slot 1, and a debug token for the nonce 77. -/
def revObj : SignedObj := SignedObj.mk { head 7 with target := 1 } .empty
def tokObj : SignedObj := SignedObj.mk { head 6 with target := 3, bind := 77 } .empty

theorem witness_MailboxRunsOneCommand :
    (let s := dev.fset pgFLT Reg.FLT_BOOT_STATE 1; s.regsUp pf = true ∧ s.reaches pf pgFLT = true ∧ s.mayWrite pf pgFLT = true ∧
      s.flag pgFLT Reg.FLT_MB_STATUS_BUSY = false ∧ ∀ n ∈ [1, 2, 3, 4, 5, 6, 7, 8, 9], s.mbAccepts n = true) ∧
    (let inOk := fun (s : State) => ∃ r, s.flt.mb = some r ∧ (s.inObj r).2 = none;
      inOk (mailing 3 (some cfgObj) none) ∧ inOk (mailing 5 (some revObj) (some 1)) ∧ inOk (mailing 9 (some tokObj) none) ∧
      ({ mailing 3 (some cfgObj) none with cfg := Cfg.empty }.inObj (MbRun.mk 3 (some cfgObj) 0 0 none)).2 = some .partitionViolation) ∧
    (let s := mailing 3 (some cfgObj) none; s.live = true ∧ s.pwrSt ≤ 1 ∧ s.bootSt = 1 ∧ s.objErr 2 s.fuses.arbCfg cfgObj.head = none ∧
      s.flashErr 2 cfgObj = none ∧ s.objErr 2 s.fuses.arbCfg { cfgObj.head with sigOk := false } = some .signatureInvalid) ∧
    (let s := mailing 5 (some revObj) (some 1); s.objErr 7 0 revObj.head = none ∧ revObj.head.keyslot ≠ revObj.head.target % 4 ∧
      (∃ k, k < 4 ∧ k ≠ revObj.head.target % 4 ∧ s.fuses.slotGood s.fuses.okrev k = true) ∧ s.snB.okrev.testBit (revObj.head.target % 4) = false ∧
      s.objErr 7 0 { revObj.head with ver := 0 } = some .signatureInvalid) ∧
    (let s := mailing 9 (some tokObj) none; s.tokenOk tokObj = true ∧ s.tokenOk (SignedObj.mk { tokObj.head with bind := 78 } .empty) = false) :=
  ⟨by decide +kernel, ⟨⟨_, rfl, by decide +kernel⟩, ⟨_, rfl, by decide +kernel⟩, ⟨_, rfl, by decide +kernel⟩, by decide +kernel⟩,
    by decide +kernel, by decide +kernel, by decide +kernel⟩

theorem test_write_config : after .mailboxCommandDone (mailing 3 (some cfgObj) none)
    (fun t => t.flash.config == some cfgObj && t.flt.mb == none && t.fget pgFLT Reg.FLT_MB_STATUS_ERR == 0) = true := by decide +kernel

/-- All scope bits granted, or none; frozen. -/
def withScope (k : Nat) : State := dev.fset pgFLT Reg.FLT_DEBUG_SCOPE k
def frozen (k : Nat) : State := (withScope k).fset pgDBG Reg.DBG_FRZ_FROZEN 1

theorem witness_FreezeAndJtagFollowChapter21 :
    (∀ k ∈ [0, 15], (withScope k).powered = true ∧ (withScope k).dbg.asked = none ∧ (withScope k).flag pgDBG Reg.DBG_FRZ_FROZEN = false) ∧
    ((withScope 15).scope 3 = true ∧ (withScope 0).scope 3 = false ∧ (withScope 15).scope 0 = true ∧ (withScope 0).flag pgDBG Reg.INT_STATUS_ERR = false) ∧
    ((withScope 15).regsUp pf = true ∧ (withScope 15).reaches pf pgDBG = true ∧ (withScope 15).mayWrite pf pgDBG = true) ∧
    ((frozen 15).flag pgDBG Reg.DBG_FRZ_FROZEN = true ∧ (frozen 15).reaches .jtag pgDBG = true ∧ (frozen 15).mayWrite .jtag pgDBG = true ∧
      (frozen 15).scope 2 = true ∧ (frozen 15).scope 1 = true) ∧
    ({ dev with dbg := { dev.dbg with asked := some 0 } }.dbg.asked.isSome = true ∧ dev.pwr.entering = none) ∧
    (let s := (frozen 15).fset pgDBG Reg.DBG_FRZ_BALL 1; s.flag pgDBG Reg.DBG_FRZ_BALL = true ∧ s.flag pgDBG Reg.DBG_CTRL_FREEZE = false ∧
      s.dbg.hold = false ∧ s.flag pgDBG Reg.DBG_FRZ_SCANNED = false ∧
      (s.fset pgDBG Reg.DBG_FRZ_SCANNED 1).flag pgDBG Reg.DBG_FRZ_SCANNED = true) ∧
    ((frozen 15).region 0x8000000040 = .reservoir 0 ∧ (frozen 15).poison.contains (0x8000000040 / 64) = false) ∧
    jtagCodes.contains 0x77 = false := by
  decide +kernel

theorem test_freeze : after .freezeRequest (withScope 0) (fun t => t.dbg.asked == some 0 && t.flag pgDBG Reg.DBG_FRZ_BALL) = true ∧
    after (.freezeComplete 120) { withScope 15 with dbg := { dev.dbg with asked := some 0 } } (fun t => !t.live && t.fget pgDBG Reg.DBG_FRZ_LAT == 120) = true := by
  decide +kernel
end Sys2Proof.Tests
end

section
/-!
PROOF. The frame registers and the frame tick: the reset values, the events that make a tick, the registers that take effect
with their conditions, and the write of ENABLE (02 R33 to R42).
-/

namespace Sys2Proof.Machine

open Sys2Proof

/-! ## The reset values -/

/-- A register reads its reset value before anything writes it. -/
theorem State.reg_reset (page idx off : Nat) : State.reset.reg page idx off = regReset page off := rfl

/-- A field of a page reads the reset value of its bits before anything writes them. -/
theorem State.fget_reset (page : Nat) (f : Fld) : State.reset.fget page f = f.get (regReset page f.off) := rfl

/-- Settles O2: a register reads its reset value, and those are evaluated from the register tables. -/
theorem resetRegisterValues : Obligations.ResetRegisterValues := by
  unfold Obligations.ResetRegisterValues State.epoch
  simp only [State.reg_reset, State.fget_reset]
  decide

/-! ## The events that make a tick (02 R33, R34) -/

/-- A command that is due in an awake block takes its effect. -/
theorem onAwake_of_due {s : State} {c : Bool} (t : State) (ha : s.awake = true) (hc : c = true) : onAwake s c t = .next t := by
  rw [onAwake, ha, hc, Bool.and_self, if_pos rfl]

/-- TBU_TICK is a tick where the counter, as the source, reaches TBU_NEXT. -/
theorem exec_tbuTick_of_due {s : State} {e : Nat} (ha : s.awake = true) (ht : s.ticking = true) (hs : s.frm.tickSrc = false)
    (hd : s.dueCtr e (s.tbu.next / nsUnit) = true) : exec (.tbuTick e) s = .next ((elapse e s).tick false) :=
  onAwake_of_due _ ha (by simp [ht, hs, hd])

/-- SUBSTITUTE_TICK counts, raises its event and line and is a tick at 1.1 periods. -/
theorem exec_substituteTick_of_due {s : State} {e : Nat} (ha : s.awake = true) (ht : s.ticking = true)
    (hs : s.frm.tickSrc = true) (he : e = s.tickBase + s.frm.periodUs * 250 * 11 / 10 - s.now) :
    exec (.substituteTick e) s =
      .next (((((elapse e s).fadd pgLMP Reg.LMP_TICK_SUBST_COUNT 1).event pgLMP).pulse 1).tick true) :=
  onAwake_of_due _ ha (by simp [ht, hs, State.dueNow, edgesPerUs, he])

/-- What a selected edge on FTICK_IN does in the state it arrives in (02 R34). -/
def State.selectedEdge (s : State) : State :=
  if s.frm.firstPending then s.tick false
  else if (s.now - s.tickBase) * 10 < s.frm.periodUs * edgesPerUs * 9 then s.tickEarly
  else if (s.now - s.tickBase) * 10 ≤ s.frm.periodUs * edgesPerUs * 11 then s.tick false
  else s

/-- An edge of the selected direction arrives after the time that passes with it. -/
theorem exec_ftickInEdge_of_selected {s : State} {e : Nat} {rising : Bool} (ha : s.awake = true) (ht : s.ticking = true)
    (hs : s.frm.tickSrc = true) (hr : rising = !s.frm.tickEdge) :
    exec (.ftickInEdge e rising) s = .next (elapse e s).selectedEdge :=
  onAwake_of_due _ ha (by simp [ht, hs, hr])

/-- The first edge after ENABLE is a tick. -/
theorem State.selectedEdge_of_first {s : State} (h : s.frm.firstPending = true) : s.selectedEdge = s.tick false :=
  if_pos h

/-- An edge before 0.9 periods is counted as early. -/
theorem State.selectedEdge_of_early {s : State} (h : s.frm.firstPending = false)
    (hd : (s.now - s.tickBase) * 10 < 9 * (s.frm.periodUs * 250)) : s.selectedEdge = s.tickEarly := by
  rw [State.selectedEdge, if_neg (by simp [h]), if_pos (by unfold edgesPerUs; omega)]

/-- An edge from 0.9 to 1.1 periods is a tick. -/
theorem State.selectedEdge_of_inTime {s : State} (h : s.frm.firstPending = false)
    (hlo : 9 * (s.frm.periodUs * 250) ≤ (s.now - s.tickBase) * 10)
    (hhi : (s.now - s.tickBase) * 10 ≤ 11 * (s.frm.periodUs * 250)) : s.selectedEdge = s.tick false := by
  rw [State.selectedEdge, if_neg (by simp [h]), if_neg (by unfold edgesPerUs; omega), if_pos (by unfold edgesPerUs; omega)]

/-- Settles O5: each command is due in the case named, and an edge then falls into one of the windows of R34. -/
theorem tickCommandsComplete : Obligations.TickCommandsComplete := by
  intro s e rising ha ht
  refine ⟨exec_tbuTick_of_due ha ht, fun hs hr hf => ?first, fun hs hr hf hlo hhi => ?inTime, fun hs hr hf hd => ?early,
    exec_substituteTick_of_due ha ht⟩
  case first => rw [exec_ftickInEdge_of_selected ha ht hs hr, State.selectedEdge_of_first hf]
  case inTime => rw [exec_ftickInEdge_of_selected ha ht hs hr, State.selectedEdge_of_inTime hf hlo hhi]
  case early => rw [exec_ftickInEdge_of_selected ha ht hs hr, State.selectedEdge_of_early hf hd]; rfl

/-! ## Deadlines and the maintenance window (02 R38, R42) -/

theorem deadlinesOk_iff (pub plan period : Nat) :
    deadlinesOk pub plan period = true ↔ plan + 1000 ≤ pub ∧ pub + 1000 ≤ period := by
  simp [deadlinesOk]

/-- Two fields put back to their values in force and an error captured on their page: the page takes the error's code where it
held no earlier error. -/
theorem State.code_capture_fset_fset (s : State) (page : Nat) {f g : Fld} (x y : Nat) (e : Err) (addr : Nat) (hf : f.ok)
    (hg : g.ok) (hfo : f.off ≠ 0x018) (hgo : g.off ≠ 0x018) (h : s.flag page Reg.INT_STATUS_ERR = false) :
    (((s.fset page f x).fset page g y).capture page e addr).fget page Reg.ERR_CODE_CODE = e.code := by
  refine State.code_capture _ _ _ _ ?_
  rw [State.flag, State.fget_fset_other _ _ _ _ _ hg (by decide) (.inl hgo),
    State.fget_fset_other _ _ _ _ _ hf (by decide) (.inl hfo)]
  exact h

/-- Deadlines that meet R38 take effect. -/
theorem State.takeDeadlines_of_ok {s : State}
    (h : s.fget pgLMP Reg.LMP_PLAN_OFFSET_OFFSET + 1000 ≤ s.fget pgLMP Reg.LMP_PUB_OFFSET_OFFSET ∧
      s.fget pgLMP Reg.LMP_PUB_OFFSET_OFFSET + 1000 ≤ s.frm.periodUs) :
    s.takeDeadlines = { s with frm := { s.frm with
      pubUs := s.fget pgLMP Reg.LMP_PUB_OFFSET_OFFSET, planUs := s.fget pgLMP Reg.LMP_PLAN_OFFSET_OFFSET } } :=
  if_pos ((deadlinesOk_iff _ _ _).2 h)

/-- Deadlines that fail R38 are discarded, with an error on the Lamplighter's page. -/
theorem State.takeDeadlines_of_not_ok {s : State}
    (h : ¬ (s.fget pgLMP Reg.LMP_PLAN_OFFSET_OFFSET + 1000 ≤ s.fget pgLMP Reg.LMP_PUB_OFFSET_OFFSET ∧
      s.fget pgLMP Reg.LMP_PUB_OFFSET_OFFSET + 1000 ≤ s.frm.periodUs)) :
    s.takeDeadlines = ((s.fset pgLMP Reg.LMP_PUB_OFFSET_OFFSET s.frm.pubUs).fset pgLMP Reg.LMP_PLAN_OFFSET_OFFSET
      s.frm.planUs).capture pgLMP .lengthExceedsExtent 0 :=
  if_neg (mt (deadlinesOk_iff _ _ _).1 h)

/-- A maintenance window within the period takes effect. -/
theorem State.takeMaint_of_le {s : State}
    (h : s.fget pgLMP Reg.LMP_MAINT_WIN_START + s.fget pgLMP Reg.LMP_MAINT_WIN_LEN ≤ s.frm.periodUs) :
    s.takeMaint = { s with frm := { s.frm with
      maintStart := s.fget pgLMP Reg.LMP_MAINT_WIN_START, maintLen := s.fget pgLMP Reg.LMP_MAINT_WIN_LEN } } :=
  if_pos h

/-- A maintenance window beyond the period is discarded, with an error on the Lamplighter's page. -/
theorem State.takeMaint_of_lt {s : State}
    (h : s.frm.periodUs < s.fget pgLMP Reg.LMP_MAINT_WIN_START + s.fget pgLMP Reg.LMP_MAINT_WIN_LEN) :
    s.takeMaint = ((s.fset pgLMP Reg.LMP_MAINT_WIN_START s.frm.maintStart).fset pgLMP Reg.LMP_MAINT_WIN_LEN
      s.frm.maintLen).capture pgLMP .lengthExceedsExtent 0 :=
  if_neg (Nat.not_le.2 h)

/-! ## The conditions of a schedule (02 R39) -/

theorem winsOverlap_iff (a b : Win) : winsOverlap a b = true ↔ a.1 < b.1 + b.2.1 ∧ b.1 < a.1 + a.2.1 := by
  simp [winsOverlap]

/-- No two windows overlap where the windows are pairwise apart. -/
theorem anyOverlap_eq_false_iff (ws : List Win) :
    anyOverlap ws = false ↔ ws.Pairwise fun a b => ¬ (a.1 < b.1 + b.2.1 ∧ b.1 < a.1 + a.2.1) := by
  induction ws with
  | nil => simp [anyOverlap]
  | cons w ws ih =>
    rw [anyOverlap, Bool.or_eq_false_iff, List.any_eq_false, ih, List.pairwise_cons]
    simp only [winsOverlap_iff]

/-- The first condition: a window of KIND 2 or 3. -/
theorem schedErr_of_kind {ws : List Win} {period : Nat} (h : ∃ w ∈ ws, 2 ≤ w.2.2.2) :
    schedErr ws period = some .reservedNonzero :=
  if_pos (by simpa using h)

section
variable {ws : List Win} {period : Nat} (h1 : ∀ w ∈ ws, w.2.2.2 ≤ 1)
include h1

/-- Where every KIND is defined, the three later conditions decide. -/
theorem schedErr_of_kindsDefined :
    schedErr ws period = if ws.any fun w => w.2.2.2 == 1 && w.2.2.1 != 3 then some .partitionViolation
      else if ws.any fun w => decide (period < w.1 + w.2.1) then some .lengthExceedsExtent
      else if anyOverlap ws then some .partitionViolation else none := by
  rw [schedErr, if_neg (by simpa [Nat.lt_succ_iff] using h1)]

/-- The second condition: a self-test window of another partition than P3. -/
theorem schedErr_of_selfTest (h : ∃ w ∈ ws, w.2.2.2 = 1 ∧ w.2.2.1 ≠ 3) : schedErr ws period = some .partitionViolation := by
  rw [schedErr_of_kindsDefined h1, if_pos (by simpa using h)]

variable (h2 : ∀ w ∈ ws, w.2.2.2 = 1 → w.2.2.1 = 3)
include h2

/-- Where the self-test windows are P3's besides, the two later conditions decide. -/
theorem schedErr_of_selfTestsP3 :
    schedErr ws period = if ws.any fun w => decide (period < w.1 + w.2.1) then some .lengthExceedsExtent
      else if anyOverlap ws then some .partitionViolation else none := by
  rw [schedErr_of_kindsDefined h1, if_neg]
  simpa only [List.any_eq_true, Bool.and_eq_true, beq_iff_eq, bne_iff_ne, not_exists, not_and, Decidable.not_not] using h2

/-- The third condition: a window beyond the period. -/
theorem schedErr_of_beyond (h : ∃ w ∈ ws, period < w.1 + w.2.1) : schedErr ws period = some .lengthExceedsExtent := by
  rw [schedErr_of_selfTestsP3 h1 h2, if_pos (by simpa using h)]

/-- Where all windows lie within the period besides, overlap decides. -/
theorem schedErr_of_within (h3 : ∀ w ∈ ws, w.1 + w.2.1 ≤ period) :
    schedErr ws period = if anyOverlap ws then some .partitionViolation else none := by
  rw [schedErr_of_selfTestsP3 h1 h2, if_neg (by simpa using h3)]

end

/-- Settles O7: the two pairs of registers are discarded or taken as their conditions decide, and the code of a schedule is that
of the first condition that fails. -/
theorem frameRegistersTakeEffectChecked : Obligations.FrameRegistersTakeEffectChecked := by
  refine ⟨fun s hs => ⟨State.takeDeadlines_of_ok, fun h => ?deadlines⟩, fun s hs => ⟨State.takeMaint_of_le, fun h => ?maint⟩,
    fun ws period => ⟨schedErr_of_kind, fun h1 => schedErr_of_selfTest h1, fun h1 h2 => schedErr_of_beyond h1 h2,
      fun h1 h2 h3 h4 => ?overlap, fun h1 h2 h3 h4 => ?none⟩⟩
  case deadlines =>
    rw [State.takeDeadlines_of_not_ok h]
    exact ⟨by simp, s.code_capture_fset_fset pgLMP _ _ _ 0 (by decide) (by decide) (by decide) (by decide) hs⟩
  case maint =>
    rw [State.takeMaint_of_lt h]
    exact ⟨by simp, s.code_capture_fset_fset pgLMP _ _ _ 0 (by decide) (by decide) (by decide) (by decide) hs⟩
  case overlap =>
    have ho : anyOverlap ws = true := by rwa [← anyOverlap_eq_false_iff, Bool.not_eq_false] at h4
    rw [schedErr_of_within h1 h2 h3, if_pos ho]
  case none =>
    rw [schedErr_of_within h1 h2 h3, (anyOverlap_eq_false_iff ws).2 h4]
    rfl

/-! ## What keeps the time -/

/-- A fold of operations that keep the time keeps it. -/
theorem foldl_keeps_now {α : Type} {f : State → α → State} (hf : ∀ s a, (f s a).now = s.now) (l : List α) (s : State) :
    (l.foldl f s).now = s.now := by
  induction l generalizing s with
  | nil => rfl
  | cons a l ih => rw [List.foldl_cons, ih, hf]

@[simp] theorem State.captureLine_now (s : State) (page : Nat) (e : Err) (addr line : Nat) :
    (s.captureLine page e addr line).now = s.now := by
  obtain ⟨_, _, _, _, _, h⟩ := s.captureLine_shape page e addr line; rw [h]

@[simp] theorem State.takeScheds_now (s : State) : s.takeScheds.now = s.now := by
  refine foldl_keeps_now (fun s g => ?_) _ _
  dsimp only
  split
  · exact State.captureLine_now ..
  · rfl

@[simp] theorem State.takePeriod_now (s : State) : s.takePeriod.now = s.now := by
  unfold State.takePeriod
  dsimp only
  split <;> simp

@[simp] theorem State.takeDeadlines_now (s : State) : s.takeDeadlines.now = s.now := by
  unfold State.takeDeadlines
  dsimp only
  split <;> simp

@[simp] theorem State.takeMaint_now (s : State) : s.takeMaint.now = s.now := by
  unfold State.takeMaint
  dsimp only
  split <;> simp

@[simp] theorem State.takeFrameRegs_now (s : State) : s.takeFrameRegs.now = s.now := by
  simp [State.takeFrameRegs]

@[simp] theorem State.putFrameRegs_now (s : State) (f : FrameCfg) : (s.putFrameRegs f).now = s.now := by
  unfold State.putFrameRegs
  dsimp only
  rw [foldl_keeps_now fun s g => foldl_keeps_now (fun _ _ => by simp only [State.setReg_now]) _ s]
  simp only [State.setReg_now, State.fset_now]

@[simp] theorem State.takeUpdate_now (s : State) : s.takeUpdate.now = s.now := by
  unfold State.takeUpdate
  split
  · simp
  · rfl

/-! ## The write of ENABLE (02 R35) -/

/-- A one-bit field is its bit of the register. -/
theorem State.flag_eq_getLsbD (s : State) (page : Nat) (f : Fld) (h : f.hi = f.lo) :
    s.flag page f = (s.reg page 0 f.off).getLsbD f.lo := by
  rw [BitVec.getLsbD, Nat.testBit_eq_decide_div_mod_eq, State.flag, State.fget, State.fgetI, Fld.get, h, Nat.sub_self]
  exact Bool.beq_eq_decide_eq _ _

/-- The bits left to the caller keep their values, outside the registers of a capture. -/
theorem State.getLsbD_reg_putFields (s : State) (page : Nat) (b : Block) {off k : Nat} (v : Word32) {skip : Word32}
    (hk : skip.getLsbD k = true) (ho : off ∉ [0x018, 0x024, 0x028, 0x02C]) :
    ((s.putFields page 0 b off v skip).reg page 0 off).getLsbD k = (s.reg page 0 off).getLsbD k := by
  have hkeys : regKey page 0 off ∉ [regKey page 0 0x018, regKey page 0 0x024, regKey page 0 0x028, regKey page 0 0x02C] := by
    simpa [regKey] using ho
  unfold State.putFields
  dsimp only
  split
  all_goals
    simp only [State.reg_capture_other _ _ _ _ hkeys, State.reg_setReg_same]
    simpa [hk] using BitVec.lt_of_getLsbD

@[simp] theorem State.putFields_frm (s : State) (page idx : Nat) (b : Block) (off : Nat) (v skip : Word32) :
    (s.putFields page idx b off v skip).frm = s.frm := by
  unfold State.putFields
  dsimp only
  split <;> simp

@[simp] theorem State.putFields_now (s : State) (page idx : Nat) (b : Block) (off : Nat) (v skip : Word32) :
    (s.putFields page idx b off v skip).now = s.now := by
  unfold State.putFields
  dsimp only
  split <;> simp

/-- Writing LMP_FRAME_CTRL's other fields leaves ENABLE as it is. -/
theorem State.putFields_ticking (s : State) (b : Block) (v : Word32) :
    (s.putFields pgLMP 0 b 0x040 v 1).ticking = s.ticking := by
  simp only [State.ticking, State.flag_eq_getLsbD _ _ Reg.LMP_FRAME_CTRL_ENABLE rfl]
  exact s.getLsbD_reg_putFields pgLMP b v (by decide) (by decide)

/-- FRAME_ENABLE_WRITE by a writer that reaches the page and owns it: the other fields are written, then ENABLE. -/
theorem exec_frameEnableWrite {s : State} {w : Writer} (v : Word32) (hu : s.regsUp w = true) (hr : s.reaches w pgLMP = true)
    (hw : s.mayWrite w pgLMP = true) (hb : s.pageBlock pgLMP = .lmpFrame) :
    exec (.frameEnableWrite w v) s =
      .next ((s.putFields pgLMP 0 .lmpFrame 0x040 v 1).writeEnable (v.getLsbD 0)).touch := by
  have hv : (v.setWidth 64).setWidth 32 = v := by simp
  have h : s.writeReg w pgLMP 0x040 4 (v.setWidth 64) =
      (s.putFields pgLMP 0 .lmpFrame 0x040 v 1).writeEnable (v.getLsbD 0) := by
    unfold State.writeReg
    rw [hr, hb, hv]
    simp [accessAligned, State.writeOne, State.blockWrite, hw]
  change Host.Outcome.next (if s.regsUp w = true then _ else s) = _
  rw [if_pos hu, if_pos (by decide), h]

@[simp] theorem State.touch_ticking (s : State) : s.touch.ticking = s.ticking := rfl

/-- A write of 1 while ticks run takes back a pending stop. -/
theorem State.writeEnable_true_of_ticking {s : State} (h : s.ticking = true) :
    s.writeEnable true = { s with frm := { s.frm with stopPending := false } } :=
  if_pos h

/-- A write of 0 while ticks run makes the next tick the last. -/
theorem State.writeEnable_false_of_ticking {s : State} (h : s.ticking = true) :
    s.writeEnable false = { s with frm := { s.frm with stopPending := true } } :=
  if_pos h

/-- A write of 0 while ticks do not run does nothing. -/
theorem State.writeEnable_false_of_stopped {s : State} (h : s.ticking = false) : s.writeEnable false = s :=
  by rw [State.writeEnable, if_neg Bool.false_ne_true, if_neg (by simp [h])]

/-- A write of 1 while ticks do not run starts them where the deadlines to be in force are valid. -/
theorem State.writeEnable_true_of_stopped {s : State} (h : s.ticking = false)
    (hd : deadlinesOk s.takeUpdate.takeFrameRegs.frm.pubUs s.takeUpdate.takeFrameRegs.frm.planUs
      s.takeUpdate.takeFrameRegs.frm.periodUs = true) : s.writeEnable true = s.enableTicks := by
  rw [State.writeEnable, if_pos rfl, if_neg (by simp [h]), if_pos hd]

/-- Starting the ticks: the frame registers in force, and the first tick awaited from this time on. -/
theorem State.enableTicks_frm (s : State) :
    s.enableTicks.frm = { s.takeUpdate.takeFrameRegs.frm with enabledAt := s.now, firstPending := true, stopPending := false } := by
  unfold State.enableTicks
  dsimp only
  split <;> simp

/-- Starting the ticks sets ENABLE. -/
theorem State.enableTicks_ticking (s : State) : s.enableTicks.ticking = true := by
  unfold State.enableTicks State.ticking State.flag
  dsimp only
  split
  · rw [State.fget_fset_same _ _ _ (by decide)]; rfl
  · rw [State.fget_fset_page _ _ _ _ (by decide) (by decide) (by decide), State.fget_fset_same _ _ _ (by decide)]; rfl

/-- Settles O8: the write of the other fields leaves ENABLE and the frame machinery alone, so that the write of ENABLE decides by
the ticks that run and by the bit written. -/
theorem frameEnableWrite : Obligations.FrameEnableWrite := by
  intro s w v hu hr hw hb s1
  have hf : s1.frm = s.frm := s.putFields_frm ..
  have ht : s1.ticking = s.ticking := s.putFields_ticking ..
  have hn : s1.now = s.now := s.putFields_now ..
  refine ⟨_, exec_frameEnableWrite v hu hr hw hb, ?stop, ?cancel, ?nothing, ?start⟩
  case stop =>
    intro h hv
    rw [hv, State.writeEnable_false_of_ticking (ht.trans h)]
    exact ⟨congrArg (fun f : Frames => { f with stopPending := true }) hf, ht.trans h⟩
  case cancel =>
    intro h hv
    rw [hv, State.writeEnable_true_of_ticking (ht.trans h)]
    exact ⟨congrArg (fun f : Frames => { f with stopPending := false }) hf, ht.trans h⟩
  case nothing =>
    intro h hv
    rw [hv, State.writeEnable_false_of_stopped (ht.trans h)]
    exact ⟨hf, ht.trans h⟩
  case start =>
    intro h hv hd
    rw [hv, State.writeEnable_true_of_stopped (ht.trans h) hd, State.touch_ticking, State.touch_frm,
      State.enableTicks_frm]
    exact ⟨s1.enableTicks_ticking, rfl, rfl, hn⟩

end Sys2Proof.Machine
end

section
/-!
PROOF. Reads of registers that latch: a 64-bit counter's low half, and the counter of the time base (04 R119; 17 R416; 20 R477).
-/

namespace Sys2Proof.Machine

open Sys2Proof

/-! ## The read commands -/

/-- COUNTER_LO_READ reads the register, where the access arrives and the page is not one of the MSI-X table's. -/
theorem exec_counterLoRead {s : State} {w : Writer} {page : Nat} (off size : Nat) (hu : s.regsUp w = true)
    (hp : page < pgMsix) : exec (.counterLoRead w page off size) s = .next (s.readReg w page off size) := by
  change Host.Outcome.next (if s.regsUp w = true then _ else s) = _
  rw [if_pos hu, if_pos hp]

/-- TBU_NOW_READ reads TBU_NOW_NS, where the access arrives. -/
theorem exec_tbuNowRead {s : State} {w : Writer} (hu : s.regsUp w = true) :
    exec (.tbuNowRead w) s = .next (s.readReg w pgTBU 0x040 4) := by
  change Host.Outcome.next (if s.regsUp w = true then _ else s) = _
  rw [if_pos hu, if_pos (by decide)]

/-! ## What a read answers (20 R477) -/

section
variable {s : State} {w : Writer} {page off : Nat} {b : Block} (hr : s.reaches w page = true)
  (hs : s.flag pgDBG Reg.DBG_FRZ_SCANNED = false) (hb : s.pageBlock page = b) (hn : b ≠ .rglPort)
include hr hs hb hn

/-- An aligned read of 4 bytes answers the register as it stands, and latches. -/
theorem State.readReg_four (ha : accessAligned off 4 = true) :
    s.readReg w page off 4 = (s.readLatch page b off).answer 4 (s.regValue page b off).toNat := by
  simp [State.readReg, hr, hs, hb, hn, ha]

/-- An aligned read of 8 bytes answers the lower register as it stands and then the upper one as the read of the lower leaves
it. -/
theorem State.readReg_eight (ha : accessAligned off 8 = true) :
    s.readReg w page off 8 = ((s.readLatch page b off).readLatch page b (off + 4)).answer 8
      ((s.regValue page b off).toNat + ((s.readLatch page b off).regValue page b (off + 4)).toNat * 2 ^ 32) := by
  simp [State.readReg, hr, hs, hb, hn, ha]

end

/-! ## The counter of a queue-control page (04 R119) -/

/-- Beyond the page head, a queue-control page shows what its registers store. -/
theorem State.regValue_lmpQueue (s : State) (page : Nat) {off : Nat} (ho : 0x040 ≤ off) :
    s.regValue page .lmpQueue off = s.reg page 0 off := by
  have h14 : off ≠ 0x014 := by omega
  simp [State.regValue, State.bank, cycleCtr, h14, Nat.not_lt.2 ho]

/-- A read of the counter's low half latches the live high half. -/
theorem State.readLatch_lmpQueue_lo (s : State) (page : Nat) :
    s.readLatch page .lmpQueue 0x060 = s.setReg page 0 0x064 (s.reg page 1 0x064) := rfl

/-- No other read of a queue-control page latches. -/
theorem State.readLatch_lmpQueue_other (s : State) (page : Nat) {off : Nat} (ho : off ≠ 0x060) :
    s.readLatch page .lmpQueue off = s := by
  simp [State.readLatch, cycleCtr, ctrLo, ho]

section
variable {s : State} {w : Writer} {page : Nat} (hr : s.reaches w page = true)
  (hs : s.flag pgDBG Reg.DBG_FRZ_SCANNED = false) (hb : s.pageBlock page = .lmpQueue)
include hr hs hb

/-- A read of 4 bytes at the counter answers its low half and latches the high half. -/
theorem State.readReg_queueCtr_four :
    s.readReg w page 0x060 4 =
      (s.setReg page 0 0x064 (s.reg page 1 0x064)).answer 4 (s.reg page 0 0x060).toNat := by
  rw [State.readReg_four hr hs hb (by decide) (by decide), State.readLatch_lmpQueue_lo,
    State.regValue_lmpQueue _ _ (by decide)]

/-- A read of 8 bytes at the counter answers both halves: the upper register it reaches holds what the lower has just
latched. -/
theorem State.readReg_queueCtr_eight :
    s.readReg w page 0x060 8 =
      (s.setReg page 0 0x064 (s.reg page 1 0x064)).answer 8 (s.ctr64 page 0x060) := by
  rw [State.readReg_eight hr hs hb (by decide) (by decide), State.readLatch_lmpQueue_lo,
    State.readLatch_lmpQueue_other _ _ (by decide), State.regValue_lmpQueue _ _ (by decide),
    State.regValue_lmpQueue _ _ (by decide), State.reg_setReg_same, State.ctr64]

end

/-! ## The counter of the time base (17 R416) -/

/-- The nanoseconds of a second fit a register. -/
theorem Tbu.nsec_lt (t : Tbu) : t.nsec < 2 ^ 32 :=
  Nat.lt_trans (Nat.mod_lt t.ns (by decide : 1000000000 > 0)) (by decide)

/-- TBU_NOW_NS shows the nanoseconds of the counter. -/
theorem State.toNat_regValue_tbuNowNs (s : State) : (s.regValue pgTBU .tbu 0x040).toNat = s.tbu.nsec :=
  (BitVec.toNat_ofNat ..).trans (Nat.mod_eq_of_lt s.tbu.nsec_lt)

/-- The state with the seconds and the fraction of the time base's counter latched. -/
def State.latchNow (s : State) : State := { s with tbu := { s.tbu with nowSec := s.tbu.sec, nowFrac := s.tbu.frac } }

/-- A read of TBU_NOW_NS latches the seconds and the fraction. -/
theorem State.readLatch_tbuNowNs (s : State) : s.readLatch pgTBU .tbu 0x040 = s.latchNow := rfl

/-- A read of TBU_NOW_NS answers the nanoseconds and latches the seconds and the fraction of the same edge. -/
theorem State.readReg_tbuNowNs {s : State} {w : Writer} (hr : s.reaches w pgTBU = true)
    (hs : s.flag pgDBG Reg.DBG_FRZ_SCANNED = false) (hb : s.pageBlock pgTBU = .tbu) :
    s.readReg w pgTBU 0x040 4 = s.latchNow.answer 4 s.tbu.nsec := by
  rw [State.readReg_four hr hs hb (by decide) (by decide), State.readLatch_tbuNowNs, State.toNat_regValue_tbuNowNs]

/-- The low seconds register shows what was latched, whatever is answered since. -/
theorem State.regValue_tbuNowSec (s : State) (size v : Nat) :
    (s.latchNow.answer size v).regValue pgTBU .tbu 0x044 = BitVec.ofNat 32 s.tbu.sec := rfl

/-- The fraction register shows what was latched, whatever is answered since. -/
theorem State.regValue_tbuNowFrac (s : State) (size v : Nat) :
    (s.latchNow.answer size v).regValue pgTBU .tbu 0x04C = BitVec.ofNat 32 s.tbu.frac := rfl

/-- Settles O12: the read of a low half stores the live high half in the register that reads show, which an 8-byte read then
finds there; the time base's counter is latched in its own fields. -/
theorem counterReadsLatch : Obligations.CounterReadsLatch := by
  intro s w hu hs
  refine ⟨fun p hp hr hb => ?queue, fun hr hb => ?tbu⟩
  case queue =>
    have hpage : pgQueue p < pgMsix := by unfold pgQueue pgMsix; omega
    refine ⟨⟨_, exec_counterLoRead 0x060 4 hu hpage, ?_⟩, ⟨_, exec_counterLoRead 0x060 8 hu hpage, ?_⟩⟩
    · rw [State.readReg_queueCtr_four hr hs hb]
      exact ⟨rfl, State.reg_setReg_same .., rfl, rfl⟩
    · rw [State.readReg_queueCtr_eight hr hs hb]
      rfl
  case tbu =>
    refine ⟨_, exec_tbuNowRead hu, ?_⟩
    rw [State.readReg_tbuNowNs hr hs hb]
    exact ⟨rfl, s.regValue_tbuNowSec .., s.regValue_tbuNowFrac .., rfl, rfl, rfl⟩

end Sys2Proof.Machine
end

section
/-!
PROOF. The vector instructions of a live Wick: what the lanes of a vector and the bits of a predicate built by a function are,
and what an instruction that issues leaves in its Wick (05 R142, R143).
-/

namespace Sys2Proof.Machine

open Sys2Proof

/-! ## Lanes and predicate bits -/

/-- Digits below their base make a number below the base's power. -/
theorem digits_lt {w : Nat} {f : Nat → Nat} (hf : ∀ i, f i < 2 ^ w) (n : Nat) : digits w f n < 2 ^ (w * n) := by
  induction n with
  | zero => exact Nat.one_pos
  | succ n ih =>
    calc digits w f n + f n * 2 ^ (w * n)
      _ < 2 ^ (w * n) + f n * 2 ^ (w * n) := Nat.add_lt_add_right ih _
      _ = (f n + 1) * 2 ^ (w * n) := by rw [Nat.succ_mul, Nat.add_comm]
      _ ≤ 2 ^ w * 2 ^ (w * n) := Nat.mul_le_mul_right _ (hf n)
      _ = 2 ^ (w * (n + 1)) := by rw [← Nat.pow_add, Nat.mul_succ, Nat.add_comm]

/-- Digits that fit a word of `N` bits are kept by it. -/
theorem toNat_ofNat_digits {w : Nat} {f : Nat → Nat} (hf : ∀ i, f i < 2 ^ w) {n N : Nat} (hn : w * n ≤ N) :
    (BitVec.ofNat N (digits w f n)).toNat = digits w f n :=
  (BitVec.toNat_ofNat ..).trans <|
    Nat.mod_eq_of_lt (Nat.lt_of_lt_of_le (digits_lt hf n) (Nat.pow_le_pow_right Nat.two_pos hn))

/-- A digit is read back at its place. -/
theorem digits_digit {w : Nat} {f : Nat → Nat} (hf : ∀ i, f i < 2 ^ w) {n i : Nat} (hi : i < n) :
    digits w f n / 2 ^ (w * i) % 2 ^ w = f i := by
  induction n with
  | zero => exact absurd hi i.not_lt_zero
  | succ n ih =>
    rw [digits]
    obtain rfl | hin := Nat.eq_or_lt_of_le (Nat.le_of_lt_succ hi)
    · rw [Nat.add_mul_div_right _ _ (Nat.two_pow_pos _), Nat.div_eq_of_lt (digits_lt hf i), Nat.zero_add,
        Nat.mod_eq_of_lt (hf i)]
    · obtain ⟨k, rfl⟩ := Nat.exists_eq_add_of_lt hin
      have hexp : w * (i + k + 1) = w * k + w + w * i := by rw [Nat.mul_succ, Nat.mul_add]; omega
      have hpow : f (i + k + 1) * 2 ^ (w * (i + k + 1)) = f (i + k + 1) * 2 ^ (w * k) * 2 ^ w * 2 ^ (w * i) := by
        rw [hexp, Nat.pow_add, Nat.pow_add, ← Nat.mul_assoc, ← Nat.mul_assoc]
      rw [hpow, Nat.add_mul_div_right _ _ (Nat.two_pow_pos _), Nat.add_mul_mod_self_right, ih hin]

/-- A lane holds the value its function gives, cut to the lane. -/
theorem vlane_mkV {n w : Nat} (hn : w * n ≤ 2048) (f : Nat → Nat) {i : Nat} (hi : i < n) :
    vlane w (mkV n w f) i = f i % 2 ^ w := by
  have hf : ∀ j, f j % 2 ^ w < 2 ^ w := fun j => Nat.mod_lt _ (Nat.two_pow_pos w)
  rw [vlane, mkV, BitVec.extractLsb'_toNat, toNat_ofNat_digits hf hn, Nat.shiftRight_eq_div_pow]
  exact digits_digit hf hi

theorem vlane_lt (w : Nat) (v : VWord) (i : Nat) : vlane w v i < 2 ^ w := BitVec.isLt _

theorem b2n_lt_two (b : Bool) : b2n b < 2 ^ 1 := by cases b <;> decide

/-- A bit of a predicate is what its function gives. -/
theorem getLsbD_mkP {n : Nat} (hn : n ≤ 128) (f : Nat → Bool) {i : Nat} (hi : i < n) : (mkP n f).getLsbD i = f i := by
  have hd := digits_digit (w := 1) (fun j => b2n_lt_two (f j)) hi
  rw [Nat.one_mul, Nat.pow_one] at hd
  rw [mkP, BitVec.getLsbD_ofNat, decide_eq_true (Nat.lt_of_lt_of_le hi hn), Bool.true_and,
    Nat.testBit_eq_decide_div_mod_eq, hd]
  cases f i <;> rfl

/-- The lanes of a type fill a vector. -/
theorem tyBits_mul_tyLanes (ty : Nat) : tyBits ty * tyLanes ty = 2048 := by
  unfold tyBits tyLanes
  split <;> rfl

theorem tyLanes_le (ty : Nat) : tyLanes ty ≤ 128 := by
  unfold tyLanes
  split <;> decide

/-- On lanes of 32 bits operand B is a pattern of 32 bits. -/
theorem Wick.opB_lt (x : Wick) {f : VFields} (h : f.ty.toNat ≠ 3) (i : Nat) : x.opB f i < 2 ^ 32 := by
  unfold Wick.opB bcast tyBits
  simp only [if_neg h]
  split
  · exact BitVec.isLt _
  · exact vlane_lt ..

/-! ## What an instruction that issues does -/

/-- In a live block a Wick that issues an instruction does what it says. -/
theorem onLive_issue {s : State} {w enc : Nat} (hl : s.live = true) (hi : (s.wick w).issues enc = true) (f : Wick → Wick) :
    onLive s true (s.issue w enc f) = .next (s.setWick w (f (s.wick w))) := by
  simp [onLive, State.issue, hl, hi]

/-- The vector that VD holds after a merge. -/
def Wick.merged (x : Wick) (f : VFields) (g : Nat → Nat) : VWord :=
  mkV (tyLanes f.ty.toNat) (tyBits f.ty.toNat) fun i =>
    if x.pred f i then g i else vlane (tyBits f.ty.toNat) (x.vreg f.vd.toNat) i

theorem Wick.merge_eq_setV (x : Wick) (f : VFields) (g : Nat → Nat) :
    x.merge f g = x.setV f.vd.toNat (x.merged f g) := rfl

/-- A lane that the predicate lets through is written. -/
theorem Wick.vlane_merged_of_pred (x : Wick) {f : VFields} (g : Nat → Nat) {i : Nat} (hi : i < tyLanes f.ty.toNat)
    (hp : (x.preg f.pg.toNat).getLsbD i ≠ f.pn) :
    vlane (tyBits f.ty.toNat) (x.merged f g) i = g i % 2 ^ tyBits f.ty.toNat := by
  have hon : x.pred f i = true := bne_iff_ne.2 hp
  rw [Wick.merged, vlane_mkV (Nat.le_of_eq (tyBits_mul_tyLanes _)) _ hi, if_pos hon]

/-- An instruction on VA and operand B merges its lanes into VD. -/
theorem State.vec2_of_issues {s : State} {w op : Nat} {f : VFields} (hl : s.live = true)
    (hi : (s.wick w).issues (encV op f) = true) (g : Nat → Nat → Nat) :
    let x := s.wick w
    s.vec2 op w f g = .next (s.setWick w (x.setV f.vd.toNat
      (x.merged f fun i => g (vlane (tyBits f.ty.toNat) (x.vreg f.va.toNat) i) (x.opB f i))).stepPc) :=
  onLive_issue hl hi _

section
variable (s : State) (w : Nat) (f : VFields)

theorem exec_vadd : exec (.vadd w f) s = s.vec2 0x20 w f (arith2 0 f.ty.toNat (f.rnd == 1#2) f.sat) := rfl
theorem exec_vsub : exec (.vsub w f) s = s.vec2 0x21 w f (arith2 1 f.ty.toNat (f.rnd == 1#2) f.sat) := rfl
theorem exec_vmul : exec (.vmul w f) s = s.vec2 0x22 w f (arith2 2 f.ty.toNat (f.rnd == 1#2) f.sat) := rfl
theorem exec_vmin : exec (.vmin w f) s = s.vec2 0x24 w f (minMax false f.ty.toNat) := rfl
theorem exec_vmax : exec (.vmax w f) s = s.vec2 0x25 w f (minMax true f.ty.toNat) := rfl
theorem exec_vand : exec (.vand w f) s = s.vec2 0x26 w f (· &&& ·) := rfl
theorem exec_vor : exec (.vor w f) s = s.vec2 0x27 w f (· ||| ·) := rfl
theorem exec_vxor : exec (.vxor w f) s = s.vec2 0x28 w f (· ^^^ ·) := rfl
theorem exec_vshl : exec (.vshl w f) s = s.vec2 0x29 w f fun a b => a * 2 ^ (b % 32) % 2 ^ 32 := rfl
theorem exec_vshr : exec (.vshr w f) s = s.vec2 0x2A w f fun a b => shiftRight f.ty.toNat a (b % 32) := rfl

end

/-- VFMA merges its lanes into VD. -/
theorem exec_vfma_of_issues {s : State} {w : Nat} {f : VFields} (hl : s.live = true)
    (hi : (s.wick w).issues (encV 0x23 f) = true) :
    let x := s.wick w
    let k := tyBits f.ty.toNat
    exec (.vfma w f) s = .next (s.setWick w (x.setV f.vd.toNat
      (x.merged f fun i => fma f.ty.toNat (f.rnd == 1#2) f.sat (vlane k (x.vreg f.va.toNat) i) (x.opB f i)
        (vlane k (x.vreg f.vc.toNat) i))).stepPc) :=
  onLive_issue hl hi _

/-- VCMP writes a predicate of the comparisons of its lanes. -/
theorem exec_vcmp_of_issues {s : State} {w : Nat} {f : VFields} (hl : s.live = true)
    (hi : (s.wick w).issues (encV 0x2B f) = true) :
    let x := s.wick w
    let ty := f.ty.toNat
    exec (.vcmp w f) s = .next (s.setWick w (x.setP f.pd.toNat (mkP (tyLanes ty) fun i =>
      cmpLane f.cc.toNat ty (vlane (tyBits ty) (x.vreg f.va.toNat) i) (x.opB f i))).stepPc) :=
  onLive_issue hl hi _

/-! ## The image a Wick runs and the instructions' effect -/

/-- Where the sequencer goes does not depend on the image. -/
theorem Wick.after_image (x : Wick) (im : Option TileImage) (last : Nat) (l : List LoopFrame) :
    { x with image := im }.after last l = { x.after last l with image := im } := by
  induction l with
  | nil => rfl
  | cons fr rest ih =>
    unfold Wick.after
    split
    · split
      · rfl
      · exact ih
    · rfl

theorem Wick.stepPc_image (x : Wick) (im : Option TileImage) :
    { x with image := im }.stepPc = { x.stepPc with image := im } :=
  { x with lastPc := x.pc }.after_image im x.pc x.loops

end Sys2Proof.Machine
end

section
/-!
PROOF. Integer vector arithmetic: the integer a lane holds, the result held to the type or cut to 32 bits, and the instructions
that SAT does not reach (06 R164).
-/

namespace Sys2Proof.Machine

open Sys2Proof

/-! ## Integers, patterns and their range -/

/-- INT32 is the signed one of the integer types. -/
theorem tySigned_toNat_iff (ty : BitVec 2) : tySigned ty.toNat = true ↔ ty = 1 := by
  revert ty
  decide

/-- The integer of a 32-bit pattern: from 2^31 on an INT32 is below zero. -/
theorem intVal_of_lt (ty : BitVec 2) {v : Nat} (hv : v < 2 ^ 32) :
    intVal 32 (tySigned ty.toNat) v = if ty = 1 ∧ 2 ^ 31 ≤ v then (v : Int) - 2 ^ 32 else (v : Int) := by
  simp only [← tySigned_toNat_iff, intVal, signed, Nat.mod_eq_of_lt hv]
  cases tySigned ty.toNat <;> grind

/-- SAT clamps to the range of the type; without it the low 32 bits are kept. -/
theorem fitInt_eq_clamp (ty : BitVec 2) (sat : Bool) (r : Int) :
    fitInt 32 (tySigned ty.toNat) sat r =
      ((if sat then max (if ty = 1 then -2 ^ 31 else 0) (min (if ty = 1 then 2 ^ 31 - 1 else 2 ^ 32 - 1) r)
        else r).emod (2 ^ 32)).toNat := by
  simp only [← tySigned_toNat_iff, fitInt]
  cases sat <;> cases tySigned ty.toNat <;> grind

/-- The pattern of an integer fits its lane. -/
theorem fitInt_lt (sgn sat : Bool) (r : Int) : fitInt 32 sgn sat r < 2 ^ 32 :=
  (Int.toNat_lt (Int.emod_nonneg _ (by decide))).2 (Int.emod_lt_of_pos _ (by decide))

section
variable {f : VFields} (hty : f.ty = 1 ∨ f.ty = 2)
include hty

theorem VFields.ty_toNat_of_int : f.ty.toNat = 1 ∨ f.ty.toNat = 2 :=
  hty.imp (congrArg BitVec.toNat) (congrArg BitVec.toNat)

theorem VFields.ty_toNat_ne_three_of_int : f.ty.toNat ≠ 3 := by
  obtain h | h := hty <;> rw [h] <;> decide

theorem VFields.tyBits_of_int : tyBits f.ty.toNat = 32 := by
  obtain h | h := hty <;> rw [h] <;> rfl

theorem VFields.tyLanes_of_int : tyLanes f.ty.toNat = 64 := by
  obtain h | h := hty <;> rw [h] <;> rfl

/-! ## The lanes of an integer instruction -/

/-- A lane written with a fitted integer holds its pattern. -/
theorem Wick.vlane_merged_of_fitInt (x : Wick) {g : Nat → Nat} {i : Nat} (hi : i < 64)
    (hp : (x.preg f.pg.toNat).getLsbD i ≠ f.pn) {r : Int} (hg : g i = fitInt 32 (tySigned f.ty.toNat) f.sat r) :
    vlane 32 (x.merged f g) i = fitInt 32 (tySigned f.ty.toNat) f.sat r := by
  have h := x.vlane_merged_of_pred g (Nat.lt_of_lt_of_eq hi (VFields.tyLanes_of_int hty).symm) hp
  rw [VFields.tyBits_of_int hty] at h
  rw [h, hg, Nat.mod_eq_of_lt (fitInt_lt ..)]

theorem arith2_add_of_int (rz sat : Bool) (a b : Nat) :
    arith2 0 f.ty.toNat rz sat a b = fitInt 32 (tySigned f.ty.toNat) sat
      (intVal 32 (tySigned f.ty.toNat) a + intVal 32 (tySigned f.ty.toNat) b) :=
  if_pos (VFields.ty_toNat_of_int hty)

theorem arith2_sub_of_int (rz sat : Bool) (a b : Nat) :
    arith2 1 f.ty.toNat rz sat a b = fitInt 32 (tySigned f.ty.toNat) sat
      (intVal 32 (tySigned f.ty.toNat) a - intVal 32 (tySigned f.ty.toNat) b) :=
  if_pos (VFields.ty_toNat_of_int hty)

theorem arith2_mul_of_int (rz sat : Bool) (a b : Nat) :
    arith2 2 f.ty.toNat rz sat a b = fitInt 32 (tySigned f.ty.toNat) sat
      (intVal 32 (tySigned f.ty.toNat) a * intVal 32 (tySigned f.ty.toNat) b) :=
  if_pos (VFields.ty_toNat_of_int hty)

theorem fma_of_int (rz sat : Bool) (a b c : Nat) :
    fma f.ty.toNat rz sat a b c = fitInt 32 (tySigned f.ty.toNat) sat
      (intVal 32 (tySigned f.ty.toNat) a * intVal 32 (tySigned f.ty.toNat) b + intVal 32 (tySigned f.ty.toNat) c) :=
  if_pos (VFields.ty_toNat_of_int hty)

end

/-! ## The instructions that ignore SAT -/

/-- On two Wicks that differ in the image alone, a lane operation whose format differs in SAT alone has the same effect. -/
theorem State.vec2_sat {s s' : State} {w op : Nat} {f : VFields} {b : Bool} (g : Nat → Nat → Nat)
    (hl : s.live = true) (hl' : s'.live = true) (hi : (s.wick w).issues (encV op f) = true)
    (hi' : (s'.wick w).issues (encV op { f with sat := b }) = true)
    (hx : s'.wick w = { s.wick w with image := (s'.wick w).image }) :
    ∃ y, s.vec2 op w f g = .next (s.setWick w y) ∧
      s'.vec2 op w { f with sat := b } g = .next (s'.setWick w { y with image := (s'.wick w).image }) := by
  refine ⟨_, State.vec2_of_issues hl hi g, ?_⟩
  rw [State.vec2_of_issues hl' hi' g, ← Wick.stepPc_image]
  generalize (s'.wick w).image = im at hx
  rw [hx]
  rfl

/-- Settles O30: each lane fits the exact result of the integers its operands' patterns stand for, and fitting is the clamp or the
low 32 bits; the lane functions of logic and shifts do not take SAT. -/
theorem integerVectorArithmetic : Obligations.IntegerVectorArithmetic := by
  constructor
  case left =>
    intro s w f hl hty x val lo hi fit a b c i0 op r hmem hiss
    have hreg : ∀ j i, intVal 32 (tySigned f.ty.toNat) (vlane (tyBits f.ty.toNat) (x.vreg j) i) =
        val (vlane 32 (x.vreg j) i) := fun j i => by
      rw [VFields.tyBits_of_int hty]
      exact intVal_of_lt f.ty (vlane_lt ..)
    have hB : ∀ i, intVal 32 (tySigned f.ty.toNat) (x.opB f i) = b i := fun i =>
      intVal_of_lt f.ty (x.opB_lt (VFields.ty_toNat_ne_three_of_int hty) i)
    have hfit : ∀ r, fitInt 32 (tySigned f.ty.toNat) f.sat r = fit r := fitInt_eq_clamp f.ty f.sat
    suffices ∃ g, exec i0 s = .next (s.setWick w (x.setV f.vd.toNat (x.merged f g)).stepPc) ∧
        ∀ i, g i = fitInt 32 (tySigned f.ty.toNat) f.sat (r i) by
      obtain ⟨g, he, hg⟩ := this
      exact ⟨_, he, fun i hi hp => (x.vlane_merged_of_fitInt hty hi hp (hg i)).trans (hfit _)⟩
    simp only [List.mem_cons, Prod.mk.injEq, List.not_mem_nil, or_false] at hmem
    obtain ⟨rfl, rfl, rfl⟩ | ⟨rfl, rfl, rfl⟩ | ⟨rfl, rfl, rfl⟩ | ⟨rfl, rfl, rfl⟩ := hmem
    · exact ⟨_, (exec_vadd ..).trans (State.vec2_of_issues hl hiss _), fun i => by
        rw [arith2_add_of_int hty, hreg, hB]⟩
    · exact ⟨_, (exec_vsub ..).trans (State.vec2_of_issues hl hiss _), fun i => by
        rw [arith2_sub_of_int hty, hreg, hB]⟩
    · exact ⟨_, (exec_vmul ..).trans (State.vec2_of_issues hl hiss _), fun i => by
        rw [arith2_mul_of_int hty, hreg, hB]⟩
    · exact ⟨_, exec_vfma_of_issues hl hiss, fun i => by rw [fma_of_int hty, hreg, hB, hreg]⟩
  case right =>
    intro s s' w f b g i0 i1 op hmem hl hl' hi hi' hx
    suffices ∃ h, exec i0 s = s.vec2 op w f h ∧ exec i1 s' = s'.vec2 op w g h by
      obtain ⟨h, h0, h1⟩ := this
      rw [h0, h1]
      exact State.vec2_sat h hl hl' hi hi' hx
    simp only [List.mem_cons, Prod.mk.injEq, List.not_mem_nil, or_false] at hmem
    obtain ⟨rfl, rfl, rfl⟩ | ⟨rfl, rfl, rfl⟩ | ⟨rfl, rfl, rfl⟩ | ⟨rfl, rfl, rfl⟩ | ⟨rfl, rfl, rfl⟩ := hmem
    · exact ⟨_, exec_vand .., exec_vand ..⟩
    · exact ⟨_, exec_vor .., exec_vor ..⟩
    · exact ⟨_, exec_vxor .., exec_vxor ..⟩
    · exact ⟨_, exec_vshl .., exec_vshl ..⟩
    · exact ⟨_, exec_vshr .., exec_vshr ..⟩

end Sys2Proof.Machine
end

section
/-!
PROOF. The float formats and the float comparisons: what a pattern decodes to, that encoding a value it decodes to gives it back,
and VMIN, VMAX and VCMP at zeros and NaNs (06 R153, R163, R165).
-/

namespace Sys2Proof.Machine

open Sys2Proof

/-! ## Rounding what the format holds exactly -/

theorem roundShift_zero (rz : Bool) (m : Nat) : roundShift rz m 0 = m := by
  simp [roundShift]

theorem bitLen_le {m k : Nat} (h : m < 2 ^ k) : bitLen m ≤ k := by
  unfold bitLen
  split
  · exact k.zero_le
  · next h0 => exact (Nat.log2_lt h0).2 h

theorem bitLen_eq {m k : Nat} (hl : 2 ^ k ≤ m) (hu : m < 2 ^ (k + 1)) : bitLen m = k + 1 := by
  have h0 : m ≠ 0 := Nat.ne_of_gt (Nat.lt_of_lt_of_le (Nat.two_pow_pos k) hl)
  rw [bitLen, if_neg h0, (Nat.log2_eq_iff h0).2 ⟨hl, hu⟩]

/-- A magnitude of the format's precision, subnormal or normal, is its own code: `k` exponents above the lowest. -/
theorem FFmt.roundMag_of_exact (f : FFmt) (rz : Bool) {m k : Nat} (hu : m < 2 ^ (f.mb + 1)) (hk : k = 0 ∨ 2 ^ f.mb ≤ m) :
    f.roundMag rz m (f.emin + k) = k * 2 ^ f.mb + m := by
  have hmax : max f.emin (f.emin + k + bitLen m - (f.mb + 1 : Nat)) = f.emin + k := by
    have hle := bitLen_le hu
    obtain rfl | hl := hk
    · omega
    · rw [bitLen_eq hl hu]; omega
  by_cases h0 : m = 0
  · obtain rfl : k = 0 := hk.resolve_right (by rw [h0]; exact Nat.not_le.2 (Nat.two_pow_pos _))
    simp [FFmt.roundMag, h0]
  · rw [FFmt.roundMag, if_neg h0]
    have hexp : (f.emin + k - f.emin).toNat = k := by omega
    dsimp only
    rw [hmax, Int.sub_self, roundShift_zero, hexp]

/-- A finite value whose code is in range has that code, where the format does not flush. -/
theorem FFmt.encode_fin_of_roundMag (f : FFmt) (hf : f.flush = false) {rz : Bool} (neg : Bool) {m c : Nat} {e : Int}
    (hr : f.roundMag rz m e = c) (hc : c ≤ f.maxCode) : f.encode rz (.fin neg m e) = f.withSign neg c := by
  simp [FFmt.encode, hf, hr, Nat.not_lt.2 hc]

/-- A zero is encoded with its sign in every format. -/
theorem FFmt.encode_zero (f : FFmt) (rz neg : Bool) (e : Int) : f.encode rz (.fin neg 0 e) = f.withSign neg 0 := by
  simp [FFmt.encode, FFmt.roundMag]

/-! ## Decoding and encoding again -/

/-- The exponent field of a pattern. -/
def FFmt.expOf (f : FFmt) (v : Nat) : Nat := v / 2 ^ f.mb % 2 ^ f.eb

/-- The sign bit of a pattern. -/
def FFmt.negOf (f : FFmt) (v : Nat) : Bool := v / 2 ^ f.magBits % 2 == 1

/-- A pattern is its sign and its magnitude. -/
theorem FFmt.withSign_negOf (f : FFmt) {v : Nat} (hv : v < 2 ^ (f.magBits + 1)) :
    f.withSign (f.negOf v) (f.expOf v * 2 ^ f.mb + v % 2 ^ f.mb) = v := by
  have hmag : f.expOf v * 2 ^ f.mb + v % 2 ^ f.mb = v % 2 ^ f.magBits := by
    rw [FFmt.magBits, Nat.add_comm f.eb, Nat.pow_add, Nat.mod_mul, FFmt.expOf, Nat.add_comm, Nat.mul_comm]
  have hs : v / 2 ^ f.magBits < 2 := Nat.div_lt_of_lt_mul (by rwa [Nat.pow_succ] at hv)
  rw [hmag, FFmt.withSign, FFmt.negOf, Nat.mod_eq_of_lt hs]
  conv => rhs; rw [← Nat.mod_add_div v (2 ^ f.magBits)]
  obtain h | h := Nat.le_one_iff_eq_zero_or_eq_one.1 (Nat.le_of_lt_succ hs) <;> simp [h]

/-- What a pattern of an IEEE format without flushing decodes to, by its exponent. -/
theorem FFmt.decode_ieee (f : FFmt) (ht : f.top = .ieee) (hf : f.flush = false) (v : Nat) :
    f.decode v =
      if f.expOf v = 2 ^ f.eb - 1 then (if v % 2 ^ f.mb = 0 then .inf (f.negOf v) else .nan)
      else if f.expOf v = 0 then .fin (f.negOf v) (v % 2 ^ f.mb) f.emin
      else .fin (f.negOf v) (2 ^ f.mb + v % 2 ^ f.mb) (f.emin + (f.expOf v - 1 : Nat)) := by
  simp [FFmt.decode, FFmt.expOf, FFmt.negOf, ht, hf] <;> rfl

/-- In an IEEE format without flushing whose codes below infinity are finite, a pattern that is no NaN is the encoding of its
value. -/
theorem FFmt.encode_decode (f : FFmt) (ht : f.top = .ieee) (hf : f.flush = false) (hm : f.infMag = f.maxCode + 1) (rz : Bool)
    {v : Nat} (hv : v < 2 ^ (f.magBits + 1)) (hn : (f.decode v).isNan = false) : f.encode rz (f.decode v) = v := by
  have hmant : v % 2 ^ f.mb < 2 ^ f.mb := Nat.mod_lt _ (Nat.two_pow_pos _)
  have hfin : f.expOf v ≠ 2 ^ f.eb - 1 → f.expOf v * 2 ^ f.mb + v % 2 ^ f.mb ≤ f.maxCode := fun hne => by
    have hexp : f.expOf v < 2 ^ f.eb := Nat.mod_lt _ (Nat.two_pow_pos _)
    have hle : (f.expOf v + 1) * 2 ^ f.mb ≤ f.infMag := Nat.mul_le_mul_right _ (by omega)
    rw [Nat.succ_mul] at hle
    omega
  conv => rhs; rw [← f.withSign_negOf hv]
  rw [f.decode_ieee ht hf] at hn ⊢
  split at hn
  · next htop =>
    by_cases h0 : v % 2 ^ f.mb = 0
    · simp [htop, h0, FFmt.encode, FFmt.infMag]
    · simp [h0, Num.isNan] at hn
  · next htop =>
    rw [if_neg htop]
    split
    · next h0 =>
      have hr := f.roundMag_of_exact rz (m := v % 2 ^ f.mb) (k := 0) (by omega) (.inl rfl)
      rw [Int.natCast_zero, Int.add_zero, ← h0] at hr
      exact f.encode_fin_of_roundMag hf _ hr (hfin htop)
    · next h0 =>
      have hr := f.roundMag_of_exact rz (m := 2 ^ f.mb + v % 2 ^ f.mb) (k := f.expOf v - 1) (by omega)
        (.inr (Nat.le_add_right ..))
      have hcode : (f.expOf v - 1) * 2 ^ f.mb + (2 ^ f.mb + v % 2 ^ f.mb) = f.expOf v * 2 ^ f.mb + v % 2 ^ f.mb := by
        rw [← Nat.add_assoc, ← Nat.succ_mul, Nat.succ_eq_add_one, Nat.sub_add_cancel (Nat.pos_of_ne_zero h0)]
      exact f.encode_fin_of_roundMag hf _ (hr.trans hcode) (hfin htop)

/-! ## Zeros and NaNs in VMIN, VMAX and VCMP -/

theorem Num.isNan_iff (a : Num) : a.isNan = true ↔ a = .nan := by
  cases a <;> simp [Num.isNan]

/-- No zero is below another. -/
theorem Num.lt_zeros (n1 n2 : Bool) (e1 e2 : Int) : (Num.fin n1 0 e1).lt (.fin n2 0 e2) = false := by
  simp [Num.lt, ltFin]

/-- The order of VMIN and VMAX has −0 below +0. -/
theorem Num.ltOrd_zeros (n1 n2 : Bool) (e1 e2 : Int) : (Num.fin n1 0 e1).ltOrd (.fin n2 0 e2) = (n1 && !n2) := by
  simp [Num.ltOrd, Num.lt_zeros, Num.isNan, Num.isNeg]

/-- Of zeros VMIN returns −0 where there is one, VMAX +0 where there is one. -/
theorem Num.minMax_zeros (mx n1 n2 : Bool) (e : Int) :
    (Num.fin n1 0 e).minMax mx (.fin n2 0 e) = .fin (if mx then n1 && n2 else n1 || n2) 0 e := by
  simp only [Num.minMax, Num.ltOrd_zeros, Num.isNan]
  cases mx <;> cases n1 <;> cases n2 <;> rfl

theorem Num.minMax_nan_left (mx : Bool) (b : Num) : Num.nan.minMax mx b = b := rfl

theorem Num.minMax_nan_right (mx : Bool) (a : Num) : a.minMax mx .nan = a := by
  cases a <;> rfl

/-- Zeros are equal under every condition. -/
theorem Num.cmp_zeros {cc : Nat} (hc : cc < 7) (n1 n2 : Bool) (e1 e2 : Int) :
    (Num.fin n1 0 e1).cmp cc (.fin n2 0 e2) = (cc == 0 || cc == 3 || cc == 5) := by
  obtain rfl | rfl | rfl | rfl | rfl | rfl | rfl :
    cc = 0 ∨ cc = 1 ∨ cc = 2 ∨ cc = 3 ∨ cc = 4 ∨ cc = 5 ∨ cc = 6 := by omega
  all_goals simp only [Num.cmp, Num.lt_zeros, Num.isNan] <;> rfl

/-- A NaN is below nothing and nothing is below it. -/
theorem Num.lt_of_isNan {a b : Num} (h : a.isNan = true ∨ b.isNan = true) : a.lt b = false := by
  obtain h | h := h
  · rw [(Num.isNan_iff a).1 h]; rfl
  · rw [(Num.isNan_iff b).1 h]; cases a <;> rfl

section
variable {a b : Num} (h : a.isNan = true ∨ b.isNan = true)
include h

theorem Num.cmp_of_isNan_false : ∀ cc ∈ [0, 2, 3, 4, 5], a.cmp cc b = false := by
  have hun : (a.isNan || b.isNan) = true := Bool.or_eq_true_iff.2 h
  simp [Num.cmp, Num.lt_of_isNan h, Num.lt_of_isNan h.symm, hun]

theorem Num.cmp_of_isNan_true : ∀ cc ∈ [1, 6], a.cmp cc b = true := by
  have hun : (a.isNan || b.isNan) = true := Bool.or_eq_true_iff.2 h
  simp [Num.cmp, hun]

end

section
variable {ty : Nat} (hty : ty = 0 ∨ ty = 3)
include hty

theorem not_int_of_float : ¬(ty = 1 ∨ ty = 2) := by omega

/-- VMIN and VMAX of float lanes, on the values of the patterns. -/
theorem minMax_of_float (mx : Bool) (a b : Nat) :
    minMax mx ty a b = (tyFmt ty).encode false (((tyFmt ty).decode a).minMax mx ((tyFmt ty).decode b)) :=
  if_neg (not_int_of_float hty)

/-- VCMP of float lanes, on the values of the patterns. -/
theorem cmpLane_of_float (cc a b : Nat) :
    cmpLane cc ty a b = ((tyFmt ty).decode a).cmp cc ((tyFmt ty).decode b) :=
  if_neg (not_int_of_float hty)

/-- The patterns of the two zeros. -/
theorem decode_tyFmt_zero (neg : Bool) : (tyFmt ty).decode ((tyFmt ty).withSign neg 0) = .fin neg 0 (tyFmt ty).emin := by
  obtain rfl | rfl := hty <;> cases neg <;> rfl

/-- −0 is the sign bit alone. -/
theorem withSign_tyFmt_negZero : (tyFmt ty).withSign true 0 = 2 ^ (tyBits ty - 1) := by
  obtain rfl | rfl := hty <;> rfl

theorem minMax_zeros (mx n1 n2 : Bool) :
    minMax mx ty ((tyFmt ty).withSign n1 0) ((tyFmt ty).withSign n2 0) =
      (tyFmt ty).withSign (if mx then n1 && n2 else n1 || n2) 0 := by
  rw [minMax_of_float hty, decode_tyFmt_zero hty, decode_tyFmt_zero hty, Num.minMax_zeros, FFmt.encode_zero]

theorem cmpLane_zeros {cc : Nat} (hc : cc < 7) (n1 n2 : Bool) :
    cmpLane cc ty ((tyFmt ty).withSign n1 0) ((tyFmt ty).withSign n2 0) = (cc == 0 || cc == 3 || cc == 5) := by
  rw [cmpLane_of_float hty, decode_tyFmt_zero hty, decode_tyFmt_zero hty, Num.cmp_zeros hc]

end

/-- VMIN and VMAX are one lane operation by its direction. -/
theorem exec_vminmax (mx : Bool) (s : State) (w : Nat) (f : VFields) :
    exec (if mx then .vmax w f else .vmin w f) s = s.vec2 (if mx then 0x25 else 0x24) w f (minMax mx f.ty.toNat) := by
  cases mx
  · exact exec_vmin ..
  · exact exec_vmax ..

/-- Settles O31: by the values of the patterns, where a zero is not below a zero and a NaN neither below nor above anything. -/
theorem floatComparisonsFollowRule : Obligations.FloatComparisonsFollowRule := by
  refine ⟨?lanes, fun a ha hn => fp32.encode_decode rfl rfl rfl false ha hn, ?issued⟩
  case lanes =>
    intro ty mx a b hty fm neg0
    have hneg : neg0 = fm.withSign true 0 := (withSign_tyFmt_negZero hty).symm
    clear_value neg0
    subst hneg
    refine ⟨minMax_zeros hty false true false, minMax_zeros hty false false true, minMax_zeros hty true true false,
      minMax_zeros hty true false true, fun ha _ => ?one, fun ha hb => ?both, fun cc hc u v hu hv => ?zeros,
      fun h => ?unordered⟩
    case one =>
      rw [Num.isNan_iff] at ha
      rw [minMax_of_float hty, minMax_of_float hty, ha, Num.minMax_nan_left, Num.minMax_nan_right]
      exact ⟨rfl, rfl⟩
    case both =>
      rw [Num.isNan_iff] at ha hb
      rw [minMax_of_float hty, ha, hb]
      rfl
    case zeros =>
      have hsign : ∀ u ∈ [0, fm.withSign true 0], ∃ n, u = fm.withSign n 0 := by
        simp only [List.mem_cons, List.not_mem_nil, or_false, forall_eq_or_imp, forall_eq]
        exact ⟨⟨false, rfl⟩, true, rfl⟩
      obtain ⟨n, rfl⟩ := hsign u hu
      obtain ⟨n', rfl⟩ := hsign v hv
      exact cmpLane_zeros hty hc n n'
    case unordered =>
      simp only [cmpLane_of_float hty]
      exact ⟨Num.cmp_of_isNan_false h, Num.cmp_of_isNan_true h⟩
  case issued =>
    intro s w f hl x ty k
    refine ⟨fun mx hi => ⟨_, (exec_vminmax mx s w f).trans (State.vec2_of_issues hl hi _), fun i hlt hp => ?_⟩,
      fun hi => ⟨_, exec_vcmp_of_issues hl hi, fun i hlt => ?_⟩⟩
    · exact x.vlane_merged_of_pred _ hlt hp
    · exact getLsbD_mkP (tyLanes_le _) _ hlt

end Sys2Proof.Machine
end

section
/-!
PROOF. The special inputs of VEXP2, VLOG2, VRCP and VRSQ, and the inputs where VEXP2 and VLOG2 are exact (06 R166, Table 4).
-/

namespace Sys2Proof.Machine

open Sys2Proof

/-! ## The rows of Table 4, by the value of the input -/

section
variable {f : FFmt} {v : Nat} (ulps : Nat)

theorem FFmt.special_nan (hd : f.decode v = .nan) {op : Nat} (ho : op < 4) : f.special op v ulps = f.nan := by
  obtain rfl | rfl | rfl | rfl : op = 0 ∨ op = 1 ∨ op = 2 ∨ op = 3 := by omega
  all_goals simp only [FFmt.special, hd]

section
variable {neg : Bool} (hd : f.decode v = .inf neg)
include hd

theorem FFmt.exp2_inf : f.special 0 v ulps = f.withSign false (if neg then 0 else f.infMag) := by
  cases neg <;> simp [FFmt.special, hd]

theorem FFmt.log2_inf : f.special 1 v ulps = if neg then f.nan else f.withSign false f.infMag := by
  simp [FFmt.special, hd]

theorem FFmt.rcp_inf : f.special 2 v ulps = f.withSign neg 0 := by
  simp [FFmt.special, hd]

theorem FFmt.rsq_inf : f.special 3 v ulps = if neg then f.nan else f.withSign false 0 := by
  simp [FFmt.special, hd]

end

section
variable {neg : Bool} {e : Int} (hd : f.decode v = .fin neg 0 e)
include hd

theorem FFmt.exp2_zero : f.special 0 v ulps = f.encode false (.fin false 1 0) := by
  simp [FFmt.special, hd]

theorem FFmt.log2_zero : f.special 1 v ulps = f.withSign true f.infMag := by
  simp [FFmt.special, hd]

theorem FFmt.rcp_zero : f.special 2 v ulps = f.withSign neg f.infMag := by
  simp [FFmt.special, hd]

theorem FFmt.rsq_zero : f.special 3 v ulps = f.withSign neg f.infMag := by
  simp [FFmt.special, hd]

end

section
variable {m : Nat} {e : Int} (hm : m ≠ 0)
include hm

theorem FFmt.log2_neg (hd : f.decode v = .fin true m e) : f.special 1 v ulps = f.nan := by
  simp [FFmt.special, hd, hm]

theorem FFmt.rsq_neg (hd : f.decode v = .fin true m e) : f.special 3 v ulps = f.nan := by
  simp [FFmt.special, hd, hm]

/-- 2 to an integer in the format's normal range is encoded as it is. -/
theorem FFmt.exp2_of_int {neg : Bool} {i : Int} (hd : f.decode v = .fin neg m e) (hb : bitLen m + e < 13)
    (hi : intOf neg m e = some i) (hr : (1 - f.bias : Int) ≤ i ∧ i ≤ f.bias) :
    f.special 0 v ulps = f.encode false (.fin false 1 i) := by
  simp [FFmt.special, hd, hm, hb, hi, hr]

/-- The logarithm of a power of two is its exponent. -/
theorem FFmt.log2_of_pow2 (hd : f.decode v = .fin false m e) (hp : m = 2 ^ (bitLen m - 1)) :
    f.special 1 v ulps = f.encode false (Num.ofInt (e + (bitLen m - 1 : Nat))) := by
  simp [FFmt.special, hd, hm, ← hp]

end

end

/-! ## The special patterns of FP32 and BF16 -/

section
variable {ty : Nat} (hty : ty = 0 ∨ ty = 3)
include hty

theorem decode_tyFmt_inf (neg : Bool) :
    (tyFmt ty).decode ((tyFmt ty).withSign neg (tyFmt ty).infMag) = .inf neg := by
  obtain rfl | rfl := hty <;> cases neg <;> rfl

theorem decode_tyFmt_nan : (tyFmt ty).decode (tyFmt ty).nan = .nan := by
  obtain rfl | rfl := hty <;> rfl

theorem decode_tyFmt_negOne :
    (tyFmt ty).decode ((tyFmt ty).withSign true ((tyFmt ty).bias * 2 ^ (tyFmt ty).mb)) =
      .fin true (2 ^ (tyFmt ty).mb) ((tyFmt ty).emin + 126) := by
  obtain rfl | rfl := hty <;> rfl

theorem encode_tyFmt_one :
    (tyFmt ty).encode false (.fin false 1 0) = (tyFmt ty).bias * 2 ^ (tyFmt ty).mb := by
  obtain rfl | rfl := hty <;> decide

end

/-- Settles O32: the rows of Table 4 at the patterns of the two formats' special values, and in FP32 at 8 and 3. -/
theorem transcendentalSpecialInputs : Obligations.TranscendentalSpecialInputs := by
  intro fm hfm u _ sign inf one
  obtain ⟨ty, hty, rfl⟩ : ∃ ty, (ty = 0 ∨ ty = 3) ∧ tyFmt ty = fm := by
    simp only [List.mem_cons, List.not_mem_nil, or_false] at hfm
    obtain rfl | rfl := hfm
    · exact ⟨0, .inl rfl, rfl⟩
    · exact ⟨3, .inr rfl, rfl⟩
  have hsign : ∀ mag, sign + mag = (tyFmt ty).withSign true mag := fun mag => Nat.add_comm ..
  have hzero : (tyFmt ty).decode 0 = .fin false 0 _ := decode_tyFmt_zero hty false
  have hneg0 : (tyFmt ty).decode sign = .fin true 0 _ := hsign 0 ▸ decode_tyFmt_zero hty true
  have hinf : (tyFmt ty).decode inf = .inf false := decode_tyFmt_inf hty false
  have hninf : (tyFmt ty).decode (sign + inf) = .inf true := hsign inf ▸ decode_tyFmt_inf hty true
  have hnone := hsign one ▸ decode_tyFmt_negOne hty
  have hmb : 2 ^ (tyFmt ty).mb ≠ 0 := Nat.ne_of_gt (Nat.two_pow_pos _)
  have hone : _ = one := encode_tyFmt_one hty
  refine ⟨?exp2, ?log2, ?rcp, ?rsq, fun op ho => FFmt.special_nan u (decode_tyFmt_nan hty) ho, ?exact⟩
  case exp2 =>
    exact ⟨(FFmt.exp2_zero u hzero).trans hone, (FFmt.exp2_zero u hneg0).trans hone, FFmt.exp2_inf u hinf,
      FFmt.exp2_inf u hninf⟩
  case log2 =>
    exact ⟨(FFmt.log2_zero u hzero).trans (hsign inf).symm, (FFmt.log2_zero u hneg0).trans (hsign inf).symm,
      FFmt.log2_inf u hinf, FFmt.log2_inf u hninf, FFmt.log2_neg u hmb hnone⟩
  case rcp =>
    exact ⟨FFmt.rcp_zero u hzero, (FFmt.rcp_zero u hneg0).trans (hsign inf).symm, FFmt.rcp_inf u hinf,
      (FFmt.rcp_inf u hninf).trans (hsign 0).symm⟩
  case rsq =>
    exact ⟨FFmt.rsq_zero u hzero, (FFmt.rsq_zero u hneg0).trans (hsign inf).symm, FFmt.rsq_inf u hinf,
      FFmt.rsq_inf u hninf, FFmt.rsq_neg u hmb hnone⟩
  case exact =>
    have h8 : fp32.decode 0x41000000 = .fin false (2 ^ 23) (-20) := by decide
    have h3 : fp32.decode 0x40400000 = .fin false (3 * 2 ^ 22) (-22) := by decide
    exact ⟨(FFmt.log2_of_pow2 u (by decide) h8 (by decide)).trans (by decide),
      (FFmt.exp2_of_int u (by decide) h3 (by decide) (i := 3) (by decide) (by decide)).trans (by decide)⟩

end Sys2Proof.Machine
end

section
/-!
PROOF. The Sampler's jobs: what the units' own traffic leaves alone, the bytes a write reaches, and the start and the units of
REGROUP and CROP_RESIZE (07 R183 to R190; 13 R344).
-/

namespace Sys2Proof.Machine

open Sys2Proof

/-! ## What the units' traffic leaves alone (13 R344) -/

section
variable {s t : State} (h : s.onlyMoved t)
include h

/-- Registers of the pages above those of the ports, which hold what is known of the places of memory. -/
theorem State.onlyMoved.reg {p i o : Nat} (hp : 0x060 ≤ p) (hi : i < 256) (ho : o < 4096) : t.reg p i o = s.reg p i o := by
  obtain ⟨_, _, _, _, _, hr, _⟩ := h
  exact hr p i o (by unfold pgRGL; omega) (.inr hp) hi ho

theorem State.onlyMoved.fget {p : Nat} {f : Fld} (hp : 0x060 ≤ p) (hf : f.off < 4096) : t.fget p f = s.fget p f :=
  congrArg f.get (h.reg hp (by decide) hf)

theorem State.onlyMoved.lanterns : t.lanterns = s.lanterns := by
  obtain ⟨_, _, _, _, _, hr, _⟩ := h
  exact congrArg Reg.FUS_CAPS_LANTERNS.get (hr pgFUS 0 _ (by decide) (.inl (by decide)) (by decide) (by decide))

theorem State.onlyMoved.poison : t.poison = s.poison := by
  obtain ⟨_, _, _, _, rfl, _⟩ := h; rfl

theorem State.onlyMoved.bondWait (a n : Nat) : t.bondWait a n = s.bondWait a n := by
  obtain ⟨_, _, _, _, rfl, _⟩ := h; rfl

theorem State.onlyMoved.wick (w : Nat) : t.wick w = s.wick w := by
  obtain ⟨_, _, _, _, rfl, _⟩ := h; rfl

theorem State.onlyMoved.gwin : t.gwin = s.gwin := by
  obtain ⟨_, _, _, _, rfl, _⟩ := h; rfl

theorem State.onlyMoved.region (a : Nat) : t.region a = s.region a := by
  have hd : t.ddrBytes = s.ddrBytes := congrArg (· * 2 ^ 30) (h.fget (by decide) (by decide))
  unfold State.region
  rw [hd, h.lanterns]

theorem State.onlyMoved.lanternUp (n : Nat) : t.lanternUp n = s.lanternUp n := by
  simp only [State.lanternUp, h.lanterns, h.fget (p := pgLNKC) (f := Reg.LNK_INSVC_MASK) (by decide) (by decide)]

theorem State.onlyMoved.wickInService (w : Nat) : t.wickInService w = s.wickInService w := by
  simp only [State.wickInService, h.lanternUp, h.wick]

theorem State.onlyMoved.guestUp : t.guestUp = s.guestUp := by
  simp only [State.guestUp, h.fget (p := pgGST) (f := Reg.GST_STATE_STATE) (by decide) (by decide)]

theorem State.onlyMoved.rangeOwned (scn p : Nat) (off : Int) (n : Nat) : t.rangeOwned scn p off n = s.rangeOwned scn p off n := by
  have hr : t.reg (pgScn scn) 0 0x040 = s.reg (pgScn scn) 0 0x040 :=
    h.reg (by unfold pgScn pgLantern; omega) (by decide) (by decide)
  simp only [State.rangeOwned, State.segOwned, hr]

theorem State.onlyMoved.denied (p a n : Nat) (write : Bool) : t.denied p a n write = s.denied p a n write := by
  simp only [State.denied, h.region, h.rangeOwned, h.lanternUp, h.wickInService, h.guestUp, h.gwin]

/-- A place that answers at once still does. -/
theorem State.onlyMoved.open_ {p a n : Nat} {write : Bool} (ho : s.open_ p a n write) : t.open_ p a n write := by
  rwa [State.open_, h.bondWait, h.denied, h.region]

/-! ### Lines that are out of reach -/

theorem State.onlyMoved.bankOut (n k : Nat) : t.bankOut n k = s.bankOut n k := by
  have hp : 0x060 ≤ pgRSV n := by unfold pgRSV pgLantern; omega
  simp only [State.bankOut, h.reg (i := 0) (o := 0x04C) hp (by decide) (by decide),
    h.reg (i := 0) (o := 0x050) hp (by decide) (by decide)]

theorem State.onlyMoved.rankSt (c r : Nat) : t.rankSt c r = s.rankSt c r :=
  h.fget (by unfold pgDMCch; omega) (by split <;> decide)

theorem State.onlyMoved.ddrMask {k : Nat} (hk : k < 8) : t.ddrMask k = s.ddrMask k := by
  simp only [State.ddrMask, h.reg (p := pgDMC) (i := 0) (o := 0x080 + 8 * k) (by decide) (by decide) (by omega),
    h.reg (p := pgDMC) (i := 0) (o := 0x084 + 8 * k) (by decide) (by decide) (by omega)]

theorem State.onlyMoved.ddrChannel (a : Nat) : t.ddrChannel a = s.ddrChannel a :=
  List.foldl_rel rfl fun k hk acc acc' hacc => by
    rw [hacc, h.ddrMask (Nat.lt_trans (List.mem_range.1 hk) (by decide))]

theorem State.onlyMoved.plainBits : t.plainBits = s.plainBits := by
  have hn : t.selectCount = s.selectCount := by
    simp only [State.selectCount, h.fget (p := pgDMC) (f := Reg.DMC_GEOM_WIDTH) (by decide) (by decide)]
  have h8 : s.selectCount ≤ 8 := by unfold State.selectCount; split <;> decide
  have hm : (List.range s.selectCount).map t.ddrMask = (List.range s.selectCount).map s.ddrMask :=
    List.map_congr_left fun k hk => h.ddrMask (Nat.lt_of_lt_of_le (List.mem_range.1 hk) h8)
  have hh : ((List.range s.selectCount).filterMap fun k => homeBit (t.ddrMask k)) =
      (List.range s.selectCount).filterMap fun k => homeBit (s.ddrMask k) :=
    List.filterMap_map.symm.trans ((congrArg (List.filterMap homeBit) hm).trans List.filterMap_map)
  simp only [State.plainBits, hn, hh]

theorem State.onlyMoved.ddrRank (a : Nat) : t.ddrRank a = s.ddrRank a := by
  have hc : t.cfgRanks = s.cfgRanks := by
    unfold State.cfgRanks
    rw [h.fget (by decide) (by decide)]
  have hb : t.rowBits = s.rowBits := by
    unfold State.rowBits
    rw [h.fget (by decide) (by decide)]
  simp only [State.ddrRank, hc, hb, h.plainBits, h.ddrChannel, h.rankSt]

theorem State.onlyMoved.anyOffline : t.anyOffline = s.anyOffline := by
  simp only [State.anyOffline, h.rankSt]

theorem State.onlyMoved.lineOffline (a : Nat) : t.lineOffline a = s.lineOffline a := by
  simp only [State.lineOffline, h.anyOffline, h.rankSt, h.ddrChannel, h.ddrRank]

theorem State.onlyMoved.deadPlace : t.deadPlace = s.deadPlace := by
  funext a
  simp only [State.deadPlace, h.region, h.wickInService, h.lanternUp, h.bankOut, h.lineOffline]

theorem State.onlyMoved.firstDead (a n : Nat) : t.firstDead a n = s.firstDead a n := by
  simp only [State.firstDead, h.region, h.anyOffline, h.lineOffline, h.deadPlace]

/-- A read whose checks pass ends as it would have before the traffic. -/
theorem State.onlyMoved.readRes_ok (a n : Nat) : t.readRes a n .ok = s.readRes a n .ok := by
  simp only [State.readRes, State.firstPoison, State.checkEnd, h.region, h.firstDead, h.poison]

end

/-- The traffic of an engine's job changes no more than traffic may. -/
theorem State.jobMoves_onlyMoved (s : State) {j : Job} (hp : j.port < 32) (ht : j.tc < 8) (a n : Nat) (write : Bool) :
    s.onlyMoved (s.jobMoves j a n write) :=
  s.traffic_onlyMoved _ _ _ _ _ _ _ hp ht

/-- The same of a list of reads. -/
theorem State.foldl_jobMoves_onlyMoved (s : State) {j : Job} (hp : j.port < 32) (ht : j.tc < 8) (rs : List (Nat × Nat)) :
    s.onlyMoved (rs.foldl (fun t r => t.jobMoves j r.1 r.2 false) s) :=
  List.foldlRecOn rs _ (motive := s.onlyMoved) s.onlyMoved_refl
    fun t hst r _ => State.onlyMoved_trans hst (t.jobMoves_onlyMoved hp ht r.1 r.2 false)

/-- A place that answers at once lies outside the guest window, which alone has bytes of its own to deliver. -/
theorem State.guestIn_of_open {s : State} {p a n : Nat} {write : Bool} (h : s.open_ p a n write) : s.guestIn a n = s := by
  obtain ⟨_, _, hr⟩ := h
  exact if_pos (hr.imp_right And.right)

/-! ## The bytes a write reaches -/

theorem length_toLE (n v : Nat) : (toLE n v).length = n := by
  induction n generalizing v with
  | zero => rfl
  | succ n ih => rw [toLE, List.length_cons, ih]

theorem readByte_store_of_outside (s : State) {a x : Nat} {bs : List Byte} (hx : ¬ (a ≤ x ∧ x < a + bs.length)) :
    readByte (s.store a bs).mem x = readByte s.mem x :=
  (readByte_writeBytes s.mem a bs x).trans (if_neg hx)

theorem readByte_storeLine_of_outside (s : State) {a x : Nat} {bs : List Byte} (hx : ¬ (a ≤ x ∧ x < a + bs.length)) :
    readByte (s.storeLine a bs).mem x = readByte s.mem x := by
  unfold State.storeLine
  split
  · split
    · rfl
    · split <;> rfl
    · rfl
  · exact readByte_store_of_outside s hx

theorem readByte_storeLines_of_outside (fuel : Nat) (s : State) {a x : Nat} {bs : List Byte}
    (hx : ¬ (a ≤ x ∧ x < a + bs.length)) : readByte (s.storeLines fuel a bs).mem x = readByte s.mem x := by
  induction fuel generalizing s a bs with
  | zero => rfl
  | succ f ih =>
    unfold State.storeLines
    split
    · rfl
    · rw [ih _ (by rw [List.length_drop]; omega), readByte_storeLine_of_outside _ (by rw [List.length_take]; omega)]

@[simp] theorem State.mapAccess_mem (s : State) (a n : Nat) : (s.mapAccess a n).mem = s.mem := by
  unfold State.mapAccess
  split
  · obtain ⟨_, _, _, _, _, h⟩ := s.captureLine_shape pgCCU .partitionViolation a 137; rw [h]
  · rfl

theorem readByte_storePlain_of_outside (s : State) {a x : Nat} {bs : List Byte} (hx : ¬ (a ≤ x ∧ x < a + bs.length)) :
    readByte (s.storePlain a bs).mem x = readByte s.mem x := by
  unfold State.storePlain
  split
  · rw [State.mapAccess_mem]
  · split
    · exact readByte_store_of_outside s hx
    · exact readByte_storeLines_of_outside _ s hx

/-- The read-modify-write of partly written lines captures errors and changes no byte. -/
@[simp] theorem State.mergeMarks_mem (s : State) (a n : Nat) : (s.mergeMarks a n).mem = s.mem := by
  unfold State.mergeMarks
  split
  · rfl
  · refine List.foldlRecOn _ _ (motive := fun t : State => t.mem = s.mem) rfl fun t ht l _ => ?_
    split
    · rw [State.capture_mem, ht]
    · exact ht

theorem readByte_storeAt_of_outside (s : State) {a x : Nat} {bs : List Byte} (hx : ¬ (a ≤ x ∧ x < a + bs.length)) :
    readByte (s.storeAt a bs).mem x = readByte s.mem x := by
  rw [State.storeAt, State.mergeMarks_mem, readByte_storePlain_of_outside s hx]

/-- An output row of a REGROUP writes no byte outside its channel rows. -/
theorem readByte_regroupWrite_of_outside (s : State) {d dst y a : Nat} (src : Nat)
    (h : ∀ k r, k < (regroupOut d).xb + 2 * (regroupOut d).halo → r < (regroupOut d).nr →
      let p := (regroupOut d).rowAddr dst y ((k : Int) - (regroupOut d).halo) r
      ¬ (p ≤ a ∧ a < p + rowBytes (regroupOut d).fmt)) :
    readByte (s.regroupWrite d src dst y).mem a = readByte s.mem a := by
  refine List.foldlRecOn _ _ (motive := fun t : State => readByte t.mem a = readByte s.mem a) rfl fun t ht p hp => ?_
  simp only [List.mem_flatMap, List.mem_map, List.mem_range] at hp
  obtain ⟨_, ⟨k, hk, rfl⟩, r, hr, rfl⟩ := hp
  rw [readByte_storeAt_of_outside _ (by rw [length_toLE]; exact h k r hk hr), ht]

/-! ## Jobs and Sconces -/

theorem State.tag_of_job {s : State} {tag : Nat} {j : Job} (h : s.job tag = some j) : j.tag = tag := by
  simpa using List.find?_some h

/-- A job that is replaced is found under its tag. -/
theorem State.job_setJob {s : State} {j k : Job} (h : s.job j.tag = some k) : (s.setJob j).job j.tag = some j := by
  have hp : ((fun i : Job => i.tag == j.tag) ∘ fun i => if i.tag = j.tag then j else i) = fun i => i.tag == j.tag := by
    funext i
    by_cases hi : i.tag = j.tag <;> simp [hi]
  have hk := State.tag_of_job h
  unfold State.job at h
  simp only [State.job, State.setJob, List.find?_map, hp, h, Option.map_some, hk, if_true]

theorem State.sconce_setSconce (s : State) (k : Nat) (x : Sconce) : (s.setSconce k x).sconce k = x :=
  aget_aset_same _ _ _ _

theorem onLive_of_live {s : State} (t : State) (hl : s.live = true) : onLive s true t = .next t := by
  rw [onLive, hl, Bool.and_self, if_pos rfl]

/-! ## The start of a Sampler's job (07 R185, R190) -/

/-- The state in which a Sampler's job of `total` units has begun on Sconce `k`. -/
def State.samplerBegun (s : State) (j : Job) (total k : Nat) : State :=
  (s.setJob { j.begin_ total with place := k }).setSconce k
    { s.sconce k with sampler := (s.sconce k).sampler ++ if total = 0 then [] else [j.tag] }

/-- A job whose Sconce is picked begins there. -/
theorem State.samplerStart_of_picked {s : State} {j : Job} {k : Nat} (total : Nat)
    (h : s.pickScn j [.regroup, .cropResize] (fun c => c.sampler.isEmpty) = some k) :
    s.samplerStart j total = s.samplerBegun j total k := by
  simp only [State.samplerStart, State.samplerBegun, h]
  split <;> simp

/-- What the begin of a Sampler's job sets and what it leaves. -/
theorem State.samplerBegun_spec {s : State} {tag : Nat} {j : Job} (total k : Nat) (h : s.job tag = some j) :
    (s.samplerBegun j total k).job tag = some { j.begin_ total with place := k } ∧
      ((s.samplerBegun j total k).sconce k).sampler = (s.sconce k).sampler ++ (if total = 0 then [] else [tag]) ∧
      (s.samplerBegun j total k).mem = s.mem ∧ (s.samplerBegun j total k).regs = s.regs ∧
      (s.samplerBegun j total k).queues = s.queues := by
  obtain rfl := State.tag_of_job h
  refine ⟨State.job_setJob (j := { j.begin_ total with place := k }) h, ?_, rfl, rfl, rfl⟩
  rw [State.samplerBegun, State.sconce_setSconce]

section
variable {s : State} {tag : Nat} {j : Job} (ha : s.awake = true) (hj : s.job tag = some j) (hp : j.phase = .placed)
include ha hj hp

theorem exec_regroup_of_placed (ho : j.opc = .regroup) :
    exec (.regroup tag) s =
      .next (s.samplerStart j (if (regroupOut j.desc).isEmpty then 0 else (regroupOut j.desc).h)) :=
  (onAwake_of_due _ ha rfl).trans (by simp only [State.withJob, hj, ho, hp, and_self, if_true])

theorem exec_cropResize_of_placed (ho : j.opc = .cropResize) :
    exec (.cropResize tag) s = .next (s.samplerStart j (cropTotal j.desc)) :=
  (onAwake_of_due _ ha rfl).trans (by simp only [State.withJob, hj, ho, hp, and_self, if_true])

end

/-! ## The units of a Sampler's job -/

theorem State.opc_of_samplerJob {s : State} {scn : Nat} {o : Opc} {j : Job} (h : s.samplerJob scn o = some j) : j.opc = o := by
  unfold State.samplerJob at h
  split at h
  · obtain ⟨i, _, hi⟩ := Option.bind_eq_some_iff.1 h
    split at hi
    · next hc => cases hi; exact hc.1
    · cases hi
  · cases h

/-- A Sampler's accesses leave through the port of its Sconce's Lantern. -/
theorem Job.port_of_sampler {j : Job} (ho : j.opc = .regroup ∨ j.opc = .cropResize) (scn : Nat) :
    ({ j with place := scn } : Job).port = scn / 8 := by
  obtain ho | ho := ho <;> simp only [Job.port, ho]

/-- The end of a unit: the job goes one unit on, and no byte and no queue changes. -/
theorem State.samplerUnit_spec {s : State} (scn : Nat) {j k : Job} (h : s.job j.tag = some k) :
    (s.samplerUnit scn j).job j.tag = some (j.unitDone 1) ∧ (s.samplerUnit scn j).mem = s.mem ∧
      (s.samplerUnit scn j).queues = s.queues := by
  have hj : (s.setJob (j.unitDone 1)).job j.tag = some (j.unitDone 1) := State.job_setJob (j := j.unitDone 1) h
  unfold State.samplerUnit
  dsimp only
  split <;> exact ⟨hj, rfl, rfl⟩

section
variable {s : State} {scn : Nat} {j : Job} (hl : s.live = true)
include hl

theorem exec_regroupRowDone_of_running (hj : s.samplerJob scn .regroup = some j) (chk : ReadCheck) :
    exec (.regroupRowDone scn chk) s = .next (s.regroupStep scn j chk) :=
  (onLive_of_live _ hl).trans (by rw [hj])

theorem exec_cropBoxDone_of_running (hj : s.samplerJob scn .cropResize = some j) (chk : ReadCheck) :
    exec (.cropBoxDone scn chk) s = .next (s.cropStep scn j chk) :=
  (onLive_of_live _ hl).trans (by rw [hj])

end

/-! ### An output row of a REGROUP (07 R183) -/

/-- A row whose reads are sound and whose output takes writes: the reads and the writes pass the port, then the row is written. -/
theorem State.regroupStep_of_readsOk {s : State} {j : Job} (scn : Nat) (hl : s.readsLive j = true)
    (hr : s.readsOk j.part (regroupReads j.desc (j.ref 0).addr j.step).1 (regroupReads j.desc (j.ref 0).addr j.step).2)
    (hw : s.open_ j.part ((j.ref 1).addr + j.step * (regroupOut j.desc).rowStride) (regroupOut j.desc).rowStride true) :
    let jj := { j with place := scn }
    let r := regroupReads j.desc (j.ref 0).addr j.step
    let n := (regroupOut j.desc).rowStride
    s.regroupStep scn j .ok =
      (((s.jobMoves jj r.1 r.2 false).jobMoves jj ((j.ref 1).addr + j.step * n) n true).regroupWrite j.desc (j.ref 0).addr
        (j.ref 1).addr j.step).samplerUnit scn j := by
  have hm := readMarks_of_readsOk s _ _ _ hr
  obtain ⟨hro, hres⟩ := hr
  have hg := State.guestIn_of_open hro
  obtain ⟨hrb, hrd, -⟩ := hro
  obtain ⟨hwb, hwd, -⟩ := hw
  simp only [State.regroupStep, hl, hrb, hwb, hrd, hwd, hres, hm, hg, Bool.not_true, Bool.or_self, Bool.false_eq_true, if_false,
    Option.or_none]

/-! ### A box of a CROP_RESIZE (07 R186 to R188) -/

theorem State.firstBad_eq_none {s : State} {chk : ReadCheck} {rs : List (Nat × Nat)}
    (h : ∀ r ∈ rs, s.readRes r.1 r.2 chk = .data) : s.firstBad chk rs = none := by
  induction rs with
  | nil => rfl
  | cons r rs ih =>
    obtain ⟨hr, hrs⟩ := List.forall_mem_cons.1 h
    rw [State.firstBad, hr]
    exact ih hrs

/-- The bytes of a box's result. -/
def cropOut (d : Nat) : Nat := df d 6 22 16 * df d 6 30 24 * cropCB d

/-- A box whose read is sound: a bad box writes zeros over its result and is counted; a good box whose reads are sound writes its
pixels, computed from the state after its reads. -/
theorem State.cropStep_of_readsOk {s : State} {j : Job} (scn : Nat) (hp : ({ j with place := scn } : Job).port < 32) (ht : j.tc < 8)
    (hl : s.readsLive j = true) (hb : s.readsOk j.part ((j.ref 1).addr + 16 * j.step) 16)
    (hs : s.open_ j.part (j.ref 0).addr (geoOf (dw j.desc 3)).size false)
    (hw : s.open_ j.part ((j.ref 2).addr + j.step * cropOut j.desc) (cropOut j.desc) true) :
    let jj := { j with place := scn }
    let ba := (j.ref 1).addr + 16 * j.step
    let src := (j.ref 0).addr
    let n := cropOut j.desc
    let dst := (j.ref 2).addr + j.step * n
    let u := s.jobMoves jj ba 16 false
    let b := u.cropBox ba
    let v := (cropReads j.desc src b).foldl (fun t r => t.jobMoves jj r.1 r.2 false) u
    (b.bad = true → s.cropStep scn j .ok =
      (((u.jobMoves jj dst n true).storeAt dst (List.replicate n 0)).fadd (pgScn scn) Reg.SCN_SMP_BADBOX_COUNT 1).samplerUnit
        scn j) ∧
    (b.bad = false → (∀ r ∈ cropReads j.desc src b, s.readRes r.1 r.2 .ok = .data) → s.cropStep scn j .ok =
      ((v.jobMoves jj dst n true).storeAt dst
        ((cropGrid j.desc).flatMap fun o => v.cropPixel j.desc src (cropSample j.desc b o.1 o.2))).samplerUnit scn j) := by
  intro jj ba src n dst u b v
  have hu : s.onlyMoved u := s.jobMoves_onlyMoved hp ht ba 16 false
  have hus := hu.open_ hs
  have hg := State.guestIn_of_open hb.1
  obtain ⟨⟨hbb, hbd, -⟩, hres⟩ := hb
  obtain ⟨hsb, -, -⟩ := hs
  obtain ⟨hwb, hwd, -⟩ := hw
  unfold cropOut at hwb hwd
  simp only [State.cropStep, hl, hbb, hsb, hwb, hbd, hwd, hres, hg, Bool.not_true, Bool.or_self, Bool.false_eq_true, if_false,
    Option.or_none]
  refine ⟨fun hbad => if_pos hbad, fun hgood hreads => (if_neg (ne_true_of_eq_false hgood)).trans ?_⟩
  have hfirst : u.firstBad .ok (cropReads j.desc src b) = none :=
    State.firstBad_eq_none fun r hr => (hu.readRes_ok r.1 r.2).trans (hreads r hr)
  have hsg := State.guestIn_of_open hus
  obtain ⟨-, hsd, -⟩ := hus
  rw [hsd, hfirst, hsg]
  rfl

/-! ## Space-to-channel and channel-to-space (07 R183) -/

/-- The input of a space-to-channel output channel row. -/
theorem regroupFrom_spaceToChannel {f nr p q c : Nat} (nrOut y j : Nat) (hq : q < f) (hc : c < nr) :
    regroupFrom 0 f nr nrOut y j ((p * f + q) * nr + c) = (f * y + p, f * j + q, c) := by
  have ht : ((p * f + q) * nr + c) / nr = p * f + q := by
    rw [Nat.mul_comm, Nat.mul_add_div (by omega), Nat.div_eq_of_lt hc, Nat.add_zero]
  have hf : (p * f + q) / f = p := by
    rw [Nat.mul_comm, Nat.mul_add_div (by omega), Nat.div_eq_of_lt hq, Nat.add_zero]
  simp only [regroupFrom, if_true, ht, hf, Nat.mul_add_mod_self_right, Nat.mod_eq_of_lt hq, Nat.mod_eq_of_lt hc]

/-- The input of a channel-to-space output channel row. -/
theorem regroupFrom_channelToSpace {f p q : Nat} (nr nrOut y j c : Nat) (hp : p < f) (hq : q < f) :
    regroupFrom 1 f nr nrOut (f * y + p) (f * j + q) c = (y, j, (p * f + q) * nrOut + c) := by
  simp [regroupFrom, Nat.mul_add_div (Nat.zero_lt_of_lt hp), Nat.div_eq_of_lt hp, Nat.div_eq_of_lt hq, Nat.mod_eq_of_lt hp,
    Nat.mod_eq_of_lt hq]

/-- Settles O38: a unit ends as its reads and writes allow, and traffic leaves the places of memory as they are. -/
theorem samplerRunsRegroupAndCrop : Obligations.SamplerRunsRegroupAndCrop := by
  refine ⟨?start, ?unit, fun s scn j k h => State.samplerUnit_spec scn h,
    fun s d src dst y a h => readByte_regroupWrite_of_outside s src h,
    fun f nr y j p q c hp hq hc => ⟨regroupFrom_spaceToChannel _ y j hq hc, regroupFrom_channelToSpace _ nr y j c hp hq⟩⟩
  case start =>
    intro s tag k j ha hj hp hk g rows
    refine ⟨fun ho => ⟨_, ?_, State.samplerBegun_spec rows k hj⟩,
      fun ho => ⟨_, ?_, State.samplerBegun_spec (cropTotal j.desc) k hj⟩⟩
    · rw [exec_regroup_of_placed ha hj hp ho, State.samplerStart_of_picked _ hk]
    · rw [exec_cropResize_of_placed ha hj hp ho, State.samplerStart_of_picked _ hk]
  case unit =>
    intro s scn j hl hrl hscn ht jj
    have hport : j.opc = .regroup ∨ j.opc = .cropResize → jj.port < 32 := fun ho => by
      rw [Job.port_of_sampler ho]; omega
    constructor
    · intro hj r n wa u hr hw
      have hp := hport (.inl (State.opc_of_samplerJob hj))
      refine ⟨State.onlyMoved_trans (s.jobMoves_onlyMoved hp ht _ _ _) (State.jobMoves_onlyMoved _ hp ht _ _ _), ?_⟩
      rw [exec_regroupRowDone_of_running hl hj, State.regroupStep_of_readsOk scn hrl hr hw]
    · intro hj ba src n dst u b hb hs hw
      have hp := hport (.inr (State.opc_of_samplerJob hj))
      have hu : s.onlyMoved u := s.jobMoves_onlyMoved hp ht _ _ _
      obtain ⟨hbad, hgood⟩ := State.cropStep_of_readsOk scn hp ht hrl hb hs hw
      rw [exec_cropBoxDone_of_running hl hj]
      exact ⟨hu, fun h => congrArg _ (hbad h), fun h hreads =>
        ⟨State.onlyMoved_trans hu (u.foldl_jobMoves_onlyMoved hp ht _), congrArg _ (hgood h hreads)⟩⟩

end Sys2Proof.Machine
end

section
/-!
PROOF. The re-read of an attention job's table (08 R201, R202), and a job whose traffic class is none of the eight: the byte
counter of its port is then another block's register.
-/

namespace Sys2Proof.Machine

open Sys2Proof

/-! ## The reads of an attention job outside its units -/

/-- A read without an error passes its port and goes on. -/
theorem State.attnRead_of_readsOk {s : State} {j : Job} {a n : Nat} (ln : Nat) (ok : State → State) (h : s.readsOk j.part a n) :
    s.attnRead j ln a n .ok ok = ok (s.traffic (some (s.jobMaster j.opc j.part j.desc)) ln j.tc j.part a n false) := by
  have hm := readMarks_of_readsOk s j.part a n h
  have hg := guestIn_of_readsOk s j.part a n h
  obtain ⟨⟨hw, hd, -⟩, hr⟩ := h
  simp only [State.attnRead, hm, hg, hw, hd, hr, Bool.false_eq_true, if_false]

/-- A read that its place turns away fails the job. -/
theorem State.attnRead_of_denied {s : State} {j : Job} {a n : Nat} {e : Err} (ln : Nat) (chk : ReadCheck) (ok : State → State)
    (hw : s.bondWait a n = false) (hd : s.denied j.part a n false = some e) :
    s.attnRead j ln a n chk ok = s.failWickJob j.tag e := by
  simp only [State.attnRead, hw, hd, Bool.false_eq_true, if_false]

/-! ## The table check of a sequence -/

/-- APW_TABLE_REREAD_DONE of a running ATTEND_PAGED is the check of the sequence. -/
theorem exec_apwTableRereadDone_of_running {s : State} {tag : Nat} {j : Job} (n : Nat) (chk : ReadCheck) (ha : s.awake = true)
    (hj : s.job tag = some j) (hr : j.attnRuns = true) (ho : j.opc = .attendPaged) :
    exec (.apwTableRereadDone tag n chk) s = .next (s.rereadDone j n chk) :=
  (onAwake_of_due _ ha rfl).trans (by simp only [State.withJob, hj, hr, ho, and_self, if_true])

/-- A held sequence whose units and merges are done reads the lines of its entries again where none of them waits. -/
theorem State.rereadDone_of_held {s : State} {j : Job} {n : Nat} {c : SeqCap} (chk : ReadCheck) (hc : j.seqOf n = some c)
    (hh : c.st = .held) (hu : j.unitsDone = true) (hm : s.mergesDone j.tag = true)
    (hw : ∀ l ∈ c.entLines, s.bondWait (l * 64) 64 = false) :
    s.rereadDone j n chk = s.attnReads j (s.rootLantern j n 0) c.entLines chk fun t => t.checkSeq j c := by
  have hn : (c.entLines.any fun l => s.bondWait (l * 64) 64) = false :=
    List.any_eq_false.2 fun l hl => Bool.eq_false_iff.1 (hw l hl)
  simp only [State.rereadDone, hc, hh, hu, hm, hn, ne_eq, not_true_eq_false, Bool.not_true, Bool.false_eq_true, or_self, if_false]

/-! ## The error of a job -/

/-- The error of the job of a tag. -/
def State.jobFail (s : State) (tag : Nat) : Option Err := (s.job tag).bind Job.fail

/-- A job that is replaced has the error of its replacement. -/
theorem State.jobFail_setJob {s : State} {j k : Job} (h : s.job j.tag = some k) : (s.setJob j).jobFail j.tag = j.fail := by
  rw [State.jobFail, State.job_setJob h, Option.bind_some]

/-! ## A class beyond the eight

The bytes read through port n in class c are counted at 0x040 + 0x20 × c of the port's page (13 R347), which lies in that page for
the eight classes of three bits. -/

/-- A traffic class of more than three bits: the counter of port 0 in it is SCN_SEGOWN of Sconce 8 (04 R110), at 0x040 of a page
0x280 above. -/
def farClass : Nat := 0x1400000

/-- The first line of segment 1 of the buffer of Sconce 8, on Lantern 1. -/
def segLine : Nat := (sbufBase 8 + 0x80000) / 64

/-- A captured sequence whose table begins there. Its units have read entries 0 and 8, in two lines of the table, as zeros. -/
def farSeq : SeqCap :=
  { seq := 0, st := .held, tbase := segLine * 64, sbase := 0, len := 576, ver := 0, ents := [(0, 0, 0), (0, 8, 0)], rerun := false }

/-- An ATTEND_PAGED of P0 in that class that runs; every unit of it has completed. -/
def farJob : Job :=
  { State.reset.newJob 0 0 0 5 .attendPaged with tc := farClass, phase := .running, st := .running, seqs := [farSeq] }

/-- A device of two Lanterns that runs the job; segment 1 of Sconce 8 belongs to P0. -/
def farState : State :=
  ((({ State.reset with powered := true, released := true, jobs := [farJob] }.fset pgFUS Reg.FUS_CAPS_LANTERNS 2).fset pgLNKC
    Reg.LNK_INSVC_MASK 3).setReg (pgScn 8) 0 0x040 0x80)

/-- The re-read of one line of the table passes its port. -/
def lineRead (s : State) (l : Nat) : State :=
  s.traffic (some (s.jobMaster farJob.opc farJob.part farJob.desc)) (farState.rootLantern farJob 0 0) farJob.tc farJob.part (l * 64) 64
    false

/-- The entries read lie in the first two lines of the segment. -/
theorem farSeq_entLines : farSeq.entLines = [segLine, segLine + 1] := by decide

/-- Each of the two lines by itself can be read. -/
theorem farState_readsOk : ∀ l ∈ farSeq.entLines, farState.readsOk farJob.part (l * 64) 64 := by
  unfold State.readsOk State.open_
  decide +kernel

/-- The 64 bytes counted for the first line make SCN_SEGOWN give the segment to P4. -/
theorem segOwn_lineRead : (lineRead farState segLine).reg (pgScn 8) 0 0x040 = 0xC0 := by decide +kernel

/-- The second line then turns the partition away. -/
theorem denied_lineRead :
    (lineRead farState segLine).denied farJob.part ((segLine + 1) * 64) 64 false = some .partitionViolation := by
  have hregion : (lineRead farState segLine).region ((segLine + 1) * 64) = .sbuf 8 := by decide +kernel
  have howned : (lineRead farState segLine).rangeOwned 8 farJob.part ((segLine + 1) * 64 % 0x400000 : Nat) 64 = false := by
    unfold State.rangeOwned State.segOwned
    rw [segOwn_lineRead]
    decide
  rw [State.denied, if_neg (by decide), hregion]
  simp only [howned, Bool.not_false, Bool.true_or, if_true]

/-- The check of the sequence ends the job. -/
theorem rereadDone_farState :
    farState.rereadDone farJob 0 .ok = (lineRead farState segLine).failWickJob 5 .partitionViolation := by
  have hok := farState_readsOk segLine (by simp [farSeq_entLines])
  rw [State.rereadDone_of_held (c := farSeq) .ok rfl rfl rfl rfl fun l hl => (farState_readsOk l hl).1.1, farSeq_entLines,
    State.attnReads, State.attnRead_of_readsOk _ _ hok, State.attnReads]
  have hwait : (lineRead farState segLine).bondWait ((segLine + 1) * 64) 64 = false := by decide +kernel
  exact State.attnRead_of_denied _ _ _ hwait denied_lineRead

/-- No entry of the table has changed when its lines have been read again. -/
theorem farSeq_unchanged : ∀ x ∈ farSeq.ents, (farSeq.entLines.foldl lineRead farState).loadLE (farSeq.tbase + 8 * x.2.1) 8 = x.2.2 := by
  decide +kernel

/-- Refutes O39: its clause on the re-read holds the job's class to no bound. In class `farClass` the count of the first line takes the
second line's segment from the partition, and a sequence whose entries are all as they were read fails its job. -/
theorem not_attentionJobsCaptureWalkAndCheck : ¬ Obligations.AttentionJobsCaptureWalkAndCheck := by
  intro ⟨_, _, _, _, _, hcheck⟩
  have ha : farState.awake = true := by decide +kernel
  have hj : farState.job 5 = some farJob := rfl
  obtain ⟨hpass, -, -⟩ := hcheck farState 5 0 farJob farSeq ha hj rfl rfl rfl rfl rfl rfl farState_readsOk
  have hend := Host.Outcome.next.inj
    ((exec_apwTableRereadDone_of_running 0 .ok ha hj rfl rfl).symm.trans (hpass farSeq_unchanged))
  have hfails : (farState.rereadDone farJob 0 .ok).jobFail 5 = some .partitionViolation := by
    rw [rereadDone_farState]
    decide +kernel
  have hkept : (farSeq.entLines.foldl lineRead farState).job 5 = some farJob := by decide +kernel
  have hpasses : (farState.rereadDone farJob 0 .ok).jobFail 5 = none := by
    rw [hend]
    exact State.jobFail_setJob hkept
  rw [hfails] at hpasses
  cases hpasses

end Sys2Proof.Machine
end

section
/-!
PROOF. The end of a vote (09 R238), and a vote of a traffic class that is none of the eight: what its first read counts at the XCU's
port turns its second read away.
-/

namespace Sys2Proof.Machine

open Sys2Proof

/-! ## The end of a vote -/

/-- XCU_VOTE_DONE at the end of the vote's cycles ends the unit in the state of that time. -/
theorem exec_xcuVoteDone_of_due {s : State} {j : Job} {e : Nat} (chk : ReadCheck) (ha : s.awake = true)
    (hj : s.engineJob .xcu 0 = some j) (he : e = s.voteEnd j - s.now) :
    exec (.xcuVoteDone chk e) s = .next ((elapse e s).voteDone j chk) := by
  have hdue : s.dueNow e (s.voteEnd j) = true := beq_iff_eq.2 he
  have hexec : exec (.xcuVoteDone chk e) s = onAwake s (s.dueNow e (s.voteEnd j)) ((elapse e s).voteDone j chk) := by
    change execXcuVoteDone chk e s = _
    simp only [execXcuVoteDone, hj]
  rw [hexec, onAwake_of_due _ ha hdue]

/-- A read that its place turns away fails the job of its unit. -/
theorem State.unitRead_of_denied {s : State} {j : Job} {a n : Nat} {e : Err} (chk : ReadCheck) (ok : State → State)
    (hw : s.bondWait a n = false) (hd : s.denied j.part a n false = some e) :
    s.unitRead j a n chk ok = s.setJob { j with fail := some e } := by
  simp only [State.unitRead, hw, hd, Bool.false_eq_true, if_false]

/-- A vote whose claims are read, and whose state its place then turns away, fails. -/
theorem State.voteDone_of_stateDenied {s : State} {j k : Job} {e : Err} (hk : k = { j with since := s.now })
    (hl : s.readsLive k = true) (hc : s.readsOk k.part (k.ref 0).addr (2880 * k.nsens))
    (hw : (s.jobMoves k (k.ref 0).addr (2880 * k.nsens) false).bondWait (k.ref 1).addr 2112 = false)
    (hd : (s.jobMoves k (k.ref 0).addr (2880 * k.nsens) false).denied k.part (k.ref 1).addr 2112 false = some e) :
    s.voteDone j .ok = (s.jobMoves k (k.ref 0).addr (2880 * k.nsens) false).setJob { k with fail := some e } := by
  subst hk
  simp only [State.voteDone, hl, Bool.not_true, Bool.false_eq_true, if_false]
  rw [unitRead_of_readsOk _ _ _ _ _ hc, State.unitRead_of_denied _ _ hw hd]

/-! ## A class beyond the eight

Port 12 is the XCU's. Its counter of bytes read in class c stands at 0x040 + 0x20 × c of its page (13 R347), which lies in that page
for the eight classes of three bits. -/

/-- A traffic class of more than three bits: the counter of port 12 in it is SCN_SEGOWN of Sconce 8 (04 R110), at 0x040 of a page
0x274 above. -/
def farVoteClass : Nat := 0x13A0000

/-- A reference to segment 1 of the buffer of Sconce 8. -/
def segRef : CRef :=
  { handle := 1, vsel := 0, off := 0, ent := { BufEntry.zero with base0 := segLine * 64, r := true, w := true, size := 0x80000 }
    rd := true, wr := true, slot := 0, vid := 0, gen := 0 }

/-- An XCU_VOTE of P0 in that class over one sensor, which the XCU runs; each of its references is to that segment. -/
def farVote : Job :=
  { State.reset.newJob 0 0 (2 ^ 448) 5 .xcuVote with
    tc := farVoteClass, refs := List.replicate 5 segRef, phase := .running, st := .running, total := 1 }

/-- The device of two Lanterns, of which segment 1 of Sconce 8 belongs to P0, runs the vote. -/
def farVoteState : State := { farState with jobs := [farVote] }

/-- The state at the end of the vote's 616 cycles, 154 TCLK edges. -/
def farVoteEnd : State := elapse 154 farVoteState

/-- The vote as it is then executed, and the state after the read of its claims. -/
def farVoteRun : Job := { farVote with since := 154 }
def farClaimsRead : State := farVoteEnd.jobMoves farVoteRun segRef.addr (2880 * farVoteRun.nsens) false

theorem farVoteState_voteEnd : 154 = farVoteState.voteEnd farVote - farVoteState.now := by decide +kernel

theorem farVote_nsens : farVote.nsens = 1 := by decide +kernel

theorem farVoteRun_nsens : farVoteRun.nsens = 1 := farVote_nsens

theorem farVote_egoChk : farVote.egoChk = false := by decide +kernel

theorem farVoteEnd_readsOk : ∀ n ∈ [2880, 2112, 0], farVoteEnd.readsOk 0 segRef.addr n := by
  unfold State.readsOk State.open_
  decide +kernel

theorem farVoteEnd_writesOk : ∀ n ∈ [2112, 2952], farVoteEnd.writesOk 0 segRef.addr n := by
  unfold State.writesOk State.open_
  decide +kernel

/-- The 2,880 bytes counted for the claims make SCN_SEGOWN give the segment to P4. -/
theorem segOwn_farClaimsRead : farClaimsRead.reg (pgScn 8) 0 0x040 = 0xBC0 := by decide +kernel

/-- The vote state in the segment then turns the partition away. -/
theorem denied_farClaimsRead : farClaimsRead.denied 0 segRef.addr 2112 false = some .partitionViolation := by
  have hregion : farClaimsRead.region segRef.addr = .sbuf 8 := by decide +kernel
  have howned : farClaimsRead.rangeOwned 8 0 (segRef.addr % 0x400000 : Nat) 2112 = false := by
    unfold State.rangeOwned State.segOwned
    rw [segOwn_farClaimsRead]
    decide
  rw [State.denied, if_neg (by decide), hregion]
  simp only [howned, Bool.not_false, Bool.true_or, if_true]

/-- The end of the vote fails the job. -/
theorem voteDone_farVoteEnd :
    farVoteEnd.voteDone farVote .ok = farClaimsRead.setJob { farVoteRun with fail := some .partitionViolation } := by
  have hnow : farVoteRun = { farVote with since := farVoteEnd.now } := by decide +kernel
  have hclaims : farVoteEnd.readsOk 0 segRef.addr (2880 * farVoteRun.nsens) := by
    rw [farVoteRun_nsens]
    exact farVoteEnd_readsOk 2880 (by decide)
  have hwait : farClaimsRead.bondWait segRef.addr 2112 = false := by decide +kernel
  exact State.voteDone_of_stateDenied hnow (by decide +kernel) hclaims hwait denied_farClaimsRead

/-- Refutes O40: its clause on XCU_VOTE_DONE holds the job's class to no bound. In class `farVoteClass` the count of the claims read
takes the segment of the vote state from the partition, and a vote all of whose inputs are readable and outputs take the write fails
its job. -/
theorem not_voteFollowsTable6 : ¬ Obligations.VoteFollowsTable6 := by
  intro ⟨_, hdone, _, _, _⟩
  have ha : farVoteState.awake = true := by decide +kernel
  have hj : farVoteState.engineJob .xcu 0 = some farVote := by decide +kernel
  have hlive : farVoteEnd.readsLive farVote = true := by decide +kernel
  have hvote := hdone farVoteState farVote 154 ha hj farVoteState_voteEnd hlive
  rw [farVote_nsens, farVote_egoChk] at hvote
  obtain ⟨t, ht, hunit, -⟩ := hvote (by decide)
    (farVoteEnd_readsOk 2880 (by decide)) (farVoteEnd_readsOk 2112 (by decide)) (farVoteEnd_readsOk 0 (by decide))
    (farVoteEnd_writesOk 2112 (by decide)) (farVoteEnd_writesOk 2952 (by decide))
  have hend : farVoteEnd.voteDone farVote .ok = t :=
    Host.Outcome.next.inj ((exec_xcuVoteDone_of_due .ok ha hj farVoteState_voteEnd).symm.trans ht)
  have hkept : farClaimsRead.job 5 = some farVote := by decide +kernel
  have hfails : t.jobFail 5 = some .partitionViolation := by
    rw [← hend, voteDone_farVoteEnd]
    exact State.jobFail_setJob (j := { farVoteRun with fail := some .partitionViolation }) hkept
  have hpasses : t.jobFail 5 = none := congrArg (Option.bind · Job.fail) hunit
  rw [hfails] at hpasses
  cases hpasses

end Sys2Proof.Machine
end

section
/-!
PROOF. What the reads, the writes and the errors of units can change: registers, memory with its keys and marks, the Regulator's
accounts, outputs and the lines that wait at the Snuffers; neither jobs, nor queues, nor an engine's own state (12 R303, R314;
13 R326, R344; 14 R361; 15 R369).
-/

namespace Sys2Proof.Machine

open Sys2Proof

/-- A change such as units' reads, writes and errors make. -/
def State.onlyWritten (s t : State) : Prop :=
  ∃ r g m k p o q a b, t = { s with
    regs := r, rgl := g, mem := m, lineKeys := k, poison := p, out := o, msixPend := q, snA := a, snB := b }

theorem State.onlyWritten_refl (s : State) : s.onlyWritten s :=
  ⟨s.regs, s.rgl, s.mem, s.lineKeys, s.poison, s.out, s.msixPend, s.snA, s.snB, rfl⟩

theorem State.onlyWritten_trans {s t u : State} (h : s.onlyWritten t) (h' : t.onlyWritten u) : s.onlyWritten u := by
  obtain ⟨_, _, _, _, _, _, _, _, _, rfl⟩ := h
  obtain ⟨r, g, m, k, p, o, q, a, b, rfl⟩ := h'
  exact ⟨r, g, m, k, p, o, q, a, b, rfl⟩

/-- Operations that make such a change make one in a row. -/
theorem State.foldl_onlyWritten {α : Type} {f : State → α → State} (hf : ∀ (t : State) x, t.onlyWritten (f t x)) (l : List α)
    (s : State) : s.onlyWritten (l.foldl f s) :=
  List.foldlRecOn l f (motive := s.onlyWritten) s.onlyWritten_refl fun _ ht x _ => State.onlyWritten_trans ht (hf _ x)

section
variable {s t : State} (h : s.onlyWritten t)
include h

theorem State.onlyWritten.ccu : t.ccu = s.ccu := by
  obtain ⟨_, _, _, _, _, _, _, _, _, rfl⟩ := h; rfl

theorem State.onlyWritten.jobs : t.jobs = s.jobs := by
  obtain ⟨_, _, _, _, _, _, _, _, _, rfl⟩ := h; rfl

theorem State.onlyWritten.job (tag : Nat) : t.job tag = s.job tag := by
  unfold State.job
  rw [h.jobs]

theorem State.onlyWritten.queues : t.queues = s.queues := by
  obtain ⟨_, _, _, _, _, _, _, _, _, rfl⟩ := h; rfl

theorem State.onlyWritten.cfg : t.cfg = s.cfg := by
  obtain ⟨_, _, _, _, _, _, _, _, _, rfl⟩ := h; rfl

theorem State.onlyWritten.cand (tag i : Nat) : t.cand tag i = s.cand tag i := by
  unfold State.cand
  rw [h.ccu]

end

/-! ## The operations that make such a change -/

theorem State.setReg_onlyWritten (s : State) (page idx off : Nat) (v : Word32) : s.onlyWritten (s.setReg page idx off v) :=
  ⟨_, s.rgl, s.mem, s.lineKeys, s.poison, s.out, s.msixPend, s.snA, s.snB, rfl⟩

theorem State.captureLine_onlyWritten (s : State) (page : Nat) (e : Err) (addr line : Nat) :
    s.onlyWritten (s.captureLine page e addr line) := by
  obtain ⟨r, o, q, a, b, h⟩ := s.captureLine_shape page e addr line
  exact ⟨r, s.rgl, s.mem, s.lineKeys, s.poison, o, q, a, b, h⟩

theorem State.capture_onlyWritten (s : State) (page : Nat) (e : Err) (addr : Nat) : s.onlyWritten (s.capture page e addr) := by
  obtain ⟨r, o, q, h⟩ := s.capture_shape page e addr
  exact ⟨r, s.rgl, s.mem, s.lineKeys, s.poison, o, q, s.snA, s.snB, h⟩

theorem State.store_onlyWritten (s : State) (a : Nat) (bs : List Byte) : s.onlyWritten (s.store a bs) := by
  obtain ⟨p, h⟩ := s.store_shape a bs
  exact ⟨s.regs, s.rgl, _, s.lineKeys, p, s.out, s.msixPend, s.snA, s.snB, h⟩

theorem State.onlyMoved.onlyWritten {s t : State} (h : s.onlyMoved t) : s.onlyWritten t := by
  obtain ⟨r, g, m, k, rfl, _⟩ := h
  exact ⟨r, g, m, k, s.poison, s.out, s.msixPend, s.snA, s.snB, rfl⟩

theorem State.serveDdr_onlyWritten (s : State) (port tc p n : Nat) (write : Bool) :
    s.onlyWritten (s.serveDdr port tc p n write) := by
  unfold State.serveDdr
  dsimp only
  split
  · exact ⟨_, _, s.mem, s.lineKeys, s.poison, s.out, s.msixPend, s.snA, s.snB, rfl⟩
  · exact ⟨s.regs, _, s.mem, s.lineKeys, s.poison, s.out, s.msixPend, s.snA, s.snB, rfl⟩

/-- Traffic of any port and class. -/
theorem State.traffic_onlyWritten (s : State) (m : Option Master) (port tc p a n : Nat) (write : Bool) :
    s.onlyWritten (s.traffic m port tc p a n write) := by
  unfold State.traffic
  split
  · exact s.onlyWritten_refl
  · dsimp only
    generalize (if write then 0x048 else 0x040) + 0x20 * tc = off
    have h : s.onlyWritten ((s.keyed m a n).setCtr64 (pgPort port) off (s.ctr64 (pgPort port) off + n)) :=
      State.onlyWritten_trans (s.onlyMoved_keyed m a n).onlyWritten
        (State.onlyWritten_trans (State.setReg_onlyWritten _ _ _ _ _) (State.setReg_onlyWritten _ _ _ _ _))
    split
    · exact State.onlyWritten_trans h (State.serveDdr_onlyWritten _ _ _ _ _ _)
    · exact h

theorem State.mapAccess_onlyWritten (s : State) (a n : Nat) : s.onlyWritten (s.mapAccess a n) := by
  unfold State.mapAccess
  split
  · exact s.captureLine_onlyWritten _ _ _ _
  · exact s.onlyWritten_refl

theorem State.storeLine_onlyWritten (s : State) (a : Nat) (bs : List Byte) : s.onlyWritten (s.storeLine a bs) := by
  unfold State.storeLine
  split
  · split
    · exact s.setReg_onlyWritten _ _ _ _
    · split
      · exact s.setReg_onlyWritten _ _ _ _
      · exact s.onlyWritten_refl
    · exact s.onlyWritten_refl
  · exact s.store_onlyWritten a bs

theorem State.storeLines_onlyWritten (fuel : Nat) (s : State) (a : Nat) (bs : List Byte) :
    s.onlyWritten (s.storeLines fuel a bs) := by
  induction fuel generalizing s a bs with
  | zero => exact s.onlyWritten_refl
  | succ f ih =>
    unfold State.storeLines
    split
    · exact s.onlyWritten_refl
    · exact State.onlyWritten_trans (s.storeLine_onlyWritten _ _) (ih _ _ _)

theorem State.storePlain_onlyWritten (s : State) (a : Nat) (bs : List Byte) : s.onlyWritten (s.storePlain a bs) := by
  unfold State.storePlain
  split
  · exact s.mapAccess_onlyWritten _ _
  · split
    · exact s.store_onlyWritten a bs
    · exact State.storeLines_onlyWritten _ s a bs

theorem State.mergeMarks_onlyWritten (s : State) (a n : Nat) : s.onlyWritten (s.mergeMarks a n) := by
  unfold State.mergeMarks
  split
  · exact s.onlyWritten_refl
  · refine State.foldl_onlyWritten (fun t l => ?_) _ s
    split
    · exact t.capture_onlyWritten _ _ _
    · exact t.onlyWritten_refl

theorem State.storeAt_onlyWritten (s : State) (a : Nat) (bs : List Byte) : s.onlyWritten (s.storeAt a bs) :=
  State.onlyWritten_trans (s.storePlain_onlyWritten a bs) (State.mergeMarks_onlyWritten _ _ _)

/-! ## The registers a write can change -/

/-- Registers of bank 0 at different offsets have different keys, whatever their pages. -/
theorem regKey_ne_of_offset {p p' o o' : Nat} (h : o ≠ o') (ho : o < 4096) (ho' : o' < 4096) : regKey p 0 o ≠ regKey p' 0 o' := by
  unfold regKey; omega

/-- The offsets of the registers that a write can change: those of an error's capture, and the counters of the writes that an offline
rank (14 R361) and a mapped-out bank (15 R369) discard. -/
def writeOffs : List Nat :=
  [0x018, 0x024, 0x028, 0x02C, Reg.DMC_OFFLINE_WR_COUNT.off, Reg.RSV_WR_DISCARD_COUNT.off]

section
variable {o : Nat} (h : o ∉ writeOffs) (ho : o < 4096)
include h ho

theorem State.reg_capture_of_offset (s : State) (page : Nat) (e : Err) (addr p : Nat) :
    (s.capture page e addr).reg p 0 o = s.reg p 0 o := by
  simp only [writeOffs, List.mem_cons, not_or] at h
  obtain ⟨h1, h2, h3, h4, -⟩ := h
  refine s.reg_capture_other page e addr ?_
  simp only [List.mem_cons, List.not_mem_nil, or_false, not_or]
  exact ⟨regKey_ne_of_offset h1 ho (by decide), regKey_ne_of_offset h2 ho (by decide), regKey_ne_of_offset h3 ho (by decide),
    regKey_ne_of_offset h4 ho (by decide)⟩

theorem State.reg_mapAccess_of_offset (s : State) (a n p : Nat) : (s.mapAccess a n).reg p 0 o = s.reg p 0 o := by
  unfold State.mapAccess
  split
  · rw [State.captureLine, State.reg_pulse, State.reg_capture_of_offset h ho]
  · rfl

theorem State.reg_storeLine_of_offset (s : State) (a p : Nat) (bs : List Byte) : (s.storeLine a bs).reg p 0 o = s.reg p 0 o := by
  have hcount : ∀ (f : Fld) (page n : Nat), f.off ∈ writeOffs → f.off < 4096 → (s.fadd page f n).reg p 0 o = s.reg p 0 o :=
    fun f _ _ hf hlt => s.reg_fset_other f _ (regKey_ne_of_offset (fun hfo => h (hfo ▸ hf)) hlt ho)
  unfold State.storeLine
  split
  · split
    · exact hcount _ _ _ (by decide) (by decide)
    · split
      · exact hcount _ _ _ (by decide) (by decide)
      · rfl
    · rfl
  · rfl

theorem State.reg_storeLines_of_offset (fuel : Nat) (s : State) (a p : Nat) (bs : List Byte) :
    (s.storeLines fuel a bs).reg p 0 o = s.reg p 0 o := by
  induction fuel generalizing s a bs with
  | zero => rfl
  | succ f ih =>
    unfold State.storeLines
    split
    · rfl
    · rw [ih, State.reg_storeLine_of_offset h ho]

/-- A write leaves every register of bank 0 at another offset. -/
theorem State.reg_storeAt_of_offset (s : State) (a p : Nat) (bs : List Byte) : (s.storeAt a bs).reg p 0 o = s.reg p 0 o := by
  have hplain : (s.storePlain a bs).reg p 0 o = s.reg p 0 o := by
    unfold State.storePlain
    split
    · exact State.reg_mapAccess_of_offset h ho _ _ _ _
    · split
      · rfl
      · exact State.reg_storeLines_of_offset h ho _ _ _ _ _
  rw [State.storeAt, ← hplain, State.mergeMarks]
  split
  · rfl
  · refine List.foldlRecOn _ _ (motive := fun t : State => t.reg p 0 o = (s.storePlain a bs).reg p 0 o) rfl fun t ht l _ => ?_
    split
    · rw [State.reg_capture_of_offset h ho, ht]
    · exact ht

end

end Sys2Proof.Machine
end

section
/-!
PROOF. The publication of a map: which record wins, what MAP_PUBLISH reads and begins, and what PUBLISH_COMPLETE makes newest
(10 R244 to R250).
-/

namespace Sys2Proof.Machine

open Sys2Proof

/-! ## The records that win (10 R248) -/

theorem updWinners_cons_of_named {r : Nat} {rs : List Nat} (h : updBlock r ∈ (updWinners rs).map (·.1)) :
    updWinners (r :: rs) = updWinners rs := by
  obtain ⟨p, hp, hr⟩ := List.mem_map.1 h
  exact if_pos (List.any_eq_true.2 ⟨p, hp, by simpa using hr⟩)

theorem updWinners_cons_of_new {r : Nat} {rs : List Nat} (h : updBlock r ∉ (updWinners rs).map (·.1)) :
    updWinners (r :: rs) = (updBlock r, r) :: updWinners rs := by
  refine if_neg fun hany => ?_
  obtain ⟨p, hp, hr⟩ := List.any_eq_true.1 hany
  exact h (List.mem_map.2 ⟨p, hp, beq_iff_eq.1 hr⟩)

/-- A winner is a record of the list, under the block it names. -/
theorem mem_of_mem_updWinners {rs : List Nat} {p : Nat × Nat} (h : p ∈ updWinners rs) : p.2 ∈ rs ∧ p.1 = updBlock p.2 := by
  induction rs with
  | nil => cases h
  | cons r rs ih =>
    by_cases hn : updBlock r ∈ (updWinners rs).map (·.1)
    · rw [updWinners_cons_of_named hn] at h
      exact (ih h).imp_left (List.mem_cons_of_mem r)
    · rw [updWinners_cons_of_new hn] at h
      obtain rfl | h := List.mem_cons.1 h
      · exact ⟨List.mem_cons_self, rfl⟩
      · exact (ih h).imp_left (List.mem_cons_of_mem r)

/-- Each block that a record names has a winner. -/
theorem block_mem_updWinners {rs : List Nat} {r : Nat} (h : r ∈ rs) : updBlock r ∈ (updWinners rs).map (·.1) := by
  induction rs with
  | nil => cases h
  | cons x rs ih =>
    by_cases hn : updBlock x ∈ (updWinners rs).map (·.1)
    · rw [updWinners_cons_of_named hn]
      obtain rfl | h := List.mem_cons.1 h
      · exact hn
      · exact ih h
    · rw [updWinners_cons_of_new hn, List.map_cons, List.mem_cons]
      exact (List.mem_cons.1 h).imp (congrArg updBlock) ih

theorem updWinners_nodup (rs : List Nat) : ((updWinners rs).map (·.1)).Nodup := by
  induction rs with
  | nil => exact List.nodup_nil
  | cons r rs ih =>
    by_cases hn : updBlock r ∈ (updWinners rs).map (·.1)
    · rwa [updWinners_cons_of_named hn]
    · rw [updWinners_cons_of_new hn]
      exact List.nodup_cons.2 ⟨hn, ih⟩

/-! ## MAP_PUBLISH (10 R249) -/

theorem State.onlyMoved.readsOk {s t : State} (h : s.onlyMoved t) {p a n : Nat} (hr : s.readsOk p a n) : t.readsOk p a n :=
  ⟨h.open_ hr.1, (h.readRes_ok a n).trans hr.2⟩

/-- In native mode traffic changes no memory. -/
theorem State.onlyMoved.mem_of_native {s t : State} (h : s.onlyMoved t) (hc : s.cfg.cormer = false) : t.mem = s.mem := by
  obtain ⟨_, _, _, _, rfl, -, hm⟩ := h
  exact (hm hc).1

/-- The map writer reaches memory through the CCU's port. -/
theorem Job.port_of_mapPublish {j : Job} (ho : j.opc = .mapPublish) : j.port = 10 := by
  simp only [Job.port, ho]

/-- Reads of a unit without an error pass the port in their order. -/
theorem State.unitReads_of_readsOk {s : State} {j : Job} (hp : j.port < 32) (ht : j.tc < 8) (ok : State → State)
    {rs : List (Nat × Nat)} (h : ∀ r ∈ rs, s.readsOk j.part r.1 r.2) :
    s.unitReads j .ok ok rs = ok (rs.foldl (fun t r => t.jobMoves j r.1 r.2 false) s) := by
  induction rs generalizing s with
  | nil => rfl
  | cons r rs ih =>
    obtain ⟨hr, hrs⟩ := List.forall_mem_cons.1 h
    have hm := s.jobMoves_onlyMoved hp ht r.1 r.2 false
    rw [State.unitReads, unitRead_of_readsOk _ _ _ _ _ hr, ih fun x hx => hm.readsOk (hrs x hx), List.foldl_cons]

/-- What the map writer does with the update list once it has read it. -/
def State.listRead (s : State) (j : Job) (chk : ReadCheck) : State :=
  match s.pubFault j (s.updRecs j) with
  | some e =>
    ((if e = .countExceedsLimit then s.fadd pgCCU Reg.CCU_PUB_FAIL_COUNT 1 else s).captureLine pgCCU e 0 137).setJob
      { j with fail := some e }
  | none =>
    s.unitReads j chk (fun u => u.pubBuild j (updWinners (s.updRecs j))) (imgRanges j (updWinners (s.updRecs j)))

/-- A publication taken while no check holds the older table reads its list and goes on with it. -/
theorem exec_mapPublish_of_taken {s : State} {tag : Nat} {j : Job} (ha : s.awake = true) (hj : s.job tag = some j)
    (ho : j.opc = .mapPublish) (hf : j.fail = none) (hp : s.ccu.pub = none) (hph : j.phase = .taken) (hh : s.oldHeld = false)
    (hl : s.readsLive j = true) (hr : s.readsOk j.part (j.ref 0).addr (8 * j.nupd)) :
    exec (.mapPublish tag .ok) s =
      .next (((s.setJob (j.begin_ 1)).jobMoves (j.begin_ 1) (j.ref 0).addr (8 * j.nupd) false).listRead (j.begin_ 1) .ok) := by
  have hl : s.readsLive (j.begin_ 1) = true := hl
  have hr : (s.setJob (j.begin_ 1)).readsOk (j.begin_ 1).part (j.ref 0).addr (8 * j.nupd) := hr
  refine (onAwake_of_due _ ha rfl).trans ?_
  simp only [State.withJob, hj, ho, hf, hp, hph, true_and, true_or, if_true, State.publish, hh, hl, Bool.not_true, Bool.false_eq_true,
    if_false]
  exact congrArg _ (unitRead_of_readsOk _ _ _ _ _ hr)

/-- A list with a fault fails the job. -/
theorem State.listRead_of_fault {s : State} {j : Job} {e : Err} (chk : ReadCheck) (h : s.pubFault j (s.updRecs j) = some e) :
    s.listRead j chk =
      ((if e = .countExceedsLimit then s.fadd pgCCU Reg.CCU_PUB_FAIL_COUNT 1 else s).captureLine pgCCU e 0 137).setJob
        { j with fail := some e } := by
  simp only [State.listRead, h]

/-- A list free of a fault whose images can be read begins the publication. -/
theorem State.listRead_of_good {s : State} {j : Job} (hp : j.port < 32) (ht : j.tc < 8) (h : s.pubFault j (s.updRecs j) = none)
    (hr : ∀ r ∈ imgRanges j (updWinners (s.updRecs j)), s.readsOk j.part r.1 r.2) :
    s.listRead j .ok = ((imgRanges j (updWinners (s.updRecs j))).foldl (fun t r => t.jobMoves j r.1 r.2 false) s).pubBuild j
      (updWinners (s.updRecs j)) := by
  simp only [State.listRead, h]
  exact State.unitReads_of_readsOk hp ht _ hr

/-- The counts of slots leave the other registers, the map epoch among them. -/
theorem State.mapRegs_mepoch (s : State) : s.mapRegs.mepoch = s.mepoch := by
  unfold State.mapRegs State.mepoch
  rw [State.reg_fset_other _ _ _ (regKey_ne_of_off (by decide)), State.reg_fset_other _ _ _ (regKey_ne_of_off (by decide))]

/-! ## The tables (10 R242, R250) -/

theorem tabGet_tabSet_same (t : List (Nat × Nat)) (k e : Nat) : tabGet (tabSet t k e) k = e := by
  unfold tabGet tabSet
  split
  · next h => rw [h]; exact aget_not_mem _ _ _ fun c hc => by simpa using (List.mem_filter.1 hc).2
  · exact aget_aset_same _ _ _ _

theorem tabGet_tabSet_other (t : List (Nat × Nat)) {k b : Nat} (e : Nat) (h : b ≠ k) : tabGet (tabSet t k e) b = tabGet t b := by
  unfold tabGet tabSet
  split
  · rw [aget_filter _ fun x => x != k, if_pos (bne_iff_ne.2 h)]
  · exact aget_aset_other _ _ _ _ _ h.symm

/-- The tables and images after the records `w`, begun from `a`. -/
def State.applyFrom (s : State) (j : Job) (w : List (Nat × Nat)) (a : List (Nat × Nat) × Ccu) : List (Nat × Nat) × Ccu :=
  w.foldl (fun a p => s.applyUpd j a.1 a.2 p) a

/-- A record replaces the entry of its block. -/
theorem State.applyUpd_table (s : State) (j : Job) (t : List (Nat × Nat)) (c : Ccu) (p : Nat × Nat) :
    ∃ e, (s.applyUpd j t c p).1 = tabSet t p.1 e ∧ (updUniform p.2 = true → e = updState p.2 * 2 ^ 14) := by
  unfold State.applyUpd
  split
  · exact ⟨_, rfl, fun _ => rfl⟩
  · next h => exact ⟨_, rfl, fun hu => absurd hu h⟩

/-- A record changes no more of the CCU than the images. -/
theorem State.applyUpd_ccu (s : State) (j : Job) (t : List (Nat × Nat)) (c : Ccu) (p : Nat × Nat) :
    ∃ m b, (s.applyUpd j t c p).2 = { c with sram := m, bad := b } := by
  unfold State.applyUpd
  split
  · exact ⟨c.sram, c.bad, rfl⟩
  · exact ⟨_, _, rfl⟩

/-- The entry of a block that no record names stays. -/
theorem State.applyFrom_other (s : State) (j : Job) {w : List (Nat × Nat)} {b : Nat} (h : b ∉ w.map (·.1))
    (a : List (Nat × Nat) × Ccu) : tabGet (s.applyFrom j w a).1 b = tabGet a.1 b := by
  induction w generalizing a with
  | nil => rfl
  | cons p w ih =>
    rw [List.map_cons, List.mem_cons, not_or] at h
    obtain ⟨hp, hw⟩ := h
    obtain ⟨e, he, -⟩ := s.applyUpd_table j a.1 a.2 p
    exact (ih hw _).trans (by rw [he, tabGet_tabSet_other _ _ hp])

/-- The entry of a block with a uniform record holds that state, without a slot. -/
theorem State.applyFrom_uniform (s : State) (j : Job) {w : List (Nat × Nat)} {q : Nat × Nat} (hn : (w.map (·.1)).Nodup)
    (hq : q ∈ w) (hu : updUniform q.2 = true) (a : List (Nat × Nat) × Ccu) : tabGet (s.applyFrom j w a).1 q.1 = updState q.2 * 2 ^ 14 := by
  induction w generalizing a with
  | nil => cases hq
  | cons p w ih =>
    obtain ⟨hp, hn⟩ := List.nodup_cons.1 hn
    obtain rfl | hq := List.mem_cons.1 hq
    · obtain ⟨e, he, hue⟩ := s.applyUpd_table j a.1 a.2 q
      exact (s.applyFrom_other j hp _).trans (by rw [he, tabGet_tabSet_same, hue hu])
    · exact ih hn hq _

theorem State.applyFrom_ccu (s : State) (j : Job) (w : List (Nat × Nat)) (a : List (Nat × Nat) × Ccu) :
    ∃ m b, (s.applyFrom j w a).2 = { a.2 with sram := m, bad := b } := by
  induction w generalizing a with
  | nil => exact ⟨a.2.sram, a.2.bad, rfl⟩
  | cons p w ih =>
    obtain ⟨m, b, h⟩ := s.applyUpd_ccu j a.1 a.2 p
    obtain ⟨m', b', h'⟩ := ih (s.applyUpd j a.1 a.2 p)
    exact ⟨m', b', h'.trans (by rw [h])⟩

/-! ## PUBLISH_COMPLETE (10 R245, R247, R250) -/

/-- The CCU with the next epoch as the newest. -/
def State.newCcu (s : State) (j : Job) (w : List (Nat × Nat)) : Ccu :=
  let a := s.applyFrom j w (s.ccu.newTab, s.ccu)
  { a.2 with
    newTab := a.1, oldTab := some s.ccu.newTab, pub := none, masks := ((s.mepoch + 1, pubMask j w) :: a.2.masks).take 8
    orgX := if j.origin then BitVec.ofNat 32 (df j.desc 6 31 0) else a.2.orgX
    orgY := if j.origin then BitVec.ofNat 32 (df j.desc 6 63 32) else a.2.orgY
    orgZ := if j.origin then BitVec.ofNat 32 (df j.desc 7 31 0) else a.2.orgZ }

theorem State.newEpoch_eq (s : State) (j : Job) (w : List (Nat × Nat)) :
    s.newEpoch j w = ({ s with ccu := s.newCcu j w }.setReg pgCCU 0 0x044 (s.mepoch + 1)).mapRegs := rfl

theorem State.newEpoch_mepoch (s : State) (j : Job) (w : List (Nat × Nat)) : (s.newEpoch j w).mepoch = s.mepoch + 1 := by
  rw [State.newEpoch_eq, State.mapRegs_mepoch]
  exact State.reg_setReg_same _ _ _ _ _

/-- Revalidation changes the candidates alone. -/
theorem State.revalidate_shape (s : State) : ∃ cs, s.revalidate = { s with ccu := { s.ccu with cands := cs } } := by
  unfold State.revalidate
  split
  · exact ⟨s.ccu.cands, rfl⟩
  · exact ⟨_, rfl⟩

theorem State.length_pubRecord (s : State) (j : Job) (mask : Nat) : (s.pubRecord j mask).length = 2112 := by
  simp only [State.pubRecord, List.length_append, length_toLE, List.length_replicate]

/-- The state in which the next epoch is the newest and its record written. -/
def State.published (s : State) (j : Job) (w : List (Nat × Nat)) : State :=
  (((s.newEpoch j w).storeAt (j.ref 2).addr ((s.newEpoch j w).pubRecord j (pubMask j w))).setJob (j.unitDone 1)).revalidate

/-- A publication whose record its place takes completes. -/
theorem exec_publishComplete_of_writesOk {s : State} {p : PubWork} {j : Job} (ha : s.awake = true) (hp : s.ccu.pub = some p)
    (hj : s.job p.tag = some j) (hl : s.readsLive j = true) (hw : s.writesOk j.part (j.ref 2).addr 2112) :
    exec .publishComplete s = .next ((s.jobMoves j (j.ref 2).addr 2112 true).published j p.recs) := by
  refine (onAwake_of_due _ ha rfl).trans ?_
  simp only [hp, hj, hl, Bool.not_true, Bool.false_eq_true, if_false, State.pubWrite, hw.1.2.1]
  exact congrArg _ (unitWrite_of_writesOk _ _ _ _ _ hw)

/-- The record's bytes apart, a completed publication is the state of the new epoch with the unit done; revalidation may change the
candidates. -/
theorem State.published_shape (s : State) (j : Job) (w : List (Nat × Nat)) :
    ∃ v cs, (s.newEpoch j w).onlyWritten v ∧ v.mepoch = s.mepoch + 1 ∧
      (∀ a, ¬ ((j.ref 2).addr ≤ a ∧ a < (j.ref 2).addr + 2112) → readByte v.mem a = readByte s.mem a) ∧
      s.published j w = { v.setJob (j.unitDone 1) with ccu := { s.newCcu j w with cands := cs } } := by
  have hv := (s.newEpoch j w).storeAt_onlyWritten (j.ref 2).addr ((s.newEpoch j w).pubRecord j (pubMask j w))
  have hep : ((s.newEpoch j w).storeAt (j.ref 2).addr ((s.newEpoch j w).pubRecord j (pubMask j w))).mepoch = s.mepoch + 1 :=
    (State.reg_storeAt_of_offset (by decide) (by decide) _ _ _ _).trans (s.newEpoch_mepoch j w)
  have hmem : ∀ a, ¬ ((j.ref 2).addr ≤ a ∧ a < (j.ref 2).addr + 2112) →
      readByte ((s.newEpoch j w).storeAt (j.ref 2).addr ((s.newEpoch j w).pubRecord j (pubMask j w))).mem a = readByte s.mem a :=
    fun a h => readByte_storeAt_of_outside (s.newEpoch j w) (by rwa [State.length_pubRecord])
  rw [State.published]
  generalize (s.newEpoch j w).storeAt (j.ref 2).addr ((s.newEpoch j w).pubRecord j (pubMask j w)) = v at hv hep hmem
  obtain ⟨cs, hc⟩ := (v.setJob (j.unitDone 1)).revalidate_shape
  have hccu : (v.setJob (j.unitDone 1)).ccu = s.newCcu j w := hv.ccu
  rw [hccu] at hc
  exact ⟨v, cs, hv, hep, hmem, hc⟩

/-- The CCU of the new epoch, whose epoch and tables are the state's but for what the publication says. -/
theorem State.newCcu_spec (s : State) (j : Job) {w : List (Nat × Nat)} (hn : (w.map (·.1)).Nodup) :
    (s.newCcu j w).masks = ((s.mepoch + 1, pubMask j w) :: s.ccu.masks).take 8 ∧
      (j.origin = true → (s.newCcu j w).orgX = BitVec.ofNat 32 (df j.desc 6 31 0) ∧
        (s.newCcu j w).orgY = BitVec.ofNat 32 (df j.desc 6 63 32) ∧ (s.newCcu j w).orgZ = BitVec.ofNat 32 (df j.desc 7 31 0)) ∧
      (j.origin = false → (s.newCcu j w).orgX = s.ccu.orgX ∧ (s.newCcu j w).orgY = s.ccu.orgY ∧
        (s.newCcu j w).orgZ = s.ccu.orgZ) ∧
      (∀ q ∈ w, updUniform q.2 = true → tabGet (s.newCcu j w).newTab q.1 = updState q.2 * 2 ^ 14) ∧
      (∀ b, b ∉ w.map (·.1) → tabGet (s.newCcu j w).newTab b = tabGet s.ccu.newTab b) := by
  obtain ⟨m, b, hc⟩ := s.applyFrom_ccu j w (s.ccu.newTab, s.ccu)
  have huni := fun q hq hu => s.applyFrom_uniform j hn (q := q) hq hu (s.ccu.newTab, s.ccu)
  have hother := fun b hb => s.applyFrom_other j (w := w) (b := b) hb (s.ccu.newTab, s.ccu)
  unfold State.newCcu
  generalize s.applyFrom j w (s.ccu.newTab, s.ccu) = a at hc huni hother
  obtain ⟨t, c⟩ := a
  obtain rfl : c = { s.ccu with sram := m, bad := b } := hc
  refine ⟨rfl, fun ho => ?_, fun ho => ?_, huni, hother⟩
  · simp only [ho, if_true, and_self]
  · simp only [ho, Bool.false_eq_true, if_false, and_self]

/-- Settles O41: the list is read in the state in which the job has begun; the record of the completed publication is written in the
state in which its epoch is the newest. -/
theorem publicationMakesNewestEpoch : Obligations.PublicationMakesNewestEpoch := by
  refine ⟨?begins, fun s j w => ⟨rfl, rfl, rfl, State.mapRegs_mepoch _, rfl, rfl, rfl, rfl⟩,
    fun rs => ⟨updWinners_nodup rs, fun r hr => block_mem_updWinners hr, fun p hp => mem_of_mem_updWinners hp, ?lastWins⟩,
    ?completes⟩
  case begins =>
    intro s tag j ha hj ho hf hp hph hh hl hr ht k u recs
    have hk : k.port < 32 := by
      rw [Job.port_of_mapPublish (j := k) ho]; decide
    have hu : (s.setJob k).onlyMoved u := State.jobMoves_onlyMoved _ hk ht _ _ _
    rw [exec_mapPublish_of_taken ha hj ho hf hp hph hh hl hr]
    refine ⟨hu, fun hgood himg => ?_, fun e he => congrArg _ (State.listRead_of_fault .ok he)⟩
    exact ⟨congrArg _ (State.listRead_of_good hk ht hgood fun r hr => hu.readsOk (himg r hr)),
      State.onlyMoved_trans hu (u.foldl_jobMoves_onlyMoved hk ht _)⟩
  case lastWins =>
    rintro r rest rfl hr
    obtain ⟨x, hx, hxr⟩ := List.mem_map.1 hr
    exact updWinners_cons_of_named (hxr ▸ block_mem_updWinners hx)
  case completes =>
    intro s p j ha hp hj hl hn hw ho ht
    have htag : j.tag = p.tag := State.tag_of_job hj
    have hm : s.onlyMoved (s.jobMoves j (j.ref 2).addr 2112 true) :=
      s.jobMoves_onlyMoved (by rw [Job.port_of_mapPublish ho]; decide) ht _ _ _
    refine ⟨_, exec_publishComplete_of_writesOk ha hp hj hl hw, ?_⟩
    generalize s.jobMoves j (j.ref 2).addr 2112 true = u at hm
    have hccu : u.ccu = s.ccu := hm.onlyWritten.ccu
    have hep : u.mepoch = s.mepoch := hm.reg (by decide) (by decide) (by decide)
    obtain ⟨hmasks, horg, horg', huni, hother⟩ := u.newCcu_spec j hn
    obtain ⟨v, cs, hv, hvep, hmem, hpub⟩ := u.published_shape j p.recs
    rw [hccu, hep] at hmasks
    rw [hccu] at horg' hother
    have hjob : v.job j.tag = some j := (hv.job j.tag).trans ((hm.onlyWritten.job j.tag).trans (htag ▸ hj))
    rw [hpub, ← htag]
    refine ⟨hvep.trans (by rw [hep]), rfl, congrArg (fun c : Ccu => some c.newTab) hccu, State.job_setJob (j := j.unitDone 1) hjob,
      hv.queues.trans hm.onlyWritten.queues, hmasks, horg, horg', huni, hother, fun hc a hout => ?_⟩
    exact (hmem a hout).trans (congrArg (readByte · a) (hm.mem_of_native hc))

end Sys2Proof.Machine
end

section
/-!
PROOF. When a collision verdict is current: the masks of the epochs since its own, held once each, miss the blocks it touched
(10 R262).
-/

namespace Sys2Proof.Machine

open Sys2Proof

/-- In a list whose keys differ, an element is the first with its key. -/
theorem find_key_of_mem {α : Type} {l : List (Word32 × α)} (hn : (l.map (·.1)).Nodup) {p : Word32 × α} (hp : p ∈ l) :
    l.find? (fun q => q.1 == p.1) = some p := by
  induction l with
  | nil => cases hp
  | cons q l ih =>
    obtain ⟨hq, hn⟩ := List.nodup_cons.1 hn
    obtain rfl | hp := List.mem_cons.1 hp
    · simp
    · have hne : q.1 ≠ p.1 := fun h => hq (List.mem_map.2 ⟨p, hp, h.symm⟩)
      rw [List.find?_cons_of_neg (by simpa using hne), ih hn hp]

/-- The epoch `i + 1` after `e`, by its distance from `e`. -/
theorem epoch_eq_iff {e x : Word32} {i : Nat} (hi : i < 8) : x = e + 1 + BitVec.ofNat 32 i ↔ (x - e).toNat = i + 1 := by
  have h1 : (1 + BitVec.ofNat 32 i : Word32).toNat = i + 1 := by
    rw [BitVec.toNat_add, BitVec.toNat_ofNat]
    change (1 + i % 2 ^ 32) % 2 ^ 32 = i + 1
    omega
  constructor
  · rintro rfl
    rw [BitVec.add_assoc, BitVec.add_comm, BitVec.add_sub_cancel, h1]
  · intro h
    have : x - e = 1 + BitVec.ofNat 32 i := BitVec.eq_of_toNat_eq (h.trans h1.symm)
    rw [BitVec.add_assoc, ← this, BitVec.add_comm, BitVec.sub_add_cancel]

/-- Whether the mask of each of the `d` epochs after `e` misses the blocks `touch`, as a verdict is judged by it. -/
def missesMasks (masks : List (Word32 × Nat)) (e : Word32) (touch : List Nat) (d : Nat) : Bool :=
  (List.range d).all fun i =>
    match masks.find? fun m => m.1 == e + 1 + BitVec.ofNat 32 i with
    | some m => touch.all fun k => !m.2.testBit k
    | none => false

/-- With the masks of the `d` epochs after `e` held once each, the test of the masks one by one is a statement about the held masks. -/
theorem missesMasks_iff {masks : List (Word32 × Nat)} {e : Word32} {touch : List Nat} {d : Nat} (hd : d ≤ 8)
    (hn : (masks.map (·.1)).Nodup) (hheld : ∀ i, i < d → ∃ m, (e + 1 + BitVec.ofNat 32 i, m) ∈ masks) :
    missesMasks masks e touch d = true ↔ ∀ m ∈ masks, 1 ≤ (m.1 - e).toNat → (m.1 - e).toNat ≤ d →
      ∀ k ∈ touch, m.2.testBit k = false := by
  unfold missesMasks
  rw [List.all_eq_true]
  constructor
  · intro h m hm h1 h2 k hk
    obtain ⟨i, hi⟩ : ∃ i, (m.1 - e).toNat = i + 1 := ⟨(m.1 - e).toNat - 1, by omega⟩
    have hfirst := find_key_of_mem hn hm
    rw [(epoch_eq_iff (by omega)).2 hi] at hfirst
    have := h i (List.mem_range.2 (by omega))
    rw [hfirst] at this
    simpa using List.all_eq_true.1 this k hk
  · intro h i hi
    have hi := List.mem_range.1 hi
    obtain ⟨m, hm⟩ := hheld i hi
    have hdist := (epoch_eq_iff (e := e) (i := i) (by omega)).1 rfl
    rw [find_key_of_mem hn hm, List.all_eq_true]
    intro k hk
    rw [h _ hm (by rw [hdist]; omega) (by rw [hdist]; omega) k hk]
    rfl

/-- Settles O42: a verdict no epoch old is current; one up to 8 epochs old is judged by the held masks of the epochs since. -/
theorem verdictIsCurrent : Obligations.VerdictIsCurrent := by
  intro s c d hheld hn
  have hzero : d = 0 ↔ c.mepoch = s.mepoch := by
    have h : d = 0 ↔ s.mepoch - c.mepoch = 0#32 := BitVec.toNat_inj (y := 0#32)
    rw [h, BitVec.sub_eq_iff_eq_add, BitVec.zero_add, eq_comm]
  have hcur : s.current c = (d == 0 || (decide (d ≤ 8) && !c.res.overflow && missesMasks s.ccu.masks c.mepoch c.res.touch d)) := rfl
  rw [hcur]
  clear_value d
  rw [Bool.or_eq_true, beq_iff_eq, Bool.and_eq_true, Bool.and_eq_true, decide_eq_true_iff, Bool.not_eq_true', ← hzero]
  by_cases hd : d ≤ 8
  · rw [missesMasks_iff hd hn fun i hi => hheld i hi hd]
    obtain rfl | h1 := Nat.eq_zero_or_pos d
    · simp
    · simp only [hd, Nat.succ_le_of_lt h1, true_and]
  · simp only [hd, false_and, and_false]

end Sys2Proof.Machine
end

section
/-!
PROOF. The collision checks of a frame: how CCU_CHECK registers its candidates, what a pipe takes, how a check ends, and what the
planning deadline makes of the registry (10 R252 to R264).
-/

namespace Sys2Proof.Machine

open Sys2Proof

/-! ## CCU_CHECK (10 R253, R259, R261) -/

/-- The checker reaches memory through the CCU's port. -/
theorem Job.port_of_ccuCheck {j : Job} (ho : j.opc = .ccuCheck) : j.port = 10 := by
  simp only [Job.port, ho]

/-- What a CCU_CHECK does with the footprint it has read. -/
def State.footDone (s : State) (j : Job) : State :=
  let ws := s.footWords (j.ref 1).addr j.nboxC
  if badFootprint (cutBoxes j.nboxC ws) then (s.captureLine pgCCU .unsupportedOpcode 0 137).checkFail j .unsupportedOpcode
  else if 4096 < s.ccu.cands.length + j.ncand then (s.captureLine pgCCU .countExceedsLimit 0 137).checkFail j .countExceedsLimit
  else
    let k := { j.list (max j.ncand 1) with aux := ws }
    let t := { s.setJob k with ccu := { s.ccu with cands := s.ccu.cands ++ j.newCands } }
    if s.ccu.deadline then t.closeJobs [j.tag] else t

/-- The state in which a CCU_CHECK has registered its candidates. -/
def State.registered (s : State) (j : Job) : State :=
  { s.setJob { j.list (max j.ncand 1) with aux := s.footWords (j.ref 1).addr j.nboxC } with
    ccu := { s.ccu with cands := s.ccu.cands ++ j.newCands } }

section
variable {s : State} {j : Job}

theorem State.footDone_of_bad (h : badFootprint (cutBoxes j.nboxC (s.footWords (j.ref 1).addr j.nboxC)) = true) :
    s.footDone j = (s.captureLine pgCCU .unsupportedOpcode 0 137).checkFail j .unsupportedOpcode :=
  if_pos h

theorem State.footDone_of_full (h : badFootprint (cutBoxes j.nboxC (s.footWords (j.ref 1).addr j.nboxC)) = false)
    (hn : 4096 < s.ccu.cands.length + j.ncand) :
    s.footDone j = (s.captureLine pgCCU .countExceedsLimit 0 137).checkFail j .countExceedsLimit :=
  (if_neg (ne_true_of_eq_false h)).trans (if_pos hn)

theorem State.footDone_of_room (h : badFootprint (cutBoxes j.nboxC (s.footWords (j.ref 1).addr j.nboxC)) = false)
    (hn : s.ccu.cands.length + j.ncand ≤ 4096) :
    s.footDone j = if s.ccu.deadline then (s.registered j).closeJobs [j.tag] else s.registered j :=
  (if_neg (ne_true_of_eq_false h)).trans (if_neg (Nat.not_lt.2 hn))

end

/-- A placed CCU_CHECK whose footprint can be read reads it and goes on with it. -/
theorem exec_ccuCheck_of_placed {s : State} {tag : Nat} {j : Job} (ha : s.awake = true) (hj : s.job tag = some j)
    (ho : j.opc = .ccuCheck) (hp : j.phase = .placed) (hl : s.readsLive j = true)
    (hr : s.readsOk j.part (j.ref 1).addr (32 * j.nboxC)) :
    exec (.ccuCheck tag .ok) s = .next ((s.jobMoves j (j.ref 1).addr (32 * j.nboxC) false).footDone j) := by
  have hm := readMarks_of_readsOk s _ _ _ hr
  have hg := guestIn_of_readsOk s _ _ _ hr
  obtain ⟨⟨hw, hd, -⟩, hres⟩ := hr
  refine (onAwake_of_due _ ha rfl).trans ?_
  simp only [State.withJob, hj, ho, hp, and_self, if_true, State.checkStart, State.footRead, hl, hw, hd, hres, hm, hg, Bool.not_true,
    Bool.false_eq_true, if_false]
  rfl

/-! ## The pipes (10 R260) -/

theorem find_aset_same {α : Type} (l : List (Nat × α)) (k : Nat) (v : α) :
    (aset l k v).find? (fun x => x.1 == k) = some (k, v) := by
  induction l with
  | nil => simp [aset]
  | cons p l ih =>
    unfold aset
    split
    · simp
    · split
      · simp
      · next h _ => rw [List.find?_cons_of_neg (by simpa using h), ih]

/-- A pipe given work has it. -/
theorem State.pipe_setPipe (s : State) (p : Nat) (w : PipeWork) : (s.setPipe p w).pipe p = some w := by
  unfold State.pipe State.setPipe
  rw [find_aset_same, Option.map_some]

/-- A pipe that takes a candidate holds the newest epoch for it; a first check changes no register. -/
theorem State.takeCand_spec (s : State) (p : Nat) (c : Cand) (re : Bool) :
    (s.takeCand p c re).pipe p = some (.cand c.tag c.idx s.mepoch false re) ∧ (s.takeCand p c re).mem = s.mem ∧
      (s.takeCand p c re).queues = s.queues ∧ (re = false → (s.takeCand p c re).regs = s.regs) := by
  have hstart : ∃ js, s.withJob c.tag (fun j => s.setJob j.unitStarts) = { s with jobs := js } := by
    unfold State.withJob
    split
    · exact ⟨_, rfl⟩
    · exact ⟨s.jobs, rfl⟩
  obtain ⟨js, hjs⟩ := hstart
  unfold State.takeCand
  rw [hjs]
  cases re with
  | false => exact ⟨State.pipe_setPipe _ p _, rfl, rfl, fun _ => rfl⟩
  | true => exact ⟨State.pipe_setPipe _ p _, rfl, rfl, nofun⟩

theorem exec_pipeCheckStart_of_free {s : State} {p : Nat} (ha : s.awake = true) (hp : p < 64) (hf : s.pipe p = none)
    (ht : s.engineTesting .ccu = false) : exec (.pipeCheckStart p) s = .next (s.pipeStart p) :=
  onAwake_of_due _ ha (by simp only [hp, hf, ht, decide_true, Option.isNone_none, Bool.not_false, Bool.and_self])

/-- The final check's runs come first. -/
theorem State.pipeStart_of_run {s : State} (p : Nat) {f : FinCheck} {x : Nat × Nat} {rest : List (Nat × Nat)}
    (hf : s.ccu.fin = some f) (ht : f.todo = x :: rest) :
    s.pipeStart p = { s with ccu := { s.ccu with
      fin := some { f with todo := rest }, pipes := aset s.ccu.pipes p (.fin x.1 x.2 false) } } := by
  simp only [State.pipeStart, hf, ht]

section
variable {s : State} (p : Nat) (hf : ∀ f, s.ccu.fin = some f → f.todo = []) {c : Cand}
include hf

/-- Without a run to take, a first check. -/
theorem State.pipeStart_of_first (h : s.nextCand .first = some c) : s.pipeStart p = s.takeCand p c false := by
  cases hfin : s.ccu.fin with
  | none => simp only [State.pipeStart, hfin, h]
  | some f => simp only [State.pipeStart, hfin, hf f hfin, h]

/-- Without a first check either, a recheck. -/
theorem State.pipeStart_of_recheck (h : s.nextCand .first = none) (hr : s.nextCand .recheck = some c) :
    s.pipeStart p = s.takeCand p c true := by
  cases hfin : s.ccu.fin with
  | none => simp only [State.pipeStart, hfin, h, hr]
  | some f => simp only [State.pipeStart, hfin, hf f hfin, h, hr]

end

/-! ## The end of a check (10 R256 to R258, R260, R261) -/

section
variable {s : State} {p tag i : Nat} {e : Word32} {again re : Bool} {j : Job} {c : Cand} (ha : s.awake = true)
  (hp : s.pipe p = some (.cand tag i e again re)) (hj : s.job tag = some j) (hc : s.cand tag i = some c)
include ha hp hj hc

theorem exec_pipeCheckDone_of_cand (hl : s.readsLive j = true) (chk : ReadCheck) :
    exec (.pipeCheckDone p chk) s = .next (s.candCheck p j c e again re chk) :=
  (onAwake_of_due _ ha rfl).trans (by simp only [State.pipeDone, hp, hj, hc, hl, Bool.not_true, Bool.false_eq_true, if_false])

/-- A check that reaches the cap ends INVALID and is counted. -/
theorem exec_checkCapExpired_of_cand (hcap : 65536 ≤ (s.candRes j c e).cycles) :
    exec (.checkCapExpired p) s = .next
      ((s.candDone p j c e { ChkRes.none_ 6 with nsamp := (s.candRes j c e).nsamp, cycles := 65536 }).fadd pgCCU
        Reg.CCU_LONG_COUNT 1) :=
  (onAwake_of_due _ ha rfl).trans (by simp only [State.capExpired, hp, hj, hc, checkCap, Nat.not_lt.2 hcap, if_false])

end

/-- A check below the cap whose record and map lines deliver ends with its result. -/
theorem State.candCheck_of_data {s : State} {j : Job} {c : Cand} {e : Word32} (p : Nat) (again re : Bool)
    (hr : s.readsOk j.part (j.candAddr c.idx) 1088)
    (hm : (s.jobMoves j (j.candAddr c.idx) 1088 false).mapRes
      ((s.jobMoves j (j.candAddr c.idx) 1088 false).candLines j c e) .ok = .data)
    (hc : ((s.jobMoves j (j.candAddr c.idx) 1088 false).candRes j c e).cycles < 65536) :
    s.candCheck p j c e again re .ok = (s.jobMoves j (j.candAddr c.idx) 1088 false).candDone p j c e
      ((s.jobMoves j (j.candAddr c.idx) 1088 false).candRes j c e) := by
  have hmarks := readMarks_of_readsOk s _ _ _ hr
  have hg := guestIn_of_readsOk s _ _ _ hr
  obtain ⟨⟨hw, hd, -⟩, hres⟩ := hr
  simp only [State.candCheck, hw, hd, hres, hmarks, hg, hm, checkCap, hc, Bool.false_eq_true, if_false, if_true]

/-- A check lists at most 32 blocks that it touched. -/
theorem State.length_touch_candRes (s : State) (j : Job) (c : Cand) (e : Word32) : (s.candRes j c e).touch.length ≤ 32 := by
  unfold State.candRes State.checkCand
  split
  · exact Nat.zero_le _
  · unfold Ccu.checkPath
    dsimp only
    split
    · exact Nat.zero_le _
    · exact List.length_take_le _ _

/-- The 128 bytes of a result record. -/
theorem Cand.length_record {c : Cand} (h : c.res.touch.length ≤ 32) : c.record.length = 128 := by
  simp only [Cand.record, List.length_append, List.length_replicate, length_toLE, List.length_flatMap, List.map_const',
    List.sum_replicate_nat]
  omega

/-- The write of one of a candidate's results, unless its place turns it away. -/
def State.putBytes (s : State) (j : Job) (a : Nat) (bs : List Byte) : State :=
  if (s.denied j.part a bs.length true).isSome then s else (s.jobMoves j a bs.length true).storeAt a bs

theorem State.writeCand_eq (s : State) (j : Job) (c : Cand) :
    s.writeCand j c = (s.putBytes j ((j.ref 2).addr + 128 * c.idx) c.record).putBytes j ((j.ref 3).addr + 8 * c.idx)
      (toLE 4 c.key ++ toLE 4 (j.baseIdx + c.idx)) := rfl

theorem State.putBytes_onlyWritten (s : State) (j : Job) (a : Nat) (bs : List Byte) : s.onlyWritten (s.putBytes j a bs) := by
  unfold State.putBytes
  split
  · exact s.onlyWritten_refl
  · exact State.onlyWritten_trans (s.traffic_onlyWritten _ _ _ _ _ _ _) (State.storeAt_onlyWritten _ _ _)

theorem State.writeCand_onlyWritten (s : State) (j : Job) (c : Cand) : s.onlyWritten (s.writeCand j c) :=
  State.onlyWritten_trans (s.putBytes_onlyWritten j _ _) (State.putBytes_onlyWritten _ j _ _)

theorem readByte_putBytes_of_outside {s : State} {j : Job} (hp : j.port < 32) (ht : j.tc < 8) (hc : s.cfg.cormer = false)
    {a x : Nat} {bs : List Byte} (hx : ¬ (a ≤ x ∧ x < a + bs.length)) :
    readByte (s.putBytes j a bs).mem x = readByte s.mem x := by
  unfold State.putBytes
  split
  · rfl
  · rw [readByte_storeAt_of_outside _ hx, (s.jobMoves_onlyMoved hp ht a bs.length true).mem_of_native hc]

/-- The results of a candidate write its record and its key entry alone. -/
theorem readByte_writeCand_of_outside {s : State} {j : Job} {c : Cand} (hp : j.port < 32) (ht : j.tc < 8)
    (hc : s.cfg.cormer = false) (hl : c.res.touch.length ≤ 32) {x : Nat}
    (hrec : ¬ ((j.ref 2).addr + 128 * c.idx ≤ x ∧ x < (j.ref 2).addr + 128 * c.idx + 128))
    (hkey : ¬ ((j.ref 3).addr + 8 * c.idx ≤ x ∧ x < (j.ref 3).addr + 8 * c.idx + 8)) :
    readByte (s.writeCand j c).mem x = readByte s.mem x := by
  have hcfg := (s.putBytes_onlyWritten j ((j.ref 2).addr + 128 * c.idx) c.record).cfg
  rw [State.writeCand_eq, readByte_putBytes_of_outside hp ht (by rw [hcfg, hc]) (by rwa [List.length_append, length_toLE, length_toLE]),
    readByte_putBytes_of_outside hp ht hc (by rwa [Cand.length_record hl])]

/-- A candidate that is replaced is found under its job and index. -/
theorem State.cand_setCand {s : State} {c x : Cand} (h : s.cand c.tag c.idx = some x) : (s.setCand c).cand c.tag c.idx = some c := by
  have hp : ((fun d : Cand => d.tag == c.tag && d.idx == c.idx) ∘ fun d => if d.tag = c.tag ∧ d.idx = c.idx then c else d) =
      fun d => d.tag == c.tag && d.idx == c.idx := by
    funext d
    by_cases hd : d.tag = c.tag ∧ d.idx = c.idx
    · simp [hd]
    · simp only [Function.comp_apply, if_neg hd]
  have hx : x.tag = c.tag ∧ x.idx = c.idx := by simpa using List.find?_some h
  unfold State.cand at h
  simp only [State.cand, State.setCand, List.find?_map, hp, h, Option.map_some, hx, and_self, if_true]

/-- What a candidate becomes when its verdict is revalidated. -/
def State.revalidated (s : State) (c : Cand) : Cand :=
  if c.st = .has then (if s.current c then { c with mepoch := s.mepoch } else { c with st := .recheck }) else c

theorem State.revalidated_spec (s : State) (c : Cand) : (s.revalidated c).tag = c.tag ∧ (s.revalidated c).idx = c.idx ∧
    (s.revalidated c).got = c.got ∧ (s.revalidated c).res = c.res := by
  unfold State.revalidated
  split
  · split <;> exact ⟨rfl, rfl, rfl, rfl⟩
  · exact ⟨rfl, rfl, rfl, rfl⟩

/-- Revalidation keeps each candidate, its result with it. -/
theorem State.cand_revalidate {s : State} {tag i : Nat} {c : Cand} (h : s.cand tag i = some c) :
    ∃ d, s.revalidate.cand tag i = some d ∧ d.idx = c.idx ∧ d.got = c.got ∧ d.res = c.res := by
  by_cases hd : s.ccu.deadline = true
  · exact ⟨c, by rwa [State.revalidate, if_pos hd], rfl, rfl, rfl⟩
  · have hmap : s.revalidate.cand tag i = (s.ccu.cands.map s.revalidated).find? fun d => d.tag == tag && d.idx == i := by
      rw [State.revalidate, if_neg hd]; rfl
    have hp : ((fun d : Cand => d.tag == tag && d.idx == i) ∘ s.revalidated) = fun d => d.tag == tag && d.idx == i := by
      funext d
      obtain ⟨ht, hi, -⟩ := s.revalidated_spec d
      simp only [Function.comp_apply, ht, hi]
    unfold State.cand at h
    obtain ⟨-, hi, hg, hr⟩ := s.revalidated_spec c
    exact ⟨s.revalidated c, by rw [hmap, List.find?_map, hp, h, Option.map_some], hi, hg, hr⟩

/-- A candidate with the result of its check, the registry revalidated with it, before the result is written. -/
def State.candEnded (s : State) (p : Nat) (c : Cand) : State :=
  (((s.freePipe p).setCand c).fwrap pgCCU Reg.CCU_CHECKED_COUNT 1).revalidate.trace 4 0 1

theorem State.candEnded_shape (s : State) (p : Nat) (c : Cand) : ∃ r x, s.candEnded p c = { s with regs := r, ccu := x } := by
  unfold State.candEnded
  obtain ⟨r, hr⟩ := (((s.freePipe p).setCand c).fwrap pgCCU Reg.CCU_CHECKED_COUNT 1).revalidate.trace_shape 4 0 1
  obtain ⟨cs, hcs⟩ := (((s.freePipe p).setCand c).fwrap pgCCU Reg.CCU_CHECKED_COUNT 1).revalidate_shape
  rw [hr, hcs]
  exact ⟨r, _, rfl⟩

theorem State.cand_candEnded {s : State} {c x : Cand} (p : Nat) (h : s.cand c.tag c.idx = some x) :
    ∃ d, (s.candEnded p c).cand c.tag c.idx = some d ∧ d.idx = c.idx ∧ d.got = c.got ∧ d.res = c.res := by
  have hset : (((s.freePipe p).setCand c).fwrap pgCCU Reg.CCU_CHECKED_COUNT 1).cand c.tag c.idx = some c :=
    State.cand_setCand (s := s.freePipe p) h
  obtain ⟨d, hd, hspec⟩ := State.cand_revalidate hset
  obtain ⟨r, hr⟩ := (((s.freePipe p).setCand c).fwrap pgCCU Reg.CCU_CHECKED_COUNT 1).revalidate.trace_shape 4 0 1
  refine ⟨d, ?_, hspec⟩
  rw [State.candEnded, hr]
  exact hd

/-- The result that a check ends with. -/
def State.endRes (s : State) (r : ChkRes) : ChkRes := if r.verdict = 6 ∧ r.cycles = 0 then r.opened s.draws else r

theorem State.endRes_spec (s : State) (r : ChkRes) :
    (s.endRes r).verdict = r.verdict ∧ (s.endRes r).touch = r.touch ∧ (s.endRes r).clr = r.clr := by
  unfold State.endRes
  split <;> exact ⟨rfl, rfl, rfl⟩

/-- The candidate that a check ends with. -/
def State.endCand (s : State) (j : Job) (c : Cand) (e : Word32) (r : ChkRes) : Cand :=
  { c with st := .has, got := true, mepoch := e, res := s.endRes r
           key := keyOf j.req j.wclr (s.draw.loadLE (j.candAddr c.idx) 4) (s.endRes r) }

/-- The results of a candidate are written where the registry holds it. -/
def State.endWrite (s : State) (j : Job) : Option Cand → State
  | some d => s.writeCand j d
  | none => s

theorem State.candDone_eq (s : State) (p : Nat) (j : Job) (c : Cand) (e : Word32) (r : ChkRes) :
    s.candDone p j c e r =
      let t := s.draw.candEnded p (s.endCand j c e r)
      t.endWrite j (t.cand c.tag c.idx) := rfl

/-- A check ends with its result in the registry, and the writes that follow reach the candidate's places alone. -/
theorem State.candDone_spec {s : State} {j : Job} {c x : Cand} {e : Word32} {r : ChkRes} (p : Nat) (hp : j.port < 32)
    (ht : j.tc < 8) (hc : s.cand c.tag c.idx = some x) (hl : r.touch.length ≤ 32) :
    ∃ d, (s.candDone p j c e r).cand c.tag c.idx = some d ∧ d.got = true ∧ d.res = s.endRes r ∧
      (s.candDone p j c e r).queues = s.queues ∧
      (s.cfg.cormer = false →
        ∀ a, ¬ ((j.ref 2).addr + 128 * c.idx ≤ a ∧ a < (j.ref 2).addr + 128 * c.idx + 128) →
          ¬ ((j.ref 3).addr + 8 * c.idx ≤ a ∧ a < (j.ref 3).addr + 8 * c.idx + 8) →
          readByte (s.candDone p j c e r).mem a = readByte s.mem a) := by
  obtain ⟨d, hd, hidx, hgot, hres⟩ := State.cand_candEnded (s := s.draw) (c := s.endCand j c e r) p hc
  have hdone : s.candDone p j c e r = (s.draw.candEnded p (s.endCand j c e r)).writeCand j d := by
    rw [State.candDone_eq]
    exact congrArg (State.endWrite _ j) hd
  obtain ⟨g, y, hy⟩ := s.draw.candEnded_shape p (s.endCand j c e r)
  rw [hdone]
  generalize s.draw.candEnded p (s.endCand j c e r) = t at hd hy
  have hw := t.writeCand_onlyWritten j d
  have hidx : d.idx = c.idx := hidx
  have hres : d.res = s.endRes r := hres
  have htouch : d.res.touch.length ≤ 32 := by rwa [hres, (s.endRes_spec r).2.1]
  have hq : t.queues = s.queues := by rw [hy]; rfl
  have hmem : t.mem = s.mem := by rw [hy]; rfl
  have hcfg : t.cfg = s.cfg := by rw [hy]; rfl
  refine ⟨d, (hw.cand _ _).trans hd, hgot, hres, hw.queues.trans hq, fun hn a hrec hkey => ?_⟩
  rw [readByte_writeCand_of_outside hp ht (by rw [hcfg, hn]) htouch (by rwa [hidx]) (by rwa [hidx]), hmem]

/-! ## The planning deadline (10 R264) -/

theorem exec_planningDeadline_of_due {s : State} {e : Nat} (ha : s.awake = true) (ht : s.frm.tickAt.isSome = true)
    (hp : s.ccu.deadline = false) (hd : s.dueCtr e s.planNs = true) :
    exec (.planningDeadline e) s = .next (elapse e s).planDeadline :=
  onAwake_of_due _ ha (by simp only [ht, hp, hd, Bool.not_false, Bool.and_self])

/-- The completion of a job writes its records and changes nothing of the CCU. -/
theorem State.closeJob_ccu (s : State) (tag : Nat) : (s.closeJob tag).ccu = s.ccu := by
  unfold State.closeJob State.withJob
  split
  · exact (State.foldl_onlyWritten (fun t c => t.writeCand_onlyWritten _ c) _ s).ccu
  · rfl

theorem State.deadlineErr_ccu (s : State) (tags : List Nat) : (s.deadlineErr tags).ccu = s.ccu := by
  unfold State.deadlineErr
  dsimp only
  split
  · exact (s.captureLine_onlyWritten _ _ _ _).ccu
  · split
    · exact (s.captureLine_onlyWritten _ _ _ _).ccu
    · rfl

/-- The deadline acts on the candidates of its jobs. -/
theorem State.closeJobs_cands (s : State) (tags : List Nat) :
    (s.closeJobs tags).ccu.cands = s.ccu.cands.map fun x => if tags.contains x.tag then s.atDeadline x else x := by
  have hfold : ∀ t : State, (tags.foldl (fun t g => t.closeJob g) t).ccu = t.ccu := fun t =>
    List.foldlRecOn tags _ (motive := fun u : State => u.ccu = t.ccu) rfl fun u hu g _ => (u.closeJob_ccu g).trans hu
  unfold State.closeJobs
  dsimp only
  rw [State.deadlineErr_ccu, hfold]

/-- Every candidate of the registry is one of a job of the frame. -/
theorem State.tag_mem_checkTags {s : State} {c : Cand} (h : c ∈ s.ccu.cands) : c.tag ∈ s.checkTags :=
  List.mem_eraseDups.2 (List.mem_append_left _ (List.mem_map_of_mem h))

theorem State.planDeadline_cands (s : State) : s.planDeadline.ccu.cands = s.ccu.cands.map s.atDeadline := by
  refine (s.closeJobs_cands s.checkTags).trans (List.map_congr_left fun c hc => if_pos ?_)
  exact List.contains_iff_mem.2 (State.tag_mem_checkTags hc)

theorem State.atDeadline_of_unchecked (s : State) {c : Cand} (h : c.got = false) :
    (s.atDeadline c).st = .has ∧ (s.atDeadline c).res.verdict = 0 := by
  rw [State.atDeadline, h]
  exact ⟨rfl, rfl⟩

theorem State.atDeadline_of_current {s : State} {c : Cand} (h : c.got = true) (hc : s.current c = true) :
    s.atDeadline c = { c with st := .has, mepoch := s.mepoch } := by
  simp only [State.atDeadline, h, hc, Bool.not_true, Bool.false_eq_true, if_false, if_true]

theorem State.atDeadline_of_stale {s : State} {c : Cand} (h : c.got = true) (hc : s.current c = false) :
    s.atDeadline c = { c with st := .has, key := nan32, res := { c.res with verdict := 7, clr := nan32 } } := by
  simp only [State.atDeadline, h, hc, Bool.not_true, Bool.false_eq_true, if_false]

/-- Settles O43: the footprint, the record and the map lines decide how a check begins and ends; what it writes lies in the
candidate's places, and the deadline finds every candidate in a job of the frame. -/
theorem candidateChecksRun : Obligations.CandidateChecksRun := by
  refine ⟨?registers, ?takes, ?ends, ?deadline, ?atDeadline⟩
  case registers =>
    intro s tag j ha hj ho hp hl hr ht u ws v
    have hu : s.onlyMoved u := s.jobMoves_onlyMoved (by rw [Job.port_of_ccuCheck ho]; decide) ht _ _ _
    have hccu : u.ccu = s.ccu := hu.onlyWritten.ccu
    have htag : j.tag = tag := State.tag_of_job hj
    rw [exec_ccuCheck_of_placed ha hj ho hp hl hr]
    refine ⟨hu, fun hgood hroom => congrArg _ ?_, fun hgood hfull => congrArg _ (State.footDone_of_full hgood (by rwa [hccu])),
      fun hbad => congrArg _ (State.footDone_of_bad hbad)⟩
    have hdone := State.footDone_of_room hgood (by rwa [hccu])
    rwa [State.registered, hccu, htag] at hdone
  case takes =>
    intro s p ha hp hfree htest
    rw [exec_pipeCheckStart_of_free ha hp hfree htest]
    refine ⟨fun f x rest hf htodo => congrArg _ (State.pipeStart_of_run p hf htodo),
      fun hno => ⟨fun c hc => ⟨_, congrArg _ (State.pipeStart_of_first p hno hc), ?_⟩,
        fun c hc hre => ⟨_, congrArg _ (State.pipeStart_of_recheck p hno hc hre), ?_⟩⟩⟩
    · obtain ⟨hpipe, hmem, hq, hregs⟩ := s.takeCand_spec p c false
      exact ⟨hpipe, hmem, hregs rfl, hq⟩
    · obtain ⟨hpipe, hmem, hq, -⟩ := s.takeCand_spec p c true
      exact ⟨hpipe, hmem, hq⟩
  case ends =>
    intro s p tag i e again re j c ha hp hj hc ho ht u r
    refine ⟨fun hl hr hm hcap => ?_, exec_checkCapExpired_of_cand ha hp hj hc⟩
    have hport : j.port < 32 := by rw [Job.port_of_ccuCheck ho]; decide
    have hu : s.onlyMoved u := s.jobMoves_onlyMoved hport ht _ _ _
    obtain ⟨rfl, rfl⟩ : c.tag = tag ∧ c.idx = i := by simpa using List.find?_some hc
    have hcu : u.cand c.tag c.idx = some c := (hu.onlyWritten.cand _ _).trans hc
    obtain ⟨d, hd, hgot, hres, hq, hmem⟩ :=
      State.candDone_spec (e := e) p hport ht hcu (u.length_touch_candRes j c e)
    obtain ⟨hverdict, htouch, hclr⟩ := u.endRes_spec r
    refine ⟨_, d, (exec_pipeCheckDone_of_cand ha hp hj hc hl .ok).trans (congrArg _ (State.candCheck_of_data p again re hr hm hcap)), hd,
      hgot, hres ▸ hverdict, hres ▸ htouch, hres ▸ hclr, hq.trans hu.onlyWritten.queues, fun hn a h1 h2 => ?_⟩
    rw [hmem (by rw [hu.onlyWritten.cfg, hn]) a h1 h2, hu.mem_of_native hn]
  case deadline =>
    intro s e ha ht hp hd
    exact ⟨_, _, exec_planningDeadline_of_due ha ht hp hd, rfl, rfl, State.planDeadline_cands _⟩
  case atDeadline =>
    intro s c
    cases hg : c.got with
    | false =>
      obtain ⟨hst, hv⟩ := s.atDeadline_of_unchecked hg
      exact ⟨hst, fun _ => hv, nofun, nofun⟩
    | true =>
      cases hc : s.current c with
      | true =>
        rw [State.atDeadline_of_current hg hc]
        exact ⟨rfl, nofun, fun _ _ => ⟨rfl, rfl, rfl⟩, nofun⟩
      | false =>
        rw [State.atDeadline_of_stale hg hc]
        exact ⟨rfl, nofun, nofun, fun _ _ => ⟨rfl, rfl⟩⟩

end Sys2Proof.Machine
end

section
/-!
PROOF. The final check: what its start captures, how its runs end, and what it names to the verdict gate (10 R270, R271).
-/

namespace Sys2Proof.Machine

open Sys2Proof

@[simp] theorem elapse_ccu (e : Nat) (s : State) : (elapse e s).ccu = s.ccu := by
  obtain ⟨_, _, _, h⟩ := elapse_shape e s; rw [h]

/-! ## Start and naming -/

/-- FINAL_CHECK_START at its time starts the final check in the state of that time. -/
theorem exec_finalCheckStart_of_due {s : State} {e : Nat} (ha : s.awake = true) (ht : s.frm.tickAt.isSome = true)
    (hf : s.ccu.fin = none) (hd : s.dueCtr e (s.pubNs - 50000) = true) :
    exec (.finalCheckStart e) s = .next (elapse e s).finalStart :=
  onAwake_of_due _ ha (by simp only [ht, hf, hd, Option.isNone_none, Bool.and_self])

/-- FINAL_ALTERNATE_NAMED at its time names the outcome in the state of that time. -/
theorem exec_finalAlternateNamed_of_due {s : State} {e : Nat} {f : FinCheck} (ha : s.awake = true) (hf : s.ccu.fin = some f)
    (hn : f.named = false) (hd : s.dueCtr e (s.pubNs - 2000) = true) :
    exec (.finalAlternateNamed e) s = .next ((elapse e s).finalName f) :=
  (onAwake_of_due _ ha rfl).trans (by simp only [hf, hn, hd, Bool.not_false, Bool.and_self, if_true])

/-- The lowest alternate of 0 to 3 that has passed. -/
def FinCheck.lowest (f : FinCheck) : Option Nat := ((List.range 4).filter f.passed).head?

/-- An alternate, or the 7 of none, fits the three bits of CCU_FINAL.ALT. -/
theorem FinCheck.lowest_getD_lt (f : FinCheck) : f.lowest.getD 7 < 8 := by
  cases h : f.lowest with
  | none => decide
  | some r =>
    have hr : r ∈ List.range 4 := (List.mem_filter.1 (List.mem_of_head? h)).1
    exact Nat.lt_trans (List.mem_range.1 hr) (by decide)

/-- A field keeps its value when another register of its page is written. -/
theorem State.fget_setReg_other (s : State) {page off : Nat} {f : Fld} (v : Word32) (h : off ≠ f.off) :
    (s.setReg page 0 off v).fget page f = s.fget page f :=
  congrArg f.get (s.reg_setReg_other v (regKey_ne_of_off h))

/-- The registers that show the outcome of the final check. -/
def State.showFinal (s : State) (f : FinCheck) : State :=
  ((((s.fset pgCCU Reg.CCU_FINAL_ALT (f.lowest.getD 7)).fset pgCCU Reg.CCU_FINAL_REG (if f.reg.isSome then 1 else 0)).fset pgCCU
    Reg.CCU_FINAL_PASS (((List.range 4).filter f.passed).foldl (fun m r => m + 2 ^ r) 0)).setReg pgCCU 0 0x070 f.frame).setReg
      pgCCU 0 0x074 f.epoch

theorem State.showFinal_alt (s : State) (f : FinCheck) : (s.showFinal f).fget pgCCU Reg.CCU_FINAL_ALT = f.lowest.getD 7 := by
  rw [State.showFinal, State.fget_setReg_other _ _ (by decide), State.fget_setReg_other _ _ (by decide),
    State.fget_fset_other _ _ _ _ _ (by decide) (by decide) (by decide),
    State.fget_fset_other _ _ _ _ _ (by decide) (by decide) (by decide), State.fget_fset_same _ _ _ (by decide)]
  exact Nat.mod_eq_of_lt f.lowest_getD_lt

theorem State.showFinal_frame (s : State) (f : FinCheck) : (s.showFinal f).reg pgCCU 0 0x070 = f.frame := by
  unfold State.showFinal
  rw [State.reg_setReg_other _ _ (regKey_ne_of_off (by decide)), State.reg_setReg_same]

theorem State.showFinal_mepoch (s : State) (f : FinCheck) : (s.showFinal f).reg pgCCU 0 0x074 = f.epoch :=
  State.reg_setReg_same _ _ _ _ _

/-- Naming shows the outcome and hands it to the gate; line 136 pulses beside it where no alternate has passed. -/
theorem State.finalName_shape (s : State) (f : FinCheck) :
    ∃ c a b, s.finalName f = { s.showFinal f with
      ccu := c, gate := { s.gate with named := f.lowest, namedFrame := f.frame }, snA := a, snB := b } ∧
      c.fin = some { f with named := true, todo := [] } := by
  unfold State.finalName
  dsimp only
  split
  · obtain ⟨a, b, h⟩ := State.pulse_shape _ 136
    exact ⟨_, a, b, h, rfl⟩
  · exact ⟨_, _, _, rfl, rfl⟩

/-! ## Runs -/

section
variable {s : State} {p alt k : Nat} {again : Bool} {f : FinCheck} {g : FinReg} (ha : s.awake = true) (hf : s.ccu.fin = some f)
  (hg : f.reg = some g) (hp : s.pipe p = some (.fin alt k again))
include ha hf hg hp

theorem exec_pipeCheckDone_of_run (chk : ReadCheck) :
    exec (.pipeCheckDone p chk) s = .next (s.runCheck p alt k again f g chk) :=
  (onAwake_of_due _ ha rfl).trans (by simp only [State.pipeDone, hp, hf, hg])

/-- A run that reaches the cap ends without a clearance and is counted. -/
theorem exec_checkCapExpired_of_run (hc : 65536 ≤ s.runCycles f g alt k) :
    exec (.checkCapExpired p) s = .next ((s.runDone p alt k f none).fadd pgCCU Reg.CCU_LONG_COUNT 1) :=
  (onAwake_of_due _ ha rfl).trans (by simp only [State.capExpired, hp, hf, hg, checkCap, Nat.not_lt.2 hc, if_false])

end

/-- A run below the cap whose map lines deliver ends with its clearance. -/
theorem State.runCheck_of_data {s : State} {alt k : Nat} {f : FinCheck} {g : FinReg} {chk : ReadCheck} (p : Nat) (again : Bool)
    (hm : s.mapRes (mapLines (s.tabOf f.epoch) (g.runBoxes alt k)) chk = .data) (hc : s.runCycles f g alt k < 65536) :
    s.runCheck p alt k again f g chk = s.runDone p alt k f
      (some (clearance (fun x y z => isObstacle g.unk (s.ccu.voxel (s.tabOf f.epoch) x y z)) (g.runBoxes alt k))) := by
  simp only [State.runCheck, hm, checkCap, hc, if_true]

/-- What it takes to pass. -/
theorem FinCheck.registered_of_passed {f : FinCheck} {r : Nat} (h : f.passed r = true) :
    ∃ g, f.reg = some g ∧ r ∈ g.alternates ∧ r ∉ f.bad ∧ (f.done.filter fun x => x.1 == r).length = 16 := by
  unfold FinCheck.passed at h
  split at h
  · next g hg =>
    simp only [Bool.and_eq_true, Bool.not_eq_true', beq_iff_eq, List.contains_eq_mem, decide_eq_false_iff_not,
      decide_eq_true_iff] at h
    obtain ⟨⟨⟨hr, hb⟩, hn⟩, -⟩ := h
    exact ⟨g, hg, hr, hb, hn⟩
  · cases h

/-- Settles O44: the start and the naming act on the state of their time, which time has left as it was but for registers, and a
run ends by its map lines and its cycles. -/
theorem finalCheckNamesLowestPassed : Obligations.FinalCheckNamesLowestPassed := by
  refine ⟨?start, ?name, ?runs, fun f r h => FinCheck.registered_of_passed h⟩
  case start =>
    intro s e ha ht hf hd
    refine ⟨_, _, exec_finalCheckStart_of_due ha ht hf hd, rfl, rfl, rfl, rfl, fun g hg => ?_, elapse_mem e s, elapse_jobs e s⟩
    obtain ⟨x, hx, hxg⟩ := Option.bind_eq_some_iff.1 hg
    rw [elapse_ccu] at hx
    split at hxg
    · next hframe => cases hxg; exact ⟨hframe, hx⟩
    · cases hxg
  case name =>
    intro s e f ha hf hn hd
    obtain ⟨c, a, b, hname, hfin⟩ := (elapse e s).finalName_shape f
    refine ⟨_, exec_finalAlternateNamed_of_due ha hf hn hd, ?_⟩
    rw [hname]
    exact ⟨rfl, rfl, State.showFinal_alt _ f, State.showFinal_frame _ f, State.showFinal_mepoch _ f, ⟨_, hfin, rfl⟩,
      elapse_mem e s, elapse_jobs e s⟩
  case runs =>
    intro s p alt k again f g ha hf hg hp
    refine ⟨fun hm hc => ?_, exec_checkCapExpired_of_run ha hf hg hp⟩
    rw [exec_pipeCheckDone_of_run ha hf hg hp, State.runCheck_of_data p again hm hc]

end Sys2Proof.Machine
end

section
/-!
PROOF. A self-test job whose traffic class is none of the eight: the count of a chunk's record maps out the Reservoir bank that the
record goes to, and the write is discarded (12 R317, R320; 13 R347; 15 R369).
-/

namespace Sys2Proof.Machine

open Sys2Proof

/-- SELFTEST_CHUNK_DONE of a chunk that a target of a running SELFTEST runs completes it. -/
theorem exec_selftestChunkDone_of_running {s : State} {tag tgt chunk : Nat} {j : Job} {t : StTarget} (sig : Word32) (same : Bool)
    (ha : s.awake = true) (hj : s.job tag = some j) (ho : j.opc = .selftest) (hp : j.phase = .running)
    (ht : j.sts.find? (fun t => t.tgt == tgt && t.running && t.left.head? == some chunk) = some t) :
    exec (.selftestChunkDone tag tgt chunk sig same) s = .next (s.chunkDone j t chunk sig same) :=
  (onAwake_of_due _ ha rfl).trans (by simp only [State.withJob, hj, ho, hp, ht, and_self, if_true])

/-! ## A class beyond the eight

Port 8 is the self-test sequencer's. The high half of its counter of bytes written in class c stands at 0x04C + 0x20 × c of bank 1 of
its page (13 R347), which lies in that page for the eight classes of three bits. -/

/-- A traffic class of more than three bits: that high half is the register of the mapped-out banks of Reservoir 0, 0x04C of page
0x24A, and the low half stands at 0x048 of bank 255 of the page before it. -/
def farTestClass : Nat := 0x100FF80

/-- A reference to the first bank of Reservoir 0. -/
def bankRef : CRef :=
  { handle := 1, vsel := 0, off := 0, ent := { BufEntry.zero with base0 := 0x8000000000, r := true, w := true, size := 0x400000 }
    rd := true, wr := true, slot := 0, vid := 0, gen := 0 }

/-- The Profile Unit runs its one chunk. -/
def pruChunk : StTarget := { tgt := 2, left := [0], running := true, epoch := 0 }

/-- A SELFTEST of P0 in that class: KIND 3, chunk 0 of the Profile Unit, its record in that bank. -/
def farTest : Job :=
  { State.reset.newJob 0 0 ((3 + 2 ^ 8) * 2 ^ 128 + 2 ^ 2 * 2 ^ 192) 5 .selftest with
    tc := farTestClass, refs := [bankRef], phase := .running, st := .running, total := 1, sts := [pruChunk] }

/-- The device of two Lanterns runs the test, the low half of the counter at its last value. -/
def farTestState : State := { farState with jobs := [farTest] }.setReg (pgRSV 0 - 1) 255 0x048 0xFFFFFFFF

theorem farTestState_awake : farTestState.awake = true := by decide +kernel

theorem farTest_stKind : farTest.stKind = 3 := by decide +kernel

theorem farTest_stAddr : farTest.stAddr pruChunk.tgt 0 = 0x8000000000 := by decide +kernel

/-- The bank takes the record before the record has passed the port. -/
theorem farTestState_writesOk : farTestState.writesOk farTest.part (farTest.stAddr pruChunk.tgt 0) 16 := by
  unfold State.writesOk State.open_
  decide +kernel

/-- The 16 bytes counted carry into the register of the mapped-out banks, so the record's first byte, the target's number, stays
unwritten. -/
theorem readByte_farTest_record : readByte (farTestState.chunkDone farTest pruChunk 0 0 true).mem 0x8000000000 = 0 := by
  decide +kernel

/-- Refutes O45: its clause on SELFTEST_CHUNK_DONE holds the job's class to no bound. In class `farTestClass` the count of the record
maps out the bank of the record, which a good chunk of an engine then does not write. -/
theorem not_profileAndSelfTestUnits : ¬ Obligations.ProfileAndSelfTestUnits := by
  intro ⟨_, _, hself⟩
  obtain ⟨-, -, hchunk⟩ := hself farTestState 5 farTest farTestState_awake rfl rfl
  obtain ⟨t, _, hexec, -, -, hrecord, -⟩ := hchunk pruChunk 0 0 true rfl rfl farTestState_writesOk
  have hend : farTestState.chunkDone farTest pruChunk 0 0 true = t :=
    Host.Outcome.next.inj ((exec_selftestChunkDone_of_running 0 true farTestState_awake rfl rfl rfl rfl).symm.trans hexec)
  have hbyte := (hrecord farTest_stKind rfl).1 0 (by decide)
  rw [← hend, farTest_stAddr, Nat.add_zero, readByte_farTest_record] at hbyte
  exact absurd hbyte (by decide)

end Sys2Proof.Machine
end

section
/-!
PROOF. The Snuffers in the state: what passing time leaves alone of them and of the gate, and their reads after the shared operations.
-/

namespace Sys2Proof.Machine

open Sys2Proof

/-! ## What passing time leaves alone -/

@[simp] theorem elapse_sn (e : Nat) (s : State) (i : Sn) : (elapse e s).sn i = s.sn i := by
  obtain ⟨_, _, _, h⟩ := elapse_shape e s
  rw [h]
  cases i <;> rfl

@[simp] theorem elapse_gate (e : Nat) (s : State) : (elapse e s).gate = s.gate := by
  obtain ⟨_, _, _, h⟩ := elapse_shape e s; rw [h]

@[simp] theorem elapse_cfg (e : Nat) (s : State) : (elapse e s).cfg = s.cfg := by
  obtain ⟨_, _, _, h⟩ := elapse_shape e s; rw [h]

@[simp] theorem elapse_epoch (e : Nat) (s : State) : (elapse e s).epoch = s.epoch :=
  reg_elapse e s (by decide) (ne_pgWck_of_lt (by decide)) (by decide) (by decide)

/-- Counting trace events writes the counters' values alone. -/
theorem State.reg_trace_of_offset (s : State) (code inst n p i : Nat) {o : Nat} (ho : o < 4096) (h54 : o ≠ 0x054) (h58 : o ≠ 0x058) :
    (s.trace code inst n).reg p i o = s.reg p i o := by
  have keep (l : List Nat) (t : State) :
      (l.foldl (fun t k => if t.traces k code inst then t.traceAdd k n else t) t).reg p i o = t.reg p i o := by
    induction l generalizing t with
    | nil => rfl
    | cons k l ih =>
      rw [List.foldl_cons, ih]
      split
      · unfold State.traceAdd
        rw [State.reg_setReg_other _ _ (by unfold regKey; omega), State.reg_setReg_other _ _ (by unfold regKey; omega)]
      · rfl
  exact keep _ s

/-- What both sides of a choice of states have in common. -/
theorem State.ite_common {α : Type} (f : State → α) {c : Prop} [Decidable c] {t u : State} {v : α} (ht : f t = v) (hu : f u = v) :
    f (if c then t else u) = v := by
  split
  · exact ht
  · exact hu

/-- What the counters of events and cycles, the clocks and the fields of the TBU page leave alone stays while time passes. -/
theorem elapse_keeps {α : Type} (f : State → α) (htrace : ∀ t code inst n, f (State.trace t code inst n) = f t)
    (hbusy : ∀ t e, f (State.busy t e) = f t)
    (hclock : ∀ (t : State) n d p b, b.stamp = t.tbu.stamp → f { t with now := n, dbg := d, pwr := p, tbu := b } = f t)
    (hfset : ∀ t g x, g.off < 4096 → f (State.fset t pgTBU g x) = f t) (e : Nat) (s : State) : f (elapse e s) = f s := by
  have hevents : f (if s.tclkOn && decide (s.fget pgPWR Reg.PWR_CTRL_STATE ≤ 1) then s.trace 8 0 (s.nclk e) else s) = f s :=
    State.ite_common f (htrace _ _ _ _) rfl
  unfold elapse
  dsimp only
  generalize (if s.tclkOn && decide (s.fget pgPWR Reg.PWR_CTRL_STATE ≤ 1) then s.trace 8 0 (s.nclk e) else s) = u at hevents ⊢
  have hcycles : f (if u.tclkOn then u.busy e else u) = f s := State.ite_common f ((hbusy u e).trans hevents) hevents
  generalize (if u.tclkOn then u.busy e else u) = v at hcycles ⊢
  exact State.ite_common f
    (State.ite_common f
      ((hfset _ _ _ (by decide)).trans ((hfset _ _ _ (by decide)).trans ((hclock v _ _ _ _ (by rfl)).trans hcycles)))
      ((hclock v _ _ _ _ (by rfl)).trans hcycles))
    ((hclock v _ _ _ v.tbu rfl).trans hcycles)

/-- The stamp of the last tick stays while the counter runs. -/
@[simp] theorem elapse_tickNs (e : Nat) (s : State) : (elapse e s).tickNs = s.tickNs := by
  refine elapse_keeps State.tickNs (fun t code inst n => ?_) (fun t e => ?_) (fun t _ _ _ b hb => ?_) (fun _ _ _ _ => rfl) e s
  · obtain ⟨_, h⟩ := t.trace_shape code inst n
    rw [h]
    rfl
  · obtain ⟨_, h⟩ := t.busy_shape e
    rw [h]
    rfl
  · exact congrArg (· / nsUnit) hb

/-- The freeze register stays while time passes: the counters on its page stand at other offsets. -/
theorem elapse_freeze (e : Nat) (s : State) : (elapse e s).reg pgDBG 0 0x044 = s.reg pgDBG 0 0x044 :=
  elapse_keeps (fun t => t.reg pgDBG 0 0x044) (fun t _ _ _ => t.reg_trace_of_offset _ _ _ _ _ (by decide) (by decide) (by decide))
    (fun t e => t.reg_busy e (by decide) (by decide) (by decide) (ne_pgWck_of_lt (by decide)) (by decide) (by decide))
    (fun _ _ _ _ _ _ => rfl)
    (fun _ _ _ hg => State.reg_fset_other _ _ _ (regKey_ne_of_page (by decide) (by decide) (by decide) hg (by decide))) e s

theorem State.snLive_congr {s t : State} {i : Sn} (hs : (t.sn i).supply = (s.sn i).supply)
    (hf : t.reg pgDBG 0 0x044 = s.reg pgDBG 0 0x044) : t.snLive i = s.snLive i := by
  have hflag : t.flag pgDBG Reg.DBG_FRZ_SNUFFERS = s.flag pgDBG Reg.DBG_FRZ_SNUFFERS := by
    unfold State.flag State.fget State.fgetI
    rw [show Reg.DBG_FRZ_SNUFFERS.off = 0x044 from rfl, hf]
  rw [State.snLive, State.snLive, hs, hflag]

@[simp] theorem elapse_snLive (e : Nat) (s : State) (i : Sn) : (elapse e s).snLive i = s.snLive i :=
  State.snLive_congr (by rw [elapse_sn]) (elapse_freeze e s)

/-! ## Snuffers of the state -/

@[simp] theorem State.sn_setSn_same (s : State) (i : Sn) (x : Snuffer) : (s.setSn i x).sn i = x := by cases i <;> rfl

theorem eq_snOther_of_ne : ∀ {i j : Sn}, j ≠ i → j = snOther i
  | .a, .a, h => absurd rfl h
  | .a, .b, _ => rfl
  | .b, .a, _ => rfl
  | .b, .b, h => absurd rfl h

theorem State.sn_setSn_other (s : State) {i j : Sn} (x : Snuffer) (h : j ≠ i) : (s.setSn i x).sn j = s.sn j := by
  obtain rfl := eq_snOther_of_ne h
  cases i <;> rfl

theorem pgSn_ne {i j : Sn} (h : j ≠ i) : pgSn i ≠ pgSn j := by
  obtain rfl := eq_snOther_of_ne h
  cases i <;> decide

@[simp] theorem State.reg_setSn (s : State) (i : Sn) (x : Snuffer) (p k o : Nat) : (s.setSn i x).reg p k o = s.reg p k o := by
  cases i <;> rfl

@[simp] theorem State.fget_setSn (s : State) (i : Sn) (x : Snuffer) (p : Nat) (f : Fld) : (s.setSn i x).fget p f = s.fget p f := by
  cases i <;> rfl

@[simp] theorem State.sn_setReg (s : State) (p k o : Nat) (v : Word32) (i : Sn) : (s.setReg p k o v).sn i = s.sn i := by
  cases i <;> rfl

@[simp] theorem State.sn_fset (s : State) (p : Nat) (f : Fld) (x : Nat) (i : Sn) : (s.fset p f x).sn i = s.sn i := by
  cases i <;> rfl

@[simp] theorem State.sn_fadd (s : State) (p : Nat) (f : Fld) (n : Nat) (i : Sn) : (s.fadd p f n).sn i = s.sn i := by
  cases i <;> rfl

@[simp] theorem State.sn_event (s : State) (p : Nat) (i : Sn) : (s.event p).sn i = s.sn i := by
  obtain ⟨_, _, _, h⟩ := s.event_shape p
  rw [h]
  cases i <;> rfl

@[simp] theorem State.sn_capture (s : State) (p : Nat) (e : Err) (addr : Nat) (i : Sn) : (s.capture p e addr).sn i = s.sn i := by
  obtain ⟨_, _, _, h⟩ := s.capture_shape p e addr
  rw [h]
  cases i <;> rfl

/-- An event writes INT_STATUS of its page alone. -/
theorem State.reg_event_other (s : State) {page p i o : Nat} (h : regKey page 0 0x018 ≠ regKey p i o) :
    (s.event page).reg p i o = s.reg p i o :=
  (State.reg_pendRise _ _ _ _ _ _).trans (State.reg_fset_other _ _ _ h)

end Sys2Proof.Machine
end

section
/-!
PROOF. What the Snuffers and the gate change as they sample lines, decide and stop: their own pages, outputs, Snuffers and gate, but no
verdict, and neither the launch buffer nor the alternate named (11 R284 to R291, R295).
-/

namespace Sys2Proof.Machine

open Sys2Proof

/-! ## Changes of the Snuffers and the gate -/

/-- What stays of a Snuffer that samples lines, decides or stops: its verdict, and its state unless that becomes STOPPED. -/
structure Snuffer.MayStop (x y : Snuffer) : Prop where
  verdict : y.verdict = x.verdict
  st : y.st = x.st ∨ y.st = .stopped

theorem Snuffer.mayStop_refl (x : Snuffer) : x.MayStop x := ⟨rfl, .inl rfl⟩

theorem Snuffer.MayStop.trans {x y z : Snuffer} (h : x.MayStop y) (h' : y.MayStop z) : x.MayStop z :=
  ⟨h'.verdict.trans h.verdict, h'.st.elim (fun e => h.st.imp e.trans e.trans) .inr⟩

/-- A Snuffer that has not stopped is in the state it was in. -/
theorem Snuffer.MayStop.st_eq {x y : Snuffer} (h : x.MayStop y) (hs : y.st ≠ .stopped) : y.st = x.st := h.st.resolve_right hs

/-- All that the Snuffers and the gate change as they sample lines, decide and stop: their own pages, outputs, the Snuffers as
`MayStop` says, and of the gate neither the launch buffer's records nor the alternate that the CCU has named. -/
structure State.SnuffersAct (s t : State) : Prop where
  shape : ∃ r o q a b g, t = { s with regs := r, out := o, msixPend := q, snA := a, snB := b, gate := g }
  reg : ∀ p i o, p ≠ pgSNA → p ≠ pgSNB → i < 256 → o < 4096 → t.reg p i o = s.reg p i o
  sn : ∀ i, (s.sn i).MayStop (t.sn i)
  gate : t.gate.recs = s.gate.recs ∧ t.gate.named = s.gate.named ∧ t.gate.namedFrame = s.gate.namedFrame

theorem State.snuffersAct_refl (s : State) : s.SnuffersAct s :=
  ⟨⟨_, _, _, _, _, _, rfl⟩, fun _ _ _ _ _ _ _ => rfl, fun i => (s.sn i).mayStop_refl, rfl, rfl, rfl⟩

section

variable {s t : State} (h : s.SnuffersAct t)

include h

theorem State.SnuffersAct.trans {u : State} (h' : t.SnuffersAct u) : s.SnuffersAct u := by
  obtain ⟨_, _, _, _, _, _, hs⟩ := h.shape
  obtain ⟨_, _, _, _, _, _, hs'⟩ := h'.shape
  obtain ⟨hr, hn, hf⟩ := h.gate
  obtain ⟨hr', hn', hf'⟩ := h'.gate
  exact ⟨⟨_, _, _, _, _, _, by rw [hs', hs]⟩, fun p i o hp hq hi ho => (h'.reg p i o hp hq hi ho).trans (h.reg p i o hp hq hi ho),
    fun i => (h.sn i).trans (h'.sn i), hr'.trans hr, hn'.trans hn, hf'.trans hf⟩

theorem State.SnuffersAct.mem : t.mem = s.mem := by obtain ⟨_, _, _, _, _, _, hs⟩ := h.shape; rw [hs]

theorem State.SnuffersAct.jobs : t.jobs = s.jobs := by obtain ⟨_, _, _, _, _, _, hs⟩ := h.shape; rw [hs]

theorem State.SnuffersAct.frm : t.frm = s.frm := by obtain ⟨_, _, _, _, _, _, hs⟩ := h.shape; rw [hs]

theorem State.SnuffersAct.tickNs : t.tickNs = s.tickNs := by obtain ⟨_, _, _, _, _, _, hs⟩ := h.shape; rw [hs]; rfl

theorem State.SnuffersAct.snTable : t.snTable = s.snTable := by obtain ⟨_, _, _, _, _, _, hs⟩ := h.shape; rw [hs]; rfl

theorem State.SnuffersAct.epoch : t.epoch = s.epoch := h.reg _ _ _ (by decide) (by decide) (by decide) (by decide)

end

/-- Folding acts is an act. -/
theorem State.foldl_snuffersAct {α : Type} {f : State → α → State} (hf : ∀ (t : State) x, t.SnuffersAct (f t x)) (l : List α)
    (s : State) : s.SnuffersAct (l.foldl f s) := by
  induction l generalizing s with
  | nil => exact s.snuffersAct_refl
  | cons x l ih => exact (hf s x).trans (ih (f s x))

theorem State.snuffersAct_ite {s t u : State} (c : Prop) [Decidable c] (ht : s.SnuffersAct t) (hu : s.SnuffersAct u) :
    s.SnuffersAct (if c then t else u) := by
  split
  · exact ht
  · exact hu

theorem State.setSn_snuffersAct (s : State) {i : Sn} {x : Snuffer} (hx : (s.sn i).MayStop x) : s.SnuffersAct (s.setSn i x) := by
  refine ⟨?_, fun p k o _ _ _ _ => s.reg_setSn i x p k o, fun j => ?_, ?_⟩
  · cases i <;> exact ⟨_, _, _, _, _, _, rfl⟩
  · by_cases hj : j = i
    · rw [hj, State.sn_setSn_same]
      exact hx
    · rw [State.sn_setSn_other _ _ hj]
      exact (s.sn j).mayStop_refl
  · cases i <;> exact ⟨rfl, rfl, rfl⟩

/-- The gate changes beside the launch buffer's records and the named alternate. -/
theorem State.gate_snuffersAct (s : State) {g : Gate} (hr : g.recs = s.gate.recs) (hn : g.named = s.gate.named)
    (hf : g.namedFrame = s.gate.namedFrame) : s.SnuffersAct { s with gate := g } :=
  ⟨⟨_, _, _, _, _, _, rfl⟩, fun _ _ _ _ _ _ _ => rfl, fun i => by cases i <;> exact Snuffer.mayStop_refl _, hr, hn, hf⟩

theorem pgSn_ne_of_ne {i : Sn} {p : Nat} (ha : p ≠ pgSNA) (hb : p ≠ pgSNB) : pgSn i ≠ p := by
  cases i
  · exact ha.symm
  · exact hb.symm

theorem State.setReg_snuffersAct (s : State) (i : Sn) {off : Nat} (v : Word32) (ho : off < 4096) :
    s.SnuffersAct (s.setReg (pgSn i) 0 off v) :=
  ⟨⟨_, _, _, _, _, _, rfl⟩,
    fun _ _ _ ha hb hk ho' => State.reg_setReg_other _ _ (regKey_ne_of_page (pgSn_ne_of_ne ha hb) (by decide) hk ho ho'),
    fun j => by rw [State.sn_setReg]; exact Snuffer.mayStop_refl _, rfl, rfl, rfl⟩

theorem State.fset_snuffersAct (s : State) (i : Sn) {f : Fld} (x : Nat) (ho : f.off < 4096) :
    s.SnuffersAct (s.fset (pgSn i) f x) := s.setReg_snuffersAct i _ ho

theorem State.fadd_snuffersAct (s : State) (i : Sn) {f : Fld} (n : Nat) (ho : f.off < 4096) :
    s.SnuffersAct (s.fadd (pgSn i) f n) := s.fset_snuffersAct i _ ho

theorem State.event_snuffersAct (s : State) (i : Sn) : s.SnuffersAct (s.event (pgSn i)) := by
  obtain ⟨r, o, q, h⟩ := s.event_shape (pgSn i)
  refine ⟨⟨_, _, _, _, _, _, h⟩, fun _ _ _ ha hb hk ho => ?_, fun j => ?_, by rw [h]; exact ⟨rfl, rfl, rfl⟩⟩
  · exact s.reg_event_other (regKey_ne_of_page (pgSn_ne_of_ne ha hb) (by decide) hk (by decide) ho)
  · rw [State.sn_event]
    exact Snuffer.mayStop_refl _

theorem State.capture_snuffersAct (s : State) (i : Sn) (e : Err) (addr : Nat) : s.SnuffersAct (s.capture (pgSn i) e addr) := by
  obtain ⟨r, o, q, h⟩ := s.capture_shape (pgSn i) e addr
  refine ⟨⟨_, _, _, _, _, _, h⟩, fun p k o ha hb hk ho => ?_, fun j => ?_, by rw [h]; exact ⟨rfl, rfl, rfl⟩⟩
  · have hkey (o' : Nat) (ho' : o' < 4096) : regKey p k o ≠ regKey (pgSn i) 0 o' :=
      regKey_ne_of_page (pgSn_ne_of_ne ha hb).symm hk (by decide) ho ho'
    exact s.reg_capture_other _ e addr (by simp [hkey])
  · rw [State.sn_capture]
    exact Snuffer.mayStop_refl _

theorem State.pulse_snuffersAct (s : State) (line : Nat) : s.SnuffersAct (s.pulse line) := by
  unfold State.pulse
  split
  · exact ⟨⟨_, _, _, _, _, _, rfl⟩, fun _ _ _ _ _ _ _ => rfl, fun i => by cases i <;> exact ⟨rfl, .inl rfl⟩, rfl, rfl, rfl⟩
  · exact s.snuffersAct_refl

/-- A Snuffer's state changes to STOPPED. -/
theorem State.snEnter_stopped_snuffersAct (s : State) (i : Sn) : s.SnuffersAct (s.snEnter i .stopped) :=
  (s.setSn_snuffersAct (x := { s.sn i with st := .stopped }) ⟨rfl, .inr rfl⟩).trans (State.fset_snuffersAct _ i _ (by decide))

theorem State.commandStop_snuffersAct (s : State) (i : Sn) (cause line : Nat) : s.SnuffersAct (s.commandStop i cause line) := by
  unfold State.commandStop
  refine State.snuffersAct_ite _ ?_ (State.snuffersAct_ite _ (s.fset_snuffersAct i line (by decide)) s.snuffersAct_refl)
  have hsafe := s.setSn_snuffersAct (i := i) (x := { s.sn i with safe := false, stopFrame := some s.epoch }) ⟨rfl, .inl rfl⟩
  have hcause := (hsafe.trans (State.snEnter_stopped_snuffersAct _ i)).trans
    (State.fset_snuffersAct _ i (f := Reg.SNA_STATE_CAUSE) cause (by decide))
  exact (hcause.trans (State.snuffersAct_ite _ (State.fset_snuffersAct _ i line (by decide)) (State.snuffersAct_refl _))).trans
    (State.event_snuffersAct _ i)

theorem State.lineAct_snuffersAct (s : State) (i : Sn) (line : Nat) : s.SnuffersAct (s.lineAct i line) := by
  unfold State.lineAct
  refine State.snuffersAct_ite _ s.snuffersAct_refl ?_
  have hcount := (s.fadd_snuffersAct i (f := Reg.SNA_LINES_COUNT) 1 (by decide)).trans (State.event_snuffersAct _ i)
  exact hcount.trans (State.snuffersAct_ite _ (State.setSn_snuffersAct _ ⟨rfl, .inl rfl⟩)
    (State.snuffersAct_ite _ (State.commandStop_snuffersAct _ i 3 line) (State.snuffersAct_refl _)))

theorem State.drainLines_snuffersAct (s : State) (i : Sn) : s.SnuffersAct (s.drainLines i) :=
  (s.setSn_snuffersAct (x := { s.sn i with lines := [] }) ⟨rfl, .inl rfl⟩).trans
    (State.foldl_snuffersAct (fun t l => t.lineAct_snuffersAct i l) _ _)

theorem State.gateMissed_snuffersAct (s : State) : s.SnuffersAct s.gateMissed := by
  unfold State.gateMissed
  have hdrop : s.SnuffersAct { s with gate := { s.gate with out := none, trajNext := none } } := s.gate_snuffersAct rfl rfl rfl
  split
  · exact State.snuffersAct_ite _ (hdrop.trans (State.pulse_snuffersAct _ 347)) s.snuffersAct_refl
  · exact s.snuffersAct_refl

theorem State.snDecide_snuffersAct (s : State) (i : Sn) (row : Nat) : s.SnuffersAct (s.snDecide i row) := by
  unfold State.snDecide
  refine State.snuffersAct_ite _ s.snuffersAct_refl ?_
  dsimp only
  generalize (if row = 3 then (s.sn i).hist else
    (s.sn i).hist <<< 1 ||| if (row == 5 || row == 6 || (s.sn i).counted) = true then 1 else 0) = hist
  have hshift := (s.setSn_snuffersAct (i := i) (x := { s.sn i with hist := hist, counted := false }) ⟨rfl, .inl rfl⟩).trans
    (State.setReg_snuffersAct _ i (off := 0x04C) hist (by decide))
  have hcount := hshift.trans (State.snuffersAct_ite ((row == 5 || row == 6) = true)
    ((State.fadd_snuffersAct _ i (f := Reg.SNA_DISPUTES_COUNT) 1 (by decide)).trans
      (State.capture_snuffersAct _ i .comparatorDispute 0)) (State.snuffersAct_refl _))
  exact State.snuffersAct_ite _ (hcount.trans (State.commandStop_snuffersAct _ i 1 0))
    (State.snuffersAct_ite _ (hcount.trans (State.commandStop_snuffersAct _ i 2 0)) hcount)

theorem State.captureStop_snuffersAct (s : State) : s.SnuffersAct s.captureStop := by
  unfold State.captureStop
  refine State.snuffersAct_ite _ s.snuffersAct_refl ?_
  split
  · exact s.gate_snuffersAct rfl rfl rfl
  · exact s.snuffersAct_refl

end Sys2Proof.Machine
end

section
/-!
PROOF. The stops of the Snuffers: a commanded stop, the history of DISPUTED frames, and a Snuffer without a message of the other
(11 R288 to R292).
-/

namespace Sys2Proof.Machine

open Sys2Proof

/-! ## Commanded stops (11 R289 to R292) -/

/-- A stop other than by a line does nothing at a Snuffer that is neither ARMED nor RUNNING. -/
theorem State.commandStop_of_inactive {s : State} {i : Sn} {cause : Nat} (line : Nat) (h : (s.sn i).st.active = false)
    (hc : cause ≠ 3) : s.commandStop i cause line = s := by
  simp only [State.commandStop, h, hc, and_false, Bool.false_eq_true, if_false]

/-- A stop touches no other Snuffer. -/
theorem State.sn_commandStop_other (s : State) {i j : Sn} (cause line : Nat) (h : j ≠ i) :
    (s.commandStop i cause line).sn j = s.sn j := by
  unfold State.commandStop State.snEnter
  repeat' split
  all_goals simp only [State.sn_event, State.sn_fset, State.sn_setSn_other _ _ h]

/-- A stop writes SNA_STATE and INT_STATUS of its Snuffer's page alone. -/
theorem State.reg_commandStop_other (s : State) {i : Sn} (cause line : Nat) {p k o : Nat}
    (h40 : regKey (pgSn i) 0 0x040 ≠ regKey p k o) (h18 : regKey (pgSn i) 0 0x018 ≠ regKey p k o) :
    (s.commandStop i cause line).reg p k o = s.reg p k o := by
  have hstate (t : State) (f : Fld) (x : Nat) (hf : f.off = 0x040) : (t.fset (pgSn i) f x).reg p k o = t.reg p k o :=
    State.reg_fset_other _ _ _ (by rw [hf]; exact h40)
  unfold State.commandStop State.snEnter
  repeat' split
  all_goals simp only [State.reg_event_other _ h18, hstate _ Reg.SNA_STATE_LINE _ rfl, hstate _ Reg.SNA_STATE_CAUSE _ rfl,
    hstate _ Reg.SNA_STATE_STATE _ rfl, State.reg_setSn]

section

variable {s : State} {i : Sn} (cause line : Nat) (h : (s.sn i).st.active = true)

include h

/-- An ARMED or RUNNING Snuffer stops, its SAFE output low. -/
theorem State.sn_commandStop_of_active :
    (s.commandStop i cause line).sn i = { s.sn i with st := .stopped, safe := false, stopFrame := some s.epoch } := by
  unfold State.commandStop State.snEnter
  rw [if_pos h]
  dsimp only
  split <;> simp only [State.sn_event, State.sn_fset, State.sn_setSn_same]

/-- Its page shows the cause. -/
theorem State.cause_commandStop_of_active (hc : cause < 8) :
    (s.commandStop i cause line).fget (pgSn i) Reg.SNA_STATE_CAUSE = cause := by
  have hevent (t : State) : (t.event (pgSn i)).fget (pgSn i) Reg.SNA_STATE_CAUSE = t.fget (pgSn i) Reg.SNA_STATE_CAUSE :=
    congrArg (Fld.get _) (t.reg_event_other (regKey_ne_of_off (by decide)))
  unfold State.commandStop
  rw [if_pos h]
  dsimp only
  rw [hevent]
  split
  · rw [State.fget_fset_other _ _ _ _ _ (by decide) (by decide) (by decide), State.fget_fset_same _ _ _ (by decide)]
    exact Nat.mod_eq_of_lt hc
  · rw [State.fget_fset_same _ _ _ (by decide)]
    exact Nat.mod_eq_of_lt hc

end

/-! ## The history (11 R288, R289) -/

/-- A Snuffer whose history has shifted for a DISPUTED frame, before the history is judged. -/
def State.disputed (s : State) (i : Sn) (hist : Word32) : State :=
  ((((s.setSn i { s.sn i with hist := hist, counted := false }).setReg (pgSn i) 0 0x04C hist).fadd (pgSn i)
    Reg.SNA_DISPUTES_COUNT 1).capture (pgSn i) .comparatorDispute 0)

theorem SnState.inService_of_active {x : SnState} (h : x.active = true) : x.inService = true := by
  cases x with
  | armed => rfl
  | running => rfl
  | reset | testing | stopped | failed => cases h

/-- The history judged: two consecutive bits or three of 32 stop the Snuffer. -/
def State.histJudged (s : State) (i : Sn) (hist : Word32) : State :=
  if hist.toNat % 4 = 3 then s.commandStop i 1 0 else if 3 ≤ histCount hist then s.commandStop i 2 0 else s

theorem State.histJudged_of_consecutive (s : State) (i : Sn) {hist : Word32} (h : hist.toNat % 4 = 3) :
    s.histJudged i hist = s.commandStop i 1 0 := if_pos h

theorem State.histJudged_of_three (s : State) (i : Sn) {hist : Word32} (h : hist.toNat % 4 ≠ 3) (h3 : 3 ≤ histCount hist) :
    s.histJudged i hist = s.commandStop i 2 0 := (if_neg h).trans (if_pos h3)

theorem State.histJudged_of_clear (s : State) (i : Sn) {hist : Word32} (h : hist.toNat % 4 ≠ 3) (h3 : histCount hist < 3) :
    s.histJudged i hist = s := (if_neg h).trans (if_neg (Nat.not_le.2 h3))

/-- A DISPUTED frame sets bit 0 of the history. -/
theorem State.snDecide_of_disputed {s : State} {i : Sn} {row : Nat} (ha : (s.sn i).st.active = true) (hr : row = 5 ∨ row = 6) :
    s.snDecide i row = (s.disputed i (((s.sn i).hist <<< 1) ||| 1)).histJudged i (((s.sn i).hist <<< 1) ||| 1) := by
  have h3 : row ≠ 3 := by omega
  have hdis : (row == 5 || row == 6) = true := by simpa using hr
  simp only [State.snDecide, SnState.inService_of_active ha, h3, hdis, Bool.not_true, Bool.true_or, Bool.false_eq_true,
    if_false, if_true, State.disputed, State.histJudged]

theorem State.sn_disputed (s : State) (i : Sn) (hist : Word32) :
    (s.disputed i hist).sn i = { s.sn i with hist := hist, counted := false } := by
  simp only [State.disputed, State.sn_capture, State.sn_fadd, State.sn_setReg, State.sn_setSn_same]

/-- A DISPUTED frame is counted. -/
theorem State.disputes_disputed (s : State) (i : Sn) (hist : Word32) :
    (s.disputed i hist).fget (pgSn i) Reg.SNA_DISPUTES_COUNT = min (s.fget (pgSn i) Reg.SNA_DISPUTES_COUNT + 1) (2 ^ 32 - 1) := by
  have hcapture (t : State) : (t.capture (pgSn i) .comparatorDispute 0).fget (pgSn i) Reg.SNA_DISPUTES_COUNT =
      t.fget (pgSn i) Reg.SNA_DISPUTES_COUNT :=
    congrArg (Fld.get _) (t.reg_capture_other _ _ _ (by simp [regKey, Reg.SNA_DISPUTES_COUNT]))
  have hold : ((s.setSn i { s.sn i with hist := hist, counted := false }).setReg (pgSn i) 0 0x04C hist).fget (pgSn i)
      Reg.SNA_DISPUTES_COUNT = s.fget (pgSn i) Reg.SNA_DISPUTES_COUNT :=
    (congrArg (Fld.get _) (State.reg_setReg_other _ _ (regKey_ne_of_off (by decide)))).trans (s.fget_setSn i _ _ _)
  rw [State.disputed, hcapture]
  refine (State.fget_fset_same _ _ Reg.SNA_DISPUTES_COUNT (by decide) _).trans ?_
  rw [show State.fgetI _ (pgSn i) 0 Reg.SNA_DISPUTES_COUNT = s.fget (pgSn i) Reg.SNA_DISPUTES_COUNT from hold]
  exact Nat.mod_eq_of_lt (Nat.lt_of_le_of_lt (Nat.min_le_right _ _) (by decide))

/-- The count of DISPUTED frames stays at a stop. -/
theorem State.disputes_commandStop (s : State) (i : Sn) (cause line : Nat) :
    (s.commandStop i cause line).fget (pgSn i) Reg.SNA_DISPUTES_COUNT = s.fget (pgSn i) Reg.SNA_DISPUTES_COUNT :=
  congrArg (Fld.get _) (s.reg_commandStop_other cause line (regKey_ne_of_off (by decide)) (regKey_ne_of_off (by decide)))

/-- Judging the history keeps the history and the count of DISPUTED frames. -/
theorem State.histJudged_keeps {s : State} {i : Sn} (hist : Word32) (ha : (s.sn i).st.active = true) :
    ((s.histJudged i hist).sn i).hist = (s.sn i).hist ∧
      (s.histJudged i hist).fget (pgSn i) Reg.SNA_DISPUTES_COUNT = s.fget (pgSn i) Reg.SNA_DISPUTES_COUNT := by
  have hstop (cause : Nat) : ((s.commandStop i cause 0).sn i).hist = (s.sn i).hist := by
    rw [State.sn_commandStop_of_active cause 0 ha]
  unfold State.histJudged
  split
  · exact ⟨hstop 1, s.disputes_commandStop i 1 0⟩
  · split
    · exact ⟨hstop 2, s.disputes_commandStop i 2 0⟩
    · exact ⟨rfl, rfl⟩

/-- A DISPUTED frame is counted and enters the history, which stops its Snuffer at two consecutive bits or three of 32. -/
theorem State.snDecide_disputed {s : State} {i : Sn} {row : Nat} {h : Word32} (ha : (s.sn i).st.active = true)
    (hr : row = 5 ∨ row = 6) (hh : h = ((s.sn i).hist <<< 1) ||| 1) :
    (s.snDecide i row).fget (pgSn i) Reg.SNA_DISPUTES_COUNT = min (s.fget (pgSn i) Reg.SNA_DISPUTES_COUNT + 1) (2 ^ 32 - 1) ∧
    ((s.snDecide i row).sn i).hist = h ∧
    (h.toNat % 4 = 3 → ((s.snDecide i row).sn i).st = .stopped ∧ (s.snDecide i row).fget (pgSn i) Reg.SNA_STATE_CAUSE = 1) ∧
    (h.toNat % 4 ≠ 3 → 3 ≤ histCount h → ((s.snDecide i row).sn i).st = .stopped ∧
      (s.snDecide i row).fget (pgSn i) Reg.SNA_STATE_CAUSE = 2) ∧
    (h.toNat % 4 ≠ 3 → histCount h < 3 → ((s.snDecide i row).sn i).st = (s.sn i).st) := by
  have hsn := s.sn_disputed i h
  have hact : ((s.disputed i h).sn i).st.active = true := by rw [hsn]; exact ha
  obtain ⟨hhist, hcount⟩ := State.histJudged_keeps h hact
  rw [State.snDecide_of_disputed ha hr, ← hh]
  refine ⟨hcount.trans (s.disputes_disputed i h), hhist.trans (by rw [hsn]), fun h2 => ?_, fun h2 h3 => ?_, fun h2 h3 => ?_⟩
  · rw [State.histJudged_of_consecutive _ _ h2, State.sn_commandStop_of_active _ _ hact]
    exact ⟨rfl, State.cause_commandStop_of_active 1 0 hact (by decide)⟩
  · rw [State.histJudged_of_three _ _ h2 h3, State.sn_commandStop_of_active _ _ hact]
    exact ⟨rfl, State.cause_commandStop_of_active 2 0 hact (by decide)⟩
  · rw [State.histJudged_of_clear _ _ h2 h3, hsn]

/-! ## Silent Snuffers (11 R290) -/

/-- A Snuffer has stopped because the other stopped or was silent. -/
structure State.StoppedByOther (s : State) (i : Sn) : Prop where
  st : (s.sn i).st = .stopped
  safe : (s.sn i).safe = false
  cause : s.fget (pgSn i) Reg.SNA_STATE_CAUSE = 6

theorem State.commandStop_stops {s : State} {i : Sn} (h : (s.sn i).st.active = true) : (s.commandStop i 6 0).StoppedByOther i := by
  have hsn := State.sn_commandStop_of_active 6 0 h
  exact ⟨by rw [hsn], by rw [hsn], State.cause_commandStop_of_active 6 0 h (by decide)⟩

/-- A further stop of that cause leaves a Snuffer stopped so. -/
theorem State.StoppedByOther.commandStop {s : State} {j : Sn} (h : s.StoppedByOther j) (i : Sn) :
    (s.commandStop i 6 0).StoppedByOther j := by
  by_cases hj : j = i
  · subst hj
    rw [State.commandStop_of_inactive 0 (by rw [h.st]; rfl) (by decide)]
    exact h
  · have hsn := s.sn_commandStop_other 6 0 hj
    have hkey (o : Nat) (ho : o < 4096) : regKey (pgSn i) 0 o ≠ regKey (pgSn j) 0 0x040 :=
      regKey_ne_of_page (pgSn_ne hj) (by decide) (by decide) ho (by decide)
    have hreg := s.reg_commandStop_other 6 0 (hkey 0x040 (by decide)) (hkey 0x018 (by decide))
    exact ⟨by rw [hsn]; exact h.st, by rw [hsn]; exact h.safe, (congrArg (Fld.get _) hreg).trans h.cause⟩

/-- Whether a Snuffer runs without a message of the other. -/
def State.silent (s : State) (i : Sn) : Bool :=
  s.snLive i && (s.sn i).st.active && (s.sn i).tickLast.isSome && (s.sn i).other.isNone

theorem State.silentStop_of_silent {s : State} {i : Sn} (h : s.silent i = true) :
    s.silentStop i = (s.commandStop i 6 0).otherStops i := if_pos h

theorem State.silentStop_of_not_silent {s : State} {i : Sn} (h : s.silent i = false) : s.silentStop i = s :=
  if_neg (Bool.eq_false_iff.1 h)

theorem State.StoppedByOther.otherStops {s : State} {j : Sn} (h : s.StoppedByOther j) (i : Sn) : (s.otherStops i).StoppedByOther j := by
  unfold State.otherStops
  split
  · exact h.commandStop _
  · exact h

theorem State.StoppedByOther.silentStop {s : State} {j : Sn} (h : s.StoppedByOther j) (i : Sn) : (s.silentStop i).StoppedByOther j := by
  unfold State.silentStop
  split
  · exact (h.commandStop i).otherStops i
  · exact h

/-- A silent Snuffer stops, and the other with it. -/
theorem State.silentStop_stops {s : State} {i j : Sn} (hs : s.silent i = true) (hl : s.snLive j = true)
    (ha : (s.sn j).st.active = true) : (s.silentStop i).StoppedByOther j := by
  rw [State.silentStop_of_silent hs]
  by_cases hj : j = i
  · subst hj
    exact (State.commandStop_stops ha).otherStops j
  · have hsn := s.sn_commandStop_other 6 0 hj
    have hfreeze := (s.commandStop_snuffersAct i 6 0).reg pgDBG 0 0x044 (by decide) (by decide) (by decide) (by decide)
    have hlive : (s.commandStop i 6 0).snLive j = true := (State.snLive_congr (by rw [hsn]) hfreeze).trans hl
    rw [State.otherStops, ← eq_snOther_of_ne hj, if_pos hlive]
    exact State.commandStop_stops (by rw [hsn]; exact ha)

/-- Where one of the Snuffers is silent, each that runs stops. -/
theorem State.silentStops_stop {s : State} {i j : Sn} (hs : s.silent i = true) (hl : s.snLive j = true)
    (ha : (s.sn j).st.active = true) : ((s.silentStop .a).silentStop .b).StoppedByOther j := by
  by_cases h : s.silent .a = true
  · exact (State.silentStop_stops h hl ha).silentStop .b
  · rw [State.silentStop_of_not_silent (Bool.eq_false_iff.2 h)]
    cases i
    · exact absurd hs h
    · exact State.silentStop_stops hs hl ha

theorem State.silent_of_other {s : State} {i : Sn} (h : (s.sn i).other.isSome = true) : s.silent i = false := by
  rw [State.silent, Option.isNone_eq_false_iff.2 h, Bool.and_false]

/-- Where each Snuffer has the other's message, none stops. -/
theorem State.silentStops_of_other {s : State} {i : Sn} (h : (s.sn i).other.isSome = true)
    (ho : (s.sn (snOther i)).other.isSome = true) : (s.silentStop .a).silentStop .b = s := by
  have hnone (j : Sn) : s.silent j = false := by
    by_cases hj : j = i
    · rw [hj]
      exact State.silent_of_other h
    · rw [eq_snOther_of_ne hj]
      exact State.silent_of_other ho
  rw [State.silentStop_of_not_silent (hnone .a), State.silentStop_of_not_silent (hnone .b)]

theorem State.otherStops_snuffersAct (s : State) (i : Sn) : s.SnuffersAct (s.otherStops i) :=
  State.snuffersAct_ite _ (s.commandStop_snuffersAct _ 6 0) s.snuffersAct_refl

theorem State.silentStop_snuffersAct (s : State) (i : Sn) : s.SnuffersAct (s.silentStop i) :=
  State.snuffersAct_ite _ ((s.commandStop_snuffersAct i 6 0).trans (State.otherStops_snuffersAct _ i)) s.snuffersAct_refl

/-- VERDICT_TIMEOUT at P − 4 µs of a Snuffer's frame. -/
theorem exec_verdictTimeout_of_due {s : State} {e : Nat} (h : s.silentDue e s.snA = true ∨ s.silentDue e s.snB = true) :
    exec (.verdictTimeout e) s = .next (((elapse e s).silentStop .a).silentStop .b) :=
  congrArg Host.Outcome.next (if_pos (Bool.or_eq_true_iff.2 h))

/-- VERDICT_TIMEOUT stops each running Snuffer where one that runs has no message of the other, and none where each has. -/
theorem verdictTimeout_stops {s : State} {e : Nat} {i : Sn} (hd : s.silentDue e s.snA = true ∨ s.silentDue e s.snB = true)
    (hl : s.snLive i = true) (ha : (s.sn i).st.active = true) (ht : (s.sn i).tickLast.isSome = true) :
    ∃ t, exec (.verdictTimeout e) s = .next t ∧ t.mem = s.mem ∧
      ((s.sn i).other = none → (t.sn i).st = .stopped ∧ (t.sn i).safe = false ∧ t.fget (pgSn i) Reg.SNA_STATE_CAUSE = 6) ∧
      ((s.sn i).other.isSome = true → (s.sn (snOther i)).other.isSome = true → (t.sn i).st = (s.sn i).st) ∧
      ((s.sn (snOther i)).other = none → s.snLive (snOther i) = true → (s.sn (snOther i)).st.active = true →
        (s.sn (snOther i)).tickLast.isSome = true → (t.sn i).st = .stopped) := by
  have hsilent {j : Sn} (hl : s.snLive j = true) (ha : (s.sn j).st.active = true) (ht : (s.sn j).tickLast.isSome = true)
      (ho : (s.sn j).other = none) : (elapse e s).silent j = true := by
    simp only [State.silent, elapse_snLive, elapse_sn, hl, ha, ht, ho, Option.isNone_none, Bool.and_self]
  have hstop {j : Sn} (h : (elapse e s).silent j = true) : (((elapse e s).silentStop .a).silentStop .b).StoppedByOther i :=
    State.silentStops_stop h (by rw [elapse_snLive]; exact hl) (by rw [elapse_sn]; exact ha)
  have hmem := ((State.silentStop_snuffersAct (elapse e s) .a).trans (State.silentStop_snuffersAct _ .b)).mem
  refine ⟨_, exec_verdictTimeout_of_due hd, hmem.trans (elapse_mem e s), fun ho => ?_, fun h ho => ?_, fun ho hl' ha' ht' => ?_⟩
  · obtain ⟨hst, hsafe, hcause⟩ := hstop (hsilent hl ha ht ho)
    exact ⟨hst, hsafe, hcause⟩
  · rw [State.silentStops_of_other (i := i) (by rw [elapse_sn]; exact h) (by rw [elapse_sn]; exact ho), elapse_sn]
  · exact (hstop (hsilent hl' ha' ht' ho)).st

end Sys2Proof.Machine
end

section
/-!
PROOF. The verdict gate's decision: its parts, the frame it makes, the rows of Table 6 that send TRAJ and STOP, and the decision where two
RUNNING Snuffers agree (11 R284 to R289).
-/

namespace Sys2Proof.Machine

open Sys2Proof

/-! ## The parts of a decision (11 R284 to R289) -/

/-- KIND of the frame that a row sends. -/
def gateKind (row : Nat) : Nat := if row = 4 then 1 else if row = 5 then 2 else 3

/-- Whether both Snuffers are ARMED or RUNNING. -/
def State.bothActive (s : State) : Bool := s.snA.st.active && s.snB.st.active

/-- The state in which the rows are judged: the waiting pulses have been sampled. -/
def State.gateSampled (s : State) : State :=
  let t := (s.gateMissed.drainLines .a).drainLines .b
  if t.snA.st.active ∧ t.snB.st.active then { t with gate := { t.gate with stopped := false } } else t

/-- The alternate that the CCU has named for the present frame. -/
def State.namedNow (s : State) : Option Nat := if s.gate.namedFrame = s.epoch then s.gate.named else none

/-- What the row does at the Snuffers: the histories shift, and verdicts that differ stop both. -/
def State.rowActed (s : State) (row : Nat) : State :=
  let t := (s.snDecide .a row).snDecide .b row
  if row = 2 then (t.commandStop .a 4 0).commandStop .b 4 0 else t

/-- The row whose frame is sent: a stop at this decision makes it the first. -/
def State.sentRow (s : State) (row : Nat) : Nat :=
  if s.bothActive && !(s.rowActed row).bothActive && 3 ≤ row then 1 else row

/-- The state that makes the frame. -/
def State.rowSettled (s : State) (row : Nat) : State :=
  (if s.sentRow row = 6 then ((s.rowActed row).commandStop .a 5 0).commandStop .b 5 0 else s.rowActed row).captureStop

/-- The frame is made and the Snuffers' pages show the decision. -/
def State.gateMade (s : State) (row : Nat) (alt : Option Nat) (p : Nat) : State :=
  ((s.buildGate row alt p).snOutcome .a row (gateKind row) alt).snOutcome .b row (gateKind row) alt

/-- The row that a decision takes, and the one whose frame it sends. -/
def State.rowTaken (s : State) : Nat := s.gateSampled.gateRow s.gateSampled.namedNow s.pubNs
def State.rowSent (s : State) : Nat := s.gateSampled.sentRow s.rowTaken

theorem State.gateSampled_snuffersAct (s : State) : s.SnuffersAct s.gateSampled := by
  have hdrain := (s.gateMissed_snuffersAct.trans (State.drainLines_snuffersAct _ .a)).trans (State.drainLines_snuffersAct _ .b)
  have harm : ((s.gateMissed.drainLines .a).drainLines .b).SnuffersAct s.gateSampled :=
    State.snuffersAct_ite _ (State.gate_snuffersAct _ rfl rfl rfl) (State.snuffersAct_refl _)
  exact hdrain.trans harm

/-- A decision samples, judges, acts, and makes its frame. -/
theorem State.gateDecide_eq (s : State) :
    s.gateDecide =
      (let t := (s.gateSampled.rowSettled s.rowTaken).gateMade s.rowSent s.gateSampled.namedNow s.pubNs
       { t with gate := { t.gate with decided := true } }) := by
  have hdrain := (s.gateMissed_snuffersAct.trans (State.drainLines_snuffersAct _ .a)).trans (State.drainLines_snuffersAct _ .b)
  have hp : ((s.gateMissed.drainLines .a).drainLines .b).pubNs = s.pubNs := by
    rw [State.pubNs, hdrain.tickNs, hdrain.frm, State.pubNs]
  rw [State.rowSent, State.rowTaken, ← hp]
  rfl

theorem State.rowActed_snuffersAct (s : State) (row : Nat) : s.SnuffersAct (s.rowActed row) := by
  have hshift := (s.snDecide_snuffersAct .a row).trans (State.snDecide_snuffersAct _ .b row)
  exact State.snuffersAct_ite _
    ((hshift.trans (State.commandStop_snuffersAct _ .a 4 0)).trans (State.commandStop_snuffersAct _ .b 4 0)) hshift

theorem State.rowSettled_snuffersAct (s : State) (row : Nat) : s.SnuffersAct (s.rowSettled row) := by
  have hact := s.rowActed_snuffersAct row
  have hstop := State.snuffersAct_ite (s.sentRow row = 6)
    ((hact.trans (State.commandStop_snuffersAct _ .a 5 0)).trans (State.commandStop_snuffersAct _ .b 5 0)) hact
  exact hstop.trans (State.captureStop_snuffersAct _)

/-! ## The frame a decision makes (11 R285, R286) -/

/-- KIND follows HDR. -/
theorem gateFrame_kind (hdr : List Byte) (kind flags seq : Nat) (frame src : Word32) (p : Nat) (valid : List Byte)
    (alt cause : Nat) (rec_ : List Byte) :
    (gateFrame hdr kind flags seq frame src p valid alt cause rec_)[hdr.length]? = some (BitVec.ofNat 8 kind) := by
  simp only [gateFrame, toLE, List.append_assoc, List.getElem?_append_right (Nat.le_refl _), Nat.sub_self, List.cons_append,
    List.getElem?_cons_zero]

/-- What making the frame of a row changes: the waiting frame, and for row 4 what the hold record becomes. -/
theorem State.buildGate_shape (s : State) (row : Nat) (alt : Option Nat) (p : Nat) :
    ∃ d bs next, s.buildGate row alt p = { s with draws := d, gate := { s.gate with out := some (p, bs), trajNext := next } } ∧
      bs[s.snTable.hdr.length]? = some (BitVec.ofNat 8 (gateKind row)) ∧
      (row = 4 → next = some (s.gate.recs.getD (alt.getD 0) [], s.epoch, p, alt.getD 0)) := by
  unfold State.buildGate gateKind
  by_cases h4 : row = 4
  · simp only [h4, if_true]
    exact ⟨_, _, _, rfl, gateFrame_kind .., fun _ => rfl⟩
  · by_cases h5 : row = 5
    · simp only [h5, if_true]
      exact ⟨_, _, _, rfl, gateFrame_kind .., fun h => absurd h (by decide)⟩
    · simp only [h4, h5, if_false]
      split
      · exact ⟨_, _, _, rfl, gateFrame_kind .., fun h => h.elim⟩
      · repeat' split
        all_goals exact ⟨_, _, _, rfl, gateFrame_kind .., fun h => h.elim⟩

/-- Showing the decision changes registers and Snuffers alone. -/
theorem State.snOutcome_shape (s : State) (i : Sn) (row kind : Nat) (alt : Option Nat) :
    ∃ r a b, s.snOutcome i row kind alt = { s with regs := r, snA := a, snB := b } := by
  unfold State.snOutcome State.snEnter
  split
  · exact ⟨_, _, _, rfl⟩
  · dsimp only
    generalize (if row = 4 then 0 else if row = 5 ∨ row = 6 then 1 else if row = 3 then 3 else 2) = outcome
    split
    · cases i <;> exact ⟨_, _, _, rfl⟩
    · exact ⟨_, _, _, rfl⟩

/-- A decision makes one frame for P, of the KIND of the row it sends. -/
theorem State.gateDecide_sends (s : State) :
    ∃ bs, s.gateDecide.gate.decided = true ∧ s.gateDecide.gate.out = some (s.pubNs, bs) ∧ s.gateDecide.mem = s.mem ∧
      s.gateDecide.jobs = s.jobs ∧ bs[s.snTable.hdr.length]? = some (BitVec.ofNat 8 (gateKind s.rowSent)) := by
  have hact := s.gateSampled_snuffersAct.trans (s.gateSampled.rowSettled_snuffersAct s.rowTaken)
  obtain ⟨_, bs, _, hb, hkind, -⟩ := (s.gateSampled.rowSettled s.rowTaken).buildGate_shape s.rowSent s.gateSampled.namedNow s.pubNs
  obtain ⟨_, _, _, ha⟩ := ((s.gateSampled.rowSettled s.rowTaken).buildGate s.rowSent s.gateSampled.namedNow s.pubNs).snOutcome_shape
    .a s.rowSent (gateKind s.rowSent) s.gateSampled.namedNow
  obtain ⟨_, _, _, hb'⟩ := State.snOutcome_shape _ .b s.rowSent (gateKind s.rowSent) s.gateSampled.namedNow
  rw [hact.snTable] at hkind
  rw [State.gateDecide_eq, State.gateMade, hb', ha, hb]
  exact ⟨bs, rfl, rfl, hact.mem, hact.jobs, hkind⟩

/-! ## The rows (11 Table 6) -/

/-- A Snuffer that is not down: neither STOPPED nor FAILED. -/
def Snuffer.Up (x : Snuffer) : Prop := x.st ≠ .stopped ∧ x.st ≠ .failed

/-- Both Snuffers pass alternate `r` with equal verdicts, and the CCU has named it. -/
structure State.AgreedOn (s : State) (alt : Option Nat) (x y : Verdict) (r : Nat) : Prop where
  verdictA : s.snA.verdict = some x
  verdictB : s.snB.verdict = some y
  agreedA : x.agreed = true
  agreedB : y.agreed = true
  mask : x.mask = y.mask
  named : alt = some r
  passed : x.mask.testBit r = true

theorem Verdict.differs_eq_false_iff (x y : Verdict) : x.differs y = false ↔ x.agreed = y.agreed ∧ x.mask = y.mask := by
  simp [Verdict.differs]

/-- Row 1 takes a missing verdict. -/
theorem State.gateRow_of_missing {s : State} (alt : Option Nat) (p : Nat) (h : s.snA.verdict = none) : s.gateRow alt p = 1 := by
  rw [State.gateRow, h]

/-- Whether both verdicts are AGREED and the first passes the alternate named. -/
def Verdict.bothPass (x y : Verdict) (alt : Option Nat) : Bool :=
  x.agreed && y.agreed && (match alt with | some r => (x.mask / 2 ^ r) % 2 == 1 | none => false)

theorem Verdict.bothPass_some (x y : Verdict) (r : Nat) : x.bothPass y (some r) = (x.agreed && y.agreed && x.mask.testBit r) := by
  rw [Nat.testBit_eq_decide_div_mod_eq]
  rfl

/-- The rows where both verdicts are there. -/
theorem State.gateRow_of_verdicts {s : State} {x y : Verdict} (alt : Option Nat) (p : Nat) (hx : s.snA.verdict = some x)
    (hy : s.snB.verdict = some y) :
    s.gateRow alt p =
      if (s.snA.st == .stopped || s.snA.st == .failed) || (s.snB.st == .stopped || s.snB.st == .failed) then 1
      else if x.differs y then 2
      else if (s.snA.st = .armed ∨ s.snB.st = .armed) ∧ !x.bothPass y alt then 3
      else if x.bothPass y alt then 4
      else if s.gate.holdRec.isSome && decide (p ≤ s.gate.holdP + s.snTable.holdHzn * 1000000) then 5 else 6 := by
  rw [State.gateRow, hx, hy]
  rfl

/-- A choice of rows that is not its first row takes the others. -/
theorem ite_eq_of_ne {c : Prop} [Decidable c] {a b v : Nat} (h : (if c then a else b) = v) (hn : a ≠ v) : ¬c ∧ b = v := by
  by_cases hc : c
  · rw [if_pos hc] at h
    exact absurd h hn
  · rw [if_neg hc] at h
    exact ⟨hc, h⟩

/-- Row 4 takes only a named alternate that both verdicts pass, with neither Snuffer down. -/
theorem State.agreedOn_of_gateRow {s : State} {alt : Option Nat} {p : Nat} (h : s.gateRow alt p = 4) :
    ∃ x y r, s.AgreedOn alt x y r ∧ s.snA.Up ∧ s.snB.Up := by
  have hverdicts : ∃ x y, s.snA.verdict = some x ∧ s.snB.verdict = some y := by
    unfold State.gateRow at h
    split at h
    · next x y hx hy => exact ⟨x, y, hx, hy⟩
    · cases h
  obtain ⟨x, y, hx, hy⟩ := hverdicts
  rw [State.gateRow_of_verdicts alt p hx hy] at h
  obtain ⟨hdown, h⟩ := ite_eq_of_ne h (by decide)
  obtain ⟨hdiff, h⟩ := ite_eq_of_ne h (by decide)
  obtain ⟨-, h⟩ := ite_eq_of_ne h (by decide)
  have hpass : x.bothPass y alt = true := Decidable.byContradiction fun hc => by
    rw [if_neg hc] at h
    exact absurd (ite_eq_of_ne h (by decide)).2 (by decide)
  obtain ⟨-, hmask⟩ := (x.differs_eq_false_iff y).1 (Bool.eq_false_iff.2 hdiff)
  simp only [Bool.or_eq_true, beq_iff_eq, not_or] at hdown
  cases alt with
  | none =>
    rw [Verdict.bothPass, Bool.and_false] at hpass
    cases hpass
  | some r =>
    rw [Verdict.bothPass_some] at hpass
    simp only [Bool.and_eq_true] at hpass
    obtain ⟨⟨hax, hay⟩, hbit⟩ := hpass
    exact ⟨x, y, r, ⟨hx, hy, hax, hay, hmask, rfl, hbit⟩, hdown.1, hdown.2⟩

/-- Two Snuffers that are RUNNING and agree on the alternate named take row 4. -/
theorem State.gateRow_of_agreedOn {s : State} {alt : Option Nat} {x y : Verdict} {r : Nat} (p : Nat) (h : s.AgreedOn alt x y r)
    (ha : s.snA.st = .running) (hb : s.snB.st = .running) : s.gateRow alt p = 4 := by
  have hdiff : x.differs y = false := (x.differs_eq_false_iff y).2 ⟨h.agreedA.trans h.agreedB.symm, h.mask⟩
  have hpass : x.bothPass y alt = true := by rw [h.named, Verdict.bothPass_some, h.agreedA, h.agreedB, h.passed]; rfl
  simp [State.gateRow_of_verdicts alt p h.verdictA h.verdictB, ha, hb, hdiff, hpass]

/-- A decision that takes row 1 sends the frame of row 1. -/
theorem State.sentRow_one (s : State) : s.sentRow 1 = 1 := by
  unfold State.sentRow
  split <;> rfl

/-- The row sent is 4 only where the row taken is. -/
theorem State.eq_four_of_sentRow {s : State} {row : Nat} (h : s.sentRow row = 4) : row = 4 := by
  unfold State.sentRow at h
  split at h
  · cases h
  · exact h

/-- TRAJ goes out only for the alternate that the CCU named for this frame and both verdicts pass, with neither Snuffer down. -/
theorem State.agreedOn_of_rowSent {s : State} (h : s.rowSent = 4) :
    ∃ x y r, s.AgreedOn s.namedNow x y r ∧ s.snA.Up ∧ s.snB.Up := by
  have hact := s.gateSampled_snuffersAct
  obtain ⟨-, hnamed, hframe⟩ := hact.gate
  have hup {x y : Snuffer} (hm : x.MayStop y) (hy : y.Up) : x.Up := by
    rw [Snuffer.Up, ← hm.st_eq hy.1]
    exact hy
  obtain ⟨x, y, r, hon, ha, hb⟩ := State.agreedOn_of_gateRow (State.eq_four_of_sentRow h)
  have hnow : s.gateSampled.namedNow = s.namedNow := by rw [State.namedNow, hnamed, hframe, hact.epoch, State.namedNow]
  exact ⟨x, y, r, ⟨(hact.sn .a).verdict.symm.trans hon.verdictA, (hact.sn .b).verdict.symm.trans hon.verdictB, hon.agreedA,
    hon.agreedB, hon.mask, hnow.symm.trans hon.named, hon.passed⟩, hup (hact.sn .a) ha, hup (hact.sn .b) hb⟩

/-- Without a verdict of Snuffer A the row sent is 1. -/
theorem State.rowSent_of_missing {s : State} (h : s.snA.verdict = none) : s.rowSent = 1 := by
  have hrow : s.rowTaken = 1 := State.gateRow_of_missing _ _ ((s.gateSampled_snuffersAct.sn .a).verdict.trans h)
  rw [State.rowSent, hrow, State.sentRow_one]

/-- An alternate named for the present frame. -/
theorem State.namedNow_eq_some_iff (s : State) (r : Nat) :
    s.namedNow = some r ↔ s.gate.named = some r ∧ s.gate.namedFrame = s.epoch := by
  unfold State.namedNow
  split <;> simp_all

/-! ## The decision where nothing is amiss -/

/-- A RUNNING Snuffer without a waiting line or a marked frame, whose history holds fewer than three bits once it has shifted. -/
structure Snuffer.Clear (x : Snuffer) : Prop where
  st : x.st = .running
  lines : x.lines = []
  counted : x.counted = false
  hist : histCount (x.hist <<< 1) < 3

/-- The Snuffer after the decision: a clear bit has entered its history. -/
def Snuffer.shifted (x : Snuffer) : Snuffer := { x with hist := x.hist <<< 1, counted := false }

theorem State.drainLines_of_nil {s : State} {i : Sn} (h : (s.sn i).lines = []) : s.drainLines i = s := by
  have hsn : { s.sn i with lines := [] } = s.sn i := by rw [← h]
  rw [State.drainLines, h, hsn]
  cases i <;> rfl

theorem State.gateMissed_of_none {s : State} (h : s.gate.out = none) : s.gateMissed = s := by rw [State.gateMissed, h]

/-- A shift by one leaves bit 0 clear, so no two consecutive bits are set. -/
theorem shifted_hist_ne_three (x : Word32) : (x <<< 1).toNat % 4 ≠ 3 := by
  rw [BitVec.toNat_shiftLeft, Nat.shiftLeft_eq]
  omega

/-- A clear bit enters the history of a clear Snuffer in row 4. -/
theorem State.snDecide_of_clear {s : State} {i : Sn} (h : (s.sn i).Clear) :
    s.snDecide i 4 = (s.setSn i (s.sn i).shifted).setReg (pgSn i) 0 0x04C ((s.sn i).hist <<< 1) := by
  have hjudged := State.histJudged_of_clear ((s.setSn i (s.sn i).shifted).setReg (pgSn i) 0 0x04C ((s.sn i).hist <<< 1)) i
    (shifted_hist_ne_three (s.sn i).hist) h.hist
  rw [← hjudged]
  simp [State.snDecide, h.st, h.counted, SnState.inService, SnState.active, State.histJudged, Snuffer.shifted]

/-- A Snuffer's page shows row 4 with the alternate sent. -/
def State.agreedShown (s : State) (i : Sn) (kind : Nat) (alt : Option Nat) : State :=
  ((s.fset (pgSn i) Reg.SNA_VERDICT_OUTCOME 0).fset (pgSn i) Reg.SNA_VERDICT_ALT (alt.getD 7)).fset (pgSn i) Reg.SNA_VERDICT_KIND kind

/-- A decision of row 4 leaves a RUNNING Snuffer RUNNING and shows in its page. -/
theorem State.snOutcome_of_running {s : State} {i : Sn} (kind : Nat) (alt : Option Nat) (h : (s.sn i).st = .running) :
    s.snOutcome i 4 kind alt = s.agreedShown i kind alt := by
  simp [State.snOutcome, h, SnState.inService, SnState.active, State.agreedShown]

theorem State.sn_agreedShown (s : State) (i j : Sn) (kind : Nat) (alt : Option Nat) : (s.agreedShown i kind alt).sn j = s.sn j := by
  simp only [State.agreedShown, State.sn_fset]

theorem State.outcome_agreedShown (s : State) (i : Sn) (kind : Nat) (alt : Option Nat) :
    (s.agreedShown i kind alt).fget (pgSn i) Reg.SNA_VERDICT_OUTCOME = 0 := by
  rw [State.agreedShown, State.fget_fset_other _ _ _ _ _ (by decide) (by decide) (by decide),
    State.fget_fset_other _ _ _ _ _ (by decide) (by decide) (by decide), State.fget_fset_same _ _ _ (by decide), Nat.zero_mod]

theorem State.alt_agreedShown (s : State) (i : Sn) (kind : Nat) {r : Nat} (h : r < 8) :
    (s.agreedShown i kind (some r)).fget (pgSn i) Reg.SNA_VERDICT_ALT = r := by
  rw [State.agreedShown, State.fget_fset_other _ _ _ _ _ (by decide) (by decide) (by decide), State.fget_fset_same _ _ _ (by decide)]
  exact Nat.mod_eq_of_lt h

/-- What one Snuffer's page shows stands in no other page. -/
theorem State.fget_agreedShown_other (s : State) {i : Sn} {p : Nat} (kind : Nat) (alt : Option Nat) {f : Fld} (h : pgSn i ≠ p)
    (hf : f.off < 4096) : (s.agreedShown i kind alt).fget p f = s.fget p f := by
  rw [State.agreedShown, State.fget_fset_page _ _ _ _ h (by decide) hf, State.fget_fset_page _ _ _ _ h (by decide) hf,
    State.fget_fset_page _ _ _ _ h (by decide) hf]

section

variable {s : State} (ha : s.snA.Clear) (hb : s.snB.Clear)

include ha hb

/-- With no frame and no pulse waiting, sampling leaves all but the gate's stop as it is. -/
theorem State.gateSampled_of_clear (ho : s.gate.out = none) : s.gateSampled = { s with gate := { s.gate with stopped := false } } := by
  have hdrain : (s.gateMissed.drainLines .a).drainLines .b = s := by
    rw [State.gateMissed_of_none ho, State.drainLines_of_nil (i := .a) ha.lines, State.drainLines_of_nil (i := .b) hb.lines]
  rw [State.gateSampled, hdrain]
  exact if_pos ⟨by rw [ha.st]; rfl, by rw [hb.st]; rfl⟩

/-- Row 4 shifts a clear bit into both histories. -/
theorem State.rowActed_of_clear : (s.rowActed 4).snA = s.snA.shifted ∧ (s.rowActed 4).snB = s.snB.shifted := by
  have hsn := State.snDecide_of_clear (s := s) (i := .a) ha
  have hother : (s.snDecide .a 4).sn .b = s.snB := by
    rw [hsn, State.sn_setReg, State.sn_setSn_other _ _ (by decide)]
    rfl
  have hsn' := State.snDecide_of_clear (s := s.snDecide .a 4) (i := .b) (by rw [hother]; exact hb)
  rw [State.rowActed, if_neg (by decide), hsn', hother, hsn]
  exact ⟨rfl, rfl⟩

/-- No stop falls in row 4 then, and its frame is sent. -/
theorem State.sentRow_of_clear : s.sentRow 4 = 4 := by
  obtain ⟨hA, hB⟩ := State.rowActed_of_clear ha hb
  have hactive : (s.rowActed 4).bothActive = true := by
    rw [State.bothActive, hA, hB, Snuffer.shifted, Snuffer.shifted, ha.st, hb.st]
    rfl
  rw [State.sentRow, hactive, Bool.not_true, Bool.and_false, Bool.false_and]
  rfl

theorem State.rowSettled_of_clear : (s.rowSettled 4).snA = s.snA.shifted ∧ (s.rowSettled 4).snB = s.snB.shifted := by
  have hcapture (t : State) : t.captureStop.snA = t.snA ∧ t.captureStop.snB = t.snB := by
    unfold State.captureStop
    repeat' split
    all_goals exact ⟨rfl, rfl⟩
  obtain ⟨hA, hB⟩ := State.rowActed_of_clear ha hb
  rw [State.rowSettled, State.sentRow_of_clear ha hb, if_neg (by decide), (hcapture _).1, (hcapture _).2]
  exact ⟨hA, hB⟩

end

/-- Making row 4's frame with both Snuffers RUNNING: what the hold record becomes, and what the pages show. -/
theorem State.gateMade_of_running {s : State} {r : Nat} (p : Nat) (ha : s.snA.st = .running) (hb : s.snB.st = .running) (hr : r < 4) :
    let t := s.gateMade 4 (some r) p
    t.gate.trajNext = some (s.gate.recs.getD r [], s.epoch, p, r) ∧ t.snA = s.snA ∧ t.snB = s.snB ∧
      t.fget pgSNA Reg.SNA_VERDICT_OUTCOME = 0 ∧ t.fget pgSNA Reg.SNA_VERDICT_ALT = r := by
  obtain ⟨_, _, _, hbuild, -, hnext⟩ := s.buildGate_shape 4 (some r) p
  have hA : ((s.buildGate 4 (some r) p).sn .a) = s.snA := by rw [hbuild]; rfl
  have hB : ((s.buildGate 4 (some r) p).sn .b) = s.snB := by rw [hbuild]; rfl
  have hshowA := State.snOutcome_of_running (i := .a) (gateKind 4) (some r) (by rw [hA]; exact ha)
  have hshowB := State.snOutcome_of_running (s := (s.buildGate 4 (some r) p).agreedShown .a (gateKind 4) (some r)) (i := .b)
    (gateKind 4) (some r) (by rw [State.sn_agreedShown, hB]; exact hb)
  have hgate : s.gateMade 4 (some r) p =
      ((s.buildGate 4 (some r) p).agreedShown .a (gateKind 4) (some r)).agreedShown .b (gateKind 4) (some r) := by
    rw [State.gateMade, hshowA, hshowB]
  have hsn (i : Sn) : (s.gateMade 4 (some r) p).sn i = (s.buildGate 4 (some r) p).sn i := by
    rw [hgate, State.sn_agreedShown, State.sn_agreedShown]
  refine ⟨?_, (hsn .a).trans hA, (hsn .b).trans hB, ?_, ?_⟩
  · rw [hgate, hbuild, hnext rfl]
    rfl
  · rw [hgate, State.fget_agreedShown_other _ _ _ (by decide) (by decide)]
    exact State.outcome_agreedShown _ .a _ _
  · rw [hgate, State.fget_agreedShown_other _ _ _ (by decide) (by decide)]
    exact State.alt_agreedShown _ .a _ (by omega)

/-- Two clear Snuffers that agree on the alternate named: TRAJ is made with its record, and a clear bit enters each history. -/
theorem State.gateDecide_agreed {s : State} {x : Verdict} {r : Nat} (hon : s.AgreedOn s.namedNow x x r) (hr : r < 4)
    (ho : s.gate.out = none) (ha : s.snA.Clear) (hb : s.snB.Clear) :
    s.rowSent = 4 ∧ s.gateDecide.gate.trajNext = some (s.gate.recs.getD r [], s.epoch, s.pubNs, r) ∧
      s.gateDecide.snA = s.snA.shifted ∧ s.gateDecide.snB = s.snB.shifted ∧
      s.gateDecide.fget pgSNA Reg.SNA_VERDICT_OUTCOME = 0 ∧ s.gateDecide.fget pgSNA Reg.SNA_VERDICT_ALT = r := by
  have hsampled := State.gateSampled_of_clear ha hb ho
  have hact := s.gateSampled_snuffersAct.trans (s.gateSampled.rowSettled_snuffersAct 4)
  have hA : s.gateSampled.snA = s.snA := by rw [hsampled]
  have hB : s.gateSampled.snB = s.snB := by rw [hsampled]
  have hnow : s.gateSampled.namedNow = some r := by rw [hsampled]; exact hon.named
  have htaken : s.rowTaken = 4 :=
    State.gateRow_of_agreedOn _ ⟨by rw [hA, hon.verdictA], by rw [hB, hon.verdictB], hon.agreedA, hon.agreedB, rfl, hnow, hon.passed⟩
      (by rw [hA, ha.st]) (by rw [hB, hb.st])
  have hcA : s.gateSampled.snA.Clear := by rw [hA]; exact ha
  have hcB : s.gateSampled.snB.Clear := by rw [hB]; exact hb
  have hsent : s.rowSent = 4 := by rw [State.rowSent, htaken, State.sentRow_of_clear hcA hcB]
  obtain ⟨hzA, hzB⟩ := State.rowSettled_of_clear hcA hcB
  rw [hA] at hzA
  rw [hB] at hzB
  obtain ⟨hnext, htA, htB, houtcome, halt⟩ := State.gateMade_of_running s.pubNs (s := s.gateSampled.rowSettled 4) (r := r)
    (by rw [hzA]; exact ha.st) (by rw [hzB]; exact hb.st) hr
  rw [hact.gate.1, hact.epoch] at hnext
  rw [State.gateDecide_eq, hsent, htaken, hnow]
  exact ⟨rfl, hnext, htA.trans hzA, htB.trans hzB, houtcome, halt⟩

/-! ## The commands -/

/-- GATE_DECISION at P − 2 µs of a frame not yet decided. -/
theorem exec_gateDecision_of_due {s : State} {e : Nat} (ha : s.awake = true) (ht : s.frm.tickAt.isSome = true)
    (hd : s.gate.decided = false) (hc : s.dueCtr e (s.pubNs - 2000) = true) :
    exec (.gateDecision e) s = .next (elapse e s).gateDecide :=
  onAwake_of_due _ ha (by rw [State.pubNs] at hc; simp only [ht, hd, hc, Bool.not_false, Bool.and_self])

@[simp] theorem elapse_pubNs (e : Nat) (s : State) : (elapse e s).pubNs = s.pubNs := by
  rw [State.pubNs, elapse_tickNs, elapse_frm, State.pubNs]

@[simp] theorem elapse_namedNow (e : Nat) (s : State) : (elapse e s).namedNow = s.namedNow := by
  rw [State.namedNow, elapse_gate, elapse_epoch, State.namedNow]

theorem elapse_agreedOn_iff (e : Nat) (s : State) (alt : Option Nat) (x y : Verdict) (r : Nat) :
    (elapse e s).AgreedOn alt x y r ↔ s.AgreedOn alt x y r := by
  have hA : (elapse e s).snA = s.snA := elapse_sn e s .a
  have hB : (elapse e s).snB = s.snB := elapse_sn e s .b
  exact ⟨fun h => { h with verdictA := hA ▸ h.verdictA, verdictB := hB ▸ h.verdictB },
    fun h => { h with verdictA := hA.symm ▸ h.verdictA, verdictB := hB.symm ▸ h.verdictB }⟩

/-- KIND is TRAJ in row 4 alone. -/
theorem eq_four_of_gateKind {row : Nat} (h : BitVec.ofNat 8 (gateKind row) = 1) : row = 4 := by
  by_cases h4 : row = 4
  · exact h4
  · rw [gateKind, if_neg h4] at h
    by_cases h5 : row = 5
    · rw [if_pos h5] at h
      exact absurd h (by decide)
    · rw [if_neg h5] at h
      exact absurd h (by decide)

/-- Settles O47: a decision sends the frame of the row it takes, a DISPUTED row counts and may stop, and a Snuffer without a message at
P − 4 µs stops both. -/
theorem gateDecisionFollowsTable6 : Obligations.GateDecisionFollowsTable6 := by
  refine ⟨?_, fun _ _ _ ha hr => State.snDecide_disputed ha hr rfl, fun _ _ _ hd hl ha ht => verdictTimeout_stops hd hl ha ht⟩
  intro s e hawake ht hd p hc
  have hA : (elapse e s).snA = s.snA := elapse_sn e s .a
  have hB : (elapse e s).snB = s.snB := elapse_sn e s .b
  obtain ⟨bs, hdec, hout, hmem, hjobs, hkind⟩ := (elapse e s).gateDecide_sends
  rw [elapse_pubNs] at hout
  rw [State.snTable, elapse_cfg, ← State.snTable] at hkind
  refine ⟨_, bs, exec_gateDecision_of_due hawake ht hd hc, hdec, hout, hmem.trans (elapse_mem e s), hjobs.trans (elapse_jobs e s),
    fun h1 => ?_, ?_, fun hnone => ?_⟩
  · rw [hkind] at h1
    obtain ⟨x, y, r, hon, hupA, hupB⟩ := State.agreedOn_of_rowSent (eq_four_of_gateKind (Option.some.inj h1))
    rw [elapse_namedNow, elapse_agreedOn_iff] at hon
    rw [hA] at hupA
    rw [hB] at hupB
    obtain ⟨hnamed, hframe⟩ := (s.namedNow_eq_some_iff r).1 hon.named
    exact ⟨x, y, r, hon.verdictA, hon.verdictB, hon.agreedA, hon.agreedB, hon.mask, hnamed, hframe, hon.passed,
      hupA.1, hupA.2, hupB.1, hupB.2⟩
  · intro x r hvA hvB hag hnamed hframe hpass hr ho hsA hsB hlA hlB hcA hcB hhA hhB
    have hon : s.AgreedOn s.namedNow x x r := ⟨hvA, hvB, hag, hag, rfl, (s.namedNow_eq_some_iff r).2 ⟨hnamed, hframe⟩, hpass⟩
    obtain ⟨hrow, hnext, htA, htB, houtcome, halt⟩ := State.gateDecide_agreed (s := elapse e s)
      (by rw [elapse_namedNow, elapse_agreedOn_iff]; exact hon) hr (by rw [elapse_gate]; exact ho)
      (by rw [hA]; exact ⟨hsA, hlA, hcA, hhA⟩) (by rw [hB]; exact ⟨hsB, hlB, hcB, hhB⟩)
    rw [elapse_gate, elapse_epoch, elapse_pubNs] at hnext
    rw [hA] at htA
    rw [hB] at htB
    exact ⟨by rw [hkind, hrow]; rfl, hnext, by rw [htA]; rfl, by rw [htB]; rfl, by rw [htA]; exact hsA, by rw [htB]; exact hsB,
      houtcome, halt⟩
  · rw [hkind, State.rowSent_of_missing (by rw [hA]; exact hnone)]
    rfl

end Sys2Proof.Machine
end

section
/-!
PROOF. The gate's loader and a poisoned alternate: the read that meets the mark pulses the aggregator line of the block that holds it,
and that pulse waits at both Snuffers (11 R281, R295; 12 R303, R314).
-/

namespace Sys2Proof.Machine

open Sys2Proof

/-- GATE_LOAD where the gate has not loaded and Snuffer A has both blocks or its cutoff. -/
theorem exec_gateLoad_of_settled {s : State} (chk : ReadCheck) (ha : s.awake = true) (ht : s.frm.tickAt.isSome = true)
    (hl : s.gate.loaded = false) (hx : s.snA.settled = true) : exec (.gateLoad chk) s = .next (s.gateLoad chk) :=
  onAwake_of_due _ ha (by simp only [ht, hl, hx, Bool.not_false, Bool.true_or, Bool.and_self])

/-- The device of two Lanterns after Snuffer A's cutoff: channel A's block, of one alternate, begins at the first bank of Reservoir 0,
and the first line of ALT 0 is poisoned. -/
def poisonedAlt : State :=
  { farState with
    mem := [(0x8000000004, 1)], poison := [0x8000000240 / 64]
    cfg := { farState.cfg with snA := { farState.cfg.snA with table := { farState.cfg.snA.table with subA := 0x8000000000 } } }
    frm := { farState.frm with tickAt := some 0 }, snA := { Snuffer.zero with st := .running, cut := true } }

theorem poisonedAlt_awake : poisonedAlt.awake = true := by decide +kernel

/-- The line with FRAME and NALT reads well. -/
theorem poisonedAlt_readRes : poisonedAlt.readRes 0x8000000000 64 .ok = .data := by decide +kernel

/-- The loader's read leaves a pulse of Reservoir 0's line at Snuffer A. -/
theorem gateLoad_poisonedAlt_lines : (poisonedAlt.gateLoad .ok).snA.lines = [18] := by decide +kernel

/-- Refutes O46: its clause on GATE_LOAD has the Snuffers unchanged, but the loader's read of an alternate that lies poisoned in a
Reservoir pulses the Reservoir's line, which then waits at each Snuffer. -/
theorem not_snuffersReadCompareAndStop : ¬ Obligations.SnuffersReadCompareAndStop := by
  intro h
  obtain ⟨-, -, hload, -⟩ := h poisonedAlt .a
  obtain ⟨t, hexec, -, -, -, -, hsnA, -⟩ := hload poisonedAlt_awake rfl rfl rfl poisonedAlt_readRes
  have hend : poisonedAlt.gateLoad .ok = t :=
    Host.Outcome.next.inj ((exec_gateLoad_of_settled .ok poisonedAlt_awake rfl rfl rfl).symm.trans hexec)
  have hlines := gateLoad_poisonedAlt_lines
  rw [hend, hsnA] at hlines
  cases hlines

end Sys2Proof.Machine
end

section
/-!
PROOF. The capture of an error: the registers that take the first error, the set error bit, and when the rise of PEND sends the page's
message (12 R314; 20 R480).
-/

namespace Sys2Proof.Machine

open Sys2Proof

/-! ## The message of a page -/

/-- A message goes out exactly where its port is up, the function has the vector and the table does not mask it. -/
theorem State.msix_out_ne_iff (s : State) (port part vec : Nat) :
    (s.msix port part vec).out ≠ s.out ↔
      s.portUp port = true ∧ vec < msixCount (fnOf part) ∧ s.msixMasked (msixKey port (fnOf part) vec) = false := by
  unfold State.msix
  dsimp only
  split
  next hno =>
    simp only [Bool.or_eq_true, Bool.not_eq_true', decide_eq_true_eq] at hno
    refine iff_of_false (fun h => h rfl) ?_
    rintro ⟨hup, hvec, -⟩
    rcases hno with hdown | hmissing
    · exact Bool.false_ne_true (hdown.symm.trans hup)
    · exact Nat.not_le.2 hvec hmissing
  next hgo =>
    simp only [Bool.or_eq_true, Bool.not_eq_true', decide_eq_true_eq, not_or, Bool.not_eq_false, Nat.not_le] at hgo
    obtain ⟨hup, hvec⟩ := hgo
    split
    next hmasked => exact iff_of_false (fun h => h rfl) fun ⟨_, _, h⟩ => Bool.false_ne_true (h.symm.trans hmasked)
    next hclear => exact iff_of_true (List.cons_ne_self _ _) ⟨hup, hvec, Bool.eq_false_iff.2 hclear⟩

/-- The message of a page goes out exactly where PEND rose and the owner's function can take the vector. -/
theorem State.pendRise_out_ne_iff (s : State) (page : Nat) (before : Bool) :
    (s.pendRise page before).out ≠ s.out ↔
      (s.pend page = true ∧ before = false) ∧ s.portUp (s.fget page Reg.INT_ROUTE_PORT) = true ∧
        s.fget page Reg.INT_ROUTE_VEC < msixCount (fnOf (s.owner page)) ∧
        s.msixMasked (msixKey (s.fget page Reg.INT_ROUTE_PORT) (fnOf (s.owner page)) (s.fget page Reg.INT_ROUTE_VEC)) = false := by
  unfold State.pendRise
  split
  next hrise =>
    simp only [Bool.and_eq_true, Bool.not_eq_true'] at hrise
    rw [State.msix_out_ne_iff, and_iff_right hrise]
    rfl
  next hflat =>
    simp only [Bool.and_eq_true, Bool.not_eq_true'] at hflat
    exact iff_of_false (fun h => h rfl) fun h => hflat h.1

/-! ## PEND after the error bit is set -/

/-- Setting the error bit of an INT_STATUS value. -/
theorem put_intStatusErr_one (v : Word32) : Reg.INT_STATUS_ERR.put v 1 = v ||| 1#32 := by
  refine BitVec.eq_of_getLsbD_eq fun k _ => ?_
  rw [Fld.put_getLsbD _ (by decide), BitVec.getLsbD_or, BitVec.getLsbD_one]
  by_cases hk : k = 0
  · subst hk
    simp [Reg.INT_STATUS_ERR]
  · simp [Reg.INT_STATUS_ERR, hk]

/-- With the error bit set, PEND stands where it stood before or the error bit is enabled. -/
theorem State.pend_fset_err (s : State) (page : Nat) :
    (s.fset page Reg.INT_STATUS_ERR 1).pend page = (s.pend page || (s.reg page 0 0x01C).getLsbD 0) := by
  have hstatus : (s.fset page Reg.INT_STATUS_ERR 1).reg page 0 0x018 = s.reg page 0 0x018 ||| 1#32 :=
    (s.reg_fset_same page Reg.INT_STATUS_ERR 1).trans (put_intStatusErr_one _)
  have henable : (s.fset page Reg.INT_STATUS_ERR 1).reg page 0 0x01C = s.reg page 0 0x01C :=
    s.reg_fset_other _ _ (regKey_ne_of_off (by decide))
  unfold State.pend
  rw [hstatus, henable, BitVec.and_comm, BitVec.and_or_distrib_left, BitVec.and_one_eq_setWidth_ofBool_getLsbD, BitVec.and_comm]
  cases (s.reg page 0 0x01C).getLsbD 0 with
  | false => simp
  | true => simp [bne_iff_ne, BitVec.or_eq_zero_iff]

/-! ## The registers that take the error -/

/-- The error registers of a page take an error unless the page still holds an earlier one (12 R314). -/
def State.recordErr (s : State) (page : Nat) (e : Err) (addr : Nat) : State :=
  if s.flag page Reg.INT_STATUS_ERR then s
  else ((s.fset page Reg.ERR_CODE_CODE e.code).setReg page 0 0x028 (BitVec.ofNat 32 addr)).fset page
    Reg.ERR_ADDR_HI_ADDR (addr / 2 ^ 32)

section
variable (s : State) (page : Nat) (e : Err) (addr : Nat)

/-- A capture records the error, sets the error bit, and signals the page where PEND rose. -/
theorem State.capture_eq :
    s.capture page e addr = ((s.recordErr page e addr).fset page Reg.INT_STATUS_ERR 1).pendRise page (s.pend page) := rfl

theorem State.recordErr_of_err (h : s.flag page Reg.INT_STATUS_ERR = true) : s.recordErr page e addr = s := if_pos h

theorem State.recordErr_of_noErr (h : s.flag page Reg.INT_STATUS_ERR = false) :
    s.recordErr page e addr = ((s.fset page Reg.ERR_CODE_CODE e.code).setReg page 0 0x028 (BitVec.ofNat 32 addr)).fset page
      Reg.ERR_ADDR_HI_ADDR (addr / 2 ^ 32) := if_neg (Bool.eq_false_iff.1 h)

/-- Recording an error changes registers alone. -/
theorem State.recordErr_shape : ∃ r, s.recordErr page e addr = { s with regs := r } := by
  unfold State.recordErr
  split
  · exact ⟨s.regs, rfl⟩
  · exact ⟨_, rfl⟩

/-- The other registers of the page's first bank keep their values as an error is recorded. -/
theorem State.reg_recordErr_other {o : Nat} (hcode : 0x024 ≠ o) (haddr : 0x028 ≠ o) (haddrHi : 0x02C ≠ o) :
    (s.recordErr page e addr).reg page 0 o = s.reg page 0 o := by
  unfold State.recordErr
  split
  · rfl
  · rw [State.reg_fset_other _ _ _ (regKey_ne_of_off haddrHi), State.reg_setReg_other _ _ (regKey_ne_of_off haddr),
      State.reg_fset_other _ _ _ (regKey_ne_of_off hcode)]

/-- A capture leaves in every register of the page's first bank but INT_STATUS what recording the error puts there. -/
theorem State.reg_capture_of_ne_intStatus {o : Nat} (h : 0x018 ≠ o) :
    (s.capture page e addr).reg page 0 o = (s.recordErr page e addr).reg page 0 o := by
  rw [State.capture_eq, State.reg_pendRise, State.reg_fset_other _ _ _ (regKey_ne_of_off h)]

/-- An error that is captured leaves its 48-bit address in ERR_ADDR and ERR_ADDR_HI. -/
theorem State.errAddr_capture (haddr : addr < 2 ^ 48) (h : s.flag page Reg.INT_STATUS_ERR = false) :
    ((s.capture page e addr).reg page 0 0x028).toNat + (s.capture page e addr).fget page Reg.ERR_ADDR_HI_ADDR * 2 ^ 32 = addr := by
  have hlow : (s.capture page e addr).reg page 0 0x028 = BitVec.ofNat 32 addr := by
    rw [State.reg_capture_of_ne_intStatus _ _ _ _ (by decide), State.recordErr_of_noErr _ _ _ _ h,
      State.reg_fset_other _ _ _ (regKey_ne_of_off (by decide)), State.reg_setReg_same]
  have hhigh : (s.capture page e addr).fget page Reg.ERR_ADDR_HI_ADDR = addr / 2 ^ 32 % 2 ^ 16 := by
    have hreg : (s.capture page e addr).fget page Reg.ERR_ADDR_HI_ADDR = (s.recordErr page e addr).fget page Reg.ERR_ADDR_HI_ADDR :=
      congrArg Reg.ERR_ADDR_HI_ADDR.get (s.reg_capture_of_ne_intStatus page e addr (by decide))
    rw [hreg, State.recordErr_of_noErr _ _ _ _ h]
    exact State.fget_fset_same _ _ _ (by decide) _
  rw [hlow, hhigh, BitVec.toNat_ofNat]
  omega

/-- A page that holds an earlier error keeps its error registers. -/
theorem State.reg_capture_of_err {o : Nat} (h : s.flag page Reg.INT_STATUS_ERR = true) (ho : 0x018 ≠ o) :
    (s.capture page e addr).reg page 0 o = s.reg page 0 o := by
  rw [State.reg_capture_of_ne_intStatus _ _ _ _ ho, State.recordErr_of_err _ _ _ _ h]

/-! ## The message of a capture -/

/-- Recording an error changes neither the page's PEND nor whether its error bit is enabled. -/
theorem State.pend_recordErr : (s.recordErr page e addr).pend page = s.pend page := by
  unfold State.pend
  rw [State.reg_recordErr_other _ _ _ _ (by decide) (by decide) (by decide),
    State.reg_recordErr_other _ _ _ _ (by decide) (by decide) (by decide)]

/-- Recording an error and setting the error bit leave the fields of the other registers. -/
theorem State.fget_recordErr_fset_err {f : Fld} (hf : f.off ∉ [0x018, 0x024, 0x028, 0x02C]) :
    ((s.recordErr page e addr).fset page Reg.INT_STATUS_ERR 1).fget page f = s.fget page f := by
  simp only [List.mem_cons, List.not_mem_nil, or_false, not_or] at hf
  obtain ⟨hstatus, hcode, haddr, haddrHi⟩ := hf
  refine congrArg f.get ?_
  rw [State.reg_fset_other _ _ _ (regKey_ne_of_off (Ne.symm hstatus)),
    State.reg_recordErr_other _ _ _ _ (Ne.symm hcode) (Ne.symm haddr) (Ne.symm haddrHi)]

/-- A capture sends the page's message exactly where PEND was 0, the error bit is enabled, and the message can go out. -/
theorem State.capture_out_ne_iff :
    (s.capture page e addr).out ≠ s.out ↔
      s.pend page = false ∧ (s.reg page 0 0x01C).getLsbD 0 = true ∧ s.portUp (s.fget page Reg.INT_ROUTE_PORT) = true ∧
        s.fget page Reg.INT_ROUTE_VEC < msixCount (fnOf (s.owner page)) ∧
        s.msixMasked (msixKey (s.fget page Reg.INT_ROUTE_PORT) (fnOf (s.owner page)) (s.fget page Reg.INT_ROUTE_VEC)) = false := by
  obtain ⟨r, hr⟩ := s.recordErr_shape page e addr
  obtain ⟨t, ht⟩ : ∃ t, t = (s.recordErr page e addr).fset page Reg.INT_STATUS_ERR 1 := ⟨_, rfl⟩
  have hout : t.out = s.out := by rw [ht, hr]; rfl
  have hup : t.portUp = s.portUp := by rw [ht, hr]; rfl
  have hmask : t.msixMasked = s.msixMasked := by rw [ht, hr]; rfl
  have hport : t.fget page Reg.INT_ROUTE_PORT = s.fget page Reg.INT_ROUTE_PORT := by
    rw [ht]; exact s.fget_recordErr_fset_err page e addr (by decide)
  have hvec : t.fget page Reg.INT_ROUTE_VEC = s.fget page Reg.INT_ROUTE_VEC := by
    rw [ht]; exact s.fget_recordErr_fset_err page e addr (by decide)
  have howner : t.owner page = s.owner page := by
    rw [ht]; exact s.fget_recordErr_fset_err page e addr (f := Reg.LOCK_OWNER) (by decide)
  have hpend : t.pend page = (s.pend page || (s.reg page 0 0x01C).getLsbD 0) := by
    rw [ht, State.pend_fset_err, State.pend_recordErr, State.reg_recordErr_other _ _ _ _ (by decide) (by decide) (by decide)]
  have hrise : (t.pend page = true ∧ s.pend page = false) ↔ (s.pend page = false ∧ (s.reg page 0 0x01C).getLsbD 0 = true) := by
    rw [hpend]
    cases s.pend page <;> simp
  rw [State.capture_eq, ← ht, ← hout, State.pendRise_out_ne_iff, hup, hmask, hport, hvec, howner, hrise, and_assoc]

end

/-- Settles O13: a capture records the error where none is held, sets the error bit, and sends the page's message where that makes
PEND rise. -/
theorem captureKeepsFirstError : Obligations.CaptureKeepsFirstError := by
  intro s page addr e haddr
  have hne : ∀ o ∈ [0x024, 0x028, 0x02C], 0x018 ≠ o := by decide
  exact ⟨s.capture_shape page e addr, s.flag_capture page e addr,
    fun h => ⟨s.code_capture page e addr h, s.errAddr_capture page e addr haddr h⟩,
    fun h o ho => s.reg_capture_of_err page e addr h (hne o ho),
    fun _ _ _ h => s.reg_capture_other page e addr h, s.capture_out_ne_iff page e addr⟩

end Sys2Proof.Machine
end

section
/-!
PROOF. Soundness as a property that every operation of the block keeps: the memory's canonical form and SAFE held low (20 R474; 11 R292).
-/

namespace Sys2Proof.Machine

open Sys2Proof

-- One thread at a time: the stacks of threads that wait for each other count against the check's memory limit.
set_option Elab.async false

/-- A sound state, as a property of which each operation has one rule. -/
structure State.Sound (s : State) : Prop where
  /-- The memory is in canonical form. -/
  mem_wf : Memory.wf s.mem = true
  /-- Each Snuffer holds SAFE low outside ARMED and RUNNING. -/
  safeHeld (i : Sn) : (s.sn i).safeHeld = true

/-- An outcome of a command whose next state is sound. -/
def Out.Sound (o : Out) : Prop := ∀ t, o = .next t → t.Sound

section
variable {s t u : State}

theorem State.sound_iff : s.Sound ↔ s.sound = true := by
  simp only [State.sound, Bool.and_eq_true]
  exact ⟨fun ⟨hm, h⟩ => ⟨⟨hm, h .a⟩, h .b⟩, fun ⟨⟨hm, ha⟩, hb⟩ => ⟨hm, fun i => by cases i <;> assumption⟩⟩

/-- An update of any fields but the memory and the Snuffers keeps a state sound. -/
theorem State.Sound.withFields (h : s.Sound)
    {pending' now' regs' poison' out' draws' tbu' frm' queues' jobs' vbufs' ing' ethTx' aps' wicks' hUp0' hUp1' gate'
    powered' cfg' lmp' rgl' dmc' bonds' released' shToks' arrivals' cmbs' sconces' flog' ccu' cov' links' lnkWin' guestDie'
    dies' updFrame' trm' pwr' fuses' flash' dbg' flt' keys' lineKeys' msixTab' msixPend'} :
    State.Sound { s with
      pending := pending', now := now', regs := regs', poison := poison', out := out', draws := draws', tbu := tbu',
      frm := frm', queues := queues', jobs := jobs', vbufs := vbufs', ing := ing', ethTx := ethTx', aps := aps',
      wicks := wicks', hUp0 := hUp0', hUp1 := hUp1', gate := gate', powered := powered', cfg := cfg', lmp := lmp',
      rgl := rgl', dmc := dmc', bonds := bonds', released := released', shToks := shToks', arrivals := arrivals',
      cmbs := cmbs', sconces := sconces', flog := flog', ccu := ccu', cov := cov', links := links', lnkWin := lnkWin',
      guestDie := guestDie', dies := dies', updFrame := updFrame', trm := trm', pwr := pwr', fuses := fuses',
      flash := flash', dbg := dbg', flt := flt', keys := keys', lineKeys := lineKeys', msixTab := msixTab',
      msixPend := msixPend' } :=
  ⟨h.mem_wf, h.safeHeld⟩

/-- A Snuffer may take any value that holds SAFE low outside ARMED and RUNNING. -/
theorem State.Sound.setSn {s : State} (hs : s.Sound) {i : Sn} {x : Snuffer} (hx : x.safeHeld = true) : (s.setSn i x).Sound := by
  refine ⟨by cases i <;> exact hs.mem_wf, fun j => ?_⟩
  by_cases h : j = i
  · rw [h, State.sn_setSn_same, hx]
  · rw [State.sn_setSn_other _ _ h, hs.safeHeld]

/-- A Snuffer that is neither ARMED nor RUNNING has SAFE low. -/
theorem State.Sound.safe_low {s : State} (hs : s.Sound) {i : Sn} (h : (s.sn i).st.active = false) : (s.sn i).safe = false := by
  simpa [Snuffer.safeHeld, h] using hs.safeHeld i

/-- A Snuffer may take any value that leaves its state and its SAFE output as they are. -/
theorem State.Sound.withSn {s : State} (hs : s.Sound) {i : Sn} {x : Snuffer} (hst : x.st = (s.sn i).st := by rfl)
    (hsafe : x.safe = (s.sn i).safe := by rfl) : (s.setSn i x).Sound := by
  refine hs.setSn ?_
  rw [Snuffer.safeHeld, hst, hsafe]
  exact hs.safeHeld i

/-- Memory may become any list in canonical form. -/
theorem State.Sound.withMem {s t : State} (hs : s.Sound) (hm : Memory.wf t.mem = true) (hsn : t.sn = s.sn := by rfl) : t.Sound :=
  ⟨hm, hsn ▸ hs.safeHeld⟩

theorem State.Sound.ite {c : Prop} [Decidable c] (ht : t.Sound) (hu : u.Sound) : (if c then t else u).Sound := by
  split <;> assumption

theorem State.Sound.fst_ite {α : Type} {c : Prop} [Decidable c] {p q : State × α} (hp : p.1.Sound) (hq : q.1.Sound) :
    (if c then p else q).1.Sound := by
  split <;> assumption

theorem State.Sound.foldl {α : Type} {f : State → α → State} {l : List α} (h : s.Sound)
    (hf : ∀ t x, t.Sound → (f t x).Sound) : (l.foldl f s).Sound := by
  induction l generalizing s with
  | nil => exact h
  | cons x l ih => exact ih (hf s x h)

theorem State.Sound.next (h : t.Sound) : Out.Sound (.next t) := by
  rintro _ ⟨⟩; exact h

theorem Out.Sound.ite {c : Prop} [Decidable c] {o p : Out} (ho : Out.Sound o) (hp : Out.Sound p) :
    Out.Sound (if c then o else p) := by
  split <;> assumption

end

end Sys2Proof.Machine
end

section
/-!
PROOF. Soundness of the operations that every unit shares, of queues, buffers and jobs (02, 03, 20).
-/

namespace Sys2Proof.Machine

open Sys2Proof

-- One thread at a time: the stacks of threads that wait for each other count against the check's memory limit.
set_option Elab.async false

/-! ## The state -/

theorem State.Sound.reset : State.reset.Sound := ⟨rfl, fun i => by cases i <;> rfl⟩

/-! ## Registers -/

theorem State.Sound.setReg {s : State} (hs : s.Sound) {page idx off : Nat} {v : Word32} : (s.setReg page idx off v).Sound :=
  hs.withFields

theorem State.Sound.fsetI {s : State} (hs : s.Sound) {page idx : Nat} {f : Fld} {x : Nat} : (s.fsetI page idx f x).Sound :=
  hs.setReg

theorem State.Sound.fset {s : State} (hs : s.Sound) {page : Nat} {f : Fld} {x : Nat} : (s.fset page f x).Sound := hs.fsetI

theorem State.Sound.faddI {s : State} (hs : s.Sound) {page idx : Nat} {f : Fld} {n : Nat} : (s.faddI page idx f n).Sound :=
  hs.fsetI

theorem State.Sound.fadd {s : State} (hs : s.Sound) {page : Nat} {f : Fld} {n : Nat} : (s.fadd page f n).Sound := hs.faddI

theorem State.Sound.fwrap {s : State} (hs : s.Sound) {page : Nat} {f : Fld} {n : Nat} : (s.fwrap page f n).Sound := hs.fset

theorem State.Sound.setCtr64 {s : State} (hs : s.Sound) {page off v : Nat} : (s.setCtr64 page off v).Sound := hs.setReg.setReg

/-! ## Memory -/

theorem State.Sound.poisonLine {s : State} (hs : s.Sound) {l : Nat} : (s.poisonLine l).Sound := hs.ite hs.withFields

theorem State.Sound.unpoison {s : State} (hs : s.Sound) {a n : Nat} : (s.unpoison a n).Sound := hs.withFields

theorem State.Sound.store {s : State} (hs : s.Sound) {a : Nat} {bs : List Byte} : (s.store a bs).Sound :=
  hs.withMem (writeBytes_wf hs.mem_wf a bs)

theorem State.Sound.copyMem {s : State} (hs : s.Sound) {src dst n : Nat} : (s.copyMem src dst n).Sound :=
  hs.withMem (copyBytes_wf hs.mem_wf _ _ _)

theorem State.Sound.zero {s : State} (hs : s.Sound) {a : Nat} {n : Nat} : (s.zero a n).Sound :=
  hs.withMem (zeroBytes_wf hs.mem_wf _ _)

/-! ## Shared operations -/

theorem State.Sound.emit {s : State} (hs : s.Sound) {o : OutEvent} : (s.emit o).Sound := hs.withFields

theorem State.Sound.msix {s : State} (hs : s.Sound) {port part vec : Nat} : (s.msix port part vec).Sound :=
  hs.ite (hs.withFields.ite hs.emit)

theorem State.Sound.pendRise {s : State} (hs : s.Sound) {page : Nat} {before : Bool} : (s.pendRise page before).Sound :=
  hs.msix.ite hs

theorem State.Sound.event {s : State} (hs : s.Sound) {page : Nat} : (s.event page).Sound := hs.fset.pendRise

theorem State.Sound.capture {s : State} (hs : s.Sound) {page : Nat} {e : Err} {addr : Nat} : (s.capture page e addr).Sound :=
  .pendRise (.fset (hs.ite hs.fset.setReg.fset))

theorem State.Sound.pulse {s : State} (hs : s.Sound) {line : Nat} : (s.pulse line).Sound := by
  refine .ite ⟨hs.mem_wf, fun i => ?_⟩ hs
  cases i
  · exact hs.safeHeld .a
  · exact hs.safeHeld .b

theorem State.Sound.pulseOwn {s : State} (hs : s.Sound) {i : Sn} {line : Nat} : (s.pulseOwn i line).Sound :=
  hs.withSn

theorem State.Sound.captureLine {s : State} (hs : s.Sound) {page : Nat} {e : Err} {addr line : Nat} :
    (s.captureLine page e addr line).Sound :=
  hs.capture.pulse

theorem State.Sound.touch {s : State} (hs : s.Sound) : s.touch.Sound := hs.withFields

theorem State.Sound.answer {s : State} (hs : s.Sound) {size v : Nat} : (s.answer size v).Sound := hs.emit

theorem State.Sound.traceAdd {s : State} (hs : s.Sound) {k n : Nat} : (s.traceAdd k n).Sound := hs.setReg.setReg

theorem State.Sound.trace {s : State} (hs : s.Sound) {code inst n : Nat} : (s.trace code inst n).Sound :=
  hs.foldl (fun _ _ ht => ht.traceAdd.ite ht)

theorem State.Sound.setWick {s : State} (hs : s.Sound) {w : Nat} {x : Wick} : (s.setWick w x).Sound := hs.withFields

theorem State.Sound.draw {s : State} (hs : s.Sound) : s.draw.Sound := hs.withFields

theorem State.Sound.setVolt {s : State} (hs : s.Sound) {n k : Nat} : (s.setVolt n k).Sound := hs.ite hs.withFields.emit

theorem State.Sound.variantRegs {s : State} (hs : s.Sound) : s.variantRegs.Sound := hs.setReg.fset.withFields

/-! ## Passing time -/

theorem State.Sound.wickBusy {s : State} (hs : s.Sound) {e w : Nat} {x : Wick} : (s.wickBusy e w x).Sound := by
  unfold State.wickBusy
  dsimp only
  refine .ite hs ?_
  split
  · exact hs.setCtr64.fadd
  · exact hs.setCtr64

theorem State.Sound.busy {s : State} (hs : s.Sound) {e : Nat} : (s.busy e).Sound := by
  obtain ⟨_, h⟩ := s.busy_shape e
  exact h ▸ hs.withFields

theorem State.Sound.elapse {e : Nat} {s : State} (hs : s.Sound) : (elapse e s).Sound := by
  obtain ⟨_, _, _, h⟩ := elapse_shape e s
  exact h ▸ hs.withFields

theorem State.Sound.onLive {s : State} (hs : s.Sound) {c : Bool} {t : State} (ht : t.Sound) : Out.Sound (onLive s c t) :=
  .next (ht.ite hs)

theorem State.Sound.onAwake {s : State} (hs : s.Sound) {c : Bool} {t : State} (ht : t.Sound) : Out.Sound (onAwake s c t) :=
  .next (ht.ite hs)

/-! ## The Regulator's admission -/

theorem State.Sound.setRankSt {s : State} (hs : s.Sound) {c r st : Nat} : (s.setRankSt c r st).Sound := hs.fset.withFields

theorem State.Sound.budgetRegs {s : State} (hs : s.Sound) : s.budgetRegs.Sound := hs.fset.fset

theorem State.Sound.setShed {s : State} (hs : s.Sound) {e : Nat} {b : Bool} : (s.setShed e b).Sound := hs.setReg

theorem State.Sound.admittedReg {s : State} (hs : s.Sound) : s.admittedReg.Sound := hs.fset

theorem State.Sound.shedLoop {s : State} (hs : s.Sound) {code : Err} {n : Nat} : (s.shedLoop code n).Sound := by
  induction n generalizing s with
  | zero => exact hs
  | succ n ih =>
    unfold State.shedLoop
    dsimp only
    refine .ite hs ?_
    split
    · exact hs
    · exact ih (.ite hs.setShed.captureLine.pulse hs.setShed.captureLine)

theorem State.Sound.readmit {s : State} (hs : s.Sound) {code : Err} : (s.readmit code).Sound := hs.budgetRegs.shedLoop.admittedReg

/-! ## Ranks of DDR-4 -/

theorem State.Sound.tellOffline {s : State} (hs : s.Sound) {c r : Nat} : (s.tellOffline c r).Sound := by
  unfold State.tellOffline
  refine .foldl hs ?_
  intro _ _ ht
  split
  · exact ht.captureLine.event
  · exact ht

theorem State.Sound.offlineRank {s : State} (hs : s.Sound) {c r a : Nat} : (s.offlineRank c r a).Sound :=
  hs.setRankSt.captureLine.tellOffline.readmit

theorem State.Sound.rankError {s : State} (hs : s.Sound) {c r a : Nat} {cmd : Bool} : (s.rankError c r a cmd).Sound :=
  .ite (hs.setRankSt.fset.captureLine.ite hs.offlineRank) (.ite (hs.setRankSt.offlineRank.touch.ite
      (hs.setRankSt.pulse.ite hs.captureLine)) (hs.ite hs.captureLine))

/-! ## Keys of lines -/

theorem State.Sound.drawKeys {s : State} (hs : s.Sound) : s.drawKeys.Sound := hs.withFields

theorem State.Sound.rekey {s : State} (hs : s.Sound) {l : Nat} {p : Nat} : (s.rekey l p).Sound :=
  hs.ite (hs.withMem (writeBytes_wf hs.mem_wf _ _))

/-! ## Buffers and versions -/

theorem State.Sound.setVbuf {s : State} (hs : s.Sound) {v : VBuf} : (s.setVbuf v).Sound := hs.withFields

theorem State.Sound.retagJob {s : State} (hs : s.Sound) {j : Job} : (s.retagJob j).Sound :=
  hs.foldl (fun _ _ ht => ht.setVbuf.ite ht)

theorem State.Sound.retagSweep {s : State} (hs : s.Sound) : s.retagSweep.Sound := hs.foldl (fun _ _ ht => ht.retagJob.ite ht)

theorem State.Sound.bindRef {s : State} (hs : s.Sound) {j : Job} {c : CRef} : (s.bindRef j c).1.Sound :=
  hs.fst_ite (hs.setVbuf.fst_ite hs)

theorem State.Sound.bindRefs {s : State} (hs : s.Sound) {j : Job} {cs : List CRef} : (s.bindRefs j cs).1.Sound := by
  induction cs generalizing s with
  | nil => exact hs
  | cons c cs ih => exact ih hs.bindRef

theorem State.Sound.discard {s : State} (hs : s.Sound) {j : Job} : (s.discard j).Sound := by
  unfold State.discard
  dsimp only
  refine .foldl hs ?_
  intro _ _ ht
  split
  · exact ht.setVbuf
  · exact ht

theorem State.Sound.dropTags {s : State} (hs : s.Sound) {j : Job} : (s.dropTags j).Sound := by
  unfold State.dropTags
  dsimp only
  refine .foldl hs ?_
  intro _ _ ht
  split
  · exact ht.ite ht.setVbuf
  · exact ht

theorem State.Sound.restart {s : State} (hs : s.Sound) {j : Job} : (s.restart j).Sound := by
  unfold State.restart
  dsimp only
  refine .foldl hs ?_
  intro _ _ ht
  split
  · exact ht.setVbuf
  · exact ht

/-! ## Accesses -/

theorem State.Sound.countReread {s : State} (hs : s.Sound) {a : Nat} : (s.countReread a).Sound := by
  unfold State.countReread
  split
  · exact hs.fadd
  · exact hs.fadd
  · exact hs.fadd
  · exact hs.fadd
  · exact hs

theorem State.Sound.storedError {s : State} (hs : s.Sound) {a : Nat} : (s.storedError a).Sound := by
  unfold State.storedError
  dsimp only
  split
  · exact hs.poisonLine.fadd.captureLine.withFields
  · exact hs.poisonLine.fadd.captureLine
  · exact hs.poisonLine.fadd.captureLine
  · exact hs.poisonLine.fadd.rankError
  · exact hs.poisonLine.captureLine

theorem State.Sound.countPoisoned {s : State} (hs : s.Sound) {a : Nat} : (s.countPoisoned a).Sound := by
  unfold State.countPoisoned
  split
  · exact hs.fadd
  · exact hs

theorem State.Sound.poisonHit {s : State} (hs : s.Sound) {a : Nat} : (s.poisonHit a).Sound := hs.capture.ite hs.captureLine

theorem State.Sound.guestIn {s : State} (hs : s.Sound) {a : Nat} {n : Nat} : (s.guestIn a n).Sound :=
  hs.ite (.ite (hs.withMem (writeBytes_wf hs.mem_wf _ _)) (hs.withMem (writeBytes_wf hs.mem_wf _ _)))

theorem State.Sound.mapAccess {s : State} (hs : s.Sound) {a n : Nat} : (s.mapAccess a n).Sound := hs.captureLine.ite hs

theorem State.Sound.readMarks {s : State} (hs : s.Sound) {a n : Nat} {chk : ReadCheck} : (s.readMarks a n chk).Sound := by
  unfold State.readMarks
  dsimp only
  split
  · exact hs.mapAccess.countPoisoned.ite hs.mapAccess.countPoisoned.poisonHit
  · exact hs.mapAccess.fadd.ite hs.mapAccess.storedError
  · split
    · exact hs.mapAccess.countReread.ite hs.mapAccess
    · exact hs.mapAccess

theorem State.Sound.storeLine {s : State} (hs : s.Sound) {a : Nat} {bs : List Byte} : (s.storeLine a bs).Sound := by
  unfold State.storeLine
  refine .ite ?_ hs.store
  split
  · exact hs.fadd
  · exact hs.fadd.ite hs
  · exact hs

theorem State.Sound.storeLines {s : State} (hs : s.Sound) {fuel a : Nat} {bs : List Byte} : (s.storeLines fuel a bs).Sound := by
  induction fuel generalizing s a bs with
  | zero => exact hs
  | succ f ih => exact .ite hs (ih hs.storeLine)

theorem State.Sound.storePlain {s : State} (hs : s.Sound) {a : Nat} {bs : List Byte} : (s.storePlain a bs).Sound :=
  hs.mapAccess.ite (hs.store.ite hs.storeLines)

theorem State.Sound.mergeMarks {s : State} (hs : s.Sound) {a n : Nat} : (s.mergeMarks a n).Sound :=
  hs.ite (hs.foldl (fun _ _ ht => ht.capture.ite ht))

theorem State.Sound.storeAt {s : State} (hs : s.Sound) {a : Nat} {bs : List Byte} : (s.storeAt a bs).Sound :=
  hs.storePlain.mergeMarks

theorem State.Sound.serveDdr {s : State} (hs : s.Sound) {port tc p n : Nat} {write : Bool} :
    (s.serveDdr port tc p n write).Sound :=
  .withFields (hs.fadd.ite hs)

theorem State.Sound.keyed {s : State} (hs : s.Sound) {m : Option Master} {a n : Nat} : (s.keyed m a n).Sound := by
  unfold State.keyed
  split
  · exact hs
  · refine .ite ?_ hs
    refine .foldl hs ?_
    intro _ _ ht
    split
    · exact ht.rekey
    · exact ht

theorem State.Sound.traffic {s : State} (hs : s.Sound) {m : Option Master} {port tc p a n : Nat} {write : Bool} :
    (s.traffic m port tc p a n write).Sound :=
  hs.ite (hs.keyed.setCtr64.serveDdr.ite hs.keyed.setCtr64)

theorem State.Sound.jobMoves {s : State} (hs : s.Sound) {j : Job} {a n : Nat} {write : Bool} : (s.jobMoves j a n write).Sound :=
  hs.traffic

/-! ## Queues -/

theorem State.Sound.setQueue {s : State} (hs : s.Sound) {qid : Nat} {q : QCtx} : (s.setQueue qid q).Sound := hs.withFields

theorem State.Sound.ctxTouch {s : State} (hs : s.Sound) {qid : Nat} : (s.ctxTouch qid).Sound := hs.ite hs.withFields

theorem State.Sound.ctxDrop {s : State} (hs : s.Sound) {qid : Nat} : (s.ctxDrop qid).Sound := hs.withFields

theorem State.Sound.ctxFail {s : State} (hs : s.Sound) {qid : Nat} : (s.ctxFail qid).Sound := hs.ctxDrop.captureLine

theorem State.Sound.setJob {s : State} (hs : s.Sound) {j : Job} : (s.setJob j).Sound := hs.withFields

theorem State.Sound.tagCount {s : State} (hs : s.Sound) {p : Nat} : (s.tagCount p).Sound := hs.fset

theorem State.Sound.haltQueue {s : State} (hs : s.Sound) {qid : Nat} {e : Err} {bell : Bool} :
    (s.haltQueue qid e bell).Sound := by
  unfold State.haltQueue
  dsimp only
  split
  · exact hs.setQueue.captureLine.tagCount.pulse.ite hs.setQueue.captureLine.tagCount
  · exact hs.setQueue

theorem State.Sound.enableQueue {s : State} (hs : s.Sound) {p qid port : Nat} : (s.enableQueue p qid port).Sound := hs.setQueue

theorem State.Sound.cmdEnable {s : State} (hs : s.Sound) {p port : Nat} : (s.cmdEnable p port).Sound := by
  unfold State.cmdEnable
  dsimp only
  refine .ite hs.captureLine ?_
  refine .ite hs ?_
  split
  · exact hs.captureLine
  · exact hs.enableQueue

theorem State.Sound.cmdDisable {s : State} (hs : s.Sound) {p : Nat} : (s.cmdDisable p).Sound :=
  hs.captureLine.ite (hs.ite (.tagCount (hs.setQueue.withFields.foldl (fun _ _ ht => ht.dropTags))))

theorem State.Sound.cmdResume {s : State} (hs : s.Sound) {p : Nat} : (s.cmdResume p).Sound :=
  hs.captureLine.ite (hs.ite hs.setQueue)

theorem State.Sound.applyBell {s : State} (hs : s.Sound) {qid part : Nat} {v : Word64} {epoch : Word32} {res : BellRes} :
    (s.applyBell qid part v epoch res).Sound := by
  unfold State.applyBell
  dsimp only
  split
  · exact hs.capture
  · exact hs.captureLine
  · exact hs.captureLine.ite hs.haltQueue
  · exact hs.setQueue

theorem State.Sound.beginFetch {s : State} (hs : s.Sound) {p qid tag : Nat} {bad : Bool} : (s.beginFetch p qid tag bad).Sound :=
  .trace (.tagCount (.ite (.ctxTouch (.withFields (.setQueue (hs.ctxFail.ite hs)))) (.withFields (.setQueue
      (hs.ctxFail.ite hs)))))

theorem State.Sound.dequeueSlot {s : State} (hs : s.Sound) {bad : Bool} : (s.dequeueSlot bad).Sound := by
  unfold State.dequeueSlot
  dsimp only
  split
  · exact .withFields (hs.foldl (fun _ _ ht => ht.setCtr64.trace))
  · split
    · exact .ite (.withFields (.withFields (hs.foldl (fun _ _ ht => ht.setCtr64.trace)))) (.withFields (hs.foldl
        (fun _ _ ht => ht.setCtr64.trace)))
    · split
      · exact .ite (.withFields (.withFields (hs.foldl (fun _ _ ht => ht.setCtr64.trace)))) (.withFields (hs.foldl
          (fun _ _ ht => ht.setCtr64.trace)))
      · exact .beginFetch (.ite (.withFields (.withFields (hs.foldl (fun _ _ ht => ht.setCtr64.trace)))) (.withFields (hs.foldl
          (fun _ _ ht => ht.setCtr64.trace))))

/-! ## Descriptors -/

theorem State.Sound.bufTouch {s : State} (hst : s.Sound) {p : Nat} {hs : List Nat} : (s.bufTouch p hs).Sound := hst.withFields

/-! ## Jobs -/

theorem State.Sound.setFetch {s : State} (hs : s.Sound) {qid : Nat} {f : Fetch} : (s.setFetch qid f).Sound := hs.setQueue

theorem State.Sound.waitingBells {s : State} (hs : s.Sound) {qid : Nat} : (s.waitingBells qid).Sound :=
  hs.withFields.foldl (fun _ _ ht => ht.applyBell)

theorem State.Sound.contextDone {s : State} (hs : s.Sound) {qid : Nat} {chk : ReadCheck} : (s.contextDone qid chk).Sound := by
  unfold State.contextDone
  dsimp only
  split
  · exact hs.captureLine
  · split
    · exact hs.ctxTouch.waitingBells.setFetch.ite hs.ctxTouch.waitingBells
    · exact hs.ctxTouch.waitingBells

theorem State.Sound.finishDequeue {s : State} (hs : s.Sound) {qid p : Nat} {o : Opc} {f : Fetch} :
    (s.finishDequeue qid p o f).Sound := by
  unfold State.finishDequeue
  dsimp only
  split
  · exact hs.haltQueue
  · exact hs.bufTouch.setQueue.withFields.tagCount.retagSweep

theorem State.Sound.nextEntry {s : State} (hs : s.Sound) {qid p : Nat} {o : Opc} {f : Fetch} {ar : Bool} :
    (s.nextEntry qid p o f ar).Sound :=
  hs.finishDequeue.ite hs.setFetch

theorem State.Sound.fetchRead {s : State} (hs : s.Sound) {qid : Nat} {f : Fetch} {a n : Nat} {chk : ReadCheck}
    {ok : State → State} (hok : ∀ x0, State.Sound x0 → State.Sound (ok x0)) : (s.fetchRead qid f a n chk ok).Sound := by
  unfold State.fetchRead
  dsimp only
  split
  · exact hs.readMarks.haltQueue
  · exact hs.readMarks.haltQueue.ite hs.readMarks.setFetch
  · exact hok _ hs.readMarks.traffic

theorem State.Sound.descriptorDone {s : State} (hs : s.Sound) {qid : Nat} {chk : ReadCheck} :
    (s.descriptorDone qid chk).Sound := by
  unfold State.descriptorDone
  dsimp only
  split
  · refine .ite ?_ hs
    refine .fetchRead hs ?_
    intro _ ht
    split
    · exact ht.haltQueue
    · split
      · exact ht.nextEntry
      · exact ht
  · exact hs

/-- The arrival of an entry read for a fetch at stage `st` of command `o`; `m` tells which entries are missing and `d` whether the
arguments are due, so that the kernel need not evaluate the descriptor's bits. -/
def State.entryArrives (s : State) (qid : Nat) (chk : ReadCheck) (f : Fetch) (p : Nat) (m : Opc → Nat → Nat → Bool → List Nat)
    (d : Opc → Nat → Nat → Bool → Bool) (st : FetchStage) (o : Option Opc) : State :=
  match st, o with
  | .entries ar, some o =>
    match m o p f.desc ar with
    | h :: _ => s.fetchRead qid f (s.entryAddr p h) 32 chk fun t => (t.bufTouch p [h]).nextEntry qid p o f ar
    | [] =>
      if d o p f.desc ar then
        s.fetchRead qid f (s.argsAddr p f.desc) (s.argBytes p f.desc) chk fun t => t.nextEntry qid p o f true
      else s.nextEntry qid p o f ar
  | _, _ => s

theorem State.Sound.entryArrives {s : State} (hs : s.Sound) {qid : Nat} {chk : ReadCheck} {f : Fetch} {p : Nat}
    {m : Opc → Nat → Nat → Bool → List Nat} {d : Opc → Nat → Nat → Bool → Bool} {st : FetchStage} {o : Option Opc} :
    (s.entryArrives qid chk f p m d st o).Sound := by
  unfold State.entryArrives
  split
  · split
    · exact hs.fetchRead fun _ ht => ht.bufTouch.nextEntry
    · exact .ite (hs.fetchRead fun _ ht => ht.nextEntry) hs.nextEntry
  · exact hs

theorem State.Sound.entryDone {s : State} (hs : s.Sound) {qid : Nat} {chk : ReadCheck} : (s.entryDone qid chk).Sound := by
  unfold State.entryDone
  cases (s.queue qid).fetch with
  | none => exact hs
  | some f =>
    cases s.queueOwner qid with
    | none => exact hs
    | some p => exact hs.entryArrives (m := s.missing) (d := s.argsDue) (st := f.stage) (o := opcOf (df f.desc 0 7 0))

theorem State.Sound.startJob {s : State} (hs : s.Sound) {j : Job} : (s.startJob j).Sound := hs.bindRefs.bindRefs.setJob.withFields

theorem State.Sound.tryStart {s : State} (hs : s.Sound) {j : Job} : (s.tryStart j).Sound := by
  unfold State.tryStart
  refine .ite hs ?_
  split
  · exact hs
  · exact hs.setJob.dropTags.retagSweep
  · exact hs.startJob.ite hs

theorem State.Sound.exhausted {s : State} (hs : s.Sound) {p : Nat} : (s.exhausted p).Sound := hs.pulse.ite hs

theorem State.Sound.unitRetry {s : State} (hs : s.Sound) {j : Job} : (s.unitRetry j).Sound :=
  hs.setJob.trace.ite hs.setJob.exhausted

theorem State.Sound.unitRead {s : State} (hs : s.Sound) {j : Job} {a n : Nat} {chk : ReadCheck} {ok : State → State}
    (hok : ∀ x0, State.Sound x0 → State.Sound (ok x0)) : (s.unitRead j a n chk ok).Sound := by
  unfold State.unitRead
  dsimp only
  refine .ite hs ?_
  split
  · exact hs.setJob
  · split
    · exact hs.readMarks.setJob
    · exact hs.readMarks.unitRetry
    · exact hok _ hs.readMarks.guestIn.jobMoves

theorem State.Sound.unitWrite {s : State} (hs : s.Sound) {j : Job} {a n : Nat} {ok : State → State}
    (hok : ∀ x0, State.Sound x0 → State.Sound (ok x0)) : (s.unitWrite j a n ok).Sound := by
  unfold State.unitWrite
  refine .ite hs ?_
  split
  · exact hs.setJob
  · exact hok _ hs.jobMoves

theorem State.Sound.staleEnd {s : State} (hs : s.Sound) {j : Job} : (s.staleEnd j).Sound := hs.setJob.retagSweep

theorem State.Sound.countSampler {s : State} (hs : s.Sound) {j : Job} : (s.countSampler j).Sound := hs.fwrap.fwrap

theorem State.Sound.countEmpty {s : State} (hs : s.Sound) {j : Job} : (s.countEmpty j).Sound := by
  unfold State.countEmpty
  refine .ite hs ?_
  split
  · exact hs.countSampler
  · exact hs.countSampler
  · exact hs.fwrap
  · exact hs.fwrap
  · exact hs

theorem State.Sound.completeJob {s : State} (hs : s.Sound) {j : Job} : (s.completeJob j).Sound :=
  .retagSweep (hs.countEmpty.setJob.dropTags.ite hs.countEmpty.setJob)

theorem State.Sound.takeJob {s : State} (hs : s.Sound) {e : Engine} {k : Nat} : (s.takeJob e k).Sound := by
  unfold State.takeJob
  split
  · exact hs.setJob
  · exact hs

theorem State.Sound.copyAt {s : State} (hs : s.Sound) {src dst n : Nat} : (s.copyAt src dst n).Sound :=
  hs.copyMem.mergeMarks.ite hs.storeAt

theorem State.Sound.copyStep {s : State} (hs : s.Sound) {j : Job} {chk : ReadCheck} : (s.copyStep j chk).Sound :=
  hs.staleEnd.ite (hs.ite (hs.unitRead (fun _ ht => ht.unitWrite (fun _ ht1 => ht1.copyAt.setJob))))

theorem State.Sound.barrierStep {s : State} (hs : s.Sound) {j : Job} : (s.barrierStep j).Sound := by
  unfold State.barrierStep
  split
  · exact hs.setJob
  · exact hs.setJob.ite hs

theorem State.Sound.writeBack {s : State} (hs : s.Sound) {qid : Nat} {num : Word32} {w : Word64} :
    (s.writeBack qid num w).Sound :=
  hs.storeAt.traffic

theorem State.Sound.retire {s : State} (hs : s.Sound) {qid : Nat} {st : JState} {e : Err} {w : Word64} {irq : Bool} :
    (s.retire qid st e w irq).Sound := by
  unfold State.retire
  dsimp only
  split
  · exact hs.writeBack.setQueue.msix.ite hs.writeBack.setQueue
  · exact hs.writeBack.setQueue

theorem State.Sound.retireNext {s : State} (hs : s.Sound) {qid : Nat} : (s.retireNext qid).Sound := by
  unfold State.retireNext
  dsimp only
  refine .ite hs ?_
  split
  · exact hs.withFields.retire.tagCount.ite hs
  · exact hs.retire.setQueue.ite hs

theorem State.Sound.cmdSkip {s : State} (hs : s.Sound) {p : Nat} : (s.cmdSkip p).Sound :=
  hs.captureLine.ite (hs.ite (hs.setQueue.ite hs.setQueue.setQueue.withFields))

theorem State.Sound.ringBell {s : State} (hs : s.Sound) {p qid : Nat} {v : Word64} {bad : Bool} :
    (s.ringBell p qid v bad).Sound :=
  hs.capture.ite (hs.ctxTouch.applyBell.ite (.withFields (hs.ctxFail.ite hs)))

theorem State.Sound.execDoorbell {w : Writer} {qid : Nat} {v : Word64} {bad : Bool} {s : State} (hs : s.Sound) :
    Out.Sound (execDoorbell w qid v bad s) :=
  hs.onAwake hs.ringBell.touch

theorem State.Sound.execContextFetchDone {qid : Nat} {chk : ReadCheck} {s : State} (hs : s.Sound) :
    Out.Sound (execContextFetchDone qid chk s) :=
  hs.onAwake hs.contextDone

theorem State.Sound.execDequeue {bad : Bool} {s : State} (hs : s.Sound) : Out.Sound (execDequeue bad s) :=
  hs.onAwake hs.dequeueSlot

theorem State.Sound.execDescriptorArrival {qid : Nat} {chk : ReadCheck} {s : State} (hs : s.Sound) :
    Out.Sound (execDescriptorArrival qid chk s) :=
  hs.onAwake hs.descriptorDone

theorem State.Sound.execBufferEntryReadDone {qid : Nat} {chk : ReadCheck} {s : State} (hs : s.Sound) :
    Out.Sound (execBufferEntryReadDone qid chk s) :=
  hs.onAwake hs.entryDone

theorem State.Sound.withJob {s : State} (hs : s.Sound) {tag : Nat} {f : Job → State} (hf : ∀ x0, State.Sound (f x0)) :
    (s.withJob tag f).Sound := by
  unfold State.withJob
  split
  · exact hf _ 
  · exact hs

theorem State.Sound.execJobStart {tag : Nat} {s : State} (hs : s.Sound) : Out.Sound (execJobStart tag s) :=
  hs.onAwake (hs.withJob (fun _ => hs.tryStart))

theorem State.Sound.execJobComplete {tag : Nat} {s : State} (hs : s.Sound) : Out.Sound (execJobComplete tag s) :=
  hs.onAwake (hs.withJob (fun _ => hs.completeJob.ite hs))

theorem State.Sound.execJobRetire {qid : Nat} {s : State} (hs : s.Sound) : Out.Sound (execJobRetire qid s) :=
  hs.onAwake hs.retireNext

theorem State.Sound.execDescriptorNop {tag : Nat} {s : State} (hs : s.Sound) : Out.Sound (execDescriptorNop tag s) :=
  hs.onAwake (hs.withJob (fun _ => hs.setJob.ite hs))

theorem State.Sound.execBarrier {tag : Nat} {s : State} (hs : s.Sound) : Out.Sound (execBarrier tag s) :=
  hs.onAwake (hs.withJob (fun _ => hs.barrierStep.ite hs))

theorem State.Sound.execEngineJobStart {eng : Engine} {place : Nat} {s : State} (hs : s.Sound) :
    Out.Sound (execEngineJobStart eng place s) :=
  hs.onAwake hs.takeJob

theorem State.Sound.execCopy {tag : Nat} {s : State} (hs : s.Sound) : Out.Sound (execCopy tag s) :=
  hs.onAwake (hs.withJob (fun _ => hs.setJob.ite hs))

theorem State.Sound.execCopyUnitDone {place : Nat} {chk : ReadCheck} {s : State} (hs : s.Sound) :
    Out.Sound (execCopyUnitDone place chk s) := by
  unfold Machine.execCopyUnitDone
  refine .onAwake hs ?_
  split
  · exact hs.copyStep.ite hs
  · exact hs

/-! ## The coverage round -/

theorem State.Sound.lapse {s : State} (hs : s.Sound) : s.lapse.Sound := hs.ite hs.withFields.fadd.captureLine

theorem State.Sound.roundCheck {s : State} (hs : s.Sound) : s.roundCheck.Sound := hs.withFields.fwrap.ite hs

theorem State.Sound.coverChunk {s : State} (hs : s.Sound) {kind tgt chunk : Nat} : (s.coverChunk kind tgt chunk).Sound :=
  hs.withFields.roundCheck

theorem State.Sound.coverageTick {s : State} (hs : s.Sound) {e : Word32} : (s.coverageTick e).Sound :=
  .ite (.withFields (hs.lapse.ite hs)) hs

end Sys2Proof.Machine
end

section
/-!
PROOF. Soundness of the commands of the Wicks and the Sconces (04 to 08).
-/

namespace Sys2Proof.Machine

open Sys2Proof

-- One thread at a time: the stacks of threads that wait for each other count against the check's memory limit.
set_option Elab.async false

/-! ## A Wick's sequencer -/

theorem State.Sound.issue {s : State} (hs : s.Sound) {w enc : Nat} {f : Wick → Wick} : (s.issue w enc f).Sound :=
  hs.setWick.ite hs

theorem State.Sound.issueWith {s : State} (hs : s.Sound) {w enc : Nat} {f : Wick → State} (hf : ∀ x0, State.Sound (f x0)) :
    (s.issueWith w enc f).Sound :=
  .ite (hf _ ) hs

theorem State.Sound.setTok {s : State} (hs : s.Sound) {e : SbEntry} {n : Nat} : (s.setTok e n).Sound := by
  unfold State.setTok
  dsimp only
  split
  · exact hs.setWick
  · exact hs.withFields

theorem State.Sound.arrive {s : State} (hs : s.Sound) {e : SbEntry} : (s.arrive e).Sound := hs.withFields

theorem State.Sound.takeArrival {s : State} (hs : s.Sound) {e : SbEntry} : (s.takeArrival e).Sound := hs.withFields

theorem State.Sound.failJob {s : State} (hs : s.Sound) {tag : Nat} {e : Err} : (s.failJob tag e).Sound := by
  unfold State.failJob
  split
  · exact hs.ite hs.setJob
  · exact hs

theorem State.Sound.dropPriv {s : State} (hs : s.Sound) {w : Nat} : (s.dropPriv w).Sound := hs.withFields

theorem State.Sound.dropEngines {s : State} (hs : s.Sound) {tag : Nat} : (s.dropEngines tag).Sound := hs.withFields

theorem State.Sound.stopUnits {s : State} (hs : s.Sound) {tag : Nat} : (s.stopUnits tag).Sound :=
  .dropEngines (hs.foldl (fun _ _ ht => ht.setWick.dropPriv))

theorem State.Sound.failWickJob {s : State} (hs : s.Sound) {tag : Nat} {e : Err} : (s.failWickJob tag e).Sound := by
  unfold State.failWickJob
  dsimp only
  split
  · exact hs.failJob.stopUnits.setJob
  · exact hs.failJob.stopUnits

theorem State.Sound.entryFail {s : State} (hs : s.Sound) {e : SbEntry} : (s.entryFail e).Sound := hs.captureLine.failWickJob

theorem State.Sound.arrivalAt {s : State} (hs : s.Sound) {e : SbEntry} {chk : Bool} : (s.arrivalAt e chk).Sound :=
  hs.takeArrival.ite (hs.takeArrival.entryFail.ite (hs.takeArrival.captureLine.failWickJob.ite hs.takeArrival.setTok))

theorem State.Sound.passWait {s : State} (hs : s.Sound) {w : Nat} {e : SbEntry} {n : Nat} : (s.passWait w e n).Sound :=
  hs.setTok.setWick

theorem State.Sound.waitStep {s : State} (hs : s.Sound) {w : Nat} {f : WaitF} {chk : Bool} : (s.waitStep w f chk).Sound :=
  hs.entryFail.ite (hs.passWait.ite hs.setWick)

theorem State.Sound.releaseWait {s : State} (hs : s.Sound) {w : Nat} {chk : Bool} : (s.releaseWait w chk).Sound := by
  unfold State.releaseWait
  dsimp only
  split
  · exact hs.entryFail.ite (hs.passWait.ite hs)
  · exact hs

theorem State.Sound.arriveStep {s : State} (hs : s.Sound) {w : Nat} {f : ArriveF} : (s.arriveStep w f).Sound := by
  unfold State.arriveStep
  dsimp only
  refine .ite ?_ hs.setWick.arrive
  refine .ite hs.setWick ?_
  split
  · exact hs.setWick.arrive
  · exact hs.setWick

theorem State.Sound.scalar {s : State} (hs : s.Sound) {op w : Nat} {f : SFields} {g : Wick → Word32 → Word32 → Word32} :
    Out.Sound (s.scalar op w f g) :=
  hs.onLive hs.issue

theorem State.Sound.execTileNop {wick : Nat} {s : State} (hs : s.Sound) : Out.Sound (execTileNop wick s) := hs.onLive hs.issue

theorem State.Sound.execTileEnd {wick : Nat} {s : State} (hs : s.Sound) : Out.Sound (execTileEnd wick s) := hs.onLive hs.issue

theorem State.Sound.execTileLoop {wick : Nat} {f : LoopF} {s : State} (hs : s.Sound) : Out.Sound (execTileLoop wick f s) :=
  hs.onLive hs.issue

theorem State.Sound.execTileWait {wick : Nat} {f : WaitF} {chk : Bool} {s : State} (hs : s.Sound) :
    Out.Sound (execTileWait wick f chk s) :=
  hs.onLive (hs.issueWith (fun _ => hs.waitStep))

theorem State.Sound.execTileArrive {wick : Nat} {f : ArriveF} {s : State} (hs : s.Sound) : Out.Sound (execTileArrive wick f s) :=
  hs.onLive (hs.issueWith (fun _ => hs.arriveStep))

theorem State.Sound.execTileFence {wick : Nat} {f : FenceF} {s : State} (hs : s.Sound) : Out.Sound (execTileFence wick f s) :=
  hs.onLive hs.issue

theorem State.Sound.execSadd {wick : Nat} {f : SFields} {s : State} (hs : s.Sound) : Out.Sound (execSadd wick f s) := hs.scalar

theorem State.Sound.execSsub {wick : Nat} {f : SFields} {s : State} (hs : s.Sound) : Out.Sound (execSsub wick f s) := hs.scalar

theorem State.Sound.execSmul {wick : Nat} {f : SFields} {s : State} (hs : s.Sound) : Out.Sound (execSmul wick f s) := hs.scalar

theorem State.Sound.execSand {wick : Nat} {f : SFields} {s : State} (hs : s.Sound) : Out.Sound (execSand wick f s) := hs.scalar

theorem State.Sound.execSor {wick : Nat} {f : SFields} {s : State} (hs : s.Sound) : Out.Sound (execSor wick f s) := hs.scalar

theorem State.Sound.execSxor {wick : Nat} {f : SFields} {s : State} (hs : s.Sound) : Out.Sound (execSxor wick f s) := hs.scalar

theorem State.Sound.execSshl {wick : Nat} {f : SFields} {s : State} (hs : s.Sound) : Out.Sound (execSshl wick f s) := hs.scalar

theorem State.Sound.execSshr {wick : Nat} {f : SFields} {s : State} (hs : s.Sound) : Out.Sound (execSshr wick f s) := hs.scalar

theorem State.Sound.execSminu {wick : Nat} {f : SFields} {s : State} (hs : s.Sound) : Out.Sound (execSminu wick f s) := hs.scalar

theorem State.Sound.execSmaxu {wick : Nat} {f : SFields} {s : State} (hs : s.Sound) : Out.Sound (execSmaxu wick f s) := hs.scalar

theorem State.Sound.execSlix {wick : Nat} {f : SFields} {s : State} (hs : s.Sound) : Out.Sound (execSlix wick f s) := hs.scalar

theorem State.Sound.execScoreboardArrival {ent : SbEntry} {chk : Bool} {s : State} (hs : s.Sound) :
    Out.Sound (execScoreboardArrival ent chk s) :=
  hs.onLive hs.arrivalAt

theorem State.Sound.execWaitRelease {wick : Nat} {chk : Bool} {s : State} (hs : s.Sound) :
    Out.Sound (execWaitRelease wick chk s) :=
  hs.onLive hs.releaseWait

/-! ## Vector instructions -/

theorem State.Sound.vec2 {s : State} (hs : s.Sound) {op w : Nat} {f : VFields} {g : Nat → Nat → Nat} :
    Out.Sound (s.vec2 op w f g) :=
  hs.onLive hs.issue

theorem State.Sound.vec1 {s : State} (hs : s.Sound) {op w : Nat} {f : VFields} {g : Nat → Nat} : Out.Sound (s.vec1 op w f g) :=
  hs.onLive hs.issue

theorem State.Sound.execVadd {wick : Nat} {f : VFields} {s : State} (hs : s.Sound) : Out.Sound (execVadd wick f s) := hs.vec2

theorem State.Sound.execVsub {wick : Nat} {f : VFields} {s : State} (hs : s.Sound) : Out.Sound (execVsub wick f s) := hs.vec2

theorem State.Sound.execVmul {wick : Nat} {f : VFields} {s : State} (hs : s.Sound) : Out.Sound (execVmul wick f s) := hs.vec2

theorem State.Sound.execVfma {wick : Nat} {f : VFields} {s : State} (hs : s.Sound) : Out.Sound (execVfma wick f s) :=
  hs.onLive hs.issue

theorem State.Sound.execVmin {wick : Nat} {f : VFields} {s : State} (hs : s.Sound) : Out.Sound (execVmin wick f s) := hs.vec2

theorem State.Sound.execVmax {wick : Nat} {f : VFields} {s : State} (hs : s.Sound) : Out.Sound (execVmax wick f s) := hs.vec2

theorem State.Sound.execVand {wick : Nat} {f : VFields} {s : State} (hs : s.Sound) : Out.Sound (execVand wick f s) := hs.vec2

theorem State.Sound.execVor {wick : Nat} {f : VFields} {s : State} (hs : s.Sound) : Out.Sound (execVor wick f s) := hs.vec2

theorem State.Sound.execVxor {wick : Nat} {f : VFields} {s : State} (hs : s.Sound) : Out.Sound (execVxor wick f s) := hs.vec2

theorem State.Sound.execVshl {wick : Nat} {f : VFields} {s : State} (hs : s.Sound) : Out.Sound (execVshl wick f s) := hs.vec2

theorem State.Sound.execVshr {wick : Nat} {f : VFields} {s : State} (hs : s.Sound) : Out.Sound (execVshr wick f s) := hs.vec2

theorem State.Sound.execVcmp {wick : Nat} {f : VFields} {s : State} (hs : s.Sound) : Out.Sound (execVcmp wick f s) :=
  hs.onLive hs.issue

theorem State.Sound.execVsel {wick : Nat} {f : VFields} {s : State} (hs : s.Sound) : Out.Sound (execVsel wick f s) :=
  hs.onLive hs.issue

theorem State.Sound.execVcvt {wick : Nat} {f : VFields} {s : State} (hs : s.Sound) : Out.Sound (execVcvt wick f s) :=
  hs.onLive hs.issue

theorem State.Sound.execVexp2 {wick : Nat} {f : VFields} {s : State} (hs : s.Sound) : Out.Sound (execVexp2 wick f s) := hs.vec1

theorem State.Sound.execVlog2 {wick : Nat} {f : VFields} {s : State} (hs : s.Sound) : Out.Sound (execVlog2 wick f s) := hs.vec1

theorem State.Sound.execVrcp {wick : Nat} {f : VFields} {s : State} (hs : s.Sound) : Out.Sound (execVrcp wick f s) := hs.vec1

theorem State.Sound.execVrsq {wick : Nat} {f : VFields} {s : State} (hs : s.Sound) : Out.Sound (execVrsq wick f s) := hs.vec1

theorem State.Sound.execVmov {wick : Nat} {f : VFields} {s : State} (hs : s.Sound) : Out.Sound (execVmov wick f s) :=
  hs.onLive hs.issue

theorem State.Sound.execVrot {wick : Nat} {f : VFields} {s : State} (hs : s.Sound) : Out.Sound (execVrot wick f s) :=
  hs.onLive hs.issue

theorem State.Sound.execPset {wick : Nat} {f : VFields} {s : State} (hs : s.Sound) : Out.Sound (execPset wick f s) :=
  hs.onLive hs.issue

theorem State.Sound.execPlog {wick : Nat} {f : VFields} {s : State} (hs : s.Sound) : Out.Sound (execPlog wick f s) :=
  hs.onLive hs.issue

/-! ## Scratchpad and tensor instructions -/

theorem State.Sound.padCheck {s : State} (hs : s.Sound) {w a n : Nat} {chk : ReadCheck} {ok : State → State}
    (hok : ∀ x0, State.Sound x0 → State.Sound (ok x0)) : (s.padCheck w a n chk ok).Sound := by
  unfold State.padCheck
  dsimp only
  split
  · exact hs.readMarks.setWick
  · exact hs.readMarks.setWick
  · exact hok _ hs.readMarks

theorem State.Sound.vld {s : State} (hs : s.Sound) {w : Nat} {f : MFields} {chk : ReadCheck} : (s.vld w f chk).Sound := by
  unfold State.vld
  dsimp only
  split
  · exact hs.setWick
  · exact hs.padCheck (fun _ ht => ht.setWick)

theorem State.Sound.vst {s : State} (hs : s.Sound) {w : Nat} {f : MFields} : (s.vst w f).Sound := by
  unfold State.vst
  dsimp only
  split
  · exact hs.setWick
  · exact hs.setWick.ite hs

theorem State.Sound.drainLine {s : State} (hs : s.Sound) {base : Nat} {e : StoreEnt} {k : Nat} : (s.drainLine base e k).Sound :=
  hs.storeAt.ite (hs.ite (hs.withMem (writeBytes_wf hs.mem_wf _ _)))

theorem State.Sound.drainStore {s : State} (hs : s.Sound) {w : Nat} : (s.drainStore w).Sound := by
  unfold State.drainStore
  dsimp only
  split
  · exact hs
  · exact hs.setWick.foldl (fun _ _ ht => ht.drainLine)

theorem State.Sound.compArrive {s : State} (hs : s.Sound) {w : Nat} {a : Companion} : (s.compArrive w a).Sound := by
  unfold State.compArrive
  split
  · exact hs.arrive
  · exact hs

theorem State.Sound.mmaStep {s : State} (hs : s.Sound) {w : Nat} {g : TFields} {chk : ReadCheck} : (s.mmaStep w g chk).Sound := by
  unfold State.mmaStep
  dsimp only
  split
  · exact hs.setWick
  · exact hs.ite (hs.padCheck (fun _ ht => ht.padCheck (fun _ ht1 => ht1.padCheck (fun _ ht2 => ht2.setWick.compArrive))))

theorem State.Sound.execVld {wick : Nat} {f : MFields} {chk : ReadCheck} {s : State} (hs : s.Sound) :
    Out.Sound (execVld wick f chk s) :=
  hs.onLive (hs.issueWith (fun _ => hs.vld))

theorem State.Sound.execVst {wick : Nat} {f : MFields} {s : State} (hs : s.Sound) : Out.Sound (execVst wick f s) :=
  hs.onLive (hs.issueWith (fun _ => hs.vst))

theorem State.Sound.execTrd {wick : Nat} {f : MFields} {s : State} (hs : s.Sound) : Out.Sound (execTrd wick f s) :=
  hs.onLive hs.issue

theorem State.Sound.execTwr {wick : Nat} {f : MFields} {s : State} (hs : s.Sound) : Out.Sound (execTwr wick f s) :=
  hs.onLive hs.issue

theorem State.Sound.execMma {wick : Nat} {f : TFields} {chk : ReadCheck} {s : State} (hs : s.Sound) :
    Out.Sound (execMma wick f chk s) :=
  hs.onLive (hs.issueWith (fun _ => hs.mmaStep))

theorem State.Sound.execStoreDrain {wick : Nat} {s : State} (hs : s.Sound) : Out.Sound (execStoreDrain wick s) :=
  hs.onLive hs.drainStore

/-! ## DMA -/

theorem State.Sound.dmaQueue {s : State} (hs : s.Sound) {w : Nat} {f : DFields} {d : DmaSide} {c : DmaCmd} :
    (s.dmaQueue w f d c).Sound := by
  unfold State.dmaQueue
  dsimp only
  split
  · exact hs.setWick
  · exact hs.setWick

theorem State.Sound.dmaStep {s : State} (hs : s.Sound) {w : Nat} {f : DFields} : (s.dmaStep w f).Sound := by
  unfold State.dmaStep
  dsimp only
  refine .ite hs ?_
  split
  · exact hs.setWick
  · exact hs.dmaQueue

theorem State.Sound.dmagStep {s : State} (hs : s.Sound) {w : Nat} {f : DFields} {chk : ReadCheck} :
    (s.dmagStep w f chk).Sound := by
  unfold State.dmagStep
  dsimp only
  refine .ite hs ?_
  refine .ite hs.setWick ?_
  split
  · exact hs.setWick
  · exact hs.padCheck (fun _ ht => ht.dmaQueue)

theorem State.Sound.moveAll {s : State} (hs : s.Sound) {ms : List (Nat × Nat × Nat)} : (s.moveAll ms).Sound :=
  hs.foldl (fun _ _ ht => ht.guestIn.copyAt)

theorem State.Sound.dmaTraffic {s : State} (hs : s.Sound) {w p : Nat} {c : DmaCmd} {ms : List (Nat × Nat × Nat)} :
    (s.dmaTraffic w p c ms).Sound :=
  hs.foldl (fun _ _ ht => ht.traffic)

theorem State.Sound.staleWickJob {s : State} (hs : s.Sound) {tag : Nat} : (s.staleWickJob tag).Sound := by
  unfold State.staleWickJob
  dsimp only
  split
  · exact hs.stopUnits.setJob.retagSweep
  · exact hs.stopUnits

theorem State.Sound.dmaDone {s : State} (hs : s.Sound) {w ch : Nat} {chk : ReadCheck} : (s.dmaDone w ch chk).Sound := by
  unfold State.dmaDone
  dsimp only
  split
  · exact hs
  · refine .ite hs.setWick.staleWickJob ?_
    refine .ite hs ?_
    refine .ite hs.setWick.setWick ?_
    split
    · split
      · exact hs.setWick.readMarks.setWick
      · exact hs.setWick.readMarks.setWick
    · refine .ite ?_ ?_
      · refine .arrive ?_
        refine .moveAll ?_
        refine .dmaTraffic ?_
        split
        · exact hs.setWick.countReread.ite hs.setWick
        · exact hs.setWick
      · refine .moveAll ?_
        refine .dmaTraffic ?_
        split
        · exact hs.setWick.countReread.ite hs.setWick
        · exact hs.setWick

theorem State.Sound.execDma {wick : Nat} {f : DFields} {s : State} (hs : s.Sound) : Out.Sound (execDma wick f s) :=
  hs.onLive (hs.issueWith (fun _ => hs.dmaStep))

theorem State.Sound.execDmag {wick : Nat} {f : DFields} {chk : ReadCheck} {s : State} (hs : s.Sound) :
    Out.Sound (execDmag wick f chk s) :=
  hs.onLive (hs.issueWith (fun _ => hs.dmagStep))

theorem State.Sound.execDmaCommandComplete {wick ch : Nat} {chk : ReadCheck} {s : State} (hs : s.Sound) :
    Out.Sound (execDmaCommandComplete wick ch chk s) :=
  hs.onLive hs.dmaDone

/-! ## Attention outputs -/

theorem State.Sound.attnWrite {s : State} (hs : s.Sound) {j : Job} {n a : Nat} {bs : List Byte} {ok : State → State}
    (hok : ∀ x0, State.Sound x0 → State.Sound (ok x0)) : (s.attnWrite j n a bs ok).Sound := by
  unfold State.attnWrite
  split
  · exact hs.failWickJob
  · exact hok _ hs.traffic.storeAt

theorem State.Sound.attnOutput {s : State} (hs : s.Sound) {j : Job} {n grp : Nat} {parts : List (List Word32)} :
    (s.attnOutput j n grp parts).Sound := hs.attnWrite fun _ ht => ht

/-! ## The Combiner and the Sorter -/

theorem State.Sound.groupWrite {s : State} (hs : s.Sound) {g : Group} {a : Nat} {d : List Word32} : (s.groupWrite g a d).Sound :=
  .ite (hs.foldl (fun _ _ ht => ht.storeAt)) hs.storeAt

theorem State.Sound.contribute {s : State} (hs : s.Sound) {tag grp no : Nat} {p : CmbPart} : (s.contribute tag grp no p).Sound :=
  hs.withFields.ite hs.withFields

theorem State.Sound.cmbStep {s : State} (hs : s.Sound) {w : Nat} {f : CmbF} : (s.cmbStep w f).Sound := by
  unfold State.cmbStep
  dsimp only
  split
  · exact hs
  · split
    · exact hs.setWick
    · exact hs.setWick.contribute

theorem State.Sound.engDone {s : State} (hs : s.Sound) {w : Nat} : (s.engDone w).Sound := hs.setWick

theorem State.Sound.setCmb {s : State} (hs : s.Sound) {c : CmbInst} : (s.setCmb c).Sound := hs.withFields

theorem State.Sound.dropCmb {s : State} (hs : s.Sound) {c : CmbInst} : (s.dropCmb c).Sound := hs.withFields

theorem State.Sound.stripWrite {s : State} (hs : s.Sound) {w : Nat} {rs : List DmaRow} {bs : List Byte} :
    (s.stripWrite w rs bs).Sound := by
  induction rs generalizing s bs with
  | nil => exact hs
  | cons r rs ih => exact ih hs.storeAt

theorem State.Sound.readAll {s : State} (hs : s.Sound) {chk : ReadCheck} {rs : List (Nat × Nat)} : (s.readAll chk rs).Sound := by
  induction rs generalizing s with
  | nil => exact hs
  | cons r rs ih =>
    unfold State.readAll
    split
    · exact ih hs.readMarks
    · exact hs.readMarks

theorem State.Sound.combineFold {s : State} (hs : s.Sound) {tag grp unit : Nat} {chk : ReadCheck} :
    (s.combineFold tag grp unit chk).Sound := by
  unfold State.combineFold
  dsimp only
  split
  · split
    · exact hs
    · exact hs.ite (.ite (hs.readAll.dropCmb.setWick.ite (.ite (.dropCmb (.arrive (.engDone (hs.ite hs.readAll)))) (.setCmb
        (.arrive (.engDone (hs.ite hs.readAll)))))) (.ite (hs.setCmb.ite hs.setCmb.engDone) (hs.readMarks.setWick.ite (.arrive
        (hs.readMarks.setCmb.ite hs.readMarks.setCmb.engDone)))))
  · exact hs

theorem State.Sound.combineWritten {s : State} (hs : s.Sound) {tag grp unit : Nat} : (s.combineWritten tag grp unit).Sound := by
  unfold State.combineWritten
  split
  · exact hs
  · refine .ite ?_ ?_
    · split
      · split
        · exact hs.dropCmb.stripWrite.arrive
        · exact hs.dropCmb
      · exact hs
    · split
      · split
        · refine .ite ?_ hs
          refine .ite ?_ hs.dropCmb.groupWrite.engDone.arrive
          split
          · exact hs.ite hs.dropCmb.attnOutput.engDone
          · exact hs.engDone
        · exact hs
      · exact hs

theorem State.Sound.setSconce {s : State} (hs : s.Sound) {k : Nat} {x : Sconce} : (s.setSconce k x).Sound := hs.withFields

theorem State.Sound.sortiStep {s : State} (hs : s.Sound) {w : Nat} {f : SortiF} : (s.sortiStep w f).Sound :=
  hs.setWick.ite (hs.setWick.ite hs.setWick.setSconce)

theorem State.Sound.sortWrite {s : State} (hs : s.Sound) {r : SortReq} : (s.sortWrite r).Sound := hs.ite hs.storeAt

theorem State.Sound.sortStart {s : State} (hs : s.Sound) {j : Job} : (s.sortStart j).Sound := by
  unfold State.sortStart
  dsimp only
  split
  · exact hs
  · exact hs.setJob.setSconce

theorem State.Sound.popSorter {s : State} (hs : s.Sound) {scn : Nat} : (s.popSorter scn).Sound := hs.setSconce

theorem State.Sound.countSort {s : State} (hs : s.Sound) {scn : Nat} : (s.countSort scn).Sound := hs.fwrap

theorem State.Sound.sortJobDone {s : State} (hs : s.Sound) {scn : Nat} {r : SortReq} {j : Job} {chk : ReadCheck} :
    (s.sortJobDone scn r j chk).Sound := by
  unfold State.sortJobDone
  dsimp only
  refine .ite hs.popSorter.staleEnd ?_
  refine .ite hs ?_
  split
  · exact hs.popSorter.setJob
  · split
    · exact hs.readMarks.popSorter.setJob
    · exact hs.readMarks.unitRetry.ite hs.readMarks.popSorter.unitRetry
    · exact hs.readMarks.guestIn.jobMoves.jobMoves.sortWrite.popSorter.countSort.setJob

theorem State.Sound.sortTileDone {s : State} (hs : s.Sound) {scn w : Nat} {r : SortReq} {chk : ReadCheck} :
    (s.sortTileDone scn w r chk).Sound := by
  unfold State.sortTileDone
  dsimp only
  split
  · exact hs.readMarks.popSorter.setWick
  · exact hs.readMarks.popSorter.setWick
  · exact hs.readMarks.popSorter.sortWrite.countSort.engDone.arrive

theorem State.Sound.sorterDone {s : State} (hs : s.Sound) {scn : Nat} {chk : ReadCheck} : (s.sorterDone scn chk).Sound := by
  unfold State.sorterDone
  split
  · exact hs
  · split
    · exact hs.sortTileDone.ite hs.popSorter
    · split
      · exact hs.sortJobDone.ite hs.popSorter
      · exact hs.popSorter

theorem State.Sound.execCmb {wick : Nat} {f : CmbF} {s : State} (hs : s.Sound) : Out.Sound (execCmb wick f s) :=
  hs.onLive (hs.issueWith (fun _ => hs.cmbStep))

theorem State.Sound.execCombineFold {tag grp unit : Nat} {chk : ReadCheck} {s : State} (hs : s.Sound) :
    Out.Sound (execCombineFold tag grp unit chk s) :=
  hs.onLive hs.combineFold

theorem State.Sound.execCombineResultWritten {tag grp unit : Nat} {s : State} (hs : s.Sound) :
    Out.Sound (execCombineResultWritten tag grp unit s) :=
  hs.onLive hs.combineWritten

theorem State.Sound.execSorti {wick : Nat} {f : SortiF} {s : State} (hs : s.Sound) : Out.Sound (execSorti wick f s) :=
  hs.onLive (hs.issueWith (fun _ => hs.sortiStep))

theorem State.Sound.execSort {tag : Nat} {s : State} (hs : s.Sound) : Out.Sound (execSort tag s) :=
  hs.onAwake (hs.withJob (fun _ => hs.sortStart.ite hs))

theorem State.Sound.execSorterJobDone {scn : Nat} {chk : ReadCheck} {s : State} (hs : s.Sound) :
    Out.Sound (execSorterJobDone scn chk s) :=
  hs.onLive hs.sorterDone

/-! ## Units -/

theorem State.Sound.endUnplaceable {s : State} (hs : s.Sound) {j : Job} : (s.endUnplaceable j).Sound :=
  hs.setJob.retagSweep.ite hs.failWickJob

theorem State.Sound.sweepUnplaceable {s : State} (hs : s.Sound) : s.sweepUnplaceable.Sound :=
  hs.foldl (fun _ _ ht => ht.endUnplaceable.ite ht)

theorem State.Sound.tileStart {s : State} (hs : s.Sound) {j : Job} : (s.tileStart j).Sound := by
  unfold State.tileStart
  refine .ite hs.setJob ?_
  refine .ite hs ?_
  refine .ite hs.endUnplaceable ?_
  split
  · exact hs
  · exact hs.setJob

theorem State.Sound.selectorRead {s : State} (hs : s.Sound) {j : Job} {chk : ReadCheck} : (s.selectorRead j chk).Sound := by
  unfold State.selectorRead
  dsimp only
  refine .ite hs.staleEnd ?_
  split
  · exact hs.readMarks.setJob.retagSweep
  · exact hs.readMarks.setJob.ite hs.readMarks.setJob.retagSweep
  · exact hs.readMarks.traffic.setJob

theorem State.Sound.freshShared {s : State} (hs : s.Sound) {j : Job} {n : Nat} : (s.freshShared j n).Sound := hs.ite hs.withFields

theorem State.Sound.apwFinish {s : State} (hs : s.Sound) {w : Nat} {j : Job} : (s.apwFinish w j).Sound :=
  hs.setWick.ite (hs.setWick.ite hs.setWick.contribute)

theorem State.Sound.startRead {s : State} (hs : s.Sound) {j : Job} {w a n : Nat} {chk : ReadCheck} {bad : Wick → Wick}
    {ok : State → State} (hok : ∀ x0, State.Sound x0 → State.Sound (ok x0)) : (s.startRead j w a n chk bad ok).Sound := by
  unfold State.startRead
  dsimp only
  split
  · exact hs.setWick
  · split
    · exact hok _ hs.readMarks.guestIn.traffic
    · exact hs.readMarks.setWick
    · exact hs.readMarks.setWick

theorem State.Sound.loadImage {s : State} (hs : s.Sound) {j : Job} {w : Nat} {held : Bool} {chk : ReadCheck} :
    (s.loadImage j w held chk).Sound := by
  unfold State.loadImage
  split
  · exact hs.ite (hs.startRead fun _ ht => ht)
  · exact hs

theorem State.Sound.apwUses {s : State} (hs : s.Sound) {w : Nat} : (s.apwUses w).Sound := hs.setWick.withFields.ite hs

theorem State.Sound.apwStart {s : State} (hs : s.Sound) {j : Job} {u w : Nat} {chk : ReadCheck} : (s.apwStart j u w chk).Sound :=
  hs.startRead (fun _ ht => ht.setWick.apwUses.apwFinish.ite ht.setWick.apwUses)

theorem State.Sound.startUnit {s : State} (hs : s.Sound) {tag u w : Nat} {chk : ReadCheck} : (s.startUnit tag u w chk).Sound := by
  unfold State.startUnit
  dsimp only
  split
  · exact hs
  · exact .ite (.apwStart (.trace (.setJob (.setWick (.freshShared (hs.zero.ite hs)))))) (.loadImage (.trace (.setJob (.setWick
      (.freshShared (hs.zero.ite hs))))))

theorem State.Sound.startGang {s : State} (hs : s.Sound) {tag : Nat} {ws : List Nat} {chk : ReadCheck} :
    (s.startGang tag ws chk).Sound :=
  hs.foldl (fun _ _ ht => ht.startUnit)

theorem State.Sound.startMerge {s : State} (hs : s.Sound) {tag u : Nat} {ws : List Nat} {chk : ReadCheck} :
    (s.startMerge tag u ws chk).Sound :=
  hs.foldl (fun _ _ ht => ht.startUnit)

theorem State.Sound.unitPlace {s : State} (hs : s.Sound) {j : Job} {u : Nat} {ws : List Nat} {chk : ReadCheck} :
    (s.unitPlace j u ws chk).Sound := by
  unfold State.unitPlace
  refine .ite hs ?_
  refine .ite (hs.staleWickJob.ite (hs.startMerge.ite hs)) ?_
  refine .ite (hs.startGang.ite hs) ?_
  split
  · exact hs.startUnit.ite hs
  · exact hs

theorem State.Sound.unitAgain {s : State} (hs : s.Sound) {j : Job} {u : Nat} {ws : List Nat} {chk : ReadCheck} :
    (s.unitAgain j u ws chk).Sound := by
  unfold State.unitAgain
  refine .ite hs ?_
  refine .ite (hs.startGang.ite hs) ?_
  split
  · exact hs.startUnit.ite hs
  · exact hs

theorem State.Sound.unitCounts {s : State} (hs : s.Sound) {w : Nat} {x : Wick} {j : Job} : (s.unitCounts w x j).Sound :=
  .ite (hs.setJob.attnOutput.ite hs.setJob) hs.setJob

theorem State.Sound.unitComplete {s : State} (hs : s.Sound) {w : Nat} : (s.unitComplete w).Sound := by
  unfold State.unitComplete
  dsimp only
  refine .ite ?_ hs
  split
  · exact hs.ite hs.setWick.dropPriv.unitCounts
  · exact hs

theorem State.Sound.quarantine {s : State} (hs : s.Sound) {w : Nat} : (s.quarantine w).Sound :=
  hs.setWick.captureLine.withFields.sweepUnplaceable.roundCheck

theorem State.Sound.wickFailure {s : State} (hs : s.Sound) {w : Nat} : (s.wickFailure w).Sound :=
  hs.quarantine.ite hs.setReg.setReg.fadd

theorem State.Sound.unitDataError {s : State} (hs : s.Sound) {w : Nat} {own : Bool} : (s.unitDataError w own).Sound := by
  unfold State.unitDataError
  dsimp only
  split
  · exact hs
  · split
    · exact .wickFailure (.ite (.trace (.setJob (hs.stopUnits.ite hs.setWick.dropPriv))) hs.failWickJob.exhausted)
    · exact .wickFailure (.ite (.trace (.setJob (hs.stopUnits.ite hs.setWick.dropPriv))) hs.failWickJob.exhausted)
    · exact .ite (.trace (.setJob (hs.stopUnits.ite hs.setWick.dropPriv))) hs.failWickJob.exhausted

theorem State.Sound.noteUnit {s : State} (hs : s.Sound) {w : Nat} {e : UnitErr} : (s.noteUnit w e).Sound := hs.ite hs.captureLine

theorem State.Sound.unitFault {s : State} (hs : s.Sound) {w : Nat} {cause : UnitErr} {own : Bool} :
    (s.unitFault w cause own).Sound := by
  unfold State.unitFault
  dsimp only
  refine .ite hs ?_
  split
  · exact hs.unitDataError
  · exact hs.noteUnit.failWickJob
  · exact .ite (.unitDataError (hs.fadd.captureLine.ite hs)) hs

theorem State.Sound.durExpired {s : State} (hs : s.Sound) {w : Nat} : (s.durExpired w).Sound := hs.captureLine.failWickJob.ite hs

theorem State.Sound.stopDone {s : State} (hs : s.Sound) {w : Nat} : (s.stopDone w).Sound := hs.setWick.ite hs

theorem State.Sound.execTileRun {tag : Nat} {s : State} (hs : s.Sound) : Out.Sound (execTileRun tag s) :=
  hs.onAwake (hs.withJob (fun _ => hs.tileStart.ite hs))

theorem State.Sound.execSelectorReadDone {tag : Nat} {chk : ReadCheck} {s : State} (hs : s.Sound) :
    Out.Sound (execSelectorReadDone tag chk s) :=
  hs.onAwake (hs.withJob (fun _ => hs.selectorRead.ite hs))

theorem State.Sound.execUnitPlace {tag unit : Nat} {wicks : List Nat} {chk : ReadCheck} {s : State} (hs : s.Sound) :
    Out.Sound (execUnitPlace tag unit wicks chk s) :=
  hs.onAwake (hs.withJob (fun _ => hs.unitPlace))

theorem State.Sound.execUnitReexecute {tag unit : Nat} {wicks : List Nat} {chk : ReadCheck} {s : State} (hs : s.Sound) :
    Out.Sound (execUnitReexecute tag unit wicks chk s) :=
  hs.onAwake (hs.withJob (fun _ => hs.unitAgain))

theorem State.Sound.execUnitComplete {wick : Nat} {s : State} (hs : s.Sound) : Out.Sound (execUnitComplete wick s) :=
  hs.onLive hs.unitComplete

theorem State.Sound.execUnitFault {wick : Nat} {cause : UnitErr} {own : Bool} {s : State} (hs : s.Sound) :
    Out.Sound (execUnitFault wick cause own s) :=
  hs.onLive hs.unitFault

theorem State.Sound.execUnitDurExpired {wick : Nat} {s : State} (hs : s.Sound) : Out.Sound (execUnitDurExpired wick s) :=
  hs.onLive hs.durExpired

theorem State.Sound.execWickStopDone {wick : Nat} {s : State} (hs : s.Sound) : Out.Sound (execWickStopDone wick s) :=
  hs.onLive hs.stopDone

/-! ## Attention jobs -/

theorem State.Sound.attnStart {s : State} (hs : s.Sound) {j : Job} : (s.attnStart j).Sound :=
  hs.setJob.ite (hs.endUnplaceable.ite hs.setJob)

theorem State.Sound.attnRetry {s : State} (hs : s.Sound) {j : Job} : (s.attnRetry j).Sound :=
  hs.setJob.trace.ite hs.failWickJob.exhausted

theorem State.Sound.attnRead {s : State} (hs : s.Sound) {j : Job} {ln a n : Nat} {chk : ReadCheck} {ok : State → State}
    (hok : ∀ x0, State.Sound x0 → State.Sound (ok x0)) : (s.attnRead j ln a n chk ok).Sound := by
  unfold State.attnRead
  dsimp only
  refine .ite hs ?_
  split
  · exact hs.failWickJob
  · split
    · exact hs.readMarks.failWickJob
    · exact hs.readMarks.attnRetry
    · exact hok _ hs.readMarks.guestIn.traffic

theorem State.Sound.seqCapture {s : State} (hs : s.Sound) {j : Job} {n : Nat} {chk : ReadCheck} :
    (s.seqCapture j n chk).Sound := by
  unfold State.seqCapture
  dsimp only
  split
  · exact hs
  · refine .ite hs ?_
    refine .ite hs.staleWickJob ?_
    refine .attnRead hs ?_
    intro _ ht
    split
    · exact ht.failWickJob
    · exact ht.setJob

theorem State.Sound.countScore {s : State} (hs : s.Sound) {j : Job} {c : SeqCap} {rg : Nat} : (s.countScore j c rg).Sound :=
  hs.fwrap.ite hs.fwrap.fwrap

theorem State.Sound.selected {s : State} (hs : s.Sound) {j : Job} {c : SeqCap} {rg : Nat} : (s.selected j c rg).Sound :=
  .ite (hs.countScore.attnWrite (fun _ ht => ht.setJob)) hs.countScore.setJob

theorem State.Sound.selectDone {s : State} (hs : s.Sound) {j : Job} {n rg : Nat} {chk : ReadCheck} :
    (s.selectDone j n rg chk).Sound := by
  unfold State.selectDone
  dsimp only
  split
  · exact hs
  · exact hs.ite (hs.staleWickJob.ite (hs.ite (hs.attnRead (fun _ ht => ht.attnRead (fun _ ht1 => ht1.selected)))))

theorem State.Sound.apwNext {s : State} (hs : s.Sound) {wick : Nat} {j : Job} {x : ApwUnit} : (s.apwNext wick j x).Sound :=
  hs.setWick.apwFinish.ite hs.setWick

theorem State.Sound.noteEntry {s : State} (hs : s.Sound) {j : Job} {c : SeqCap} {n e w : Nat} : (s.noteEntry j c n e w).Sound :=
  hs.setJob

theorem State.Sound.apwHurt {s : State} (hs : s.Sound) {wick : Nat} {r : ReadRes} : (s.apwHurt wick r).Sound := hs.setWick

theorem State.Sound.apwFail {s : State} (hs : s.Sound) {wick : Nat} {j : Job} {a : Nat} {e : Err} :
    (s.apwFail wick j a e).Sound :=
  hs.captureLine.failWickJob

theorem State.Sound.ringFill {s : State} (hs : s.Sound) {wick : Nat} {x : ApwUnit} {a n : Nat} : (s.ringFill wick x a n).Sound :=
  hs.storeAt

theorem State.Sound.apwFetch {s : State} (hs : s.Sound) {wick : Nat} {j : Job} {c : SeqCap} {x : ApwUnit} {e w : Nat}
    {chk : ReadCheck} : (s.apwFetch wick j c x e w chk).Sound := by
  unfold State.apwFetch
  dsimp only
  refine .ite hs.apwFail ?_
  refine .ite hs.fadd.apwNext ?_
  refine .ite hs.apwFail ?_
  split
  · exact hs.apwFail
  · split
    · exact hs.readMarks.guestIn.traffic.ringFill.fwrap.apwNext
    · exact hs.readMarks.apwHurt

theorem State.Sound.apwArrive {s : State} (hs : s.Sound) {wick : Nat} {chk : ReadCheck} : (s.apwArrive wick chk).Sound := by
  unfold State.apwArrive
  dsimp only
  split
  · split
    · refine .ite hs ?_
      split
      · exact hs.apwFail
      · split
        · exact hs.readMarks.guestIn.traffic.noteEntry.withJob (fun _ => hs.readMarks.guestIn.traffic.noteEntry.apwFetch)
        · exact hs.readMarks.apwHurt
    · exact hs
  · exact hs

theorem State.Sound.mutated {s : State} (hs : s.Sound) {c : SeqCap} {n : Nat} : (s.mutated c n).Sound :=
  hs.fadd.setReg.event.captureLine

theorem State.Sound.checkSeq {s : State} (hs : s.Sound) {j : Job} {c : SeqCap} : (s.checkSeq j c).Sound :=
  hs.setJob.ite (.ite (.failWickJob (hs.foldl (fun _ _ ht => ht.mutated))) (.setJob (hs.foldl (fun _ _ ht => ht.mutated))))

theorem State.Sound.attnReads {s : State} (hs : s.Sound) {j : Job} {ln : Nat} {ls : List Nat} {chk : ReadCheck}
    {ok : State → State}
    (hok : ∀ t, State.Sound t → State.Sound (ok t)) : (s.attnReads j ln ls chk ok).Sound := by
  induction ls generalizing s with
  | nil => exact hok s hs
  | cons l ls ih => exact hs.attnRead fun _ ht => ih ht

theorem State.Sound.rereadDone {s : State} (hs : s.Sound) {j : Job} {n : Nat} {chk : ReadCheck} :
    (s.rereadDone j n chk).Sound := by
  unfold State.rereadDone
  split
  · exact hs
  · exact hs.ite (hs.ite (hs.attnReads (fun _ ht => ht.checkSeq)))

theorem State.Sound.execAttendPaged {tag : Nat} {s : State} (hs : s.Sound) : Out.Sound (execAttendPaged tag s) :=
  hs.onAwake (hs.withJob (fun _ => hs.attnStart.ite hs))

theorem State.Sound.execPageScore {tag : Nat} {s : State} (hs : s.Sound) : Out.Sound (execPageScore tag s) :=
  hs.onAwake (hs.withJob (fun _ => hs.attnStart.ite hs))

theorem State.Sound.execSeqDescriptorCapture {tag seq : Nat} {chk : ReadCheck} {s : State} (hs : s.Sound) :
    Out.Sound (execSeqDescriptorCapture tag seq chk s) :=
  hs.onAwake (hs.withJob (fun _ => hs.seqCapture.ite hs))

theorem State.Sound.execCoarseSelectionDone {tag seq rg : Nat} {chk : ReadCheck} {s : State} (hs : s.Sound) :
    Out.Sound (execCoarseSelectionDone tag seq rg chk s) :=
  hs.onAwake (hs.withJob (fun _ => hs.selectDone.ite hs))

theorem State.Sound.execApwPageArrive {wick : Nat} {chk : ReadCheck} {s : State} (hs : s.Sound) :
    Out.Sound (execApwPageArrive wick chk s) :=
  hs.onLive hs.apwArrive

theorem State.Sound.execApwTableRereadDone {tag seq : Nat} {chk : ReadCheck} {s : State} (hs : s.Sound) :
    Out.Sound (execApwTableRereadDone tag seq chk s) :=
  hs.onAwake (hs.withJob (fun _ => hs.rereadDone.ite hs))

end Sys2Proof.Machine
end

section
/-!
PROOF. Soundness of the commands of the map, the checker, the Snuffers and the ports (09 to 12, 15, 16).
-/

namespace Sys2Proof.Machine

open Sys2Proof

-- One thread at a time: the stacks of threads that wait for each other count against the check's memory limit.
set_option Elab.async false

/-! ## Flits -/

theorem State.Sound.setLink {s : State} (hs : s.Sound) {k : LinkMod} {x : LinkSt} : (s.setLink k x).Sound := hs.withFields

theorem State.Sound.onWire {s : State} (hs : s.Sound) {l : Link} {f : List Byte} : (s.onWire l f).Sound := hs.emit.ite hs

theorem State.Sound.pump {s : State} (hs : s.Sound) {l : Link} {fuel : Nat} : (s.pump l fuel).Sound := by
  induction fuel generalizing s with
  | zero => exact hs
  | succ n ih =>
    unfold State.pump
    dsimp only
    split
    · exact hs
    · exact ih hs.setLink.onWire

theorem State.Sound.transmit {s : State} (hs : s.Sound) {l : Link} {f : List Byte} : (s.transmit l f).Sound := hs.setLink.pump

theorem State.Sound.resend {s : State} (hs : s.Sound) {l : Link} {q : Nat} : (s.resend l q).Sound :=
  hs.foldl (fun _ _ ht => ht.onWire)

theorem State.Sound.toGuest {s : State} (hs : s.Sound) {r : Req} : (s.toGuest r).Sound := hs.transmit.ite hs

theorem State.Sound.answerGuest {s : State} (_ : s.Sound) {t : State} (ht : t.Sound) {r : Req} : (s.answerGuest t r).Sound :=
  ht.ite ht.transmit

/-! ## Memory requests -/

theorem State.Sound.creditNow {s : State} (hs : s.Sound) : s.creditNow.Sound := hs.withFields

theorem State.Sound.takeCredit {s : State} (hs : s.Sound) {r : Req} : (s.takeCredit r).Sound := hs.withFields.ite hs.withFields

theorem State.Sound.setLevel {s : State} (hs : s.Sound) {port fill : Nat} : (s.setLevel port fill).Sound := by
  unfold State.setLevel
  split
  · exact hs
  · exact hs.fset

theorem State.Sound.snLevels {s : State} (hs : s.Sound) : s.snLevels.Sound := hs.fset.fset

theorem State.Sound.setReq {s : State} (hs : s.Sound) {r : Req} : (s.setReq r).Sound := hs.withFields

theorem State.Sound.countStall {s : State} (hs : s.Sound) {r : Req} : (s.countStall r).Sound := hs.withFields.setCtr64

theorem State.Sound.stallNow {s : State} (hs : s.Sound) : s.stallNow.Sound := hs.foldl (fun _ _ ht => ht.ite ht.countStall)

theorem State.Sound.leave {s : State} (hs : s.Sound) {r : Req} : (s.leave r).Sound :=
  hs.countStall.setReq.toGuest.fadd.ite hs.countStall.setReq.toGuest

theorem State.Sound.leaveAll {s : State} (hs : s.Sound) : s.leaveAll.Sound := hs.foldl (fun _ _ ht => ht.leave.ite ht)

theorem State.Sound.setCh {s : State} (hs : s.Sound) {c : Nat} {x : DmcCh} : (s.setCh c x).Sound := hs.withFields

theorem State.Sound.take {s : State} (hs : s.Sound) {c : Nat} : (s.take c).Sound := by
  unfold State.take
  refine .ite hs ?_
  split
  · exact hs.setReq.takeCredit
  · exact hs

theorem State.Sound.repay {s : State} (hs : s.Sound) {c : Nat} : (s.repay c).Sound := hs.ite hs.setCh

theorem State.Sound.flow {s : State} (hs : s.Sound) : s.flow.Sound :=
  .snLevels (hs.creditNow.leaveAll.foldl (fun _ _ ht => ht.repay.take))

theorem State.Sound.enterTagged {s : State} (hs : s.Sound) {q : MemReq} {tag : Nat} : (s.enterTagged q tag).Sound :=
  hs.creditNow.withFields.flow

theorem State.Sound.enterPort {s : State} (hs : s.Sound) {q : MemReq} : (s.enterPort q).Sound := hs.enterTagged

theorem State.Sound.execMemoryRequestIssue {req : MemReq} {s : State} (hs : s.Sound) : Out.Sound (execMemoryRequestIssue req s) :=
  hs.onAwake hs.enterPort

theorem State.Sound.mirrorAnswer {s : State} (hs : s.Sound) {r : Req} {chk : ReadCheck} : (s.mirrorAnswer r chk).Sound := by
  unfold State.mirrorAnswer
  dsimp only
  split
  · exact hs.captureLine.emit.ite hs.emit
  · exact hs.emit

theorem State.Sound.readAnswer {s : State} (hs : s.Sound) {r : Req} {chk : ReadCheck} : (s.readAnswer r chk).Sound := by
  unfold State.readAnswer
  dsimp only
  split
  · exact hs.readMarks.emit
  · exact hs.readMarks.emit

theorem State.Sound.buffer {s : State} (hs : s.Sound) {r : Req} : (s.buffer r).Sound := by
  unfold State.buffer
  dsimp only
  refine .ite hs.takeCredit ?_
  split
  · exact hs.takeCredit.setCh
  · exact hs.takeCredit.setCh

theorem State.Sound.writeAnswer {s : State} (hs : s.Sound) {r : Req} {bs : List Byte} : (s.writeAnswer r bs).Sound := by
  unfold State.writeAnswer
  split
  · exact hs.storePlain.buffer
  · exact hs.storeAt.ite hs.emit
  · exact hs.storeAt.ite hs.emit
  · exact hs.storeAt.ite hs.emit
  · exact hs.ringBell.ite hs.capture
  · exact hs.capture
  · exact hs.storeAt

theorem State.Sound.guestAnswer {s : State} (hs : s.Sound) {r : Req} : (s.guestAnswer r).Sound :=
  .ite (hs.emit.ite hs) (hs.emit.ite (hs.draw.emit.ite hs))

theorem State.Sound.reqEffect {s : State} (hs : s.Sound) {r : Req} {chk : ReadCheck} : (s.reqEffect r chk).Sound := by
  unfold State.reqEffect
  dsimp only
  refine .ite hs.emit ?_
  split
  · exact hs.guestAnswer
  · split
    · exact hs.keyed.writeAnswer
    · exact hs.keyed.capture.emit.ite (hs.keyed.mirrorAnswer.ite hs.keyed.readAnswer)

theorem State.Sound.reqCount {s : State} (hs : s.Sound) {r : Req} : (s.reqCount r).Sound :=
  .ite (.fset (.ite (.withFields (hs.setCtr64.trace.ite hs.setCtr64)) (hs.setCtr64.trace.ite hs.setCtr64))) (.ite (.withFields
      (hs.setCtr64.trace.ite hs.setCtr64)) (hs.setCtr64.trace.ite hs.setCtr64))

theorem State.Sound.dropReq {s : State} (hs : s.Sound) {id : Nat} : (s.dropReq id).Sound := hs.withFields

theorem State.Sound.execMemoryResponse {id : Nat} {chk : ReadCheck} {e : Nat} {s : State} (hs : s.Sound) :
    Out.Sound (execMemoryResponse id chk e s) := by
  unfold Machine.execMemoryResponse
  dsimp only
  refine .onAwake hs ?_
  split
  · exact .ite (.flow (.emit (hs.elapse.creditNow.dropReq.reqCount.answerGuest hs.elapse.creditNow.dropReq.reqCount.reqEffect)))
      hs
  · exact hs

theorem State.Sound.drain {s : State} (hs : s.Sound) {c : Nat} {b : Nat × Nat × Bool} {chk : ReadCheck} :
    (s.drain c b chk).Sound := by
  unfold State.drain
  dsimp only
  refine .ite hs.setCh.fadd ?_
  refine .ite hs.setCh ?_
  split
  · exact hs.setCh.capture
  · exact hs.setCh.readMarks

theorem State.Sound.execWriteBufferDrain {ch : Nat} {chk : ReadCheck} {s : State} (hs : s.Sound) :
    Out.Sound (execWriteBufferDrain ch chk s) := by
  unfold Machine.execWriteBufferDrain
  dsimp only
  refine .onAwake hs ?_
  split
  · exact hs.drain.flow
  · exact hs

theorem State.Sound.refresh {s : State} (hs : s.Sound) {c r : Nat} : (s.refresh c r).Sound := hs.setCh.fset.ite hs.setCh

theorem State.Sound.execRefreshDue {ch rank : Nat} {s : State} (hs : s.Sound) : Out.Sound (execRefreshDue ch rank s) :=
  hs.onAwake hs.refresh

theorem State.Sound.windowEnd {s : State} (hs : s.Sound) {e : Nat} : (s.windowEnd e).Sound :=
  hs.creditNow.withFields.captureLine.fadd.fset.ite hs.creditNow.withFields

theorem State.Sound.execGuaranteeWindowEnd {p tc e : Nat} {s : State} (hs : s.Sound) :
    Out.Sound (execGuaranteeWindowEnd p tc e s) :=
  hs.onAwake hs.elapse.windowEnd

/-! ## The Sampler -/

theorem State.Sound.popSampler {s : State} (hs : s.Sound) {scn : Nat} : (s.popSampler scn).Sound := hs.setSconce

theorem State.Sound.samplerStart {s : State} (hs : s.Sound) {j : Job} {total : Nat} : (s.samplerStart j total).Sound := by
  unfold State.samplerStart
  dsimp only
  split
  · exact hs
  · exact hs.setJob.setSconce

theorem State.Sound.samplerUnit {s : State} (hs : s.Sound) {scn : Nat} {j : Job} : (s.samplerUnit scn j).Sound :=
  hs.setJob.popSampler.countSampler.ite hs.setJob

theorem State.Sound.samplerDenied {s : State} (hs : s.Sound) {scn : Nat} {j : Job} {e : Err} : (s.samplerDenied scn j e).Sound :=
  hs.popSampler.setJob

theorem State.Sound.samplerRead {s : State} (hs : s.Sound) {scn : Nat} {j : Job} {a n : Nat} {chk : ReadCheck} {r : ReadRes} :
    (s.samplerRead scn j a n chk r).Sound := by
  unfold State.samplerRead
  dsimp only
  split
  · exact hs.readMarks.popSampler.setJob
  · exact hs.readMarks.unitRetry.ite hs.readMarks.popSampler.unitRetry

theorem State.Sound.regroupWrite {s : State} (hs : s.Sound) {d src dst y : Nat} : (s.regroupWrite d src dst y).Sound :=
  hs.foldl (fun _ _ ht => ht.storeAt)

theorem State.Sound.regroupStep {s : State} (hs : s.Sound) {scn : Nat} {j : Job} {chk : ReadCheck} :
    (s.regroupStep scn j chk).Sound := by
  unfold State.regroupStep
  dsimp only
  refine .ite hs.popSampler.staleEnd ?_
  refine .ite hs ?_
  split
  · exact hs.samplerDenied
  · split
    · exact hs.readMarks.guestIn.jobMoves.jobMoves.regroupWrite.samplerUnit
    · exact hs.samplerRead

theorem State.Sound.cropStep {s : State} (hs : s.Sound) {scn : Nat} {j : Job} {chk : ReadCheck} :
    (s.cropStep scn j chk).Sound := by
  unfold State.cropStep
  dsimp only
  refine .ite hs.popSampler.staleEnd ?_
  refine .ite hs ?_
  split
  · exact hs.samplerDenied
  · split
    · refine .ite hs.guestIn.jobMoves.jobMoves.storeAt.fadd.samplerUnit ?_
      split
      · exact hs.guestIn.jobMoves.samplerDenied
      · exact hs.guestIn.jobMoves.samplerRead
      · refine .samplerUnit ?_
        refine .storeAt ?_
        refine .jobMoves ?_
        split
        · exact .ite (.countReread (hs.guestIn.jobMoves.guestIn.foldl (fun _ _ ht => ht.jobMoves)))
            (hs.guestIn.jobMoves.guestIn.foldl (fun _ _ ht => ht.jobMoves))
        · exact hs.guestIn.jobMoves.guestIn.foldl (fun _ _ ht => ht.jobMoves)
    · exact hs.samplerRead

theorem State.Sound.execRegroup {tag : Nat} {s : State} (hs : s.Sound) : Out.Sound (execRegroup tag s) :=
  hs.onAwake (hs.withJob (fun _ => hs.samplerStart.ite hs))

theorem State.Sound.execRegroupRowDone {scn : Nat} {chk : ReadCheck} {s : State} (hs : s.Sound) :
    Out.Sound (execRegroupRowDone scn chk s) := by
  unfold Machine.execRegroupRowDone
  refine .onLive hs ?_
  split
  · exact hs.regroupStep
  · exact hs

theorem State.Sound.execCropResize {tag : Nat} {s : State} (hs : s.Sound) : Out.Sound (execCropResize tag s) :=
  hs.onAwake (hs.withJob (fun _ => hs.samplerStart.ite hs))

theorem State.Sound.execCropBoxDone {scn : Nat} {chk : ReadCheck} {s : State} (hs : s.Sound) :
    Out.Sound (execCropBoxDone scn chk s) := by
  unfold Machine.execCropBoxDone
  refine .onLive hs ?_
  split
  · exact hs.cropStep
  · exact hs

/-! ## Input versions -/

theorem State.Sound.noteTick {s : State} (hs : s.Sound) {ns : Nat} {stepped : Bool} : (s.noteTick ns stepped).Sound :=
  hs.withFields

theorem State.Sound.ingestTag {s : State} (hs : s.Sound) {p h : Nat} {f : Word32} : (s.ingestTag p h f).Sound := hs.setVbuf

theorem State.Sound.setInVer {s : State} (hs : s.Sound) {v : InVer} : (s.setInVer v).Sound := hs.withFields

/-- The match is taken apart with `ingestPlace` still folded, so that the kernel need not evaluate the buffer entry's bits. -/
theorem State.Sound.ingestWrite {s : State} (hs : s.Sound) {port : Nat} {b : Nat × Nat × Nat} {off : Nat} {bs : List Byte} :
    (s.ingestWrite port b off bs).Sound := by
  generalize hf : @State.ingestWrite = f
  delta State.ingestWrite at hf
  subst hf
  beta_reduce
  split
  · exact hs.traffic.storeAt.ite hs
  · exact hs

theorem State.Sound.ingestWriteAll {s : State} (hs : s.Sound) {v : InVer} {off : Nat} {bs : List Byte} :
    (s.ingestWriteAll v off bs).Sound :=
  hs.foldl (fun _ _ ht => ht.ingestWrite)

theorem State.Sound.openVer {s : State} (hs : s.Sound) {key : Nat} {f : Word32} : (s.openVer key f).Sound :=
  hs.ite (hs.ite (.ite (.withFields (hs.foldl (fun _ _ ht => ht.ingestTag))) (.ingestWriteAll (.withFields (hs.foldl
      (fun _ _ ht => ht.ingestTag))))))

theorem State.Sound.markClosed {s : State} (hs : s.Sound) {key : Nat} {f : Word32} : (s.markClosed key f).Sound := hs.withFields

theorem State.Sound.lateDrop {s : State} (hs : s.Sound) : s.lateDrop.Sound := hs.fadd

theorem State.Sound.lateFold {s : State} (hs : s.Sound) : s.lateFold.Sound := hs.fadd

/-! ## Cameras -/

theorem State.Sound.setCamFrames {s : State} (hs : s.Sound) {i : Nat} {fs : List CamFrame} : (s.setCamFrames i fs).Sound :=
  hs.withFields

theorem State.Sound.groupLevel {s : State} (hs : s.Sound) {g : Nat} : (s.groupLevel g).Sound := hs.setLevel

theorem State.Sound.pxeCount {s : State} (hs : s.Sound) {i : Nat} {f : Fld} : (s.pxeCount i f).Sound := hs.faddI

theorem State.Sound.pktErr {s : State} (hs : s.Sound) {rx vc : Nat} : (s.pktErr rx vc).Sound := by
  unfold State.pktErr
  split
  · exact hs.pxeCount
  · exact hs.fadd

theorem State.Sound.setCamCur {s : State} (hs : s.Sound) {i : Nat} {f : CamFrame} : (s.setCamCur i f).Sound := hs.setCamFrames

theorem State.Sound.pixelRows {s : State} (hs : s.Sound) {m : CamCfg} {l : LevelCfg} {lines : List (List Byte)} {y0 y1 : Nat}
    {b : Nat × Nat × Nat} : (s.pixelRows m l lines y0 y1 b).Sound :=
  hs.foldl (fun _ _ ht => ht.foldl (fun _ _ ht1 => ht1.foldl (fun _ _ ht2 => ht2.ingestWrite)))

theorem State.Sound.pixelWrite {s : State} (hs : s.Sound) {m : CamCfg} {v : InVer} {lines : List (List Byte)} {a b : Nat}
    {last : Bool} : (s.pixelWrite m v lines a b last).Sound :=
  hs.foldl (fun _ _ ht => ht.foldl (fun _ _ ht1 => ht1.pixelRows))

theorem State.Sound.writeRecs {s : State} (hs : s.Sound) {m : CamCfg} {v : InVer} {stamp : List Byte} {status lines : Nat} :
    (s.writeRecs m v stamp status lines).Sound :=
  hs.foldl (fun _ _ ht => ht.foldl (fun _ _ ht1 => ht1.ingestWrite))

theorem State.Sound.camGone {s : State} (hs : s.Sound) {i : Nat} {m : CamCfg} {f : CamFrame} : (s.camGone i m f).Sound :=
  hs.setCamFrames.fsetI.ite hs.setCamFrames.fsetI.pxeCount

theorem State.Sound.camKeep {s : State} (hs : s.Sound) {i : Nat} {m : CamCfg} {v : InVer} {f : CamFrame} {late : Bool} :
    (s.camKeep i m v f late).Sound :=
  hs.lateDrop.ite (.ite (.lateFold (.setInVer (.writeRecs (hs.lateDrop.ite hs)))) (.setInVer (.writeRecs (hs.lateDrop.ite hs))))

theorem State.Sound.camFinish {s : State} (hs : s.Sound) {i : Nat} {m : CamCfg} {f : CamFrame} : (s.camFinish i m f).Sound := by
  unfold State.camFinish
  dsimp only
  refine .ite ?_ ?_
  · split
    · exact hs.openVer
    · exact hs.openVer.camGone.lateDrop.ite hs.openVer.camGone.camKeep
  · refine .ite hs.camGone.lateDrop ?_
    split
    · exact hs.openVer
    · exact hs.openVer.camGone.lateDrop.ite hs.openVer.camGone.pixelWrite.camKeep

theorem State.Sound.camSettle {s : State} (hs : s.Sound) {i : Nat} {m : CamCfg} {n : Nat} : (s.camSettle i m n).Sound := by
  induction n generalizing s with
  | zero => exact hs
  | succ n ih =>
    unfold State.camSettle
    split
    · exact .ite (.ite (ih hs.camFinish) hs.camFinish) hs
    · exact hs

theorem State.Sound.camSettleAll {s : State} (hs : s.Sound) : s.camSettleAll.Sound := by
  unfold State.camSettleAll
  refine .foldl hs ?_
  intro _ _ ht
  split
  · exact ht.camSettle
  · exact ht

theorem State.Sound.camEnd {s : State} (hs : s.Sound) {i : Nat} {m : CamCfg} : (s.camEnd i m).Sound := by
  unfold State.camEnd
  split
  · exact hs.setCamCur.camSettle
  · exact hs

theorem State.Sound.camStart {s : State} (hs : s.Sound) {i : Nat} {m : CamCfg} {num : Nat} : (s.camStart i m num).Sound :=
  .ite (.setCamFrames (hs.camEnd.ite hs.camEnd.draw)) (.openVer (.setCamFrames (hs.camEnd.ite hs.camEnd.draw)))

theorem State.Sound.camLine {s : State} (hs : s.Sound) {i : Nat} {m : CamCfg} {f : CamFrame} {bs : List Byte} :
    (s.camLine i m f bs).Sound :=
  hs.ite (hs.pxeCount.ite (hs.setCamCur.pxeCount.ite hs.setCamCur.groupLevel))

theorem State.Sound.camEmbedded {s : State} (hs : s.Sound) {i : Nat} {m : CamCfg} {f : CamFrame} {bs : List Byte} :
    (s.camEmbedded i m f bs).Sound :=
  hs.ite (hs.setCamCur.ite hs.setCamCur)

theorem State.Sound.camPacket {s : State} (hs : s.Sound) {i : Nat} {m : CamCfg} {dt : Nat} {bs : List Byte} :
    (s.camPacket i m dt bs).Sound := by
  unfold State.camPacket
  refine .ite ?_ hs
  split
  · exact hs.pxeCount
  · exact hs.camEmbedded.ite hs.camLine

theorem State.Sound.setCamFrame {s : State} (hs : s.Sound) {i : Nat} {f g : CamFrame} : (s.setCamFrame i f g).Sound :=
  hs.setCamFrames

theorem State.Sound.guardReport {s : State} (hs : s.Sound) {i : Nat} {m : CamCfg} {f : CamFrame} : (s.guardReport i m f).Sound :=
  hs.storeAt

theorem State.Sound.sliceLines {s : State} (hs : s.Sound) {i : Nat} {m : CamCfg} {f : CamFrame} {n : Nat} :
    (s.sliceLines i m f n).Sound := by
  unfold State.sliceLines
  dsimp only
  refine .ite hs.setCamFrame ?_
  split
  · exact hs.openVer
  · exact hs.openVer.setCamFrame.ite (.setCamFrame (.pixelWrite (.setInVer (hs.openVer.lateDrop.ite hs.openVer))))

theorem State.Sound.slice {s : State} (hs : s.Sound) {i : Nat} {m : CamCfg} {f : CamFrame} : (s.slice i m f).Sound :=
  .groupLevel (.camSettle (hs.fwrap.withFields.guardReport.setCamFrame.ite hs.fwrap.withFields.sliceLines))

theorem State.Sound.camClose {s : State} (hs : s.Sound) {i : Nat} {m : CamCfg} {f : Word32} : (s.camClose i m f).Sound := by
  unfold State.camClose
  dsimp only
  refine .camSettle ?_
  refine .markClosed ?_
  split
  · exact hs.openVer.ite hs.openVer.writeRecs
  · exact hs.openVer

theorem State.Sound.execCsi2Packet {rx vc dt : Nat} {eccOk crcOk : Bool} {payload : List Byte} {s : State} (hs : s.Sound) :
    Out.Sound (execCsi2Packet rx vc dt eccOk crcOk payload s) := by
  unfold Machine.execCsi2Packet
  refine .onAwake hs ?_
  split
  · exact hs.pktErr
  · exact hs.camPacket.ite hs.pktErr

theorem State.Sound.execCsi2FrameStart {rx vc num : Nat} {eccOk : Bool} {e : Nat} {s : State} (hs : s.Sound) :
    Out.Sound (execCsi2FrameStart rx vc num eccOk e s) := by
  unfold Machine.execCsi2FrameStart
  dsimp only
  refine .onAwake hs ?_
  split
  · exact hs.elapse.pktErr
  · exact hs.elapse.camStart.ite hs.elapse.pktErr

theorem State.Sound.execCsi2FrameEnd {rx vc : Nat} {eccOk : Bool} {e : Nat} {s : State} (hs : s.Sound) :
    Out.Sound (execCsi2FrameEnd rx vc eccOk e s) := by
  unfold Machine.execCsi2FrameEnd
  dsimp only
  refine .onAwake hs ?_
  split
  · exact hs.elapse.pktErr
  · exact hs.elapse.camEnd.ite hs.elapse.pktErr

theorem State.Sound.execPxeSlice {e : Nat} {s : State} (hs : s.Sound) : Out.Sound (execPxeSlice e s) := by
  unfold Machine.execPxeSlice
  dsimp only
  refine .onAwake hs ?_
  split
  · exact hs
  · split
    · exact hs
    · split
      · exact hs
      · exact hs.elapse.slice

/-! ## Lines -/

theorem State.Sound.pulseFrom {s : State} (hs : s.Sound) {page line : Nat} : (s.pulseFrom page line).Sound :=
  hs.pulseOwn.ite (hs.pulseOwn.ite hs.pulse)

theorem State.Sound.forceLines {s : State} (hs : s.Sound) {page : Nat} {v : Word32} : (s.forceLines page v).Sound :=
  .ite (hs.foldl (fun _ _ ht => ht.pulseFrom)) (.pendRise (.fset (hs.foldl (fun _ _ ht => ht.pulseFrom))))

theorem State.Sound.intClear {s : State} (hs : s.Sound) {page : Nat} {v : Word32} : (s.intClear page v).Sound :=
  hs.setReg.msix.ite hs.setReg

theorem State.Sound.forceOne {s : State} (hs : s.Sound) {page k : Nat} : (s.forceOne page k).Sound := hs.forceLines.intClear

theorem State.Sound.forceAll {s : State} (hs : s.Sound) : s.forceAll.Sound := by
  unfold State.forceAll
  refine .ite ?_ hs
  refine .foldl hs ?_
  intro _ _ ht
  split
  · exact ht.foldl (fun _ _ ht1 => ht1.forceOne)
  · exact ht

/-! ## Snuffers and the gate -/

theorem State.Sound.onSn {s : State} (hs : s.Sound) {i : Sn} {c : Bool} {t : State} (ht : t.Sound) : Out.Sound (onSn i s c t) :=
  .next (ht.ite hs)

/-- A command of a Snuffer that takes its effect only where it is due. -/
theorem State.Sound.onSn_of {s : State} (hs : s.Sound) {i : Sn} {c : Bool} {t : State} (ht : c = true → t.Sound) :
    Out.Sound (Machine.onSn i s c t) := by
  refine .next ?_
  split
  · next h => exact ht (by simp at h; exact h.2)
  · exact hs

theorem State.Sound.snEnter {s : State} (hs : s.Sound) {i : Sn} {st : SnState} (h : st.active = true ∨ (s.sn i).safe = false) :
    (s.snEnter i st).Sound := by
  refine (hs.setSn ?_).fset
  rcases h with h | h <;> simp [Snuffer.safeHeld, h]

theorem State.Sound.commandStop {s : State} (hs : s.Sound) {i : Sn} {cause line : Nat} : (s.commandStop i cause line).Sound := by
  refine .ite ?_ (hs.fset.ite hs)
  have hlow : (s.setSn i { s.sn i with safe := false, stopFrame := some s.epoch }).Sound := hs.setSn (by simp [Snuffer.safeHeld])
  have hstop := (hlow.snEnter (i := i) (st := .stopped) (.inr (by simp))).fset (page := pgSn i) (f := Reg.SNA_STATE_CAUSE)
    (x := cause)
  exact .event (.ite hstop.fset hstop)

theorem State.Sound.lineAct {s : State} (hs : s.Sound) {i : Sn} {line : Nat} : (s.lineAct i line).Sound := by
  have h : (((s.fadd (pgSn i) Reg.SNA_LINES_COUNT 1).event (pgSn i))).Sound := hs.fadd.event
  exact hs.ite (.ite h.withSn (h.commandStop.ite h))

theorem State.Sound.drainLines {s : State} (hs : s.Sound) {i : Sn} : (s.drainLines i).Sound :=
  hs.withSn.foldl fun _ _ ht => ht.lineAct

theorem State.Sound.snRead {s : State} (hs : s.Sound) {i : Sn} {p a n : Nat} {chk : ReadCheck} : (s.snRead i p a n chk).Sound :=
  hs.readMarks.traffic

theorem State.Sound.pollBlock {s : State} (hs : s.Sound) {i : Sn} {b : Bool} {chk : ReadCheck} {held : Option (List Byte)} :
    (s.pollBlock i b chk held).1.Sound :=
  .fst_ite (hs.snRead.fst_ite hs.snRead) hs.snRead

theorem State.Sound.poll {s : State} (hs : s.Sound) {i : Sn} {chkA chkB : ReadCheck} : (s.poll i chkA chkB).Sound := by
  unfold State.poll
  split
  next s1 a h1 =>
  split
  next s2 b h2 =>
  have k1 := hs.pollBlock (i := i) (b := false) (chk := chkA) (held := (s.sn i).copyA)
  rw [h1] at k1
  have k2 := k1.pollBlock (i := i) (b := true) (chk := chkB) (held := (s.sn i).copyB)
  rw [h2] at k2
  exact k2.withSn

theorem State.Sound.guardCheck {s : State} (hs : s.Sound) {i : Sn} {k : Nat} : (s.guardCheck i k).Sound := by
  have seen : ∀ {t : State} {f}, t.Sound → (t.setSn i { t.sn i with frames := f }).Sound := fun ht => ht.withSn
  unfold State.guardCheck
  dsimp only
  refine .ite (seen ?_) hs.snRead.pulseOwn
  split
  · exact .ite (hs.snRead.ite hs.snRead.pulseOwn) (.pulseOwn (hs.snRead.ite hs.snRead.pulseOwn))
  · exact hs.snRead.ite hs.snRead.pulseOwn

theorem State.Sound.cutoff {s : State} (hs : s.Sound) {i : Sn} : (s.cutoff i).Sound :=
  hs.withSn.foldl fun _ _ ht => ht.guardCheck.ite ht

theorem State.Sound.gateLoad {s : State} (hs : s.Sound) {chk : ReadCheck} : (s.gateLoad chk).Sound :=
  hs.readMarks.traffic.withFields

theorem State.Sound.crossCheck {s : State} (hs : s.Sound) {i : Sn} : (s.crossCheck i).Sound := by
  unfold State.crossCheck
  split
  · exact hs.commandStop.ite hs
  · exact hs

theorem State.Sound.compareDone {s : State} (hs : s.Sound) {i : Sn} : (s.compareDone i).Sound :=
  .crossCheck (.fset (.fset (.setReg (.fset (.fset hs.withSn)))))

theorem State.Sound.captureStop {s : State} (hs : s.Sound) : s.captureStop.Sound := by
  unfold State.captureStop
  dsimp only
  refine .ite hs ?_
  split
  · exact hs.withFields
  · exact hs

theorem State.Sound.snDecide {s : State} (hs : s.Sound) {i : Sn} {row : Nat} : (s.snDecide i row).Sound := by
  have judged : ∀ {t : State} {x : Word32}, t.Sound →
      (if x.toNat % 4 = 3 then t.commandStop i 1 0 else if 3 ≤ histCount x then t.commandStop i 2 0 else t).Sound :=
    fun h => h.commandStop.ite (h.commandStop.ite h)
  unfold State.snDecide
  refine .ite hs (judged (.ite ?_ ?_))
  · exact .capture (.fadd (.setReg hs.withSn))
  · exact .setReg hs.withSn

theorem State.Sound.snOutcome {s : State} (hs : s.Sound) {i : Sn} {row kind : Nat} {alt : Option Nat} :
    (s.snOutcome i row kind alt).Sound :=
  hs.ite (.ite (.snEnter hs.fset.fset.fset (.inl rfl)) hs.fset.fset.fset)

theorem State.Sound.buildGate {s : State} (hs : s.Sound) {row : Nat} {alt : Option Nat} {p : Nat} :
    (s.buildGate row alt p).Sound := by
  unfold State.buildGate
  dsimp only
  refine .ite hs.withFields ?_
  refine .ite hs.withFields ?_
  refine .ite hs.draw.withFields ?_
  refine .ite ?_ hs.draw.withFields
  split
  · exact hs.draw.withFields
  · exact hs.draw.withFields

theorem State.Sound.gateMissed {s : State} (hs : s.Sound) : s.gateMissed.Sound := by
  unfold State.gateMissed
  dsimp only
  split
  · exact hs.withFields.pulse.ite hs
  · exact hs

theorem State.Sound.gateDecide {s : State} (hs : s.Sound) : (s.gateDecide).Sound := by
  have sampled : s.gateSampled.Sound := .ite hs.gateMissed.drainLines.drainLines.withFields hs.gateMissed.drainLines.drainLines
  have acted : ∀ {t : State} {row}, t.Sound → (t.rowActed row).Sound := fun ht =>
    .ite ht.snDecide.snDecide.commandStop.commandStop ht.snDecide.snDecide
  have settled : ∀ {t : State} {row}, t.Sound → (t.rowSettled row).Sound := fun ht =>
    .captureStop (.ite (acted ht).commandStop.commandStop (acted ht))
  rw [State.gateDecide_eq]
  exact (settled sampled).buildGate.snOutcome.snOutcome.withFields

theorem State.Sound.snTickCheck {s : State} (hs : s.Sound) {i : Sn} {first : Bool} : (s.snTickCheck i first).Sound := by
  unfold State.snTickCheck
  dsimp only
  split
  · exact hs.pulseOwn.ite hs
  · exact hs

theorem State.Sound.snTick {s : State} (hs : s.Sound) {i : Sn} {first : Bool} : (s.snTick i first).Sound :=
  .ite hs.snTickCheck.withSn hs.withSn

theorem State.Sound.snuffersTick {s : State} (hs : s.Sound) {first : Bool} : (s.snuffersTick first).Sound :=
  hs.gateMissed.captureStop.snTick.snTick.withFields

theorem State.Sound.snPageReset {s : State} (hs : s.Sound) {i : Sn} : (s.snPageReset i).Sound :=
  hs.foldl (fun _ _ ht => ht.setReg)

theorem State.Sound.gateRearm {s : State} (hs : s.Sound) : s.gateRearm.Sound := hs.withFields.ite hs

theorem State.Sound.snReset {s : State} (hs : s.Sound) {i : Sn} : (s.snReset i).Sound :=
  .gateRearm (.snPageReset (hs.setSn rfl))

/-- A Snuffer in reset has SAFE low. -/
theorem State.safe_snReset (s : State) (i : Sn) : ((s.snReset i).sn i).safe = false := by
  cases i <;> unfold State.snReset State.gateRearm <;> split <;> rfl

/-- Start tests begin in a Snuffer whose SAFE is low. -/
theorem State.Sound.snTest {s : State} (hs : s.Sound) {i : Sn} (h : (s.sn i).safe = false) : (s.snTest i).Sound :=
  .forceAll (.snEnter hs.withSn (.inr (by simp [h])))

/-- A Snuffer whose SAFE is low leaves RESET. -/
theorem State.Sound.snStart {s : State} (hs : s.Sound) {i : Sn} (h : (s.sn i).safe = false) : (s.snStart i).Sound :=
  .ite (hs.setReg.snTest (by simp [h])) (.fset (hs.snEnter (.inr h)))

theorem State.Sound.snRestart {s : State} (hs : s.Sound) {i : Sn} : (s.snRestart i).Sound :=
  .ite (hs.snReset.snStart (s.safe_snReset i)) hs.snReset

theorem State.Sound.execSnufferPoll {sn : Sn} {e : Nat} {chkA chkB : ReadCheck} {s : State} (hs : s.Sound) :
    Out.Sound (execSnufferPoll sn e chkA chkB s) :=
  hs.onSn hs.elapse.poll

theorem State.Sound.execSnufferCutoff {sn : Sn} {e : Nat} {s : State} (hs : s.Sound) : Out.Sound (execSnufferCutoff sn e s) :=
  hs.onSn hs.elapse.cutoff

theorem State.Sound.execGateLoad {chk : ReadCheck} {s : State} (hs : s.Sound) : Out.Sound (execGateLoad chk s) :=
  hs.onAwake hs.gateLoad

theorem State.Sound.execSnufferCompareDone {sn : Sn} {s : State} (hs : s.Sound) : Out.Sound (execSnufferCompareDone sn s) :=
  hs.onSn hs.compareDone

theorem State.Sound.otherStops {s : State} (hs : s.Sound) {i : Sn} : (s.otherStops i).Sound := hs.commandStop.ite hs

theorem State.Sound.bothStop {s : State} (hs : s.Sound) {i : Sn} {cause line : Nat} : (s.bothStop i cause line).Sound :=
  hs.lineAct.commandStop.otherStops

theorem State.Sound.execCrosslinkMessage {s : State} (hs : s.Sound) {sn : Sn} {msg : XMsg} {crcOk : Bool} :
    Out.Sound (execCrosslinkMessage sn msg crcOk s) := by
  refine hs.onSn (.ite hs.bothStop ?_)
  split
  · split
    · exact .crossCheck hs.withSn
    · exact hs
  · exact hs.commandStop.ite hs

theorem State.Sound.silentStop {s : State} (hs : s.Sound) {i : Sn} : (s.silentStop i).Sound := hs.commandStop.otherStops.ite hs

theorem State.Sound.execVerdictTimeout {e : Nat} {s : State} (hs : s.Sound) : Out.Sound (execVerdictTimeout e s) :=
  .next (hs.elapse.silentStop.silentStop.ite hs)

theorem State.Sound.execGateDecision {e : Nat} {s : State} (hs : s.Sound) : Out.Sound (execGateDecision e s) :=
  hs.onAwake hs.elapse.gateDecide

/-- SAFE_TOGGLE raises SAFE of a Snuffer that is ARMED or RUNNING alone. -/
theorem State.Sound.execSafeToggle {s : State} (hs : s.Sound) {sn : Sn} {e : Nat} : Out.Sound (execSafeToggle sn e s) := by
  refine hs.onSn_of fun hd => hs.elapse.setSn ?_
  have ha : (s.sn sn).st.active = true := by simp at hd; exact hd.1
  simp [Snuffer.safeHeld, elapse_sn, ha]

theorem State.Sound.execHeartbeatEdge {s : State} (hs : s.Sound) {sn : Sn} {e width : Nat} :
    Out.Sound (execHeartbeatEdge sn e width s) :=
  hs.onSn (hs.elapse.ite (.ite hs.elapse.withSn hs.elapse.withSn))

theorem State.Sound.execHeartbeatTimeout {s : State} (hs : s.Sound) {sn : Sn} {e : Nat} :
    Out.Sound (execHeartbeatTimeout sn e s) :=
  hs.onSn (.commandStop (.lineAct (.fadd hs.elapse.withSn)))

theorem State.Sound.execAggregatorPulse {s : State} (hs : s.Sound) {sn : Sn} {line : Nat} :
    Out.Sound (execAggregatorPulse sn line s) :=
  hs.onSn (.lineAct hs.withSn)

theorem State.Sound.execSnufferReset {sn : Sn} {s : State} (hs : s.Sound) : Out.Sound (execSnufferReset sn s) := hs.snRestart.next

theorem State.Sound.execSnufferSupplyFail {s : State} (hs : s.Sound) {sn : Sn} : Out.Sound (execSnufferSupplyFail sn s) := by
  have h : ((s.setSn sn { s.sn sn with supply := false }).snReset sn).Sound := .snReset hs.withSn
  exact .ite (.next (h.lineAct.commandStop.ite h)) hs.next

theorem State.Sound.execSnufferSupplyReturn {s : State} (hs : s.Sound) {sn : Sn} : Out.Sound (execSnufferSupplyReturn sn s) :=
  .ite hs.next (.next (.snRestart hs.withSn))

/-! ## Ethernet -/

theorem State.Sound.ethInto {s : State} (hs : s.Sound) {x : EthStream} {v : InVer} {k : EthPkt} {late : Bool} :
    (s.ethInto x v k late).Sound :=
  .ite (hs.ingestWriteAll.ingestWriteAll.setInVer.lateFold.ite hs.lateDrop)
      (hs.ingestWriteAll.ingestWriteAll.setInVer.ite hs.ingestWriteAll.setInVer)

theorem State.Sound.ethPlace {s u : State} (hs : s.Sound) {k : EthPkt} (h : s.ethPlace k = some u) : u.Sound := by
  unfold State.ethPlace at h
  split at h
  · cases h; exact hs
  · next x _ =>
    dsimp only at h
    split at h
    · cases h; exact hs.lateDrop
    · obtain ⟨v, _, rfl⟩ := Option.map_eq_some_iff.1 h
      exact hs.openVer.ethInto

theorem State.Sound.ethLevel {s : State} (hs : s.Sound) : s.ethLevel.Sound := hs.setLevel

theorem State.Sound.ethDrain {s : State} (hs : s.Sound) : (s.ethDrain).Sound := by
  refine .ethLevel (.foldl (hs.withFields) fun t k ht => .ite ht.withFields ?_)
  split
  · next u hu => exact ht.ethPlace hu
  · exact ht.withFields

theorem State.Sound.ethStreamRx {s : State} (hs : s.Sound) {t port stamp : Nat} {f : Word32} {h : EthHdr} :
    (s.ethStreamRx t port stamp f h).Sound :=
  hs.withFields.ethDrain

theorem State.Sound.ringVec {s : State} (hs : s.Sound) {page : Nat} {r : EtqCfg} : (s.ringVec page r).Sound := hs.msix

theorem State.Sound.ringNext {s : State} (hs : s.Sound) {page : Nat} : (s.ringNext page).Sound := hs.fset

theorem State.Sound.hostRx {s : State} (hs : s.Sound) {q port stamp : Nat} {bs : List Byte} :
    (s.hostRx q port stamp bs).Sound := by
  unfold State.hostRx
  dsimp only
  split
  · exact hs.fadd
  · exact hs.fadd.ite hs.draw.draw.traffic.storeAt.ringNext.ringVec

theorem State.Sound.ethRx {s : State} (hs : s.Sound) {port stamp : Nat} {f : Word32} {bs : List Byte} :
    (s.ethRx port stamp f bs).Sound := by
  unfold State.ethRx
  dsimp only
  refine .ite hs.fadd ?_
  refine .ite (hs.hostRx.ite hs) ?_
  split
  · exact hs.fadd
  · split
    · exact hs
    · exact hs.ethStreamRx
    · exact hs.hostRx

theorem State.Sound.execEthRxFrame {port : Nat} {bytes : List Byte} {fcsOk : Bool} {e dur : Nat} {s : State} (hs : s.Sound) :
    Out.Sound (execEthRxFrame port bytes fcsOk e dur s) :=
  hs.onAwake (hs.elapse.elapse.ethRx.ite hs.elapse.elapse.fadd)

theorem State.Sound.ethClose {s : State} (hs : s.Sound) {t : Nat} {f : Word32} : (s.ethClose t f).Sound :=
  hs.openVer.markClosed.ethDrain

theorem State.Sound.execInputVersionClose {kind stream e : Nat} {s : State} (hs : s.Sound) :
    Out.Sound (execInputVersionClose kind stream e s) := by
  unfold Machine.execInputVersionClose
  dsimp only
  refine .ite ?_ (hs.onAwake hs.elapse.ethClose)
  split
  · exact hs.onAwake hs.elapse.camClose
  · exact hs.next

theorem State.Sound.txMoves {s : State} (hs : s.Sound) {p q a n : Nat} {write : Bool} : (s.txMoves p q a n write).Sound := by
  unfold State.txMoves
  split
  · exact hs.traffic
  · exact hs

theorem State.Sound.txOpen {s : State} (hs : s.Sound) {p : Nat} : (s.txOpen p).Sound := by
  unfold State.txOpen
  refine .foldl hs ?_
  intro _ _ ht
  split
  · exact ht.keyed
  · exact ht

theorem State.Sound.txBack {s : State} (hs : s.Sound) {p q st err : Nat} {stamp : Option Nat} :
    (s.txBack p q st err stamp).Sound := by
  unfold State.txBack
  dsimp only
  split
  · exact hs
  · refine .ite ?_ ?_
    · refine .ringVec ?_
      refine .ite ?_ ?_
      · refine .ringNext ?_
        split
        · exact hs.txMoves.txMoves.storeAt.storeAt.ite hs.txMoves.txMoves.storeAt
        · exact hs.txMoves.txMoves.storeAt
      · refine .fadd ?_
        refine .ringNext ?_
        split
        · exact hs.txMoves.txMoves.storeAt.storeAt.ite hs.txMoves.txMoves.storeAt
        · exact hs.txMoves.txMoves.storeAt
    · refine .ite ?_ ?_
      · refine .ringNext ?_
        split
        · exact hs.txMoves.txMoves.storeAt.storeAt.ite hs.txMoves.txMoves.storeAt
        · exact hs.txMoves.txMoves.storeAt
      · refine .fadd ?_
        refine .ringNext ?_
        split
        · exact hs.txMoves.txMoves.storeAt.storeAt.ite hs.txMoves.txMoves.storeAt
        · exact hs.txMoves.txMoves.storeAt

theorem State.Sound.txErrors {s : State} (hs : s.Sound) {p q n : Nat} : (s.txErrors p q n).Sound := by
  induction n generalizing s with
  | zero => exact hs
  | succ n ih =>
    unfold State.txErrors
    split
    · exact hs
    · split
      · exact ih hs.txBack
      · exact hs

theorem State.Sound.txClean {s : State} (hs : s.Sound) {p : Nat} : (s.txClean p).Sound := hs.foldl (fun _ _ ht => ht.txErrors)

theorem State.Sound.txStart {s : State} (hs : s.Sound) {p : Nat} {q : Option Nat} {bs : List Byte} : (s.txStart p q bs).Sound :=
  hs.withFields

theorem State.Sound.gateLaunch {s : State} (hs : s.Sound) {p : Nat} {bs : List Byte} : (s.gateLaunch p bs).Sound :=
  hs.withFields.withFields.emit.txStart.ite hs.withFields.withFields.pulse

theorem State.Sound.txQueueStart {s : State} (hs : s.Sound) {p q : Nat} : (s.txQueueStart p q).Sound := by
  unfold State.txQueueStart
  dsimp only
  split
  · exact hs
  · exact hs.txMoves.emit.txStart

theorem State.Sound.execEthTxStart {port e : Nat} {s : State} (hs : s.Sound) : Out.Sound (execEthTxStart port e s) := by
  unfold Machine.execEthTxStart
  dsimp only
  split
  · exact hs.onAwake hs.elapse.gateLaunch
  · split
    · exact hs.onAwake hs.elapse.gateMissed.txOpen.txClean.txQueueStart
    · exact hs.onAwake hs.elapse.gateMissed.txOpen.txClean

theorem State.Sound.txEnd {s : State} (hs : s.Sound) {p : Nat} {x : EthTx} {good : Bool} : (s.txEnd p x good).Sound := by
  unfold State.txEnd
  dsimp only
  split
  · exact hs.withFields.txBack.ite hs.withFields.draw.txBack
  · exact hs.withFields.ite hs.withFields.pulse

theorem State.Sound.txOver {s : State} (hs : s.Sound) {p : Nat} {x : EthTx} {good : Bool} : (s.txOver p x good).Sound :=
  hs.txEnd.gateMissed

theorem State.Sound.execEthTxDone {port : Nat} {good : Bool} {e : Nat} {s : State} (hs : s.Sound) :
    Out.Sound (execEthTxDone port good e s) := by
  unfold Machine.execEthTxDone
  split
  · exact hs.next
  · exact hs.onAwake hs.elapse.txOver

theorem State.Sound.execEthTxLate {port q e : Nat} {s : State} (hs : s.Sound) : Out.Sound (execEthTxLate port q e s) := by
  unfold Machine.execEthTxLate
  dsimp only
  split
  · exact hs.txOpen.next
  · exact hs.txOpen.onAwake hs.txOpen.elapse.fadd.txBack

theorem State.Sound.execEthLinkDown {port : Nat} {s : State} (hs : s.Sound) : Out.Sound (execEthLinkDown port s) := by
  unfold Machine.execEthLinkDown
  dsimp only
  refine .onAwake hs ?_
  split
  · exact hs.fset.pulse.txEnd
  · exact hs.fset.pulse

theorem State.Sound.execEthLinkUp {port rate : Nat} {s : State} (hs : s.Sound) : Out.Sound (execEthLinkUp port rate s) :=
  hs.onAwake hs.fset

/-! ## The vote -/

theorem State.Sound.voteMarks {s : State} (hs : s.Sound) {v : VoteRes} {bad : Nat} : (s.voteMarks v bad).Sound :=
  .ite (.pulse (.event (.fadd (.foldl (hs.fwrap.setReg.fset.fadd.foldl (fun _ _ ht => ht.fadd.event.pulse))
      (fun _ _ ht1 => ht1.fadd.event))))) (.foldl (hs.fwrap.setReg.fset.fadd.foldl (fun _ _ ht => ht.fadd.event.pulse))
      (fun _ _ ht1 => ht1.fadd.event))

theorem State.Sound.voteWrite {s : State} (hs : s.Sound) {j : Job} : (s.voteWrite j).Sound :=
  hs.unitWrite (fun _ ht => ht.unitWrite (fun _ ht1 => ht1.storeAt.storeAt.voteMarks.setJob))

theorem State.Sound.voteDone {s : State} (hs : s.Sound) {j : Job} {chk : ReadCheck} : (s.voteDone j chk).Sound :=
  hs.staleEnd.ite (hs.unitRead (fun _ ht => ht.unitRead (fun _ ht1 => ht1.unitRead (fun _ ht2 => ht2.voteWrite))))

theorem State.Sound.execXcuVote {tag : Nat} {s : State} (hs : s.Sound) : Out.Sound (execXcuVote tag s) :=
  hs.onAwake (hs.withJob (fun _ => hs.setJob.ite hs))

theorem State.Sound.execXcuVoteDone {chk : ReadCheck} {e : Nat} {s : State} (hs : s.Sound) :
    Out.Sound (execXcuVoteDone chk e s) := by
  unfold Machine.execXcuVoteDone
  split
  · exact hs.onAwake hs.elapse.voteDone
  · exact hs.next

/-! ## The map -/

theorem State.Sound.mapRegs {s : State} (hs : s.Sound) : s.mapRegs.Sound := hs.fset.fset

theorem State.Sound.unitReads {s : State} (hs : s.Sound) {j : Job} {chk : ReadCheck} {ok : State → State}
    (hok : ∀ t, State.Sound t → State.Sound (ok t)) {rs : List (Nat × Nat)} : (s.unitReads j chk ok rs).Sound := by
  induction rs generalizing s with
  | nil => exact hok s hs
  | cons r rs ih => exact hs.unitRead fun _ ht => ih ht

theorem State.Sound.pubBuild {s : State} (hs : s.Sound) {j : Job} {w : List (Nat × Nat)} : (s.pubBuild j w).Sound :=
  hs.withFields.mapRegs

theorem State.Sound.publish {s : State} (hs : s.Sound) {j : Job} {chk : ReadCheck} : (s.publish j chk).Sound := by
  unfold State.publish
  dsimp only
  refine .ite hs ?_
  refine .ite hs.staleEnd ?_
  refine .unitRead hs.setJob ?_
  intro _ ht
  split
  · exact .setJob (.captureLine (ht.fadd.ite ht))
  · exact ht.unitReads (fun _ ht1 => ht1.pubBuild)

theorem State.Sound.newEpoch {s : State} (hs : s.Sound) {j : Job} {w : List (Nat × Nat)} : (s.newEpoch j w).Sound :=
  hs.withFields.setReg.mapRegs

/-! ## The checker -/

theorem State.Sound.setCand {s : State} (hs : s.Sound) {c : Cand} : (s.setCand c).Sound := hs.withFields

theorem State.Sound.revalidate {s : State} (hs : s.Sound) : s.revalidate.Sound := hs.ite hs.withFields

theorem State.Sound.writeCand {s : State} (hs : s.Sound) {j : Job} {c : Cand} : (s.writeCand j c).Sound :=
  .ite (hs.ite hs.jobMoves.storeAt) (.storeAt (.jobMoves (hs.ite hs.jobMoves.storeAt)))

theorem State.Sound.closeJob {s : State} (hs : s.Sound) {tag : Nat} : (s.closeJob tag).Sound :=
  hs.withJob (fun _ => .setJob (.fadd (hs.foldl (fun _ _ ht => ht.writeCand))))

theorem State.Sound.deadlineErr {s : State} (hs : s.Sound) {tags : List Nat} : (s.deadlineErr tags).Sound :=
  hs.captureLine.ite (hs.captureLine.ite hs)

theorem State.Sound.closeJobs {s : State} (hs : s.Sound) {tags : List Nat} : (s.closeJobs tags).Sound :=
  .deadlineErr (hs.withFields.foldl (fun _ _ ht => ht.closeJob))

theorem State.Sound.checkFail {s : State} (hs : s.Sound) {j : Job} {e : Err} : (s.checkFail j e).Sound := hs.setJob.retagSweep

theorem State.Sound.footRead {s : State} (hs : s.Sound) {j : Job} {a n : Nat} {chk : ReadCheck} {ok : State → State}
    (hok : ∀ x0, State.Sound x0 → State.Sound (ok x0)) : (s.footRead j a n chk ok).Sound := by
  unfold State.footRead
  dsimp only
  refine .ite hs ?_
  split
  · exact hs.checkFail
  · split
    · exact hs.readMarks.checkFail
    · exact hs.readMarks.setJob.trace.ite hs.readMarks.exhausted.checkFail
    · exact hok _ hs.readMarks.guestIn.jobMoves

theorem State.Sound.checkStart {s : State} (hs : s.Sound) {j : Job} {chk : ReadCheck} : (s.checkStart j chk).Sound :=
  hs.staleEnd.ite (hs.footRead (fun _ ht => ht.captureLine.checkFail.ite (ht.captureLine.checkFail.ite
      (ht.setJob.withFields.closeJobs.ite ht.setJob.withFields))))

theorem State.Sound.planDeadline {s : State} (hs : s.Sound) : s.planDeadline.Sound := hs.closeJobs.withFields

theorem State.Sound.setPipe {s : State} (hs : s.Sound) {p : Nat} {w : PipeWork} : (s.setPipe p w).Sound := hs.withFields

theorem State.Sound.freePipe {s : State} (hs : s.Sound) {p : Nat} : (s.freePipe p).Sound := hs.withFields

theorem State.Sound.takeCand {s : State} (hs : s.Sound) {p : Nat} {c : Cand} {re : Bool} : (s.takeCand p c re).Sound :=
  .ite (.fwrap (.setPipe (.setCand (hs.withJob (fun _ => hs.setJob))))) (.setPipe (.setCand (hs.withJob (fun _ => hs.setJob))))

theorem State.Sound.pipeStart {s : State} (hs : s.Sound) {p : Nat} : (s.pipeStart p).Sound := by
  unfold State.pipeStart
  dsimp only
  split
  · split
    · exact hs.withFields
    · split
      · exact hs.takeCand
      · split
        · exact hs.takeCand
        · exact hs
  · split
    · exact hs.takeCand
    · split
      · exact hs.takeCand
      · exact hs

theorem State.Sound.candDone {s : State} (hs : s.Sound) {p : Nat} {j : Job} {c : Cand} {e : Word32} {r : ChkRes} :
    (s.candDone p j c e r).Sound := by
  unfold State.candDone
  dsimp only
  split
  · exact hs.draw.freePipe.setCand.fwrap.revalidate.trace.writeCand
  · exact hs.draw.freePipe.setCand.fwrap.revalidate.trace

theorem State.Sound.candFail {s : State} (hs : s.Sound) {p : Nat} {j : Job} {c : Cand} {e : Word32} {code : Err} {a : Nat} :
    (s.candFail p j c e code a).Sound :=
  hs.candDone.captureLine

theorem State.Sound.mapHurt {s : State} (hs : s.Sound) {l : Nat} : (s.mapHurt l).Sound := hs.withFields.captureLine

theorem State.Sound.candCheck {s : State} (hs : s.Sound) {p : Nat} {j : Job} {c : Cand} {e : Word32} {again re : Bool}
    {chk : ReadCheck} : (s.candCheck p j c e again re chk).Sound := by
  unfold State.candCheck
  dsimp only
  refine .ite hs ?_
  split
  · exact hs.candFail
  · split
    · exact hs.readMarks.candFail
    · exact hs.readMarks.candFail.ite hs.readMarks.setPipe
    · split
      · exact hs.readMarks.guestIn.jobMoves.candFail
      · exact hs.readMarks.guestIn.jobMoves.mapHurt.candFail.ite hs.readMarks.guestIn.jobMoves.mapHurt.setPipe
      · exact hs.readMarks.guestIn.jobMoves.candDone.ite hs.readMarks.guestIn.jobMoves

theorem State.Sound.runDone {s : State} (hs : s.Sound) {p alt k : Nat} {f : FinCheck} {c : Option Int} :
    (s.runDone p alt k f c).Sound :=
  hs.freePipe.withFields.fwrap.trace.ite hs.freePipe.withFields

theorem State.Sound.runCheck {s : State} (hs : s.Sound) {p alt k : Nat} {again : Bool} {f : FinCheck} {g : FinReg}
    {chk : ReadCheck} : (s.runCheck p alt k again f g chk).Sound := by
  unfold State.runCheck
  split
  · exact hs.runDone.captureLine
  · exact hs.mapHurt.runDone.captureLine.ite hs.mapHurt.setPipe
  · exact hs.runDone.ite hs

theorem State.Sound.pipeDone {s : State} (hs : s.Sound) {p : Nat} {chk : ReadCheck} : (s.pipeDone p chk).Sound := by
  unfold State.pipeDone
  dsimp only
  split
  · split
    · exact hs.freePipe.withFields.staleEnd.ite hs.candCheck
    · exact hs.freePipe
  · split
    · split
      · exact hs.runCheck
      · exact hs.freePipe
    · exact hs.freePipe
  · exact hs

theorem State.Sound.capExpired {s : State} (hs : s.Sound) {p : Nat} : (s.capExpired p).Sound := by
  unfold State.capExpired
  dsimp only
  split
  · split
    · exact hs.ite hs.candDone.fadd
    · exact hs
  · split
    · split
      · exact hs.ite hs.runDone.fadd
      · exact hs
    · exact hs
  · exact hs

theorem State.Sound.finalStart {s : State} (hs : s.Sound) : s.finalStart.Sound := hs.withFields

theorem State.Sound.finalName {s : State} (hs : s.Sound) {f : FinCheck} : (s.finalName f).Sound :=
  hs.fset.fset.fset.setReg.setReg.withFields.pulse.ite hs.fset.fset.fset.setReg.setReg.withFields

theorem State.Sound.execMapPublish {tag : Nat} {chk : ReadCheck} {s : State} (hs : s.Sound) :
    Out.Sound (execMapPublish tag chk s) :=
  hs.onAwake (hs.withJob (fun _ => hs.publish.ite hs))

theorem State.Sound.pubWrite {s : State} (hs : s.Sound) {j : Job} {a n : Nat} {ok : State → State}
    (hok : ∀ x0, State.Sound x0 → State.Sound (ok x0)) : (s.pubWrite j a n ok).Sound := by
  unfold State.pubWrite
  dsimp only
  split
  · exact hs.withFields.setJob
  · exact hs.unitWrite (fun _ ht => hok _ ht)

theorem State.Sound.execPublishComplete {s : State} (hs : s.Sound) : Out.Sound (execPublishComplete s) := by
  unfold Machine.execPublishComplete
  dsimp only
  refine .onAwake hs ?_
  split
  · split
    · exact hs.withFields.staleEnd.ite (hs.pubWrite (fun _ ht => ht.newEpoch.storeAt.setJob.revalidate))
    · exact hs.withFields
  · exact hs

theorem State.Sound.execCcuCheck {tag : Nat} {chk : ReadCheck} {s : State} (hs : s.Sound) : Out.Sound (execCcuCheck tag chk s) :=
  hs.onAwake (hs.withJob (fun _ => hs.checkStart.ite hs))

theorem State.Sound.execPipeCheckStart {pipe : Nat} {s : State} (hs : s.Sound) : Out.Sound (execPipeCheckStart pipe s) :=
  hs.onAwake hs.pipeStart

theorem State.Sound.execPipeCheckDone {pipe : Nat} {chk : ReadCheck} {s : State} (hs : s.Sound) :
    Out.Sound (execPipeCheckDone pipe chk s) :=
  hs.onAwake hs.pipeDone

theorem State.Sound.execCheckCapExpired {pipe : Nat} {s : State} (hs : s.Sound) : Out.Sound (execCheckCapExpired pipe s) :=
  hs.onAwake hs.capExpired

theorem State.Sound.execPlanningDeadline {e : Nat} {s : State} (hs : s.Sound) : Out.Sound (execPlanningDeadline e s) :=
  hs.onAwake hs.elapse.planDeadline

theorem State.Sound.execFinalCheckStart {e : Nat} {s : State} (hs : s.Sound) : Out.Sound (execFinalCheckStart e s) :=
  hs.onAwake hs.elapse.finalStart

theorem State.Sound.execFinalAlternateNamed {e : Nat} {s : State} (hs : s.Sound) : Out.Sound (execFinalAlternateNamed e s) := by
  unfold Machine.execFinalAlternateNamed
  refine .onAwake hs ?_
  split
  · exact hs.elapse.finalName.ite hs
  · exact hs

/-! ## PROFILE -/

theorem State.Sound.registerFinal {s : State} (hs : s.Sound) {j : Job} : (s.registerFinal j).Sound :=
  hs.ite (hs.withFields.ite (hs.withFields.ite hs))

theorem State.Sound.profileStart {s : State} (hs : s.Sound) {j : Job} {chk : ReadCheck} : (s.profileStart j chk).Sound :=
  hs.staleEnd.ite (hs.setJob.unitRead (fun _ ht => ht.unitRead (fun _ ht1 => ht1.captureLine.setJob.ite
      (ht1.setJob.registerFinal.ite ht1.setJob))))

theorem State.Sound.altWrite {s : State} (hs : s.Sound) {j : Job} {w : Nat} : (s.altWrite j w).Sound :=
  hs.unitWrite (fun _ ht => .ite (.registerFinal (.fwrap (.ite (.fadd (ht.storeAt.draw.setJob.fadd.ite ht.storeAt.draw.setJob))
      (ht.storeAt.draw.setJob.fadd.ite ht.storeAt.draw.setJob)))) (.ite (.fadd
      (ht.storeAt.draw.setJob.fadd.ite ht.storeAt.draw.setJob)) (ht.storeAt.draw.setJob.fadd.ite ht.storeAt.draw.setJob)))

theorem State.Sound.altDone {s : State} (hs : s.Sound) {j : Job} {chk : ReadCheck} : (s.altDone j chk).Sound :=
  hs.staleEnd.ite (hs.unitRead (fun _ ht => ht.unitRead (fun _ ht1 => ht1.altWrite)))

theorem State.Sound.execProfile {tag : Nat} {chk : ReadCheck} {s : State} (hs : s.Sound) : Out.Sound (execProfile tag chk s) :=
  hs.onAwake (hs.withJob (fun _ => hs.profileStart.ite hs))

theorem State.Sound.execProfileAlternateDone {chk : ReadCheck} {s : State} (hs : s.Sound) :
    Out.Sound (execProfileAlternateDone chk s) := by
  unfold Machine.execProfileAlternateDone
  refine .onAwake hs ?_
  split
  · exact hs.altDone.ite hs
  · exact hs

/-! ## Self-test -/

theorem State.Sound.skipTarget {s : State} (hs : s.Sound) {tag : Nat} {t : StTarget} : (s.skipTarget tag t).Sound :=
  hs.withJob (fun _ => hs.unitWrite (fun _ ht => .setJob (.withFields (ht.foldl (fun _ _ ht1 => ht1.storeAt)))))

theorem State.Sound.beginChunk {s : State} (hs : s.Sound) {tag : Nat} {t : StTarget} : (s.beginChunk tag t).Sound :=
  hs.withJob (fun _ => .ite (.setWick (hs.setJob.zero.ite hs.setJob)) hs.setJob)

theorem State.Sound.turnTarget {s : State} (hs : s.Sound) {tag : Nat} {t : StTarget} : (s.turnTarget tag t).Sound := by
  unfold State.turnTarget
  dsimp only
  split
  · exact hs.ite (hs.skipTarget.ite (hs.beginChunk.ite (hs.lapse.ite hs)))
  · exact hs

theorem State.Sound.turnTargets {s : State} (hs : s.Sound) {tag : Nat} {ts : List StTarget} : (s.turnTargets tag ts).Sound :=
  hs.foldl (fun _ _ ht => ht.turnTarget)

theorem State.Sound.destroy {s : State} (hs : s.Sound) {kind tgt chunk : Nat} : (s.destroy kind tgt chunk).Sound := by
  unfold State.destroy
  dsimp only
  split
  · exact hs.withFields.setWick
  · exact hs.withFields.setWick
  · exact hs.withFields.foldl (fun _ _ ht => ht.store)
  · exact hs.withFields.foldl (fun _ _ ht1 => ht1.store.ite ht1)
  · exact hs.withFields.withFields.mapRegs.ite hs.withFields
  · exact hs.withFields

theorem State.Sound.chunkFail {s : State} (hs : s.Sound) {tag kind tgt : Nat} : (s.chunkFail tag kind tgt).Sound :=
  .withJob (hs.quarantine.ite hs.pulse) (fun _ => .ite (.setJob (hs.quarantine.ite hs.pulse)) (hs.quarantine.ite hs.pulse))

theorem State.Sound.chunkDone {s : State} (hs : s.Sound) {j : Job} {t : StTarget} {c : Nat} {sig : Word32} {same : Bool} :
    (s.chunkDone j t c sig same).Sound := by
  unfold State.chunkDone
  refine State.Sound.unitWrite hs fun u hu => ?_
  have h : (if j.stKind = 0 then
      (u.destroy j.stKind t.tgt c).setWick t.tgt { (u.destroy j.stKind t.tgt c).wick t.tgt with st := .idle }
    else u.destroy j.stKind t.tgt c).Sound := hu.destroy.setWick.ite hu.destroy
  exact .ite (.coverChunk (.setJob h.storeAt)) (.chunkFail (.coverChunk (.setJob h.storeAt)))

theorem State.Sound.execSelftest {tag : Nat} {s : State} (hs : s.Sound) : Out.Sound (execSelftest tag s) :=
  hs.onAwake (hs.withJob (fun _ => hs.setJob.turnTargets.ite hs))

theorem State.Sound.execSelftestChunkDone {tag tgt chunk : Nat} {sig : Word32} {same : Bool} {s : State} (hs : s.Sound) :
    Out.Sound (execSelftestChunkDone tag tgt chunk sig same s) := by
  unfold Machine.execSelftestChunkDone
  refine .onAwake hs ?_
  refine .withJob hs ?_
  intro _
  refine .ite ?_ hs
  split
  · exact hs.chunkDone
  · exact hs

end Sys2Proof.Machine
end

section
/-!
PROOF. Soundness of the commands of the device: time base, memory, links, power, boot and debug (13 to 22); and of every step.
-/

namespace Sys2Proof.Machine

open Sys2Proof

-- One thread at a time: the stacks of threads that wait for each other count against the check's memory limit.
set_option Elab.async false

/-! ## The time base -/

theorem State.Sound.servoWrite {s : State} (hs : s.Sound) {w : Writer} {t : State} (ht : t.Sound) : (s.servoWrite w t).Sound :=
  hs.capture.ite (hs.capture.ite ht)

theorem State.Sound.incrFrac {s : State} (hs : s.Sound) {w : Writer} {v : Word32} : (s.incrFrac w v).Sound :=
  hs.servoWrite hs.withFields

theorem State.Sound.incrInt {s : State} (hs : s.Sound) {w : Writer} {v : Word32} : (s.incrInt w v).Sound :=
  hs.servoWrite (hs.capture.ite (hs.ite hs.withFields))

theorem State.Sound.adjCommit {s : State} (hs : s.Sound) {w : Writer} {v : Word32} : (s.adjCommit w v).Sound :=
  hs.servoWrite (.ite (hs.withFields.fset.fset.fset.ite hs.withFields.fset.fset) hs.withFields.fset.fset)

theorem State.Sound.holdover {s : State} (hs : s.Sound) : s.holdover.Sound := hs.withFields.fset.fset.fset.fadd.captureLine

theorem State.Sound.execPtpSync {e : Nat} {logInt : Int} {s : State} (hs : s.Sound) : Out.Sound (execPtpSync e logInt s) :=
  hs.onAwake (hs.elapse.withFields.fset.ite hs.elapse.withFields)

theorem State.Sound.execPtpAnnounce {gm : Word64} {s : State} (hs : s.Sound) : Out.Sound (execPtpAnnounce gm s) := by
  unfold Machine.execPtpAnnounce
  dsimp only
  refine .onAwake hs ?_
  split
  · exact hs.withFields.holdover.ite hs.withFields
  · exact hs.withFields

theorem State.Sound.execSyncTimeout {e : Nat} {s : State} (hs : s.Sound) : Out.Sound (execSyncTimeout e s) := by
  unfold Machine.execSyncTimeout
  split
  · exact hs.next
  · exact hs.onAwake hs.elapse.holdover

theorem State.Sound.execSlewDone {e : Nat} {s : State} (hs : s.Sound) : Out.Sound (execSlewDone e s) := hs.onLive hs.elapse

theorem State.Sound.alarmFire {s : State} (hs : s.Sound) : s.alarmFire.Sound := hs.fset.event

theorem State.Sound.execAlarmFire {e : Nat} {s : State} (hs : s.Sound) : Out.Sound (execAlarmFire e s) :=
  hs.onLive hs.elapse.alarmFire

theorem State.Sound.stepApply {s : State} (hs : s.Sound) : s.stepApply.Sound := by
  unfold State.stepApply
  dsimp only
  split
  · exact hs
  · exact hs.withFields.fset.fset.fset.fadd.alarmFire.ite hs.withFields.fset.fset.fset.fadd

/-! ## DDR-4 channels -/

theorem State.Sound.rowDone {s : State} (hs : s.Sound) {c r : Nat} {bad : List Nat} : (s.rowDone c r bad).Sound :=
  .ite (.foldl (hs.foldl (fun _ _ ht => ht.storedError)) (fun _ _ ht1 => ht1.fadd.pulse)) (.ite (.touch (.readmit (.captureLine
      (.setRankSt (.setRankSt (.fset (.foldl (hs.foldl (fun _ _ ht => ht.storedError)) (fun _ _ ht1 => ht1.fadd.pulse))))))))
      (.fset (.foldl (hs.foldl (fun _ _ ht => ht.storedError)) (fun _ _ ht1 => ht1.fadd.pulse))))

theorem State.Sound.execMigrationRowDone {ch : Nat} {bad : List Nat} {s : State} (hs : s.Sound) :
    Out.Sound (execMigrationRowDone ch bad s) := by
  unfold Machine.execMigrationRowDone
  refine .onAwake hs ?_
  split
  · exact hs.rowDone.flow
  · exact hs

theorem State.Sound.execDdrAlert {ch e : Nat} {s : State} (hs : s.Sound) : Out.Sound (execDdrAlert ch e s) :=
  hs.onLive hs.elapse.setCh

theorem State.Sound.alertDone {s : State} (hs : s.Sound) {c : Nat} {wcrc : Bool} {ranks : List Nat} :
    (s.alertDone c wcrc ranks).Sound :=
  .ite (hs.setCh.pulse.foldl (fun _ _ ht => ht.rankError)) hs.setCh.fadd

theorem State.Sound.execDdrAlertDeassert {ch : Nat} {wcrc : Bool} {ranks : List Nat} {s : State} (hs : s.Sound) :
    Out.Sound (execDdrAlertDeassert ch wcrc ranks s) :=
  hs.onLive hs.alertDone.flow

theorem State.Sound.phyTemp {s : State} (hs : s.Sound) {c temp : Nat} : (s.phyTemp c temp).Sound := hs.setCh

theorem State.Sound.maintOpen {s : State} (hs : s.Sound) : s.maintOpen.Sound := by
  unfold State.maintOpen
  dsimp only
  refine .ite ?_ hs.withFields
  split
  · exact hs.withFields.setCh.fset
  · exact hs.withFields

theorem State.Sound.execMaintWindowOpen {e : Nat} {s : State} (hs : s.Sound) : Out.Sound (execMaintWindowOpen e s) :=
  hs.onAwake hs.elapse.maintOpen

theorem State.Sound.retrained {s : State} (hs : s.Sound) {c temp : Nat} {good : Bool} : (s.retrained c temp good).Sound :=
  hs.setCh.fset.setCh.fset.fwrap.ite hs.setCh.fset.fadd.pulse

theorem State.Sound.execRetrainDone {ch e temp : Nat} {good : Bool} {s : State} (hs : s.Sound) :
    Out.Sound (execRetrainDone ch e temp good s) :=
  hs.onLive hs.elapse.retrained.flow

theorem State.Sound.execRetrainOverdue {ch e : Nat} {s : State} (hs : s.Sound) : Out.Sound (execRetrainOverdue ch e s) :=
  hs.onAwake hs.elapse.setCh.pulse

/-! ## Die links -/

theorem State.Sound.lnkSet {s : State} (hs : s.Sound) {k : LinkMod} {f g : Fld} {v : Nat} : (s.lnkSet k f g v).Sound :=
  hs.fset.ite (hs.foldl (fun _ _ ht => ht.fset))

theorem State.Sound.lnkAdd {s : State} (hs : s.Sound) {k : LinkMod} {f g : Fld} : (s.lnkAdd k f g).Sound :=
  hs.fadd.ite (hs.foldl (fun _ _ ht => ht.fadd))

theorem State.Sound.linkEvent {s : State} (hs : s.Sound) {k : LinkMod} {fail : Bool} {kind v : Nat} :
    (s.linkEvent k fail kind v).Sound :=
  .withFields (hs.foldl (fun _ _ ht => ht.pulse))

theorem State.Sound.scnJobLost {s : State} (hs : s.Sound) {j : Job} : (s.scnJobLost j).Sound :=
  hs.setJob.trace.ite hs.setJob.exhausted

theorem State.Sound.sconceLost {s : State} (hs : s.Sound) {k : Nat} : (s.sconceLost k).Sound :=
  hs.setSconce.foldl (fun _ _ ht => ht.withJob (fun _ => ht.scnJobLost.ite ht))

theorem State.Sound.reqsLost {s : State} (hs : s.Sound) {p : Req → Bool} : (s.reqsLost p).Sound :=
  hs.foldl (fun _ _ ht => ht.dropReq.emit)

theorem State.Sound.lanternOut {s : State} (hs : s.Sound) {n : Nat} : (s.lanternOut n).Sound :=
  hs.ite (.flow (.readmit (.roundCheck (.sweepUnplaceable (.foldl (hs.reqsLost.fset.foldl
      (fun _ _ ht => ht.unitDataError.ite ht)) (fun _ _ ht1 => ht1.sconceLost))))))

theorem State.Sound.dmaLost {s : State} (hs : s.Sound) {k : LinkMod} {w ch : Nat} : (s.dmaLost k w ch).Sound := by
  unfold State.dmaLost
  dsimp only
  split
  · exact hs
  · exact hs.setWick.ite hs

theorem State.Sound.flightsLost {s : State} (hs : s.Sound) {k : LinkMod} : (s.flightsLost k).Sound :=
  .foldl (hs.foldl (fun _ _ ht => ht.foldl (fun _ _ ht1 => ht1.dmaLost))) (fun _ _ ht2 => ht2.withJob (fun _ => ht2.unitRetry))

theorem State.Sound.linkFail {s : State} (hs : s.Sound) {k : LinkMod} : (s.linkFail k).Sound := by
  unfold State.linkFail
  dsimp only
  split
  · exact .lanternOut (hs.flightsLost.lnkSet.setLink.linkEvent.foldl (fun _ _ ht => ht.capture))
  · exact .flow (.reqsLost (hs.flightsLost.lnkSet.setLink.linkEvent.foldl (fun _ _ ht => ht.capture)))
  · exact .flow (.reqsLost (hs.flightsLost.lnkSet.setLink.linkEvent.foldl (fun _ _ ht => ht.capture)))

theorem State.Sound.needStep {s : State} (hs : s.Sound) {k : LinkMod} {st : Nat} : (s.needStep k st).Sound := by
  unfold State.needStep
  dsimp only
  split
  · exact hs.setLink
  · exact hs.linkFail

theorem State.Sound.retireLane {s : State} (hs : s.Sound) {k : LinkMod} {l : Nat} : (s.retireLane k l).Sound := by
  unfold State.retireLane
  dsimp only
  refine .ite hs ?_
  split
  · exact .ite (.linkFail (.linkEvent (hs.setLink.lnkSet.ite hs.setLink.lnkSet))) (.linkEvent
      (hs.setLink.lnkSet.ite hs.setLink.lnkSet))
  · exact .needStep (.linkEvent (hs.setLink.lnkSet.ite hs.setLink.lnkSet))
  · exact .ite (.linkEvent (hs.setLink.lnkSet.ite hs.setLink.lnkSet)) (.ite (.linkFail (.linkEvent
      (hs.setLink.lnkSet.ite hs.setLink.lnkSet))) (.ite (.lnkSet (.linkEvent (hs.setLink.lnkSet.ite hs.setLink.lnkSet)))
      (.needStep (.linkEvent (hs.setLink.lnkSet.ite hs.setLink.lnkSet)))))

theorem State.Sound.switchWidth {s : State} (hs : s.Sound) {k : LinkMod} {st g : Nat} : (s.switchWidth k st g).Sound :=
  hs.setLink.lnkSet.lnkSet.ite (hs.setLink.lnkSet.lnkSet.foldl (fun _ _ ht => ht.fset))

theorem State.Sound.replayAll {s : State} (hs : s.Sound) {k : LinkMod} : (s.replayAll k).Sound := hs.setLink.resend.resend

theorem State.Sound.stepDone {s : State} (hs : s.Sound) {k : LinkMod} : (s.stepDone k).Sound := by
  unfold State.stepDone
  dsimp only
  refine .ite ?_ ?_
  · refine .needStep ?_
    split
    · exact .readmit (.foldl (.linkEvent (hs.setLink.replayAll.ite hs.setLink.replayAll.lnkAdd)) (fun _ _ ht => ht.capture))
    · exact .foldl (.linkEvent (hs.setLink.replayAll.ite hs.setLink.replayAll.lnkAdd)) (fun _ _ ht => ht.capture)
  · refine .lnkSet ?_
    split
    · exact .readmit (.foldl (.linkEvent (hs.setLink.replayAll.ite hs.setLink.replayAll.lnkAdd)) (fun _ _ ht => ht.capture))
    · exact .foldl (.linkEvent (hs.setLink.replayAll.ite hs.setLink.replayAll.lnkAdd)) (fun _ _ ht => ht.capture)

theorem State.Sound.attribute_ {s : State} (hs : s.Sound) {k : LinkMod} {l : Nat} : (s.attribute_ k l).Sound :=
  .ite (.retireLane (hs.setLink.foldl (fun _ _ ht => ht.faddI))) (hs.setLink.foldl (fun _ _ ht => ht.faddI))

theorem State.Sound.sendNak {s : State} (hs : s.Sound) {l : Link} {q : Nat} : (s.sendNak l q).Sound := hs.onWire

theorem State.Sound.flitSkipped {s : State} (hs : s.Sound) {k : LinkMod} {up : Bool} : (s.flitSkipped k up).Sound :=
  hs.ite hs.setLink.sendNak

theorem State.Sound.flitFailed {s : State} (hs : s.Sound) {k : LinkMod} {up : Bool} {f : List Byte} :
    (s.flitFailed k up f).Sound :=
  hs.ite (hs.sendNak.setLink.ite (hs.sendNak.setLink.ite hs.sendNak.setLink.linkFail))

theorem State.Sound.flitAccepted {s : State} (hs : s.Sound) {k : LinkMod} {up : Bool} {f : List Byte} :
    (s.flitAccepted k up f).Sound :=
  hs.setLink.foldl (fun _ _ ht => ht.attribute_)

theorem State.Sound.traceLink {s : State} (hs : s.Sound) {a : LinkMod} : (s.traceLink a).Sound := by
  unfold State.traceLink
  split
  · exact hs.trace
  · exact hs.trace.trace
  · exact hs

theorem State.Sound.lnkNak {s : State} (hs : s.Sound) {l : Link} {lseq : Nat} : (s.lnkNak l lseq).Sound :=
  hs.setLink.lnkAdd.traceLink.resend.ite hs

theorem State.Sound.lnkCredit {s : State} (hs : s.Sound) {l : Link} {cs : List Nat} : (s.lnkCredit l cs).Sound := hs.setLink.pump

theorem State.Sound.lnkWidth {s : State} (hs : s.Sound) {l : Link} {st g : Nat} : (s.lnkWidth l st g).Sound := by
  unfold State.lnkWidth
  split
  · exact hs.switchWidth.ite hs
  · exact hs

theorem State.Sound.lnkTest {s : State} (hs : s.Sound) {l : Link} : (s.lnkTest l).Sound :=
  .ite (hs.setLink.ite hs.setLink.lnkAdd) hs

theorem State.Sound.retireMask {s : State} (hs : s.Sound) {k : LinkMod} {mask : Nat} : (s.retireMask k mask).Sound :=
  hs.foldl (fun _ _ ht => ht.retireLane.ite ht)

theorem State.Sound.lnkTestres {s : State} (hs : s.Sound) {l : Link} {mask : Nat} : (s.lnkTestres l mask).Sound :=
  hs.retireMask.ite hs

theorem State.Sound.lctl {s : State} (hs : s.Sound) {l : Link} {p : List Byte} : (s.lctl l p).Sound := by
  unfold State.lctl
  dsimp only
  split
  · exact hs.lnkNak
  · exact hs.lnkWidth
  · exact hs.lnkTest
  · exact hs.lnkTestres
  · exact hs.lnkCredit
  · exact hs

theorem State.Sound.passOn {s : State} (hs : s.Sound) {here : Nat} {f : List Byte} : (s.passOn here f).Sound := by
  unfold State.passOn
  split
  · exact hs.transmit.ite hs
  · exact hs

theorem State.Sound.guestReject {s : State} (hs : s.Sound) : s.guestReject.Sound := hs.fadd

theorem State.Sound.guestAccess {s : State} (hs : s.Sound) {tag tc part addr len : Nat} {data : Option (List Byte)} :
    (s.guestAccess tag tc part addr len data).Sound :=
  hs.enterTagged.ite (hs.answerGuest hs.guestReject.emit)

theorem State.Sound.guestSends {s : State} (hs : s.Sound) {q : GuestReq} : (s.guestSends q).Sound := by
  unfold State.guestSends
  dsimp only
  split
  · exact hs.msix.ite hs.guestReject
  · exact hs.guestAccess

theorem State.Sound.guestAnswers {s : State} (hs : s.Sound) {tag err : Nat} {data : List Byte} :
    (s.guestAnswers tag err data).Sound := by
  unfold State.guestAnswers
  dsimp only
  split
  · exact hs
  · exact .flow (.emit (hs.creditNow.dropReq.reqCount.emit.ite
      (hs.creditNow.dropReq.reqCount.emit.ite hs.creditNow.dropReq.reqCount)))

theorem State.Sound.fromGuest {s : State} (hs : s.Sound) {f : List Byte} : (s.fromGuest f).Sound := by
  unfold State.fromGuest
  dsimp only
  split
  · exact hs.guestAccess
  · exact hs.guestAccess.ite hs.guestAccess
  · exact hs.guestAnswers
  · exact hs.guestAnswers
  · exact hs.guestSends
  · exact hs

theorem State.Sound.deliver {s : State} (hs : s.Sound) {l : Link} {f : List Byte} : (s.deliver l f).Sound :=
  hs.ite (hs.fromGuest.ite (hs.ite hs.passOn))

theorem State.Sound.flit {s : State} (hs : s.Sound) {l : Link} {f : List Byte} : (s.flit l f).Sound :=
  hs.flitFailed.ite (hs.lnkAdd.flitFailed.ite (hs.setLink.pump.ite (hs.setLink.pump.lctl.ite (hs.setLink.pump.flitSkipped.ite
      (.ite (hs.setLink.pump.flitSkipped.ite hs.setLink.pump) (.ite (.deliver (.flitAccepted
      (hs.setLink.pump.ite hs.setLink.pump.setLink))) (.flitSkipped (hs.setLink.pump.ite hs.setLink.pump.setLink))))))))

theorem State.Sound.onLink {l : Link} {s : State} (hs : s.Sound) {c : Bool} {t : State} (ht : t.Sound) :
    Out.Sound (onLink l s c t) :=
  hs.onLive ht

theorem State.Sound.execFlitReceive {link : Link} {flit : List Byte} {e : Nat} {s : State} (hs : s.Sound) :
    Out.Sound (execFlitReceive link flit e s) :=
  hs.onLink hs.elapse.flit

theorem State.Sound.execLctlNak {link : Link} {lseq : Nat} {s : State} (hs : s.Sound) : Out.Sound (execLctlNak link lseq s) :=
  hs.onLink hs.lnkNak

theorem State.Sound.execLctlWidth {link : Link} {st grp : Nat} {s : State} (hs : s.Sound) :
    Out.Sound (execLctlWidth link st grp s) :=
  hs.onLink hs.lnkWidth

theorem State.Sound.execLctlLanetest {link : Link} {s : State} (hs : s.Sound) : Out.Sound (execLctlLanetest link s) :=
  hs.onLink hs.lnkTest

theorem State.Sound.execLctlTestres {link : Link} {mask : Word64} {s : State} (hs : s.Sound) :
    Out.Sound (execLctlTestres link mask s) :=
  hs.onLink hs.lnkTestres

theorem State.Sound.execLctlCredit {link : Link} {credits : List Nat} {s : State} (hs : s.Sound) :
    Out.Sound (execLctlCredit link credits s) :=
  hs.onLink hs.lnkCredit

theorem State.Sound.execLaneWindowExpire {e : Nat} {s : State} (hs : s.Sound) : Out.Sound (execLaneWindowExpire e s) :=
  hs.onLive hs.elapse.withFields

theorem State.Sound.execLaneTestDone {link : Link} {mask : Word64} {fails : Bool} {s : State} (hs : s.Sound) :
    Out.Sound (execLaneTestDone link mask fails s) :=
  hs.onLink (hs.retireMask.setLink.linkFail.ite hs.retireMask.setLink)

theorem State.Sound.execWidthStepDone {link : Link} {s : State} (hs : s.Sound) : Out.Sound (execWidthStepDone link s) :=
  hs.onLink hs.stepDone

theorem State.Sound.bondDone {s : State} (hs : s.Sound) {n k : Nat} {res : BondRes} : (s.bondDone n k res).Sound := by
  unfold State.bondDone
  dsimp only
  split
  · exact hs.withFields.fadd
  · exact .pulse (.event (.withFields (hs.withFields.fadd.fset.ite hs.withFields.fadd.fset)))
  · exact hs.withFields.fadd.lanternOut

theorem State.Sound.execReservoirBondTestDone {lantern bank : Nat} {res : BondRes} {s : State} (hs : s.Sound) :
    Out.Sound (execReservoirBondTestDone lantern bank res s) :=
  hs.onLive hs.bondDone.flow

theorem State.Sound.execGuestRequest {req : GuestReq} {s : State} (hs : s.Sound) : Out.Sound (execGuestRequest req s) :=
  hs.onAwake hs.guestSends

theorem State.Sound.execGuestRequestTimeout {id e : Nat} {s : State} (hs : s.Sound) :
    Out.Sound (execGuestRequestTimeout id e s) := by
  unfold Machine.execGuestRequestTimeout
  refine .onAwake hs ?_
  split
  · exact hs.elapse.dropReq.fadd.emit.flow.ite hs
  · exact hs

/-! ## The Trimmer -/

theorem State.Sound.setGrant {s : State} (hs : s.Sound) {n g : Nat} : (s.setGrant n g).Sound := hs.fsetI

theorem State.Sound.lowerGrant {s : State} (hs : s.Sound) {n : Nat} : (s.lowerGrant n).Sound := hs.fset.pulse.ite hs.setGrant.fadd

theorem State.Sound.grantRules {s : State} (hs : s.Sound) : s.grantRules.Sound := by
  unfold State.grantRules
  dsimp only
  refine .ite ?_ ?_
  · refine .ite hs.fset.fset ?_
    split
    · exact hs.fset.fset.fset.pulse.lowerGrant
    · exact hs.fset.fset
  · refine .ite ?_ ?_
    · split
      · exact hs.fset.fset.fset.pulse.lowerGrant
      · exact hs.fset.fset
    · split
      · exact hs.fset.fset.setGrant.fadd
      · split
        · exact hs.fset.fset.setGrant
        · exact hs.fset.fset

theorem State.Sound.roundFree {s : State} (hs : s.Sound) {num : Int} {den top : Nat} : (s.roundFree num den top).1.Sound :=
  hs.fst_ite (hs.fst_ite hs.draw)

theorem State.Sound.tpredRegs {s : State} (hs : s.Sound) : s.tpredRegs.Sound := by
  unfold State.tpredRegs
  dsimp only
  split
  · exact .fset (hs.foldl (fun _ _ ht => ht.roundFree.fsetI))
  · exact hs.foldl (fun _ _ ht => ht.roundFree.fsetI)

theorem State.Sound.dutyStep {s : State} (hs : s.Sound) : s.dutyStep.Sound := by
  unfold State.dutyStep
  dsimp only
  split
  · exact hs
  · exact hs.roundFree.fset.withFields.ite (hs.roundFree.fset.withFields.ite hs.roundFree)

theorem State.Sound.trimmerTick {s : State} (hs : s.Sound) : s.trimmerTick.Sound :=
  .withFields (.dutyStep (.ite (hs.ite hs.withFields) (.tpredRegs (.grantRules (hs.ite hs.withFields)))))

theorem State.Sound.execTrimmerPeriod {e : Nat} {s : State} (hs : s.Sound) : Out.Sound (execTrimmerPeriod e s) :=
  hs.onAwake hs.elapse.trimmerTick

theorem State.Sound.followVolts {s : State} (hs : s.Sound) : s.followVolts.Sound := hs.foldl (fun _ _ ht => ht.setVolt)

theorem State.Sound.railsOff {s : State} (hs : s.Sound) : s.railsOff.Sound := hs.foldl (fun _ _ ht => ht.setVolt)

theorem State.Sound.trip {s : State} (hs : s.Sound) : s.trip.Sound :=
  hs.ite (hs.railsOff.withFields.fset.pulse.foldl (fun _ _ ht => ht.lanternOut))

theorem State.Sound.hardStep {s : State} (hs : s.Sound) {n : Nat} : (s.hardStep n).Sound :=
  .ite (.fset (.captureLine (hs.fset.ite hs.setGrant.fadd))) hs

theorem State.Sound.sampleRegs {s : State} (hs : s.Sound) {t : TrimIn} : (s.sampleRegs t).Sound :=
  .foldl (.fset (.roundFree (.withFields (hs.foldl (fun _ _ ht => ht.fsetI))))) (fun _ _ ht1 => ht1.phyTemp)

theorem State.Sound.trmSample {s : State} (hs : s.Sound) {t : TrimIn} : (s.trmSample t).Sound := by
  unfold State.trmSample
  dsimp only
  refine .ite hs.sampleRegs ?_
  refine .ite hs.sampleRegs.trip ?_
  refine .dutyStep ?_
  refine .tpredRegs ?_
  refine .ite ?_ (hs.sampleRegs.followVolts.fset.foldl (fun _ _ ht => ht.hardStep))
  split
  · exact .lowerGrant (.pulse (hs.sampleRegs.followVolts.fset.foldl (fun _ _ ht => ht.hardStep)))
  · exact hs.sampleRegs.followVolts.fset.foldl (fun _ _ ht => ht.hardStep)

theorem State.Sound.execTrimmerSample {e : Nat} {t : TrimIn} {s : State} (hs : s.Sound) : Out.Sound (execTrimmerSample e t s) :=
  hs.onAwake hs.elapse.trmSample

theorem State.Sound.execCoolAlert {s : State} (hs : s.Sound) : Out.Sound (execCoolAlert s) := hs.onAwake hs.fset.pulse

theorem State.Sound.execCoolAlertDeassert {s : State} (hs : s.Sound) : Out.Sound (execCoolAlertDeassert s) := hs.onAwake hs.fset

theorem State.Sound.lifeBit {s : State} (hs : s.Sound) {f : Fld} {passed : Bool} : (s.lifeBit f passed).Sound :=
  hs.fset.pulse.ite hs

theorem State.Sound.lifeRegs {s : State} (hs : s.Sound) : s.lifeRegs.Sound :=
  .lifeBit (.lifeBit (hs.setReg.foldl (fun _ _ ht => ht.fsetI)))

theorem State.Sound.countBin {s : State} (hs : s.Sound) {n b : Nat} : (s.countBin n b).Sound := hs.withFields

theorem State.Sound.cycLantern {s : State} (hs : s.Sound) {n : Nat} : (s.cycLantern n).Sound := by
  unfold State.cycLantern
  dsimp only
  split
  · exact hs.withFields.countBin
  · exact hs.withFields

theorem State.Sound.execCycleSample {e : Nat} {s : State} (hs : s.Sound) : Out.Sound (execCycleSample e s) :=
  hs.onAwake (.lifeRegs (hs.elapse.withFields.foldl (fun _ _ ht => ht.cycLantern)))

theorem State.Sound.saveLife {s : State} (hs : s.Sound) : s.saveLife.Sound := hs.withFields

theorem State.Sound.execLifetimeLogSave {e : Nat} {s : State} (hs : s.Sound) : Out.Sound (execLifetimeLogSave e s) :=
  hs.onAwake hs.elapse.saveLife

/-! ## The tick -/

theorem State.Sound.takeScheds {s : State} (hs : s.Sound) : s.takeScheds.Sound := by
  unfold State.takeScheds
  dsimp only
  refine .foldl hs ?_
  intro _ _ ht
  split
  · exact ht.captureLine
  · exact ht.withFields

theorem State.Sound.takePeriod {s : State} (hs : s.Sound) : s.takePeriod.Sound := hs.withFields.ite hs.fset.fset.capture

theorem State.Sound.takeDeadlines {s : State} (hs : s.Sound) : s.takeDeadlines.Sound := hs.withFields.ite hs.fset.fset.capture

theorem State.Sound.takeMaint {s : State} (hs : s.Sound) : s.takeMaint.Sound := hs.withFields.ite hs.fset.fset.capture

theorem State.Sound.takeFrameRegs {s : State} (hs : s.Sound) : s.takeFrameRegs.Sound :=
  hs.takePeriod.withFields.takeDeadlines.takeMaint.takeScheds

theorem State.Sound.putFrameRegs {s : State} (hs : s.Sound) {f : FrameCfg} : (s.putFrameRegs f).Sound :=
  hs.fset.fset.fset.fset.fset.fset.fset.fset.fset.setReg.foldl (fun _ _ ht => ht.foldl (fun _ _ ht1 => ht1.setReg.setReg))

theorem State.Sound.takeUpdate {s : State} (hs : s.Sound) : s.takeUpdate.Sound := by
  unfold State.takeUpdate
  dsimp only
  split
  · exact hs.putFrameRegs.withFields
  · exact hs

theorem State.Sound.takeGuars {s : State} (hs : s.Sound) : s.takeGuars.Sound :=
  .admittedReg (.withFields (.ite (hs.creditNow.foldl (fun _ _ ht => ht.setReg.setShed.ite ht.setReg)) hs.creditNow.capture))

theorem State.Sound.guarTick {s : State} (hs : s.Sound) : s.guarTick.Sound := hs.withFields

theorem State.Sound.haltJob {s : State} (hs : s.Sound) {j : Job} : (s.haltJob j).Sound := hs.stopUnits.withFields

theorem State.Sound.epochCancel {s : State} (hs : s.Sound) {j : Job} : (s.epochCancel j).Sound :=
  hs.haltJob.setJob.dropTags.ite hs.haltJob.setJob.discard

theorem State.Sound.runAheadFail {s : State} (hs : s.Sound) {last : Bool} {j : Job} : (s.runAheadFail last j).Sound :=
  hs.withFields.epochCancel.ite (.setJob (hs.withFields.haltJob.ite hs.withFields.haltJob.restart))

theorem State.Sound.commitAll {s : State} (hs : s.Sound) {n : Word32} : (s.commitAll n).Sound := hs.withFields

theorem State.Sound.jobsTick {s : State} (hs : s.Sound) {n : Word32} {last : Bool} : (s.jobsTick n last).Sound :=
  .foldl (.commitAll (hs.foldl (fun _ _ ht => ht.epochCancel.ite ht))) (fun _ _ ht1 => ht1.runAheadFail.ite ht1.setJob)

theorem State.Sound.tickRecord {s : State} (hs : s.Sound) {subst stepped : Bool} : (s.tickRecord subst stepped).Sound :=
  hs.storeAt

theorem State.Sound.ccuTick {s : State} (hs : s.Sound) : s.ccuTick.Sound := hs.withFields.setReg

theorem State.Sound.nextTick {s : State} (hs : s.Sound) {oldPeriod oldPhase : Nat} : (s.nextTick oldPeriod oldPhase).Sound :=
  hs.withFields.fset.ite hs.withFields

theorem State.Sound.tick {s : State} (hs : s.Sound) {subst : Bool} : (s.tick subst).Sound :=
  .flow (.retagSweep (.ethDrain (.camSettleAll (.guarTick (.trimmerTick (.coverageTick (.ccuTick (.noteTick (.tickRecord (.ite
      (.emit
      (hs.snuffersTick.stepApply.withFields.jobsTick.setReg.takeUpdate.takeFrameRegs.takeGuars.nextTick.withFields.fset.ite
      hs.snuffersTick.stepApply.withFields.jobsTick.setReg.takeUpdate.takeFrameRegs.takeGuars.nextTick.withFields))
      (hs.snuffersTick.stepApply.withFields.jobsTick.setReg.takeUpdate.takeFrameRegs.takeGuars.nextTick.withFields.fset.ite
      hs.snuffersTick.stepApply.withFields.jobsTick.setReg.takeUpdate.takeFrameRegs.takeGuars.nextTick.withFields)))))))))))

theorem State.Sound.execTbuTick {e : Nat} {s : State} (hs : s.Sound) : Out.Sound (execTbuTick e s) := hs.onAwake hs.elapse.tick

theorem State.Sound.tickEarly {s : State} (hs : s.Sound) : s.tickEarly.Sound := hs.fadd.event.pulse

theorem State.Sound.execFtickInEdge {e : Nat} {rising : Bool} {s : State} (hs : s.Sound) :
    Out.Sound (execFtickInEdge e rising s) :=
  hs.onAwake (hs.elapse.tick.ite (hs.elapse.tickEarly.ite (hs.elapse.tick.ite hs.elapse)))

theorem State.Sound.execSubstituteTick {e : Nat} {s : State} (hs : s.Sound) : Out.Sound (execSubstituteTick e s) :=
  hs.onAwake hs.elapse.fadd.event.pulse.tick

theorem State.Sound.enableTicks {s : State} (hs : s.Sound) : (s.enableTicks).Sound := by
  have h := hs.takeUpdate.takeFrameRegs
  unfold State.enableTicks
  dsimp only
  exact .ite (.fset h.withFields) (.fset (.fset h.withFields))

theorem State.Sound.writeEnable {s : State} (hs : s.Sound) {b : Bool} : (s.writeEnable b).Sound :=
  .ite (hs.withFields.ite (hs.enableTicks.ite hs.capture)) (hs.withFields.ite hs)

/-! ## Freeze and JTAG -/

theorem State.Sound.freezeWire {s : State} (hs : s.Sound) {i : Sn} : (s.freezeWire i).Sound := hs.lineAct.commandStop.ite hs

theorem State.Sound.freezeStart {s : State} (hs : s.Sound) : s.freezeStart.Sound :=
  hs.ite (hs.withFields.ite hs.withFields.freezeWire.freezeWire)

theorem State.Sound.freezeDone {s : State} (hs : s.Sound) {lat : Nat} : (s.freezeDone lat).Sound :=
  hs.withFields.fset.fset.fset.fadd.withFields.fset.snRestart.snRestart.ite hs.withFields.fset.fset.fset.fadd

theorem State.Sound.chipReset {s : State} (hs : s.Sound) : (s.chipReset).Sound := by
  unfold State.chipReset
  dsimp only
  generalize ht : State.variantRegs _ = t
  have h : t.Sound := ht ▸ .variantRegs (hs.withMem rfl)
  exact h.fset.ite h

theorem State.Sound.resume {s : State} (hs : s.Sound) : s.resume.Sound := hs.fset.fset.withFields

theorem State.Sound.freezeEnd {s : State} (hs : s.Sound) : s.freezeEnd.Sound := hs.ite (hs.chipReset.ite hs.resume)

theorem State.Sound.dbgCtrl {s : State} (hs : s.Sound) {w : Writer} {v : Word32} : (s.dbgCtrl w v).Sound :=
  .ite (.fset (.ite (hs.fset.freezeStart.ite hs.capture) (hs.fset.freezeEnd.ite hs))) (.ite (hs.fset.freezeStart.ite hs.capture)
      (hs.fset.freezeEnd.ite hs))

theorem State.Sound.execFreezeRequest {s : State} (hs : s.Sound) : Out.Sound (execFreezeRequest s) :=
  .next (hs.fset.freezeStart.ite hs)

theorem State.Sound.execFreezeComplete {lat : Nat} {s : State} (hs : s.Sound) : Out.Sound (execFreezeComplete lat s) :=
  .next (hs.freezeDone.ite hs)

theorem State.Sound.execFreezeRelease {s : State} (hs : s.Sound) : Out.Sound (execFreezeRelease s) :=
  .next (hs.fset.freezeEnd.ite hs)

theorem State.Sound.setIr {s : State} (hs : s.Sound) {c : Nat} : (s.setIr c).Sound := hs.withFields

theorem State.Sound.noScope {s : State} (hs : s.Sound) : s.noScope.Sound := hs.setIr.capture

theorem State.Sound.execExtest {s : State} (hs : s.Sound) : Out.Sound (execExtest s) :=
  .next (hs.setIr.withFields.freezeStart.ite hs)

theorem State.Sound.execClamp {s : State} (hs : s.Sound) : Out.Sound (execClamp s) :=
  .next (hs.setIr.withFields.freezeStart.ite hs)

theorem State.Sound.execIdcode {s : State} (hs : s.Sound) : Out.Sound (execIdcode s) := .next (hs.setIr.answer.ite hs)

theorem State.Sound.execSamplePreload {pins : Option (List Bool)} {s : State} (hs : s.Sound) :
    Out.Sound (execSamplePreload pins s) := by
  unfold Machine.execSamplePreload
  dsimp only
  refine .next ?_
  refine .ite ?_ hs
  split
  · exact hs.setIr.withFields
  · exact hs.setIr

theorem State.Sound.execDbgMem {addr : Nat} {s : State} (hs : s.Sound) : Out.Sound (execDbgMem addr s) :=
  .next (hs.ite (hs.noScope.ite hs.emit.withFields))

theorem State.Sound.execBypass {code : Nat} {s : State} (hs : s.Sound) : Out.Sound (execBypass code s) :=
  .next (hs.ite (hs.noScope.ite (hs.noScope.ite (hs.ite hs.setIr))))

/-! ## PCIe -/

theorem State.Sound.apCapture {s : State} (hs : s.Sound) {port fn : Nat} : (s.apCapture port fn).Sound := hs.withFields

theorem State.Sound.apZero {s : State} (hs : s.Sound) {data : Option (List Byte)} {len : Nat} : (s.apZero data len).Sound := by
  unfold State.apZero
  split
  · exact hs.emit
  · exact hs

theorem State.Sound.apAccess {s : State} (hs : s.Sound) {port fn ap off : Nat} {data : Option (List Byte)} {len : Nat}
    {chk : ReadCheck} : (s.apAccess port fn ap off data len chk).Sound := by
  unfold State.apAccess
  dsimp only
  split
  · exact hs.captureLine.apZero
  · exact hs.capture.apZero
  · refine .ite hs ?_
    split
    · exact hs.traffic.storeAt
    · split
      · exact hs.traffic.guestIn.readMarks.emit
      · exact hs.traffic.guestIn.readMarks.captureLine.apZero

theorem State.Sound.recoveryAccess {s : State} (hs : s.Sound) {off : Nat} {data : Option (List Byte)} {len : Nat} :
    (s.recoveryAccess off data len).Sound := by
  unfold State.recoveryAccess
  dsimp only
  split
  · exact hs.ite hs.withFields
  · exact hs.emit.ite hs.emit

theorem State.Sound.execApertureAccess {w : Writer} {ap off : Nat} {data : Option (List Byte)} {len : Nat} {chk : ReadCheck}
    {s : State} (hs : s.Sound) : Out.Sound (execApertureAccess w ap off data len chk s) := by
  unfold Machine.execApertureAccess
  split
  · exact .next (hs.recoveryAccess.ite hs)
  · exact hs.onAwake hs.apAccess.touch
  · exact hs.next

theorem State.Sound.execApertureReadTimeout {w : Writer} {ap len e : Nat} {s : State} (hs : s.Sound) :
    Out.Sound (execApertureReadTimeout w ap len e s) := by
  unfold Machine.execApertureReadTimeout
  dsimp only
  split
  · exact hs.onAwake hs.elapse.fadd.captureLine.apZero
  · exact hs.next

theorem State.Sound.execFunctionLevelReset {port fn : Nat} {s : State} (hs : s.Sound) :
    Out.Sound (execFunctionLevelReset port fn s) :=
  hs.onLive hs.withFields

theorem State.Sound.setPort {s : State} (hs : s.Sound) {port : Nat} {up : Bool} : (s.setPort port up).Sound :=
  hs.withFields.ite hs.withFields

theorem State.Sound.execPcieLinkDown {port : Nat} {s : State} (hs : s.Sound) : Out.Sound (execPcieLinkDown port s) :=
  hs.onLive hs.setPort.pulse

theorem State.Sound.execPcieLinkUp {port : Nat} {s : State} (hs : s.Sound) : Out.Sound (execPcieLinkUp port s) :=
  hs.onLive hs.setPort

/-! ## Register accesses -/

theorem State.Sound.intForce {s : State} (hs : s.Sound) {w : Writer} {page : Nat} {v : Word32} : (s.intForce w page v).Sound := by
  unfold State.intForce
  split
  · exact hs.capture
  · exact hs.forceLines

theorem State.Sound.putFields {s : State} (hs : s.Sound) {page idx : Nat} {b : Block} {off : Nat} {v skip : Word32} :
    (s.putFields page idx b off v skip).Sound :=
  hs.setReg.capture.ite hs.setReg

theorem State.Sound.lockWrite {s : State} (hs : s.Sound) {page : Nat} {b : Block} {v : Word32} : (s.lockWrite page b v).Sound :=
  hs.putFields.fset.ite hs.putFields

theorem State.Sound.gentryWrite {s : State} (hs : s.Sound) {v : Word32} : (s.gentryWrite v).Sound :=
  hs.putFields.ite (hs.capture.ite hs.withFields)

theorem State.Sound.slotsWrite {s : State} (hs : s.Sound) {v : Word32} : (s.slotsWrite v).Sound :=
  hs.putFields.ite (hs.putFields.ite hs.capture)

theorem State.Sound.queueCmd {s : State} (hs : s.Sound) {w : Writer} {p : Nat} {v : Word32} : (s.queueCmd w p v).Sound := by
  unfold State.queueCmd
  dsimp only
  split
  · exact .cmdEnable (hs.waitingBells.ite hs)
  · exact .cmdDisable (hs.waitingBells.ite hs)
  · exact .cmdResume (hs.waitingBells.ite hs)
  · exact .cmdSkip (hs.waitingBells.ite hs)
  · exact hs

theorem State.Sound.mbStart {s : State} (hs : s.Sound) {cmd : Nat} {o : Option SignedObj} {fail : Option Nat} :
    (s.mbStart cmd o fail).Sound :=
  hs.ite hs.fset.fset.withFields

theorem State.Sound.blockWrite {s : State} (hs : s.Sound) {w : Writer} {page : Nat} {b : Block} {off : Nat} {v : Word32} :
    (s.blockWrite w page b off v).Sound := by
  unfold State.blockWrite
  dsimp only
  split
  · exact hs.putFields.writeEnable.ite hs.putFields
  · exact hs.queueCmd.ite hs.putFields
  · exact hs.gentryWrite.ite (hs.slotsWrite.ite (hs.putFields.budgetRegs.ite hs.putFields))
  · exact hs.dbgCtrl.ite (hs.capture.ite hs.putFields)
  · exact hs.incrFrac.ite (hs.incrInt.ite (.ite (hs.servoWrite hs.putFields) (hs.adjCommit.ite hs.putFields)))
  · exact .ite (hs.mbStart.ite hs) hs.putFields
  · exact hs.putFields.apCapture.ite hs.putFields
  · exact hs.capture.ite hs.putFields
  · exact hs.putFields

theorem State.Sound.writeOne {s : State} (hs : s.Sound) {w : Writer} {page : Nat} {b : Block} {off : Nat} {v : Word32} :
    (s.writeOne w page b off v).Sound :=
  hs.capture.ite (hs.capture.ite (hs.intClear.ite (hs.putFields.pendRise.ite (hs.intForce.ite (hs.lockWrite.ite
      (hs.putFields.ite hs.blockWrite))))))

theorem State.Sound.writeReg {s : State} (hs : s.Sound) {w : Writer} {page off size : Nat} {v : Word64} :
    (s.writeReg w page off size v).Sound :=
  hs.ite (hs.capture.ite (hs.writeOne.writeOne.ite hs.writeOne))

theorem State.Sound.readLatch {s : State} (hs : s.Sound) {page : Nat} {b : Block} {off : Nat} : (s.readLatch page b off).Sound :=
  .ite (.setReg (hs.setReg.draw.ite hs)) (.ite (.withFields (hs.setReg.draw.ite hs)) (hs.setReg.draw.ite hs))

theorem State.Sound.readReg {s : State} (hs : s.Sound) {w : Writer} {page off size : Nat} : (s.readReg w page off size).Sound :=
  hs.answer.ite (hs.capture.answer.ite (hs.draw.answer.ite (.ite (.answer (.readLatch (.readLatch (hs.stallNow.ite hs))))
      (.answer (.readLatch (hs.stallNow.ite hs))))))

theorem State.Sound.msixPut {s : State} (hs : s.Sound) {port fn b : Nat} {v : Word32} : (s.msixPut port fn b v).Sound :=
  hs.ite (hs.withFields.withFields.emit.ite hs.withFields)

theorem State.Sound.msixWrite {s : State} (hs : s.Sound) {w : Writer} {page off size : Nat} {v : Word64} :
    (s.msixWrite w page off size v).Sound := by
  unfold State.msixWrite
  dsimp only
  split
  · exact .ite (hs.msixPut.msixPut.ite hs.msixPut) hs
  · exact hs

theorem State.Sound.msixRead {s : State} (hs : s.Sound) {w : Writer} {page off size : Nat} :
    (s.msixRead w page off size).Sound := by
  unfold State.msixRead
  dsimp only
  split
  · exact hs.answer.ite hs.answer
  · exact hs.answer

theorem State.Sound.regWrite {w : Writer} {page off size : Nat} {v : Word64} {s : State} (hs : s.Sound) :
    Out.Sound (regWrite w page off size v s) :=
  .next (.ite (.touch (hs.writeReg.ite hs.msixWrite)) hs)

theorem State.Sound.regRead {w : Writer} {page off size : Nat} {s : State} (hs : s.Sound) :
    Out.Sound (regRead w page off size s) :=
  .next (.ite (hs.readReg.ite hs.msixRead) hs)

theorem State.Sound.execRegisterWrite {w : Writer} {page off size : Nat} {v : Word64} {s : State} (hs : s.Sound) :
    Out.Sound (execRegisterWrite w page off size v s) :=
  hs.regWrite

theorem State.Sound.execLockWrite {w : Writer} {page : Nat} {v : Word32} {s : State} (hs : s.Sound) :
    Out.Sound (execLockWrite w page v s) :=
  hs.regWrite

theorem State.Sound.execIntStatusClear {w : Writer} {page : Nat} {v : Word32} {s : State} (hs : s.Sound) :
    Out.Sound (execIntStatusClear w page v s) :=
  hs.regWrite

theorem State.Sound.execIntForceWrite {w : Writer} {page : Nat} {v : Word32} {s : State} (hs : s.Sound) :
    Out.Sound (execIntForceWrite w page v s) :=
  hs.regWrite

theorem State.Sound.execFrameEnableWrite {w : Writer} {v : Word32} {s : State} (hs : s.Sound) :
    Out.Sound (execFrameEnableWrite w v s) :=
  hs.regWrite

theorem State.Sound.execQueueEnable {w : Writer} {p : Nat} {s : State} (hs : s.Sound) : Out.Sound (execQueueEnable w p s) :=
  hs.regWrite

theorem State.Sound.execQueueDisable {w : Writer} {p : Nat} {s : State} (hs : s.Sound) : Out.Sound (execQueueDisable w p s) :=
  hs.regWrite

theorem State.Sound.execQueueResume {w : Writer} {p : Nat} {s : State} (hs : s.Sound) : Out.Sound (execQueueResume w p s) :=
  hs.regWrite

theorem State.Sound.execQueueSkip {w : Writer} {p : Nat} {s : State} (hs : s.Sound) : Out.Sound (execQueueSkip w p s) :=
  hs.regWrite

theorem State.Sound.execGentryWrite {w : Writer} {v : Word32} {s : State} (hs : s.Sound) : Out.Sound (execGentryWrite w v s) :=
  hs.regWrite

theorem State.Sound.execSlotsWrite {w : Writer} {v : Word32} {s : State} (hs : s.Sound) : Out.Sound (execSlotsWrite w v s) :=
  hs.regWrite

theorem State.Sound.execEtqSwWrite {w : Writer} {page : Nat} {v : Word32} {s : State} (hs : s.Sound) :
    Out.Sound (execEtqSwWrite w page v s) :=
  hs.regWrite.ite hs.next

theorem State.Sound.execPchApLoWrite {w : Writer} {page : Nat} {v : Word32} {s : State} (hs : s.Sound) :
    Out.Sound (execPchApLoWrite w page v s) :=
  hs.regWrite.ite hs.next

theorem State.Sound.execIncrFracWrite {w : Writer} {v : Word32} {s : State} (hs : s.Sound) :
    Out.Sound (execIncrFracWrite w v s) :=
  hs.regWrite

theorem State.Sound.execIncrIntWrite {w : Writer} {v : Word32} {s : State} (hs : s.Sound) : Out.Sound (execIncrIntWrite w v s) :=
  hs.regWrite

theorem State.Sound.execAdjNsWrite {w : Writer} {v : Word32} {s : State} (hs : s.Sound) : Out.Sound (execAdjNsWrite w v s) :=
  hs.regWrite

theorem State.Sound.execDbgFreezeWrite {w : Writer} {v : Word32} {s : State} (hs : s.Sound) :
    Out.Sound (execDbgFreezeWrite w v s) :=
  hs.regWrite

theorem State.Sound.execDbgScanWrite {w : Writer} {v : Word32} {s : State} (hs : s.Sound) : Out.Sound (execDbgScanWrite w v s) :=
  hs.regWrite

theorem State.Sound.execCounterLoRead {w : Writer} {page off size : Nat} {s : State} (hs : s.Sound) :
    Out.Sound (execCounterLoRead w page off size s) :=
  hs.regRead

theorem State.Sound.execTbuNowRead {w : Writer} {s : State} (hs : s.Sound) : Out.Sound (execTbuNowRead w s) := hs.regRead

theorem State.Sound.execMisalignedRegisterRead {w : Writer} {page off size : Nat} {s : State} (hs : s.Sound) :
    Out.Sound (execMisalignedRegisterRead w page off size s) :=
  hs.regRead

theorem State.Sound.execHostReadTimeout {w : Writer} {page size : Nat} {s : State} (hs : s.Sound) :
    Out.Sound (execHostReadTimeout w page size s) :=
  .next (hs.answer.ite hs)

theorem State.Sound.execDbgReg {addr rw : Nat} {data : Word32} {s : State} (hs : s.Sound) :
    Out.Sound (execDbgReg addr rw data s) :=
  .next (hs.ite (hs.noScope.ite (hs.setIr.ite (hs.setIr.readReg.ite (hs.setIr.writeReg.ite hs.setIr)))))

/-! ## The configuration -/

theorem State.Sound.putRegl {s : State} (hs : s.Sound) {r : RglCfg} : (s.putRegl r).Sound :=
  .foldl (hs.setReg.setReg.setReg.fset.foldl (fun _ _ ht => ht.fsetI)) (fun _ _ ht1 => ht1.fsetI.fsetI.fsetI)

theorem State.Sound.applyPreset {s : State} (hs : s.Sound) {x : Preset} : (s.applyPreset x).Sound := hs.writeOne

theorem State.Sound.guestTrain {s : State} (hs : s.Sound) {d : Option (List Byte)} {down : Bool} {ret : List Nat} :
    (s.guestTrain d down ret).Sound := by
  unfold State.guestTrain
  dsimp only
  refine .ite hs.fset ?_
  split
  · split
    · exact hs.fset.fset.fset.ite hs.fset.fset.fset.fset.fset.fset.fset.fset.setLink.withFields
    · exact hs.fset.fset.fset
  · exact hs.fset

theorem State.Sound.putParts {s : State} (hs : s.Sound) {c : Cfg} : (s.putParts c).Sound :=
  .foldl (hs.foldl (fun _ _ ht => ht.fset.fset)) (fun _ _ ht1 => ht1.setReg)

theorem State.Sound.putEth {s : State} (hs : s.Sound) {c : EthCfg} : (s.putEth c).Sound :=
  .foldl (.fset (.fset (hs.foldl (fun _ _ ht => ht.fset)))) (fun _ _ ht1 => ht1.fset)

theorem State.Sound.putRest {s : State} (hs : s.Sound) {c : Cfg} : (s.putRest c).Sound := by
  unfold State.putRest
  dsimp only
  split
  · refine .fset ?_
    refine .fset ?_
    refine .fset ?_
    refine .foldl ?_ (fun _ _ ht2 => ht2.setReg)
    refine .fset ?_
    refine .fset ?_
    split
    · exact hs.fset.fset.fset
    · exact hs
  · refine .fset ?_
    refine .foldl ?_ (fun _ _ ht3 => ht3.setReg)
    refine .fset ?_
    refine .fset ?_
    split
    · exact hs.fset.fset.fset
    · exact hs

theorem State.Sound.startGrants {s : State} (hs : s.Sound) : s.startGrants.Sound := hs.foldl (fun _ _ ht => ht.setVolt.fsetI)

theorem State.Sound.applyCfg {s : State} (hs : s.Sound) {c : Cfg} {guest : Option (List Byte)} {guestDown : Bool}
    {guestRet : List Nat} : (s.applyCfg c guest guestDown guestRet).Sound :=
  .startGrants (.guestTrain (.admittedReg (.budgetRegs (.takeFrameRegs
      (hs.withFields.putRegl.putParts.putFrameRegs.putEth.putRest.fset.foldl (fun _ _ ht => ht.applyPreset))))))

/-! ## Boot -/

theorem State.Sound.bootFail {s : State} (hs : s.Sound) {st step : Nat} {code : Option Err} :
    (s.bootFail st step code).Sound := by
  unfold State.bootFail
  dsimp only
  split
  · exact hs.fset.fset.fset
  · exact hs.fset.fset.draw.fset

theorem State.Sound.loadFuses {s : State} (hs : s.Sound) : s.loadFuses.Sound :=
  .fset (hs.setReg.setReg.setReg.fset.fset.fset.fset.foldl (fun _ _ ht => ht.setReg))

theorem State.Sound.loadBoard {s : State} (hs : s.Sound) {b : BoardRec} : (s.loadBoard b).Sound :=
  hs.fset.fset.fset.fset.fset.fset.foldl (fun _ _ ht => ht.setReg.setReg)

theorem State.Sound.loadLog {s : State} (hs : s.Sound) : s.loadLog.Sound :=
  .setReg (.withFields (.foldl (hs.foldl (fun _ _ ht => ht.setWick.ite ht)) (fun _ _ ht1 => ht1.foldl (fun _ _ ht2 => .ite
      (ht2.fset.ite ht2.fset) ht2))))

theorem State.Sound.readLog {s : State} (hs : s.Sound) {b : BootIn} : (s.readLog b).Sound := hs.withFields.loadLog

theorem State.Sound.runImage {s : State} (hs : s.Sound) {h : ObjHead} : (s.runImage h).Sound := hs.fset.fset.withFields

theorem State.Sound.trainChannel {s : State} (hs : s.Sound) {b : BootIn} {c : Nat} : (s.trainChannel b c).Sound :=
  hs.fset.fset.fset.setCh.withFields

theorem State.Sound.trainLink {s : State} (hs : s.Sound) {b : BootIn} {k : LinkMod} : (s.trainLink b k).Sound := by
  unfold State.trainLink
  dsimp only
  refine .ite hs.lnkSet.lnkSet.lnkSet.setLink ?_
  split
  · exact hs.lnkSet.lnkSet.lnkSet.lnkSet.lnkSet.lnkSet.setLink
  · exact hs.lnkSet.lnkSet.lnkSet.setLink

theorem State.Sound.absentRing {s : State} (hs : s.Sound) : s.absentRing.Sound := hs.ite hs.fset.fset

theorem State.Sound.trainLinks {s : State} (hs : s.Sound) {b : BootIn} : (s.trainLinks b).Sound :=
  .withFields (.absentRing (hs.withFields.foldl (fun _ _ ht => ht.trainLink)))

theorem State.Sound.bootWicks {s : State} (hs : s.Sound) {b : BootIn} : (s.bootWicks b).Sound :=
  hs.foldl (fun _ _ ht => ht.quarantine)

theorem State.Sound.startSn {s : State} (hs : s.Sound) {i : Sn} : (s.startSn i).Sound :=
  hs.ite (hs.snReset.snStart (s.safe_snReset i))

theorem State.Sound.boot7 {s : State} (hs : s.Sound) : s.boot7.Sound :=
  hs.fset.startSn.startSn.ite hs.fset.startSn.startSn.bootFail

theorem State.Sound.boot6 {s : State} (hs : s.Sound) {b : BootIn} : (s.boot6 b).Sound := by
  unfold State.boot6
  dsimp only
  refine .ite hs.fset.bootFail ?_
  split
  · exact hs.fset.bootFail
  · exact hs.fset.applyCfg.fset.withFields.boot7

theorem State.Sound.boot5 {s : State} (hs : s.Sound) {b : BootIn} : (s.boot5 b).Sound :=
  hs.fset.trainLinks.bootFail.ite hs.fset.trainLinks.bootWicks.boot6

theorem State.Sound.boot4 {s : State} (hs : s.Sound) {b : BootIn} {board : BoardRec} : (s.boot4 b board).Sound :=
  hs.fset.bootFail.ite (.ite (.bootFail (hs.fset.loadBoard.foldl (fun _ _ ht => ht.trainChannel))) (.boot5
      (hs.fset.loadBoard.foldl (fun _ _ ht => ht.trainChannel))))

theorem State.Sound.boot3 {s : State} (hs : s.Sound) {b : BootIn} : (s.boot3 b).Sound := by
  unfold State.boot3
  dsimp only
  refine .ite hs.fset.fset.bootFail ?_
  split
  · exact hs.fset.fset.bootFail
  · exact hs.fset.fset.runImage.readLog.countBin.lifeRegs.boot4

theorem State.Sound.boot2 {s : State} (hs : s.Sound) {b : BootIn} : (s.boot2 b).Sound := hs.loadFuses.boot3.ite hs.bootFail

theorem State.Sound.execPowerGood {b : BootIn} {s : State} (hs : s.Sound) : Out.Sound (execPowerGood b s) :=
  .next (hs.ite (hs.chipReset.withFields.withFields.elapse.drawKeys.boot2.freezeStart.ite
      hs.chipReset.withFields.withFields.elapse.drawKeys.boot2))

theorem State.Sound.release {s : State} (hs : s.Sound) : s.release.Sound :=
  .withFields (.fset (.fset (.fset (.fset (.fset (hs.foldl (fun _ _ ht => ht.fset)))))))

theorem State.Sound.readyCheck {s : State} (hs : s.Sound) : s.readyCheck.Sound := .ite (hs.release.fset.ite (hs.fset.ite hs)) hs

/-- Start tests end in a Snuffer that is TESTING, whose SAFE is low. -/
theorem State.Sound.startTested {s : State} (hs : s.Sound) {i : Sn} {res : StartRes} {time : Nat} (h : (s.sn i).safe = false) :
    (s.startTested i res time).Sound := by
  have hl : (s.setSn i { s.sn i with lines := [] }).Sound := hs.withSn
  unfold State.startTested
  dsimp only
  split
  · exact .readyCheck (.snEnter (.setSn hl.fset.fset.fset.fset (by simp [Snuffer.safeHeld])) (.inl rfl))
  · refine .ite (.bootFail ?_) ?_ <;> exact .snEnter hl.fset.fset.fset.fset.fset.fset (.inr (by simp [h]))

theorem State.Sound.execSnufferStartTestsDone {s : State} (hs : s.Sound) {sn : Sn} {res : StartRes} {time10us : Nat} :
    Out.Sound (execSnufferStartTestsDone sn res time10us s) := by
  refine hs.onSn_of fun hd => hs.elapse.startTested ?_
  refine hs.elapse.safe_low ?_
  have ht : (s.sn sn).st = .testing := by simp [State.testsDue] at hd; exact hd.1.1
  rw [elapse_sn, ht]; rfl

/-! ## The mailbox -/

theorem State.Sound.mbWrite {w : Writer} {cmd : Nat} {o : Option SignedObj} {fail : Option Nat} {s : State} (hs : s.Sound) :
    Out.Sound (mbWrite w cmd o fail s) :=
  .next (hs.ite (hs.mbStart.touch.ite hs.capture.touch))

theorem State.Sound.mbResult {s : State} (hs : s.Sound) {r : Option (Option Err)} : (s.mbResult r).Sound := by
  unfold State.mbResult
  split
  · exact hs.fset
  · exact hs.fset
  · exact hs.draw.fset

theorem State.Sound.mbEnd {s : State} (hs : s.Sound) {r : Option (Option Err)} : (s.mbEnd r).Sound :=
  hs.mbResult.fset.withFields.event

theorem State.Sound.mbProgress {s : State} (hs : s.Sound) {bytes : Nat} : (s.mbProgress bytes).Sound := hs.fset

theorem State.Sound.inRead {s : State} (hs : s.Sound) {ref : Word64} {n : Nat} : (s.inRead ref n).1.Sound := by
  unfold State.inRead
  split
  · exact hs
  · split
    · exact hs
    · exact hs.readMarks
    · exact hs.traffic

theorem State.Sound.inObj {s : State} (hs : s.Sound) {r : MbRun} : (s.inObj r).1.Sound := by
  unfold State.inObj
  split
  · exact hs.inRead.fst_ite hs
  · exact hs

theorem State.Sound.mbReply {s : State} (hs : s.Sound) {ref : Word64} {bs : List Byte} : (s.mbReply ref bs).Sound := by
  unfold State.mbReply
  split
  · exact hs.mbEnd
  · split
    · exact hs.mbEnd
    · exact hs.traffic.storeAt.mbEnd

theorem State.Sound.addMeas {s : State} (hs : s.Sound) {m : Meas} : (s.addMeas m).Sound := hs.withFields.ite hs.withFields

theorem State.Sound.addDirs {s : State} (hs : s.Sound) {p : Nat} {plan : List (Nat × Nat × List Byte)} :
    (s.addDirs p plan).Sound :=
  hs.foldl (fun _ _ ht => ht.withFields)

theorem State.Sound.pkgCopy {s : State} (hs : s.Sound) {p : Nat} {ws : List (Nat × List Byte)} : (s.pkgCopy p ws).Sound :=
  hs.foldl (fun _ _ ht => ht.traffic.storeAt)

theorem State.Sound.unCopy {s : State} (hs : s.Sound) {ws : List (Nat × List Byte)} : (s.unCopy ws).Sound :=
  hs.foldl (fun _ _ ht => ht.storeAt)

theorem State.Sound.loadPkg {s : State} (hs : s.Sound) {o : SignedObj} : (s.loadPkg o).Sound := by
  unfold State.loadPkg
  dsimp only
  split
  · exact hs.mbEnd
  · refine .ite hs.mbEnd ?_
    split
    · exact hs.mbEnd
    · split
      · exact hs.pkgCopy.unCopy.mbEnd
      · exact hs.pkgCopy.mbProgress.unCopy.mbEnd.ite (hs.pkgCopy.mbProgress.unCopy.mbEnd.ite
          (hs.pkgCopy.mbProgress.unCopy.mbEnd.ite hs.pkgCopy.mbProgress.addDirs.addMeas.mbEnd))
  · exact hs.mbEnd

theorem State.Sound.update {s : State} (hs : s.Sound) {o : SignedObj} : (s.update o).Sound := by
  unfold State.update
  dsimp only
  split
  · exact hs.mbEnd
  · refine .ite hs.mbEnd ?_
    split
    · exact .mbEnd (hs.capture.ite hs)
    · exact hs.withFields.addMeas.mbEnd
  · exact hs.mbEnd

theorem State.Sound.program {s : State} (hs : s.Sound) {kind : Nat} {o : Option SignedObj} : (s.program kind o).Sound :=
  hs.withFields.ite hs.withFields

theorem State.Sound.reboot {s : State} (hs : s.Sound) {kind : Nat} : (s.reboot kind).Sound := by
  unfold State.reboot
  dsimp only
  split
  · exact hs
  · exact hs.withFields.withFields.fset.boot3.ite (hs.withFields.fset.fset.boot6.ite hs.withFields)

theorem State.Sound.flashWrite {s : State} (hs : s.Sound) {kind : Nat} {o : SignedObj} : (s.flashWrite kind o).Sound := by
  unfold State.flashWrite
  split
  · exact hs.mbEnd
  · exact hs.program.mbProgress.mbEnd.reboot

theorem State.Sound.torn {s : State} (hs : s.Sound) : s.torn.Sound := by
  unfold State.torn
  dsimp only
  split
  · refine .ite hs ?_
    split
    · exact hs
    · exact hs.ite (hs.draw.ite hs.draw.program)
  · exact hs

theorem State.Sound.burn {s : State} (hs : s.Sound) {die : Nat} {slot : Nat} : (s.burn die slot).Sound :=
  .ite (hs.withSn (i := .a)) (.ite (hs.withSn (i := .b)) (.fset hs.withFields))

theorem State.Sound.burnDies {s : State} (hs : s.Sound) {slot : Nat} {fail : Option Nat} {ds : List Nat} :
    (s.burnDies slot fail ds).1.Sound := by
  induction ds generalizing s with
  | nil => exact hs
  | cons d ds ih =>
    unfold State.burnDies
    split
    · exact ih hs
    · split
      · exact hs
      · exact ih hs.burn

theorem State.Sound.revoke {s : State} (hs : s.Sound) {o : SignedObj} {fail : Option Nat} : (s.revoke o fail).Sound := by
  unfold State.revoke
  dsimp only
  split
  · exact hs.mbEnd
  · refine .ite hs.mbEnd ?_
    have hb := hs.burnDies (slot := o.head.target % 4) (fail := fail) (ds := [0, 1, 2])
    split
    · next t h => exact .mbEnd (.addMeas (h ▸ hb :))
    · next t h => exact .mbEnd (h ▸ hb :)

theorem State.Sound.attest {s : State} (hs : s.Sound) {r : MbRun} : (s.attest r).Sound := by
  have hr := hs.inRead (ref := r.inRef) (n := 32)
  unfold State.attest
  split
  · next h => rw [h] at hr; exact hr.mbEnd
  · next h _ => rw [h] at hr; exact hr.mbEnd
  · next h _ => rw [h] at hr; exact hr.mbReply

theorem State.Sound.debugNonce {s : State} (hs : s.Sound) {r : MbRun} : (s.debugNonce r).Sound := hs.draw.withFields.mbReply

theorem State.Sound.unlock {s : State} (hs : s.Sound) {o : SignedObj} : (s.unlock o).Sound :=
  hs.withFields.fset.pulse.withFields.addMeas.mbEnd.ite hs.withFields.mbEnd

theorem State.Sound.execLoadPackage {w : Writer} {o : SignedObj} {s : State} (hs : s.Sound) : Out.Sound (execLoadPackage w o s) :=
  hs.mbWrite

theorem State.Sound.execApplyUpdate {w : Writer} {o : SignedObj} {s : State} (hs : s.Sound) : Out.Sound (execApplyUpdate w o s) :=
  hs.mbWrite

theorem State.Sound.execWriteConfig {w : Writer} {o : SignedObj} {s : State} (hs : s.Sound) : Out.Sound (execWriteConfig w o s) :=
  hs.mbWrite

theorem State.Sound.execWriteImage {w : Writer} {o : SignedObj} {s : State} (hs : s.Sound) : Out.Sound (execWriteImage w o s) :=
  hs.mbWrite

theorem State.Sound.execRevoke {w : Writer} {o : SignedObj} {fail : Option Nat} {s : State} (hs : s.Sound) :
    Out.Sound (execRevoke w o fail s) :=
  hs.mbWrite

theorem State.Sound.execAttest {w : Writer} {s : State} (hs : s.Sound) : Out.Sound (execAttest w s) := hs.mbWrite

theorem State.Sound.execGetCert {w : Writer} {s : State} (hs : s.Sound) : Out.Sound (execGetCert w s) := hs.mbWrite

theorem State.Sound.execDebugNonce {w : Writer} {s : State} (hs : s.Sound) : Out.Sound (execDebugNonce w s) := hs.mbWrite

theorem State.Sound.execDebugUnlock {w : Writer} {o : SignedObj} {s : State} (hs : s.Sound) : Out.Sound (execDebugUnlock w o s) :=
  hs.mbWrite

theorem State.Sound.mbAct {s : State} (hs : s.Sound) {r : MbRun} : (s.mbAct r).Sound := by
  unfold State.mbAct
  dsimp only
  split
  · exact hs.loadPkg
  · exact hs.update
  · exact hs.flashWrite
  · exact hs.flashWrite
  · exact hs.revoke
  · exact hs.attest
  · exact hs.draw.mbReply
  · exact hs.debugNonce
  · exact hs.unlock
  · exact hs.withFields.mbEnd
  · exact hs.mbEnd
  · exact hs.mbEnd

theorem State.Sound.mbDone {s : State} (hs : s.Sound) {r : MbRun} : (s.mbDone r).Sound := by
  have hr := hs.inObj (r := r)
  unfold State.mbDone
  split
  · next h => rw [h] at hr; exact .mbEnd (.ite hr.withFields hr)
  · next h => rw [h] at hr; exact hr.mbAct

theorem State.Sound.execMailboxCommandDone {s : State} (hs : s.Sound) : Out.Sound (execMailboxCommandDone s) := by
  unfold Machine.execMailboxCommandDone
  split
  · exact hs.next
  · exact hs.onLive hs.mbDone

theorem State.Sound.execKeyDerivationDone {e : Nat} {s : State} (hs : s.Sound) : Out.Sound (execKeyDerivationDone e s) :=
  hs.onLive hs.elapse.withFields

theorem State.Sound.linkLost {s : State} (hs : s.Sound) {i : Sn} : (s.linkLost i).Sound := hs.commandStop.ite hs

theorem State.Sound.powerFail {s : State} (hs : s.Sound) : s.powerFail.Sound := hs.linkLost.linkLost.torn.chipReset.ite hs

theorem State.Sound.execPowerFailReset {s : State} (hs : s.Sound) : Out.Sound (execPowerFailReset s) := hs.powerFail.next

theorem State.Sound.aonLost {s : State} (hs : s.Sound) : s.aonLost.Sound := hs.withFields

theorem State.Sound.execAonSupplyLoss {s : State} (hs : s.Sound) : Out.Sound (execAonSupplyLoss s) := hs.powerFail.aonLost.next

/-! ## Power states -/

theorem State.Sound.execGlowEntry {e : Nat} {s : State} (hs : s.Sound) : Out.Sound (execGlowEntry e s) :=
  hs.onAwake hs.elapse.withFields.fset

theorem State.Sound.emberBegin {s : State} (hs : s.Sound) : s.emberBegin.Sound := hs.fset.withFields.snReset.snReset

theorem State.Sound.execEmberEntry {e : Nat} {s : State} (hs : s.Sound) : Out.Sound (execEmberEntry e s) :=
  hs.onAwake hs.elapse.emberBegin

theorem State.Sound.emberLoss {s : State} (hs : s.Sound) : (s.emberLoss).Sound :=
  hs.withMem (Memory.wf_filter hs.mem_wf _)

theorem State.Sound.emberIn {s : State} (hs : s.Sound) : s.emberIn.Sound :=
  hs.countBin.lifeRegs.saveLife.emberLoss.railsOff.fset.withFields.fset

theorem State.Sound.execEmberEntryDone {e : Nat} {s : State} (hs : s.Sound) : Out.Sound (execEmberEntryDone e s) :=
  hs.onLive hs.elapse.emberIn

theorem State.Sound.darkIn {s : State} (hs : s.Sound) : s.darkIn.Sound := hs.saveLife.chipReset.withFields

theorem State.Sound.execDarkEntry {e : Nat} {s : State} (hs : s.Sound) : Out.Sound (execDarkEntry e s) :=
  hs.onLive hs.elapse.darkIn

theorem State.Sound.wakeRecord {s : State} (hs : s.Sound) {from_ pend : Nat} : (s.wakeRecord from_ pend).Sound :=
  hs.setReg.setReg.setReg.setReg.draw

theorem State.Sound.emberLeave {s : State} (hs : s.Sound) : s.emberLeave.Sound :=
  .snRestart (.snRestart (.withFields (.ite (hs.emberLoss.draw.ite hs.draw) hs)))

theorem State.Sound.wakeBy {s : State} (hs : s.Sound) {pend : Nat} : (s.wakeBy pend).Sound := by
  unfold State.wakeBy
  dsimp only
  split
  · exact hs
  · exact hs.ite (hs.wakeRecord.withFields.fset.ite (hs.wakeRecord.emberLeave.ite hs.wakeRecord.withFields))

theorem State.Sound.execWake {pend e : Nat} {s : State} (hs : s.Sound) : Out.Sound (execWake pend e s) :=
  .next (hs.elapse.wakeBy.ite hs)

theorem State.Sound.applyHeld {s : State} (hs : s.Sound) {port : Nat} {a : PcieReq} : (s.applyHeld port a).Sound := by
  unfold State.applyHeld
  split
  · exact hs.writeReg
  · exact hs.ringBell.ite hs
  · exact hs.apAccess
  · exact hs

theorem State.Sound.emberTrain {s : State} (hs : s.Sound) {temps : List (Nat × Nat)} {low : List Nat} :
    (s.emberTrain temps low).Sound :=
  .withFields (.foldl (hs.foldl (fun _ _ ht => ht.phyTemp.ite ht)) (fun _ _ ht1 => ht1.retrained.ite ht1))

theorem State.Sound.emberLinks {s : State} (hs : s.Sound) : s.emberLinks.Sound := hs.withFields

theorem State.Sound.emberOut {s : State} (hs : s.Sound) {temps : List (Nat × Nat)} {low : List Nat} :
    (s.emberOut temps low).Sound :=
  .flow (hs.startGrants.emberTrain.emberLinks.withFields.fset.foldl (fun _ _ ht => ht.applyHeld))

theorem State.Sound.execEmberExitDone {e : Nat} {temps : List (Nat × Nat)} {low : List Nat} {s : State} (hs : s.Sound) :
    Out.Sound (execEmberExitDone e temps low s) :=
  hs.onLive hs.elapse.emberOut

theorem State.Sound.emberReq {s : State} (hs : s.Sound) {port : Nat} {r : PcieReq} : (s.emberReq port r).Sound := by
  unfold State.emberReq
  dsimp only
  split
  · exact hs.readReg.ite hs.answer.wakeBy
  · exact hs.answer.wakeBy
  · exact hs.withFields.wakeBy.ite hs

theorem State.Sound.execEmberPcieRequest {port : Nat} {req : PcieReq} {s : State} (hs : s.Sound) :
    Out.Sound (execEmberPcieRequest port req s) :=
  hs.onLive hs.emberReq

/-! ## The idle edge -/

theorem State.Sound.idleEdge {s : State} (hs : s.Sound) : (idleEdge s).Sound := hs.elapse

/-! ## Every command and every step -/

/-- Every command keeps a sound state sound: its meaning does. -/
theorem State.Sound.exec {s : State} (hs : s.Sound) (c : Instr) : Out.Sound (exec c s) := by
  unfold Machine.exec
  split
  · exact hs.execTbuTick
  · exact hs.execFtickInEdge
  · exact hs.execSubstituteTick
  · exact hs.execFrameEnableWrite
  · exact hs.execRegisterWrite
  · exact hs.execLockWrite
  · exact hs.execIntStatusClear
  · exact hs.execIntForceWrite
  · exact hs.execCounterLoRead
  · exact hs.execQueueEnable
  · exact hs.execQueueDisable
  · exact hs.execQueueResume
  · exact hs.execQueueSkip
  · exact hs.execDoorbell
  · exact hs.execContextFetchDone
  · exact hs.execDequeue
  · exact hs.execDescriptorArrival
  · exact hs.execBufferEntryReadDone
  · exact hs.execJobStart
  · exact hs.execSelectorReadDone
  · exact hs.execJobComplete
  · exact hs.execJobRetire
  · exact hs.execHostReadTimeout
  · exact hs.execDescriptorNop
  · exact hs.execBarrier
  · exact hs.execCopy
  · exact hs.execCopyUnitDone
  · exact hs.execEngineJobStart
  · exact hs.execTileRun
  · exact hs.execUnitPlace
  · exact hs.execUnitComplete
  · exact hs.execUnitFault
  · exact hs.execUnitDurExpired
  · exact hs.execUnitReexecute
  · exact hs.execWickStopDone
  · exact hs.execScoreboardArrival
  · exact hs.execWaitRelease
  · exact hs.execStoreDrain
  · exact hs.execTileNop
  · exact hs.execTileEnd
  · exact hs.execTileLoop
  · exact hs.execTileWait
  · exact hs.execTileArrive
  · exact hs.execTileFence
  · exact hs.execSadd
  · exact hs.execSsub
  · exact hs.execSmul
  · exact hs.execSand
  · exact hs.execSor
  · exact hs.execSxor
  · exact hs.execSshl
  · exact hs.execSshr
  · exact hs.execSminu
  · exact hs.execSmaxu
  · exact hs.execSlix
  · exact hs.execVadd
  · exact hs.execVsub
  · exact hs.execVmul
  · exact hs.execVfma
  · exact hs.execVmin
  · exact hs.execVmax
  · exact hs.execVand
  · exact hs.execVor
  · exact hs.execVxor
  · exact hs.execVshl
  · exact hs.execVshr
  · exact hs.execVcmp
  · exact hs.execVsel
  · exact hs.execVcvt
  · exact hs.execVexp2
  · exact hs.execVlog2
  · exact hs.execVrcp
  · exact hs.execVrsq
  · exact hs.execVmov
  · exact hs.execVrot
  · exact hs.execPset
  · exact hs.execPlog
  · exact hs.execVld
  · exact hs.execVst
  · exact hs.execTrd
  · exact hs.execTwr
  · exact hs.execMma
  · exact hs.execDma
  · exact hs.execDmag
  · exact hs.execDmaCommandComplete
  · exact hs.execCmb
  · exact hs.execCombineFold
  · exact hs.execCombineResultWritten
  · exact hs.execSorti
  · exact hs.execSort
  · exact hs.execSorterJobDone
  · exact hs.execRegroup
  · exact hs.execRegroupRowDone
  · exact hs.execCropResize
  · exact hs.execCropBoxDone
  · exact hs.execAttendPaged
  · exact hs.execSeqDescriptorCapture
  · exact hs.execCoarseSelectionDone
  · exact hs.execApwPageArrive
  · exact hs.execApwTableRereadDone
  · exact hs.execPageScore
  · exact hs.execXcuVote
  · exact hs.execXcuVoteDone
  · exact hs.execMapPublish
  · exact hs.execPublishComplete
  · exact hs.execCcuCheck
  · exact hs.execPipeCheckStart
  · exact hs.execPipeCheckDone
  · exact hs.execCheckCapExpired
  · exact hs.execPlanningDeadline
  · exact hs.execProfile
  · exact hs.execProfileAlternateDone
  · exact hs.execFinalCheckStart
  · exact hs.execFinalAlternateNamed
  · exact hs.execSelftest
  · exact hs.execSelftestChunkDone
  · exact hs.execSnufferPoll
  · exact hs.execSnufferCutoff
  · exact hs.execGateLoad
  · exact hs.execSnufferCompareDone
  · exact hs.execCrosslinkMessage
  · exact hs.execVerdictTimeout
  · exact hs.execGateDecision
  · exact hs.execSafeToggle
  · exact hs.execHeartbeatEdge
  · exact hs.execHeartbeatTimeout
  · exact hs.execAggregatorPulse
  · exact hs.execSnufferReset
  · exact hs.execSnufferStartTestsDone
  · exact hs.execMemoryRequestIssue
  · exact hs.execMemoryResponse
  · exact hs.execWriteBufferDrain
  · exact hs.execRefreshDue
  · exact hs.execGuaranteeWindowEnd
  · exact hs.execGentryWrite
  · exact hs.execSlotsWrite
  · exact hs.execMigrationRowDone
  · exact hs.execDdrAlert
  · exact hs.execDdrAlertDeassert
  · exact hs.execMaintWindowOpen
  · exact hs.execRetrainDone
  · exact hs.execRetrainOverdue
  · exact hs.execReservoirBondTestDone
  · exact hs.execFlitReceive
  · exact hs.execLctlNak
  · exact hs.execLctlWidth
  · exact hs.execLctlLanetest
  · exact hs.execLctlTestres
  · exact hs.execLctlCredit
  · exact hs.execLaneWindowExpire
  · exact hs.execLaneTestDone
  · exact hs.execWidthStepDone
  · exact hs.execGuestRequest
  · exact hs.execGuestRequestTimeout
  · exact hs.execCsi2Packet
  · exact hs.execCsi2FrameStart
  · exact hs.execCsi2FrameEnd
  · exact hs.execPxeSlice
  · exact hs.execInputVersionClose
  · exact hs.execEthRxFrame
  · exact hs.execEtqSwWrite
  · exact hs.execEthTxStart
  · exact hs.execEthTxDone
  · exact hs.execEthTxLate
  · exact hs.execEthLinkDown
  · exact hs.execApertureAccess
  · exact hs.execApertureReadTimeout
  · exact hs.execPchApLoWrite
  · exact hs.execFunctionLevelReset
  · exact hs.execPcieLinkDown
  · exact hs.execTbuNowRead
  · exact hs.execIncrFracWrite
  · exact hs.execIncrIntWrite
  · exact hs.execAdjNsWrite
  · exact hs.execSlewDone
  · exact hs.execPtpSync
  · exact hs.execPtpAnnounce
  · exact hs.execSyncTimeout
  · exact hs.execAlarmFire
  · exact hs.execGlowEntry
  · exact hs.execEmberEntry
  · exact hs.execDarkEntry
  · exact hs.execWake
  · exact hs.execEmberExitDone
  · exact hs.execEmberPcieRequest
  · exact hs.execTrimmerSample
  · exact hs.execTrimmerPeriod
  · exact hs.execCoolAlert
  · exact hs.execCycleSample
  · exact hs.execLifetimeLogSave
  · exact hs.execPowerGood
  · exact hs.execPowerFailReset
  · exact hs.execSnufferSupplyFail
  · exact hs.execAonSupplyLoss
  · exact hs.execLoadPackage
  · exact hs.execApplyUpdate
  · exact hs.execWriteConfig
  · exact hs.execWriteImage
  · exact hs.execRevoke
  · exact hs.execAttest
  · exact hs.execGetCert
  · exact hs.execDebugNonce
  · exact hs.execDebugUnlock
  · exact hs.execMailboxCommandDone
  · exact hs.execKeyDerivationDone
  · exact hs.execFreezeRequest
  · exact hs.execDbgFreezeWrite
  · exact hs.execFreezeComplete
  · exact hs.execDbgScanWrite
  · exact hs.execFreezeRelease
  · exact hs.execExtest
  · exact hs.execIdcode
  · exact hs.execSamplePreload
  · exact hs.execClamp
  · exact hs.execDbgReg
  · exact hs.execDbgMem
  · exact hs.execBypass
  · exact hs.execEmberEntryDone
  · exact hs.execSnufferSupplyReturn
  · exact hs.execEthLinkUp
  · exact hs.execPcieLinkUp
  · exact hs.execCoolAlertDeassert
  · exact hs.execMisalignedRegisterRead

/-- Settles O3: memory is empty at reset and both SAFE outputs are low. -/
theorem resetIsSound : Obligations.ResetIsSound := State.sound_iff.1 .reset

/-- Settles O4: a step is a command on the state with the queue's rest, or a clock edge, and each keeps a sound state sound. -/
theorem stepKeepsSoundState : Obligations.StepKeepsSoundState := by
  intro s t hs hstep
  have hs : s.Sound := State.sound_iff.2 hs
  refine State.sound_iff.1 ?_
  unfold step at hstep
  split at hstep
  · cases hstep; exact hs.idleEdge
  · next c rest _ => exact State.Sound.exec (s := { s with pending := rest }) hs.withFields c t hstep

/-- Settles O1: by the definition of a step. -/
theorem stepRunsFrontCommand : Obligations.StepRunsFrontCommand := fun _ _ _ => rfl

end Sys2Proof.Machine
end

section
/-!
PROOF. Register accesses: those that reach no register, the head of a page, and the time base's writes
(17 R415 to R420; 20 R476 to R485).
-/

namespace Sys2Proof.Machine

open Sys2Proof

-- One thread at a time: the stacks of threads that wait for each other count against the check's memory limit.
set_option Elab.async false

/-! ## The write commands -/

/-- A register write that arrives, of a page that is not one of the MSI-X table's. -/
theorem regWrite_of_up {s : State} {w : Writer} {page : Nat} (off size : Nat) (v : Word64) (hu : s.regsUp w = true)
    (hp : page < pgMsix) : regWrite w page off size v s = .next (s.writeReg w page off size v).touch := by
  rw [regWrite, if_pos hu, if_pos hp]

/-- A register read that arrives, of a page that is not one of the MSI-X table's. -/
theorem regRead_of_up {s : State} {w : Writer} {page : Nat} (off size : Nat) (hu : s.regsUp w = true) (hp : page < pgMsix) :
    regRead w page off size s = .next (s.readReg w page off size) := by
  rw [regRead, if_pos hu, if_pos hp]

section
variable {s : State} {w : Writer} {page : Nat}

/-- A write to a page the writer does not reach is discarded (20 R476). -/
theorem State.writeReg_of_unreached (h : s.reaches w page = false) (off size : Nat) (v : Word64) :
    s.writeReg w page off size v = s := by
  simp [State.writeReg, h]

/-- A read of a page the reader does not reach answers all ones (20 R476). -/
theorem State.readReg_of_unreached (h : s.reaches w page = false) (off size : Nat) :
    s.readReg w page off size = s.answer size (allOnes size) := by
  simp [State.readReg, h]

/-- A write of another size or alignment captures MISALIGNED (20 R477). -/
theorem State.writeReg_of_misaligned (h : s.reaches w page = true) {off size : Nat} (ha : accessAligned off size = false)
    (v : Word64) : s.writeReg w page off size v = s.capture page .misaligned 0 := by
  simp [State.writeReg, h, ha]

/-- A read of another size or alignment captures MISALIGNED and answers all ones (20 R477). -/
theorem State.readReg_of_misaligned (h : s.reaches w page = true) {off size : Nat} (ha : accessAligned off size = false) :
    s.readReg w page off size = (s.capture page .misaligned 0).answer size (allOnes size) := by
  simp [State.readReg, h, ha]

/-- An aligned write of 4 bytes writes one register. -/
theorem State.writeReg_four (h : s.reaches w page = true) {off : Nat} (ha : accessAligned off 4 = true) (v : Word64) :
    s.writeReg w page off 4 v = s.writeOne w page (s.pageBlock page) off (v.setWidth 32) := by
  simp [State.writeReg, h, ha]

/-- A write by a writer that does not own the page is discarded with PARTITION_VIOLATION, Snuffer pages apart (20 R483). -/
theorem State.writeOne_of_foreign {b : Block} (h : s.mayWrite w page = false) (ha : b ≠ .sna) (hb : b ≠ .snb) (off : Nat)
    (v : Word32) : s.writeOne w page b off v = s.capture page .partitionViolation 0 := by
  simp [State.writeOne, h, ha, hb]

/-- A register of a page that is no Snuffer's, written by its owner: the head's registers act each in their way, the others as
their unit says. -/
theorem State.writeOne_of_owner {b : Block} (h : s.mayWrite w page = true) (ha : b ≠ .sna) (hb : b ≠ .snb) (off : Nat)
    (v : Word32) : s.writeOne w page b off v =
      if off = 0x018 then s.intClear page v
      else if off = 0x01C then (s.putFields page 0 b off v 0).pendRise page (s.pend page)
      else if off = 0x020 then s.intForce w page v
      else if off = 0x030 then s.lockWrite page b v
      else if off < 0x040 then s.putFields page 0 b off v 0
      else s.blockWrite w page b off v := by
  simp [State.writeOne, h, ha, hb]

/-- A command that writes one aligned register of a page that is no Snuffer's, by its owner. -/
theorem regWrite_of_owner (hu : s.regsUp w = true) (hr : s.reaches w page = true) (hw : s.mayWrite w page = true)
    (hp : page < pgMsix) (ha : s.pageBlock page ≠ .sna) (hb : s.pageBlock page ≠ .snb) {off : Nat}
    (ho : accessAligned off 4 = true) (v : Word32) :
    regWrite w page off 4 (v.setWidth 64) s = .next
      (if off = 0x018 then s.intClear page v
      else if off = 0x01C then (s.putFields page 0 (s.pageBlock page) off v 0).pendRise page (s.pend page)
      else if off = 0x020 then s.intForce w page v
      else if off = 0x030 then s.lockWrite page (s.pageBlock page) v
      else if off < 0x040 then s.putFields page 0 (s.pageBlock page) off v 0
      else s.blockWrite w page (s.pageBlock page) off v).touch := by
  have hv : (v.setWidth 64).setWidth 32 = v := by simp
  rw [regWrite_of_up _ _ _ hu hp, State.writeReg_four hr ho, hv, State.writeOne_of_owner hw ha hb]

end

/-- A command that writes one register beyond the head of a page that is no Snuffer's, by its owner. -/
theorem regWrite_beyondHead {s : State} {w : Writer} {page off : Nat} {b : Block} (v : Word32) (hu : s.regsUp w = true)
    (hr : s.reaches w page = true) (hw : s.mayWrite w page = true) (hp : page < pgMsix) (hb : s.pageBlock page = b)
    (ha : b ≠ .sna) (hb' : b ≠ .snb) (ho : accessAligned off 4 = true) (h40 : 0x040 ≤ off) :
    regWrite w page off 4 (v.setWidth 64) s = .next (s.blockWrite w page b off v).touch := by
  subst hb
  have h := regWrite_of_owner hu hr hw hp ha hb' ho v
  rwa [if_neg (by omega), if_neg (by omega), if_neg (by omega), if_neg (by omega), if_neg (by omega)] at h

/-! ## Accesses that reach no register -/

/-- An access of a size and place that no register has is not aligned. -/
theorem accessAligned_eq_false {off size : Nat} (h : ¬ (off + size ≤ 4096 ∧ (size = 4 ∧ off % 4 = 0 ∨ size = 8 ∧ off % 8 = 0))) :
    accessAligned off size = false := by
  simp only [accessAligned, Bool.and_eq_false_iff, Bool.or_eq_false_iff, decide_eq_false_iff_not, beq_eq_false_iff_ne]
  by_contra hc
  apply h
  grind

/-- An aligned offset within the page is an aligned access of 4 bytes. -/
theorem accessAligned_four {off : Nat} (h : off % 4 = 0) (ho : off < 4096) : accessAligned off 4 = true := by
  simp [accessAligned, h]
  omega

/-- Settles O11: the access ends before a register is read or written. -/
theorem registerAccessRefusals : Obligations.RegisterAccessRefusals := by
  intro s w page off size v hu
  refine ⟨fun hr hp => ⟨?_, ?_, ?_⟩, fun hp => ?_, fun hr hp hm => ⟨?_, ?_⟩, fun hr hp hw h4 ho ha hb => ?_⟩
  · exact (regRead_of_up off size hu hp).trans (by rw [State.readReg_of_unreached hr]; rfl)
  · exact (regRead_of_up off size hu hp).trans (by rw [State.readReg_of_unreached hr]; rfl)
  · exact (regWrite_of_up off size v hu hp).trans (by rw [State.writeReg_of_unreached hr])
  · exact congrArg Host.Outcome.next (if_pos (by simp [hu, hp]))
  · exact (regRead_of_up off size hu hp).trans (by rw [State.readReg_of_misaligned hr (accessAligned_eq_false hm)]; rfl)
  · exact (regWrite_of_up off size v hu hp).trans (by rw [State.writeReg_of_misaligned hr (accessAligned_eq_false hm)])
  · exact (regWrite_of_up off 4 v hu hp).trans
      (by rw [State.writeReg_four hr (accessAligned_four h4 ho), State.writeOne_of_foreign hw ha hb])

/-! ## The head of a page (20 R480, R482, R484, R485) -/

/-- LOCK.LOCKED after a write of LOCK: set by bit 31, and else as it was. -/
theorem State.flag_lockWrite (s : State) (page : Nat) (b : Block) (v : Word32) :
    (s.lockWrite page b v).flag page Reg.LOCK_LOCKED = (v.getLsbD 31 || s.flag page Reg.LOCK_LOCKED) := by
  rw [State.lockWrite]
  split
  · next h => rw [h, State.flag, State.fget_fset_same _ _ _ (by decide)]; rfl
  · next h =>
    rw [Bool.eq_false_iff.mpr h, Bool.false_or, State.flag_eq_getLsbD _ _ Reg.LOCK_LOCKED rfl,
      State.flag_eq_getLsbD _ _ Reg.LOCK_LOCKED rfl]
    exact s.getLsbD_reg_putFields page b v (by decide) (by decide)

/-- Whether an enabled bit is set after INT_STATUS was set to `x`. -/
theorem State.pend_setReg_status (s : State) (page : Nat) (x : Word32) :
    (s.setReg page 0 0x018 x).pend page = (x &&& s.reg page 0 0x01C != 0#32) := by
  rw [State.pend, State.reg_setReg_same, State.reg_setReg_other _ _ (regKey_ne_of_off (by decide))]

/-- A message on a vector that the function has, of a port that is up: it goes out, or is left pending where it is masked. -/
theorem State.msix_of_vector (s : State) {port part vec : Nat} (hu : s.portUp port = true) (hv : vec < msixCount (fnOf part)) :
    (s.msixMasked (msixKey port (fnOf part) vec) = false →
      (s.msix port part vec).out = .msix port (fnOf part) vec :: s.out) ∧
    (s.msixMasked (msixKey port (fnOf part) vec) = true →
      (s.msix port part vec).out = s.out ∧ msixKey port (fnOf part) vec ∈ (s.msix port part vec).msixPend) := by
  constructor <;> intro hm <;> simp [State.msix, hu, Nat.not_le.mpr hv, hm, State.emit]

/-- INT_STATUS after a write of ones: the bits written are clear, the others as they were. -/
theorem State.reg_intClear (s : State) (page : Nat) (v : Word32) :
    (s.intClear page v).reg page 0 0x018 = (s.reg page 0 0x018 &&& ~~~v) := by
  rw [State.intClear]
  split <;> simp [State.reg_setReg_same]

/-- A message is due where a set bit was cleared and an enabled one is still set. -/
theorem State.intClear_out (s : State) (page : Nat) (v : Word32) :
    (s.reg page 0 0x018 &&& v = 0#32 ∨ s.reg page 0 0x018 &&& ~~~v &&& s.reg page 0 0x01C = 0#32 →
      (s.intClear page v).out = s.out) ∧
    (s.reg page 0 0x018 &&& v ≠ 0#32 → s.reg page 0 0x018 &&& ~~~v &&& s.reg page 0 0x01C ≠ 0#32 →
      s.intClear page v = (s.setReg page 0 0x018 (s.reg page 0 0x018 &&& ~~~v)).msix
        (s.fget page Reg.INT_ROUTE_PORT) (s.fget page Reg.LOCK_OWNER) (s.fget page Reg.INT_ROUTE_VEC)) := by
  simp only [State.intClear, State.pend_setReg_status, Bool.and_eq_true, bne_iff_ne]
  constructor
  · intro h
    rw [if_neg (by tauto)]
    rfl
  · intro h1 h2
    rw [if_pos ⟨h1, h2⟩, State.fget_setReg_other _ _ (by decide), State.fget_setReg_other _ _ (by decide),
      State.fget_setReg_other _ _ (by decide)]

/-- Which lines a write of INT_FORCE pulses changes no register. -/
theorem State.reg_pulseFrom (s : State) (page line p i o : Nat) : (s.pulseFrom page line).reg p i o = s.reg p i o := by
  unfold State.pulseFrom
  split
  · exact s.reg_setSn ..
  · split
    · exact s.reg_setSn ..
    · exact s.reg_pulse ..

/-- Pulsing lines one after the other changes no register. -/
theorem State.reg_foldl_pulseFrom (page : Nat) (f : Nat → Nat) (ks : List Nat) (s : State) (p i o : Nat) :
    (ks.foldl (fun t k => t.pulseFrom page (f k)) s).reg p i o = s.reg p i o := by
  induction ks generalizing s with
  | nil => rfl
  | cons k ks ih => rw [List.foldl_cons, ih, State.reg_pulseFrom]

/-- A write of INT_FORCE pulses some lines of the page and, if any, sets INT_STATUS.ERR. -/
theorem State.forceLines_shape (s : State) (page : Nat) (v : Word32) : ∃ (f : Nat → Nat) (ks : List Nat),
    s.forceLines page v =
      let s' := ks.foldl (fun t k => t.pulseFrom page (f k)) s
      if ks.isEmpty then s' else (s'.fset page Reg.INT_STATUS_ERR 1).pendRise page (s'.pend page) :=
  ⟨_, _, rfl⟩

/-- Forcing lines leaves ERR_CODE as it is. -/
theorem State.reg_forceLines_errCode (s : State) (page : Nat) (v : Word32) :
    (s.forceLines page v).reg page 0 0x024 = s.reg page 0 0x024 := by
  obtain ⟨f, ks, h⟩ := s.forceLines_shape page v
  rw [h]
  dsimp only
  split
  · rw [State.reg_foldl_pulseFrom]
  · rw [State.reg_pendRise, State.reg_fset_other _ _ _ (regKey_ne_of_off (by decide)), State.reg_foldl_pulseFrom]

/-- INT_FORCE of a host function is refused. -/
theorem State.intForce_host (s : State) (h f page : Nat) (v : Word32) :
    s.intForce (.host h f) page v = s.capture page .partitionViolation 0 := rfl

/-- INT_FORCE of Flint or JTAG forces the lines. -/
theorem State.intForce_of_not_host (s : State) {w : Writer} (hw : ∀ h f, w ≠ .host h f) (page : Nat) (v : Word32) :
    s.intForce w page v = s.forceLines page v := by
  cases w with
  | host h f => exact absurd rfl (hw h f)
  | flint => rfl
  | jtag => rfl

/-- Settles O10: each register of the head acts by its own rule, given above. -/
theorem pageHeadWrites : Obligations.PageHeadWrites := by
  intro s w page v hu hr hw hp _ _ ha hb
  have hx := fun {off : Nat} (ho : accessAligned off 4 = true) => regWrite_of_owner hu hr hw hp ha hb ho v
  refine ⟨⟨_, hx (off := 0x030) (by decide), ?lock⟩, ⟨_, hx (off := 0x018) (by decide), ?clear⟩, ?host, ?force⟩
  case lock => exact s.flag_lockWrite page _ v
  case clear =>
    obtain ⟨hnone, hsome⟩ := s.intClear_out page v
    refine ⟨s.reg_intClear page v, ?_, ?_, hnone, ?_⟩
    · change (s.intClear page v).mem = s.mem
      rw [State.intClear]; split <;> simp
    · change (s.intClear page v).jobs = s.jobs
      rw [State.intClear]; split <;> simp
    · intro h1 h2 hport fn vec k hvec
      change (_ → (s.intClear page v).out = _) ∧ (_ → (s.intClear page v).out = _ ∧ _ ∈ (s.intClear page v).msixPend)
      rw [hsome h1 h2]
      exact (s.setReg page 0 0x018 (s.reg page 0 0x018 &&& ~~~v)).msix_of_vector hport hvec
  case host =>
    rintro ⟨h, f, rfl⟩
    exact hx (off := 0x020) (by decide)
  case force =>
    intro hn
    have h := hx (off := 0x020) (by decide)
    simp only [s.intForce_of_not_host hn] at h
    exact ⟨h, s.reg_forceLines_errCode page v⟩

/-! ## The time base's writes (17 R415, R417, R419, R420) -/

section
variable {s : State} {w : Writer}

/-- A write by a writer that does not own the servo is discarded. -/
theorem State.servoWrite_of_foreign (h : s.servoOwner w = false) (t : State) :
    s.servoWrite w t = s.capture pgTBU .partitionViolation 0 := by
  simp [State.servoWrite, h]

/-- In HOLDOVER a write is discarded. -/
theorem State.servoWrite_of_holdover (h : s.servoOwner w = true) (hs : s.tbuSt = 2) (t : State) :
    s.servoWrite w t = s.capture pgTBU .timebaseHoldover 0 := by
  simp [State.servoWrite, h, hs]

/-- Outside HOLDOVER the owner's write takes its effect. -/
theorem State.servoWrite_of_owner (h : s.servoOwner w = true) (hs : s.tbuSt ≠ 2) (t : State) : s.servoWrite w t = t := by
  simp [State.servoWrite, h, hs]

end

theorem State.blockWrite_incrFrac (s : State) (w : Writer) (v : Word32) :
    s.blockWrite w pgTBU .tbu 0x050 v = s.incrFrac w v := by simp [State.blockWrite]

theorem State.blockWrite_incrInt (s : State) (w : Writer) (v : Word32) :
    s.blockWrite w pgTBU .tbu 0x054 v = s.incrInt w v := by simp [State.blockWrite]

theorem State.blockWrite_adjNs (s : State) (w : Writer) (v : Word32) :
    s.blockWrite w pgTBU .tbu 0x05C v = s.adjCommit w v := by simp [State.blockWrite]

section
variable {s : State} {w : Writer} (v : Word32) (hu : s.regsUp w = true) (hr : s.reaches w pgTBU = true)
  (hw : s.mayWrite w pgTBU = true) (hb : s.pageBlock pgTBU = .tbu)
include hu hr hw hb

theorem exec_incrFracWrite : exec (.incrFracWrite w v) s = .next (s.incrFrac w v).touch := by
  rw [← State.blockWrite_incrFrac]
  exact regWrite_beyondHead v hu hr hw (by decide) hb (by decide) (by decide) (by decide) (by decide)

theorem exec_incrIntWrite : exec (.incrIntWrite w v) s = .next (s.incrInt w v).touch := by
  rw [← State.blockWrite_incrInt]
  exact regWrite_beyondHead v hu hr hw (by decide) hb (by decide) (by decide) (by decide) (by decide)

theorem exec_adjNsWrite : exec (.adjNsWrite w v) s = .next (s.adjCommit w v).touch := by
  rw [← State.blockWrite_adjNs]
  exact regWrite_beyondHead v hu hr hw (by decide) hb (by decide) (by decide) (by decide) (by decide)

/-- Each of the three writes is one of the servo's. -/
theorem exec_servoWrite : ∀ c ∈ [Instr.incrFracWrite w v, .incrIntWrite w v, .adjNsWrite w v],
    ∃ t, exec c s = .next (s.servoWrite w t).touch := by
  intro c hc
  simp only [List.mem_cons, List.not_mem_nil, or_false] at hc
  obtain rfl | rfl | rfl := hc
  · exact ⟨_, exec_incrFracWrite v hu hr hw hb⟩
  · exact ⟨_, exec_incrIntWrite v hu hr hw hb⟩
  · exact ⟨_, exec_adjNsWrite v hu hr hw hb⟩

end

section
variable {s : State} {w : Writer} {v : Word32} (ho : s.servoOwner w = true) (hs : s.tbuSt ≠ 2)
include ho hs

/-- An adjustment of at most 1,000 ns slews, and drops a pending step. -/
theorem State.adjCommit_small (h : s.reg pgTBU 0 0x058 = 0 ∧ v.toInt.natAbs ≤ 1000) :
    (s.adjCommit w v).tbu = { s.tbu with slew := v.toInt * 2 ^ 32, step := none } ∧ (s.adjCommit w v).mem = s.mem ∧
      (s.adjCommit w v).jobs = s.jobs := by
  rw [State.adjCommit, State.servoWrite_of_owner ho hs, if_pos h]
  split
  all_goals
    simp [nsUnit]

/-- A larger adjustment waits as a step, and drops a slew. -/
theorem State.adjCommit_large (h : ¬ (s.reg pgTBU 0 0x058 = 0 ∧ v.toInt.natAbs ≤ 1000)) :
    (s.adjCommit w v).tbu =
        { s.tbu with slew := 0, step := some (((s.reg pgTBU 0 0x058).toInt * 1000000000 + v.toInt) * 2 ^ 32) } ∧
      (s.adjCommit w v).mem = s.mem ∧ (s.adjCommit w v).jobs = s.jobs := by
  rw [State.adjCommit, State.servoWrite_of_owner ho hs, if_neg h]
  simp [nsUnit, State.adjOffset]

end

/-- Settles O14: the three writes take the servo's gate, and past it stage, commit or adjust. -/
theorem timeBaseWrites : Obligations.TimeBaseWrites := by
  intro s w v hu hr hw hb
  refine ⟨fun ho hs => ?owner, fun ho c hc => ?foreign, fun ho hs c hc => ?holdover⟩
  case foreign =>
    obtain ⟨t, ht⟩ := exec_servoWrite v hu hr hw hb c hc
    rw [ht, State.servoWrite_of_foreign ho]
  case holdover =>
    obtain ⟨t, ht⟩ := exec_servoWrite v hu hr hw hb c hc
    rw [ht, State.servoWrite_of_holdover ho hs]
  case owner =>
    rw [exec_incrFracWrite v hu hr hw hb, exec_incrIntWrite v hu hr hw hb, State.incrFrac, State.incrInt,
      State.servoWrite_of_owner ho hs, State.servoWrite_of_owner ho hs]
    refine ⟨rfl, fun hi hg => ?_, fun hi => ?_, fun hi hg => ?_, _, exec_adjNsWrite v hu hr hw hb, ?_⟩
    · rw [hi, if_neg (by decide), if_neg (by rw [show s.flag pgTBU Reg.TBU_SERVO_GM = false from hg]; decide)]
    · rw [hi, if_pos (by decide)]
    · rw [hi, if_neg (by decide), if_pos (show s.flag pgTBU Reg.TBU_SERVO_GM = true from hg)]
    · by_cases h : s.reg pgTBU 0 0x058 = 0 ∧ v.toInt.natAbs ≤ 1000
      · obtain ⟨ht, hm, hj⟩ := State.adjCommit_small ho hs h
        simp [ht, hm, hj, h]
      · obtain ⟨ht, hm, hj⟩ := State.adjCommit_large ho hs h
        simp only [State.touch_tbu, State.touch_mem, State.touch_jobs, ht, hm, hj]
        tauto

end Sys2Proof.Machine
end

section
/-!
PROOF. What passing time leaves as it was: the fields of the state other than the clocks, and the registers of most pages
(17 R414, R420; 18 R427; 21 R496).
-/

namespace Sys2Proof.Machine

open Sys2Proof

-- One thread at a time: the stacks of threads that wait for each other count against the check's memory limit.
set_option Elab.async false

@[simp] theorem elapse_poison (e : Nat) (s : State) : (elapse e s).poison = s.poison := by
  obtain ⟨_, _, _, h⟩ := elapse_shape e s; rw [h]
@[simp] theorem elapse_draws (e : Nat) (s : State) : (elapse e s).draws = s.draws := by
  obtain ⟨_, _, _, h⟩ := elapse_shape e s; rw [h]
@[simp] theorem elapse_queues (e : Nat) (s : State) : (elapse e s).queues = s.queues := by
  obtain ⟨_, _, _, h⟩ := elapse_shape e s; rw [h]
@[simp] theorem elapse_vbufs (e : Nat) (s : State) : (elapse e s).vbufs = s.vbufs := by
  obtain ⟨_, _, _, h⟩ := elapse_shape e s; rw [h]
@[simp] theorem elapse_ing (e : Nat) (s : State) : (elapse e s).ing = s.ing := by
  obtain ⟨_, _, _, h⟩ := elapse_shape e s; rw [h]
@[simp] theorem elapse_ethTx (e : Nat) (s : State) : (elapse e s).ethTx = s.ethTx := by
  obtain ⟨_, _, _, h⟩ := elapse_shape e s; rw [h]
@[simp] theorem elapse_aps (e : Nat) (s : State) : (elapse e s).aps = s.aps := by
  obtain ⟨_, _, _, h⟩ := elapse_shape e s; rw [h]
@[simp] theorem elapse_wicks (e : Nat) (s : State) : (elapse e s).wicks = s.wicks := by
  obtain ⟨_, _, _, h⟩ := elapse_shape e s; rw [h]
@[simp] theorem elapse_hUp0 (e : Nat) (s : State) : (elapse e s).hUp0 = s.hUp0 := by
  obtain ⟨_, _, _, h⟩ := elapse_shape e s; rw [h]
@[simp] theorem elapse_hUp1 (e : Nat) (s : State) : (elapse e s).hUp1 = s.hUp1 := by
  obtain ⟨_, _, _, h⟩ := elapse_shape e s; rw [h]
@[simp] theorem elapse_snA (e : Nat) (s : State) : (elapse e s).snA = s.snA := by
  obtain ⟨_, _, _, h⟩ := elapse_shape e s; rw [h]
@[simp] theorem elapse_snB (e : Nat) (s : State) : (elapse e s).snB = s.snB := by
  obtain ⟨_, _, _, h⟩ := elapse_shape e s; rw [h]
@[simp] theorem elapse_powered (e : Nat) (s : State) : (elapse e s).powered = s.powered := by
  obtain ⟨_, _, _, h⟩ := elapse_shape e s; rw [h]
@[simp] theorem elapse_lmp (e : Nat) (s : State) : (elapse e s).lmp = s.lmp := by
  obtain ⟨_, _, _, h⟩ := elapse_shape e s; rw [h]
@[simp] theorem elapse_rgl (e : Nat) (s : State) : (elapse e s).rgl = s.rgl := by
  obtain ⟨_, _, _, h⟩ := elapse_shape e s; rw [h]
@[simp] theorem elapse_dmc (e : Nat) (s : State) : (elapse e s).dmc = s.dmc := by
  obtain ⟨_, _, _, h⟩ := elapse_shape e s; rw [h]
@[simp] theorem elapse_bonds (e : Nat) (s : State) : (elapse e s).bonds = s.bonds := by
  obtain ⟨_, _, _, h⟩ := elapse_shape e s; rw [h]
@[simp] theorem elapse_released (e : Nat) (s : State) : (elapse e s).released = s.released := by
  obtain ⟨_, _, _, h⟩ := elapse_shape e s; rw [h]
@[simp] theorem elapse_shToks (e : Nat) (s : State) : (elapse e s).shToks = s.shToks := by
  obtain ⟨_, _, _, h⟩ := elapse_shape e s; rw [h]
@[simp] theorem elapse_arrivals (e : Nat) (s : State) : (elapse e s).arrivals = s.arrivals := by
  obtain ⟨_, _, _, h⟩ := elapse_shape e s; rw [h]
@[simp] theorem elapse_cmbs (e : Nat) (s : State) : (elapse e s).cmbs = s.cmbs := by
  obtain ⟨_, _, _, h⟩ := elapse_shape e s; rw [h]
@[simp] theorem elapse_sconces (e : Nat) (s : State) : (elapse e s).sconces = s.sconces := by
  obtain ⟨_, _, _, h⟩ := elapse_shape e s; rw [h]
@[simp] theorem elapse_flog (e : Nat) (s : State) : (elapse e s).flog = s.flog := by
  obtain ⟨_, _, _, h⟩ := elapse_shape e s; rw [h]
@[simp] theorem elapse_cov (e : Nat) (s : State) : (elapse e s).cov = s.cov := by
  obtain ⟨_, _, _, h⟩ := elapse_shape e s; rw [h]
@[simp] theorem elapse_links (e : Nat) (s : State) : (elapse e s).links = s.links := by
  obtain ⟨_, _, _, h⟩ := elapse_shape e s; rw [h]
@[simp] theorem elapse_lnkWin (e : Nat) (s : State) : (elapse e s).lnkWin = s.lnkWin := by
  obtain ⟨_, _, _, h⟩ := elapse_shape e s; rw [h]
@[simp] theorem elapse_guestDie (e : Nat) (s : State) : (elapse e s).guestDie = s.guestDie := by
  obtain ⟨_, _, _, h⟩ := elapse_shape e s; rw [h]
@[simp] theorem elapse_dies (e : Nat) (s : State) : (elapse e s).dies = s.dies := by
  obtain ⟨_, _, _, h⟩ := elapse_shape e s; rw [h]
@[simp] theorem elapse_updFrame (e : Nat) (s : State) : (elapse e s).updFrame = s.updFrame := by
  obtain ⟨_, _, _, h⟩ := elapse_shape e s; rw [h]
@[simp] theorem elapse_trm (e : Nat) (s : State) : (elapse e s).trm = s.trm := by
  obtain ⟨_, _, _, h⟩ := elapse_shape e s; rw [h]
@[simp] theorem elapse_fuses (e : Nat) (s : State) : (elapse e s).fuses = s.fuses := by
  obtain ⟨_, _, _, h⟩ := elapse_shape e s; rw [h]
@[simp] theorem elapse_flash (e : Nat) (s : State) : (elapse e s).flash = s.flash := by
  obtain ⟨_, _, _, h⟩ := elapse_shape e s; rw [h]
@[simp] theorem elapse_flt (e : Nat) (s : State) : (elapse e s).flt = s.flt := by
  obtain ⟨_, _, _, h⟩ := elapse_shape e s; rw [h]
@[simp] theorem elapse_keys (e : Nat) (s : State) : (elapse e s).keys = s.keys := by
  obtain ⟨_, _, _, h⟩ := elapse_shape e s; rw [h]
@[simp] theorem elapse_lineKeys (e : Nat) (s : State) : (elapse e s).lineKeys = s.lineKeys := by
  obtain ⟨_, _, _, h⟩ := elapse_shape e s; rw [h]
@[simp] theorem elapse_msixTab (e : Nat) (s : State) : (elapse e s).msixTab = s.msixTab := by
  obtain ⟨_, _, _, h⟩ := elapse_shape e s; rw [h]
@[simp] theorem elapse_msixPend (e : Nat) (s : State) : (elapse e s).msixPend = s.msixPend := by
  obtain ⟨_, _, _, h⟩ := elapse_shape e s; rw [h]

/-! ## What a saturating counter leaves as it was -/

@[simp] theorem State.fadd_now (s : State) (page : Nat) (f : Fld) (n : Nat) : (s.fadd page f n).now = s.now := rfl
@[simp] theorem State.fadd_mem (s : State) (page : Nat) (f : Fld) (n : Nat) : (s.fadd page f n).mem = s.mem := rfl
@[simp] theorem State.fadd_poison (s : State) (page : Nat) (f : Fld) (n : Nat) : (s.fadd page f n).poison = s.poison := rfl
@[simp] theorem State.fadd_out (s : State) (page : Nat) (f : Fld) (n : Nat) : (s.fadd page f n).out = s.out := rfl
@[simp] theorem State.fadd_tbu (s : State) (page : Nat) (f : Fld) (n : Nat) : (s.fadd page f n).tbu = s.tbu := rfl
@[simp] theorem State.fadd_frm (s : State) (page : Nat) (f : Fld) (n : Nat) : (s.fadd page f n).frm = s.frm := rfl
@[simp] theorem State.fadd_queues (s : State) (page : Nat) (f : Fld) (n : Nat) : (s.fadd page f n).queues = s.queues := rfl
@[simp] theorem State.fadd_jobs (s : State) (page : Nat) (f : Fld) (n : Nat) : (s.fadd page f n).jobs = s.jobs := rfl
@[simp] theorem State.fadd_ing (s : State) (page : Nat) (f : Fld) (n : Nat) : (s.fadd page f n).ing = s.ing := rfl
@[simp] theorem State.fadd_ethTx (s : State) (page : Nat) (f : Fld) (n : Nat) : (s.fadd page f n).ethTx = s.ethTx := rfl
@[simp] theorem State.fadd_aps (s : State) (page : Nat) (f : Fld) (n : Nat) : (s.fadd page f n).aps = s.aps := rfl
@[simp] theorem State.fadd_wicks (s : State) (page : Nat) (f : Fld) (n : Nat) : (s.fadd page f n).wicks = s.wicks := rfl
@[simp] theorem State.fadd_snA (s : State) (page : Nat) (f : Fld) (n : Nat) : (s.fadd page f n).snA = s.snA := rfl
@[simp] theorem State.fadd_snB (s : State) (page : Nat) (f : Fld) (n : Nat) : (s.fadd page f n).snB = s.snB := rfl
@[simp] theorem State.fadd_gate (s : State) (page : Nat) (f : Fld) (n : Nat) : (s.fadd page f n).gate = s.gate := rfl
@[simp] theorem State.fadd_cfg (s : State) (page : Nat) (f : Fld) (n : Nat) : (s.fadd page f n).cfg = s.cfg := rfl
@[simp] theorem State.fadd_rgl (s : State) (page : Nat) (f : Fld) (n : Nat) : (s.fadd page f n).rgl = s.rgl := rfl
@[simp] theorem State.fadd_dmc (s : State) (page : Nat) (f : Fld) (n : Nat) : (s.fadd page f n).dmc = s.dmc := rfl
@[simp] theorem State.fadd_links (s : State) (page : Nat) (f : Fld) (n : Nat) : (s.fadd page f n).links = s.links := rfl
@[simp] theorem State.fadd_pwr (s : State) (page : Nat) (f : Fld) (n : Nat) : (s.fadd page f n).pwr = s.pwr := rfl
@[simp] theorem State.fadd_trm (s : State) (page : Nat) (f : Fld) (n : Nat) : (s.fadd page f n).trm = s.trm := rfl
@[simp] theorem State.fadd_fuses (s : State) (page : Nat) (f : Fld) (n : Nat) : (s.fadd page f n).fuses = s.fuses := rfl
@[simp] theorem State.fadd_flash (s : State) (page : Nat) (f : Fld) (n : Nat) : (s.fadd page f n).flash = s.flash := rfl
@[simp] theorem State.fadd_dbg (s : State) (page : Nat) (f : Fld) (n : Nat) : (s.fadd page f n).dbg = s.dbg := rfl
@[simp] theorem State.fadd_flt (s : State) (page : Nat) (f : Fld) (n : Nat) : (s.fadd page f n).flt = s.flt := rfl

/-! ## What a capture with its line leaves as it was -/

@[simp] theorem State.captureLine_mem (s : State) (page : Nat) (e : Err) (a l : Nat) :
    (s.captureLine page e a l).mem = s.mem := by simp [State.captureLine]
@[simp] theorem State.captureLine_poison (s : State) (page : Nat) (e : Err) (a l : Nat) :
    (s.captureLine page e a l).poison = s.poison := by simp [State.captureLine]
@[simp] theorem State.captureLine_tbu (s : State) (page : Nat) (e : Err) (a l : Nat) :
    (s.captureLine page e a l).tbu = s.tbu := by simp [State.captureLine]
@[simp] theorem State.captureLine_frm (s : State) (page : Nat) (e : Err) (a l : Nat) :
    (s.captureLine page e a l).frm = s.frm := by simp [State.captureLine]
@[simp] theorem State.captureLine_queues (s : State) (page : Nat) (e : Err) (a l : Nat) :
    (s.captureLine page e a l).queues = s.queues := by simp [State.captureLine]
@[simp] theorem State.captureLine_jobs (s : State) (page : Nat) (e : Err) (a l : Nat) :
    (s.captureLine page e a l).jobs = s.jobs := by simp [State.captureLine]
@[simp] theorem State.captureLine_ing (s : State) (page : Nat) (e : Err) (a l : Nat) :
    (s.captureLine page e a l).ing = s.ing := by simp [State.captureLine]
@[simp] theorem State.captureLine_ethTx (s : State) (page : Nat) (e : Err) (a l : Nat) :
    (s.captureLine page e a l).ethTx = s.ethTx := by simp [State.captureLine]
@[simp] theorem State.captureLine_aps (s : State) (page : Nat) (e : Err) (a l : Nat) :
    (s.captureLine page e a l).aps = s.aps := by simp [State.captureLine]
@[simp] theorem State.captureLine_wicks (s : State) (page : Nat) (e : Err) (a l : Nat) :
    (s.captureLine page e a l).wicks = s.wicks := by simp [State.captureLine]
@[simp] theorem State.captureLine_gate (s : State) (page : Nat) (e : Err) (a l : Nat) :
    (s.captureLine page e a l).gate = s.gate := by simp [State.captureLine]
@[simp] theorem State.captureLine_cfg (s : State) (page : Nat) (e : Err) (a l : Nat) :
    (s.captureLine page e a l).cfg = s.cfg := by simp [State.captureLine]
@[simp] theorem State.captureLine_rgl (s : State) (page : Nat) (e : Err) (a l : Nat) :
    (s.captureLine page e a l).rgl = s.rgl := by simp [State.captureLine]
@[simp] theorem State.captureLine_dmc (s : State) (page : Nat) (e : Err) (a l : Nat) :
    (s.captureLine page e a l).dmc = s.dmc := by simp [State.captureLine]
@[simp] theorem State.captureLine_links (s : State) (page : Nat) (e : Err) (a l : Nat) :
    (s.captureLine page e a l).links = s.links := by simp [State.captureLine]
@[simp] theorem State.captureLine_pwr (s : State) (page : Nat) (e : Err) (a l : Nat) :
    (s.captureLine page e a l).pwr = s.pwr := by simp [State.captureLine]
@[simp] theorem State.captureLine_trm (s : State) (page : Nat) (e : Err) (a l : Nat) :
    (s.captureLine page e a l).trm = s.trm := by simp [State.captureLine]
@[simp] theorem State.captureLine_fuses (s : State) (page : Nat) (e : Err) (a l : Nat) :
    (s.captureLine page e a l).fuses = s.fuses := by simp [State.captureLine]
@[simp] theorem State.captureLine_flash (s : State) (page : Nat) (e : Err) (a l : Nat) :
    (s.captureLine page e a l).flash = s.flash := by simp [State.captureLine]
@[simp] theorem State.captureLine_dbg (s : State) (page : Nat) (e : Err) (a l : Nat) :
    (s.captureLine page e a l).dbg = s.dbg := by simp [State.captureLine]
@[simp] theorem State.captureLine_flt (s : State) (page : Nat) (e : Err) (a l : Nat) :
    (s.captureLine page e a l).flt = s.flt := by simp [State.captureLine]
@[simp] theorem State.captureLine_ccu (s : State) (page : Nat) (e : Err) (a l : Nat) :
    (s.captureLine page e a l).ccu = s.ccu := by simp [State.captureLine]

/-! ## The registers -/

/-- A page whose registers stay while time passes: not one of the counters of events and cycles, nor the time base's. -/
structure Calm (p : Nat) : Prop where
  unit : p ∉ [pgDBG, pgTBU, pgCCU, pgPRU, pgXCU]
  wick : ∀ w, p ≠ pgWck w

theorem calm_of_lt {p : Nat} (hp : p < 0x200) (h : p ∉ [pgDBG, pgTBU, pgCCU, pgPRU, pgXCU]) : Calm p := ⟨h, ne_pgWck_of_lt hp⟩

/-- The pages of a Lantern above its Wicks'. -/
theorem calm_of_lantern {n k : Nat} (hk : 0x40 ≤ k) (hk' : k < 0x80) : Calm (pgLantern n + k) := by
  refine ⟨?_, fun w => ?_⟩
  · simp only [List.mem_cons, List.not_mem_nil, or_false, pgLantern, pgDBG, pgTBU, pgCCU, pgPRU, pgXCU]
    omega
  · simp only [pgWck, pgLantern]
    omega

section
variable (e : Nat) (s : State) {p : Nat} (hp : Calm p)
include hp

theorem Calm.reg {i o : Nat} (hi : i < 256) (ho : o < 4096) : (elapse e s).reg p i o = s.reg p i o :=
  reg_elapse e s hp.unit hp.wick hi ho

theorem Calm.fgetI {i : Nat} {f : Fld} (hi : i < 256) (hf : f.off < 4096) : (elapse e s).fgetI p i f = s.fgetI p i f :=
  congrArg f.get (hp.reg e s hi hf)

theorem Calm.fget {f : Fld} (hf : f.off < 4096) : (elapse e s).fget p f = s.fget p f := hp.fgetI e s (by decide) hf

theorem Calm.flag {f : Fld} (hf : f.off < 4096) : (elapse e s).flag p f = s.flag p f := by
  rw [State.flag, State.flag, hp.fget e s hf]

end

theorem calm_pgPWR : Calm pgPWR := calm_of_lt (by decide) (by decide)
theorem calm_pgTRM : Calm pgTRM := calm_of_lt (by decide) (by decide)
theorem calm_pgFUS : Calm pgFUS := calm_of_lt (by decide) (by decide)
theorem calm_pgFLT : Calm pgFLT := calm_of_lt (by decide) (by decide)
theorem calm_pgRGL : Calm pgRGL := calm_of_lt (by decide) (by decide)
theorem calm_pgDMC : Calm pgDMC := calm_of_lt (by decide) (by decide)
theorem calm_pgLNKC : Calm pgLNKC := calm_of_lt (by decide) (by decide)
theorem calm_pgGST : Calm pgGST := calm_of_lt (by decide) (by decide)

/-! ## What is derived from them -/

theorem State.frozen_of_live {s : State} (h : s.live = true) : s.frozen = false := by
  simp only [State.live, Bool.and_eq_true, Bool.not_eq_true'] at h
  exact h.2

theorem State.live_of_awake {s : State} (h : s.awake = true) : s.live = true := by
  simp only [State.awake, Bool.and_eq_true] at h
  exact h.1.1

/-- Time passes on a device that is not frozen. -/
theorem elapse_now_of_live {s : State} (e : Nat) (h : s.live = true) : (elapse e s).now = s.now + e :=
  elapse_now e s (State.frozen_of_live h)

theorem elapse_now_of_awake {s : State} (e : Nat) (h : s.awake = true) : (elapse e s).now = s.now + e :=
  elapse_now_of_live e (State.live_of_awake h)

@[simp] theorem elapse_lanterns (e : Nat) (s : State) : (elapse e s).lanterns = s.lanterns := calm_pgFUS.fget e s (by decide)

@[simp] theorem elapse_region (e : Nat) (s : State) (a : Nat) : (elapse e s).region a = s.region a := by
  have hd : (elapse e s).ddrBytes = s.ddrBytes := congrArg (· * 2 ^ 30) (calm_pgDMC.fget e s (by decide))
  rw [State.region, State.region, hd, elapse_lanterns]

@[simp] theorem elapse_lanternUp (e : Nat) (s : State) (n : Nat) : (elapse e s).lanternUp n = s.lanternUp n := by
  rw [State.lanternUp, State.lanternUp, elapse_lanterns, calm_pgLNKC.fget e s (by decide)]

/-! ## Folds, and registers of several banks -/

/-- What every step of a fold keeps, the fold keeps. -/
theorem foldl_rel {α β : Type} {R : β → β → Prop} (hrefl : ∀ t, R t t) (htrans : ∀ {t u v}, R t u → R u v → R t v)
    {f : β → α → β} (hf : ∀ t x, R t (f t x)) (l : List α) (s : β) : R s (l.foldl f s) := by
  induction l generalizing s with
  | nil => exact hrefl s
  | cons x l ih => exact htrans (hf s x) (ih _)

/-- Registers at different offsets have different keys, whatever their pages and banks. -/
theorem regKey_ne_of_offs {p p' i i' o o' : Nat} (h : o ≠ o') (ho : o < 4096) (ho' : o' < 4096) :
    regKey p i o ≠ regKey p' i' o' := by
  unfold regKey
  omega

/-- Registers of different banks of one page have different keys. -/
theorem regKey_ne_of_bank {p i i' o : Nat} (h : i ≠ i') : regKey p i o ≠ regKey p i' o := by
  unfold regKey
  omega

theorem State.fgetI_fsetI_same (s : State) (page i : Nat) (f : Fld) (h : f.ok) (x : Nat) :
    (s.fsetI page i f x).fgetI page i f = x % 2 ^ (f.hi - f.lo + 1) := by
  simp [State.fgetI, State.fsetI, State.reg_setReg_same, f.get_put_same h]

/-- A field of a bank keeps its value where another field of the same register, in this bank or another, is written. -/
theorem State.fgetI_fsetI_other (s : State) (page i j : Nat) (f g : Fld) (x : Nat) (h : f.ok) (hg : g.lo ≤ g.hi)
    (ho : f.off = g.off) (d : g.hi < f.lo ∨ f.hi < g.lo) : (s.fsetI page i f x).fgetI page j g = s.fgetI page j g := by
  unfold State.fgetI State.fsetI
  by_cases hij : i = j
  · subst hij
    rw [← ho, State.reg_setReg_same, f.get_put_other g h _ _ d hg]
  · rw [← ho, State.reg_setReg_other _ _ (regKey_ne_of_bank hij)]

/-- A field of another bank of the same register keeps its value. -/
theorem State.fgetI_fsetI_bank (s : State) (page : Nat) {i j : Nat} (f : Fld) (x : Nat) (hij : i ≠ j) :
    (s.fsetI page i f x).fgetI page j f = s.fgetI page j f :=
  congrArg f.get (s.reg_setReg_other _ (regKey_ne_of_bank hij))

/-- A command of a device that is not frozen takes its effect where its conditions hold. -/
theorem onLive_of_due {s : State} {c : Bool} (t : State) (hl : s.live = true) (hc : c = true) : onLive s c t = .next t := by
  rw [onLive, if_pos (by simp [hl, hc])]

end Sys2Proof.Machine
end

section
/-!
PROOF. Admission after a change of capacity sheds entries until every limit holds (13 R337 to R340).
-/

namespace Sys2Proof.Machine

open Sys2Proof

-- One thread at a time: the stacks of threads that wait for each other count against the check's memory limit.
set_option Elab.async false

/-! ## What admission leaves as it was -/

/-- The registers of the Regulator's page that admission may write: the head's status and error, the peak, the budget, the
admitted sum and the shed bits. -/
def admissionKeys : List Nat :=
  [0x018, 0x024, 0x028, 0x02C, 0x040, 0x044, 0x048, 0x05C, 0x060].map (regKey pgRGL 0)

theorem not_mem_admissionKeys_of_page {p i o : Nat} (hp : p ≠ pgRGL) (hi : i < 256) (ho : o < 4096) :
    regKey p i o ∉ admissionKeys := by
  simp only [admissionKeys, List.mem_map, not_exists, not_and]
  intro x hx
  have hx4 : x < 4096 := by
    simp only [List.mem_cons, List.not_mem_nil, or_false] at hx
    omega
  exact (regKey_ne_of_page hp hi (by decide) ho hx4).symm

/-- `t` is `s` after steps of admission: it differs in nothing that admission judges by but the shed bits. -/
structure State.Admits (s t : State) : Prop where
  cfg : t.cfg = s.cfg
  wicks : t.wicks = s.wicks
  mem : t.mem = s.mem
  jobs : t.jobs = s.jobs
  queues : t.queues = s.queues
  reg : ∀ p i o, regKey p i o ∉ admissionKeys → t.reg p i o = s.reg p i o

theorem State.Admits.refl (s : State) : s.Admits s := ⟨rfl, rfl, rfl, rfl, rfl, fun _ _ _ _ => rfl⟩

theorem State.Admits.trans {s t u : State} (h : s.Admits t) (k : t.Admits u) : s.Admits u where
  cfg := k.cfg.trans h.cfg
  wicks := k.wicks.trans h.wicks
  mem := k.mem.trans h.mem
  jobs := k.jobs.trans h.jobs
  queues := k.queues.trans h.queues
  reg p i o hw := (k.reg p i o hw).trans (h.reg p i o hw)

/-- A field that admission may write. -/
theorem State.admits_fset (s : State) (f : Fld) (x : Nat) (hf : regKey pgRGL 0 f.off ∈ admissionKeys) :
    s.Admits (s.fset pgRGL f x) where
  cfg := by simp
  wicks := by simp
  mem := by simp
  jobs := by simp
  queues := by simp
  reg p i o hw := s.reg_fset_other f x fun h => hw (h ▸ hf)

theorem State.admits_capture (s : State) (e : Err) (a : Nat) : s.Admits (s.capture pgRGL e a) where
  cfg := by simp
  wicks := by simp
  mem := by simp
  jobs := by simp
  queues := by simp
  reg p i o hw := s.reg_capture_other _ _ _ fun h => hw (List.mem_of_mem_take (i := 4) h)

theorem State.admits_pulse (s : State) (l : Nat) : s.Admits (s.pulse l) where
  cfg := by simp
  wicks := by simp
  mem := by simp
  jobs := by simp
  queues := by simp
  reg p i o _ := by simp

section
variable {s t : State} (h : s.Admits t)
include h

theorem State.Admits.gentry (e : Nat) : t.gentry e = s.gentry e :=
  h.reg _ _ _ (by simp only [admissionKeys, regKey, List.map_cons, List.map_nil, List.mem_cons, List.not_mem_nil, or_false]; omega)

/-- A field of another page. -/
theorem State.Admits.fget {p : Nat} {f : Fld} (hp : p ≠ pgRGL) (hf : f.off < 4096) : t.fget p f = s.fget p f :=
  congrArg f.get (h.reg _ _ _ (not_mem_admissionKeys_of_page hp (by decide) hf))

theorem State.Admits.lanterns : t.lanterns = s.lanterns := h.fget (by decide) (by decide)

theorem State.Admits.rankSt (c r : Nat) : t.rankSt c r = s.rankSt c r := by
  have hp : pgDMCch c ≠ pgRGL := by simp only [pgDMCch, pgRGL]; omega
  exact h.fget hp (by split <;> decide)

theorem State.Admits.budget : t.budget = s.budget := by
  have hd : t.fget pgRGL Reg.RGL_DERATE_DERATE = s.fget pgRGL Reg.RGL_DERATE_DERATE :=
    congrArg (Fld.get _) (h.reg _ _ _ (by decide))
  simp [State.budget, State.peakNum, State.peakDen, State.cfgRanks, State.rankSum, State.dataRanks, h.rankSt, hd,
    h.fget (p := pgDMC) (f := Reg.DMC_GEOM_GRADE) (by decide) (by decide),
    h.fget (p := pgDMC) (f := Reg.DMC_GEOM_RANKS) (by decide) (by decide)]

theorem State.Admits.lanternUp (n : Nat) : t.lanternUp n = s.lanternUp n := by
  simp [State.lanternUp, h.lanterns, h.fget (p := pgLNKC) (f := Reg.LNK_INSVC_MASK) (by decide) (by decide)]

theorem State.Admits.lanternLimit {n : Nat} : t.lanternLimit n = s.lanternLimit n := by
  have hd : t.fget pgRGL Reg.RGL_DERATE_DERATE = s.fget pgRGL Reg.RGL_DERATE_DERATE :=
    congrArg (Fld.get _) (h.reg _ _ _ (by decide))
  have hp : pgLNK n ≠ pgRGL := by simp only [pgLNK, pgLantern, pgRGL]; omega
  have hl (m : Nat) (hm : m < 2) : t.lnkSt n m = s.lnkSt n m := by
    simp only [State.lnkSt]
    rw [h.reg _ _ _ (not_mem_admissionKeys_of_page hp (by decide) (by omega))]
  simp [State.lanternLimit, hl, hd]

theorem State.Admits.wicksOn (p n : Nat) : t.wicksOn p n = s.wicksOn p n := by
  simp [State.wicksOn, h.cfg]

theorem State.Admits.wicksAll (p : Nat) : t.wicksAll p = s.wicksAll p := by
  have hw (w : Nat) : t.wickInService w = s.wickInService w := by
    rw [State.wickInService, State.wickInService, h.lanternUp, State.wick, State.wick, h.wicks]
  simp [State.wicksAll, hw, h.cfg]

theorem State.Admits.lanternLoad (bws : List Nat) (n : Nat) : t.lanternLoad bws n = s.lanternLoad bws n := by
  simp [State.lanternLoad, h.wicksAll, h.wicksOn]

theorem State.Admits.bwsFit (bws : List Nat) : t.bwsFit bws = s.bwsFit bws := by
  simp [State.bwsFit, h.budget, h.lanternUp, h.lanternLoad, h.lanternLimit]

end

/-! ## The shed bits -/

/-- The bit of RGL_SHED of entry `e`. -/
def shedBit (e : Nat) : Fld := ⟨if e < 32 then 0x05C else 0x060, e % 32, e % 32⟩

theorem shedBit_ok (e : Nat) : (shedBit e).ok := ⟨le_rfl, Nat.mod_lt _ (by decide)⟩

theorem State.isShed_eq (s : State) (e : Nat) : s.isShed e = (s.fget pgRGL (shedBit e) == 1) := by
  unfold State.isShed State.fget State.fgetI shedBit Fld.get
  split <;> simp

theorem State.setShed_true (s : State) (e : Nat) : s.setShed e true = s.fset pgRGL (shedBit e) 1 := by
  unfold State.setShed State.fset State.fsetI shedBit Fld.put Fld.get placeBits
  simp

/-- A shed bit that was set, and the other ones. -/
theorem State.isShed_setShed (s : State) {e k : Nat} (he : e < 64) (hk : k < 64) :
    (s.setShed e true).isShed k = (decide (k = e) || s.isShed k) := by
  rw [State.isShed_eq, State.isShed_eq, State.setShed_true]
  by_cases h : k = e
  · subst h
    rw [State.fget_fset_same _ _ _ (shedBit_ok k)]
    simp [shedBit]
  · rw [State.fget_fset_other _ _ _ _ _ (shedBit_ok e) (shedBit_ok k).1 ?_]
    · simp [h]
    · simp only [shedBit]
      split <;> split <;> simp <;> omega

/-- The shed bits depend on their two registers. -/
theorem State.isShed_congr {s t : State} (h5 : t.reg pgRGL 0 0x05C = s.reg pgRGL 0 0x05C)
    (h6 : t.reg pgRGL 0 0x060 = s.reg pgRGL 0 0x060) (e : Nat) : t.isShed e = s.isShed e := by
  rw [State.isShed, State.isShed, h5, h6]

theorem State.isShed_fset (s : State) {f : Fld} (x e : Nat) (h5 : f.off ≠ 0x05C) (h6 : f.off ≠ 0x060) :
    (s.fset pgRGL f x).isShed e = s.isShed e :=
  State.isShed_congr (s.reg_fset_other _ _ (regKey_ne_of_off h5)) (s.reg_fset_other _ _ (regKey_ne_of_off h6)) e

theorem State.isShed_captureLine (s : State) (c : Err) (a l e : Nat) :
    (s.captureLine pgRGL c a l).isShed e = s.isShed e := by
  apply State.isShed_congr
  · exact (State.reg_pulse ..).trans (s.reg_capture_other _ _ _ (by decide))
  · exact (State.reg_pulse ..).trans (s.reg_capture_other _ _ _ (by decide))

theorem State.isShed_pulse (s : State) (l e : Nat) : (s.pulse l).isShed e = s.isShed e :=
  State.isShed_congr (s.reg_pulse ..) (s.reg_pulse ..) e

/-! ## A broken limit has an entry that contributes -/

theorem sumL_eq_sum (l : List Nat) : sumL l = l.sum := List.sum_eq_foldl_nat.symm

theorem sumL_eq_zero {l : List Nat} (h : ∀ x ∈ l, x = 0) : sumL l = 0 := by
  rw [sumL_eq_sum]
  exact List.sum_eq_zero h

/-- A sum over fractions of nothing is nothing, rounded up as well. -/
theorem State.lanternLoad_eq_zero (s : State) {bws : List Nat} {n : Nat}
    (h : ∀ p, p < 8 → s.wicksAll p ≠ 0 → partBw bws p * s.wicksOn p n = 0) : s.lanternLoad bws n = 0 := by
  unfold State.lanternLoad
  set ps := (List.range 8).filterMap fun p =>
    if s.wicksAll p = 0 then none else some (partBw bws p * s.wicksOn p n, s.wicksAll p) with hps
  have hz : ∀ x ∈ ps, x.1 = 0 := by
    intro x hx
    rw [hps, List.mem_filterMap] at hx
    obtain ⟨p, hp, hx⟩ := hx
    split at hx
    · cases hx
    · next hall =>
      cases hx
      exact h p (List.mem_range.mp hp) hall
  have hnum (den : Nat) : ∀ (l : List (Nat × Nat)), (∀ x ∈ l, x.1 = 0) → ∀ a, l.foldl (fun a x => a + x.1 * (den / x.2)) a = a := by
    intro l
    induction l with
    | nil => intros; rfl
    | cons x l ih =>
      intro hl a
      rw [List.foldl_cons, hl x (by simp), ih (fun y hy => hl y (by simp [hy]))]
      omega
  simp only [hnum _ ps hz]
  generalize List.foldl (fun a x => a * x.2) 1 ps = den
  cases den with
  | zero => rfl
  | succ d => exact Nat.div_eq_of_lt (by omega)

/-- The entries of a list: one that is not zero, where the list's sum is not. -/
theorem exists_getD_ne_zero_of_sumL {l : List Nat} (h : sumL l ≠ 0) : ∃ e, e < l.length ∧ l.getD e 0 ≠ 0 := by
  by_contra hn
  push Not at hn
  apply h
  apply sumL_eq_zero
  intro x hx
  obtain ⟨i, hi, rfl⟩ := List.mem_iff_getElem.mp hx
  have := hn i hi
  rwa [List.getD_eq_getElem _ _ hi] at this

/-- An entry of a partition that is not zero, where the partition's sum is not. -/
theorem exists_getD_ne_zero_of_partBw {bws : List Nat} (hl : bws.length = 64) {p : Nat} (hp : p < 8) (h : partBw bws p ≠ 0) :
    ∃ e, e < 64 ∧ e / 8 = p ∧ bws.getD e 0 ≠ 0 := by
  obtain ⟨i, hi, hne⟩ := exists_getD_ne_zero_of_sumL h
  simp only [List.length_take, List.length_drop, hl] at hi
  refine ⟨8 * p + i, by omega, by omega, ?_⟩
  rwa [List.getD_eq_getElem?_getD, List.getElem?_take_of_lt (by omega), List.getElem?_drop, ← List.getD_eq_getElem?_getD] at hne

/-- Where the limits do not all hold, some entry contributes to a broken one. -/
theorem State.exists_breaks (s : State) {bws : List Nat} (hl : bws.length = 64) (h : s.bwsFit bws = false) :
    ∃ e, e < 64 ∧ s.breaks bws e = true := by
  by_cases hb : sumL bws ≤ s.budget
  · have hlim : ∃ n, n < 8 ∧ s.lanternUp n = true ∧ s.lanternLimit n < s.lanternLoad bws n := by
      simpa [State.bwsFit, hb] using h
    obtain ⟨n, hn, hup, hlt⟩ := hlim
    have hp : ∃ p, p < 8 ∧ s.wicksAll p ≠ 0 ∧ partBw bws p * s.wicksOn p n ≠ 0 := by
      by_contra hc
      push Not at hc
      have := s.lanternLoad_eq_zero hc
      omega
    obtain ⟨p, hp, hall, hne⟩ := hp
    obtain ⟨e, he, rfl, hbw⟩ := exists_getD_ne_zero_of_partBw hl hp (Nat.ne_zero_of_mul_ne_zero_left hne)
    refine ⟨e, he, ?_⟩
    simp only [State.breaks, Bool.and_eq_true, Bool.or_eq_true, bne_iff_ne, ne_eq, decide_eq_true_eq, List.any_eq_true,
      List.mem_range]
    exact ⟨hbw, Or.inr ⟨n, hn, ⟨⟨hup, hlt⟩, Nat.ne_zero_of_mul_ne_zero_right hne⟩, hall⟩⟩
  · obtain ⟨e, he, hne⟩ := exists_getD_ne_zero_of_sumL (l := bws) (by omega)
    refine ⟨e, by omega, ?_⟩
    simp only [State.breaks, Bool.and_eq_true, Bool.or_eq_true, bne_iff_ne, decide_eq_true_eq]
    exact ⟨hne, Or.inl (by omega)⟩

/-! ## Which entry is shed next -/

/-- A fold that keeps an element or takes the next one ends with one of the list. -/
theorem foldl_keepOrTake {α : Type} {f : Option α → α → Option α} (hn : ∀ e, f none e = some e)
    (hs : ∀ b e, f (some b) e = some e ∨ f (some b) e = some b) (l : List α) :
    ∀ b, ∃ x, (x = b ∨ x ∈ l) ∧ (b :: l).foldl f none = some x := by
  intro b
  rw [List.foldl_cons, hn]
  induction l generalizing b with
  | nil => exact ⟨b, Or.inl rfl, rfl⟩
  | cons e l ih =>
    rw [List.foldl_cons]
    obtain h | h := hs b e
    · obtain ⟨x, hx, hf⟩ := ih e
      exact ⟨x, Or.inr (by simpa using hx), by rw [h, hf]⟩
    · obtain ⟨x, hx, hf⟩ := ih b
      exact ⟨x, hx.imp id (List.mem_cons_of_mem _), by rw [h, hf]⟩

/-- Where the limits do not all hold, an entry that contributes is shed next. -/
theorem State.exists_nextShed (s : State) {bws : List Nat} (hl : bws.length = 64) (h : s.bwsFit bws = false) :
    ∃ e, s.nextShed bws = some e ∧ e < 64 ∧ s.breaks bws e = true := by
  obtain ⟨e, he, hb⟩ := s.exists_breaks hl h
  have hmem : e ∈ (List.range 64).filter fun e => s.breaks bws e := by simp [he, hb]
  unfold State.nextShed
  generalize hL : ((List.range 64).filter fun e => s.breaks bws e) = L at hmem ⊢
  cases L with
  | nil => simp at hmem
  | cons b l =>
    obtain ⟨x, hx, hf⟩ := foldl_keepOrTake (f := fun best e => match best with
      | none => some e
      | some b => if s.rankKey (b / 8) < s.rankKey (e / 8) ∨ (e / 8 = b / 8 ∧ b < e) then some e else some b)
      (fun e => rfl) (fun b e => by dsimp only; split <;> simp) l b
    refine ⟨x, hf, ?_⟩
    have : x ∈ (List.range 64).filter fun e => s.breaks bws e := by rw [hL]; simpa using hx
    simpa using this

/-! ## The loop -/

/-- An entry that contributes is not shed. -/
theorem State.isShed_of_breaks {s : State} {e : Nat} (he : e < 64) (h : s.breaks s.bwsNow e = true) : s.isShed e = false := by
  simp only [State.breaks, State.bwsNow, Bool.and_eq_true, bne_iff_ne] at h
  by_contra hs
  apply h.1
  simp [he, hs]

/-- How many entries are not shed. -/
def State.unshed (s : State) : Nat := {e ∈ Finset.range 64 | s.isShed e = false}.card

/-- Shedding one more entry leaves fewer. -/
theorem unshed_lt {s t : State} {e : Nat} (he : e < 64) (h : s.isShed e = false)
    (ht : ∀ k, k < 64 → t.isShed k = (decide (k = e) || s.isShed k)) : t.unshed < s.unshed := by
  apply Finset.card_lt_card
  rw [Finset.ssubset_iff_of_subset]
  · exact ⟨e, by simp [he, h], by simp [ht e he]⟩
  · intro k hk
    simp only [Finset.mem_filter, Finset.mem_range] at hk ⊢
    obtain ⟨hk, hs⟩ := hk
    rw [ht k hk, Bool.or_eq_false_iff] at hs
    exact ⟨hk, hs.2⟩

/-- One round of the loop: the entry's bit, the capture and the lines. -/
def State.shedOne (s : State) (code : Err) (e : Nat) : State :=
  let s := (s.setShed e true).captureLine pgRGL code 0 185
  if (s.cfg.part (e / 8)).crit = some 3 then s.pulse 184 else s

theorem State.admits_setShed (s : State) (e : Nat) : s.Admits (s.setShed e true) := by
  rw [State.setShed_true]
  refine s.admits_fset _ _ ?_
  unfold shedBit
  split
  · exact (by decide : regKey pgRGL 0 0x05C ∈ admissionKeys)
  · exact (by decide : regKey pgRGL 0 0x060 ∈ admissionKeys)

theorem State.admits_captureLine (s : State) (c : Err) (a l : Nat) : s.Admits (s.captureLine pgRGL c a l) :=
  (s.admits_capture c a).trans (State.admits_pulse _ l)

theorem State.admits_shedOne (s : State) (code : Err) (e : Nat) : s.Admits (s.shedOne code e) := by
  have h := (s.admits_setShed e).trans (State.admits_captureLine _ code 0 185)
  unfold State.shedOne
  dsimp only
  split
  · exact h.trans (State.admits_pulse _ _)
  · exact h

theorem State.isShed_shedOne (s : State) (code : Err) {e k : Nat} (he : e < 64) (hk : k < 64) :
    (s.shedOne code e).isShed k = (decide (k = e) || s.isShed k) := by
  unfold State.shedOne
  dsimp only
  split
  · rw [State.isShed_pulse, State.isShed_captureLine, State.isShed_setShed s he hk]
  · rw [State.isShed_captureLine, State.isShed_setShed s he hk]

/-- With enough rounds for the entries that are not shed, the loop ends where every limit holds; it unsheds none. -/
theorem State.shedLoop_spec (code : Err) (n : Nat) : ∀ s : State, s.unshed ≤ n →
    s.Admits (s.shedLoop code n) ∧ (s.shedLoop code n).bwsFit (s.shedLoop code n).bwsNow = true ∧
      ∀ e, e < 64 → s.isShed e = true → (s.shedLoop code n).isShed e = true := by
  induction n with
  | zero =>
    intro s hn
    refine ⟨State.Admits.refl s, ?_, fun _ _ h => h⟩
    by_contra hf
    obtain ⟨e, he, hb⟩ := s.exists_breaks (by simp [State.bwsNow]) (Bool.eq_false_iff.mpr hf)
    have := unshed_lt (t := s.shedOne code e) he (State.isShed_of_breaks he hb) fun k hk => s.isShed_shedOne code he hk
    omega
  | succ n ih =>
    intro s hn
    by_cases hf : s.bwsFit s.bwsNow = true
    · rw [State.shedLoop, if_pos hf]
      exact ⟨State.Admits.refl s, hf, fun _ _ h => h⟩
    · obtain ⟨e, hnext, he, hb⟩ := s.exists_nextShed (bws := s.bwsNow) (by simp [State.bwsNow]) (Bool.eq_false_iff.mpr hf)
      have hlt := unshed_lt he (State.isShed_of_breaks he hb) fun k hk => s.isShed_shedOne code he hk
      have hloop : s.shedLoop code (n + 1) = (s.shedOne code e).shedLoop code n := by
        rw [State.shedLoop, if_neg hf, hnext]
        rfl
      obtain ⟨ha, hfit, hmono⟩ := ih (s.shedOne code e) (by omega)
      rw [hloop]
      refine ⟨(s.admits_shedOne code e).trans ha, hfit, fun k hk hs => hmono k hk ?_⟩
      rw [s.isShed_shedOne code he hk, hs, Bool.or_true]

/-- RGL_PEAK and RGL_BUDGET are no shed bits. -/
theorem State.admits_budgetRegs (s : State) : s.Admits s.budgetRegs ∧ ∀ e, s.budgetRegs.isShed e = s.isShed e :=
  ⟨(s.admits_fset _ _ (by decide)).trans (State.admits_fset _ _ _ (by decide)),
    fun e => by rw [State.budgetRegs, State.isShed_fset _ _ _ (by decide) (by decide),
      State.isShed_fset _ _ _ (by decide) (by decide)]⟩

/-- Settles O50: the loop has a round for each of the 64 entries, so it ends where every limit holds. -/
theorem sheddingRestoresLimits : Obligations.SheddingRestoresLimits := by
  intro s code t
  obtain ⟨hb, hbs⟩ := s.admits_budgetRegs
  have hn : s.budgetRegs.unshed ≤ 64 := (Finset.card_filter_le _ _).trans (by simp)
  obtain ⟨hl, hfit, hmono⟩ := State.shedLoop_spec code 64 s.budgetRegs hn
  set u := s.budgetRegs.shedLoop code 64 with hu
  have ht : t = u.admittedReg := rfl
  have hut : u.Admits t := u.admits_fset _ _ (by decide)
  have hsh (e : Nat) : t.isShed e = u.isShed e := u.isShed_fset _ _ (by decide) (by decide)
  have hall : s.Admits t := (hb.trans hl).trans hut
  have hbw : t.bwsNow = u.bwsNow := by
    simp only [State.bwsNow, hsh]
    simp only [hut.gentry]
  have hfit' : t.bwsFit t.bwsNow = true := by rw [hbw, hut.bwsFit, hfit]
  refine ⟨hfit', ?_, fun e he hs => ?_, hall.gentry, ?_, hall.mem, hall.jobs, hall.queues⟩
  · rw [← hall.budget]
    simp only [State.bwsFit, Bool.and_eq_true, decide_eq_true_eq] at hfit'
    exact hfit'.1
  · rw [hsh]
    exact hmono e he ((hbs e).trans hs)
  · rw [hbw, ht, State.admittedReg, State.fget_fset_same _ _ _ (by decide)]
    rfl

end Sys2Proof.Machine
end

section
/-!
PROOF. Guarantees and slots written before LOCK, and the end of an entry's window (13 R328, R336, R339, R343).
-/

namespace Sys2Proof.Machine

open Sys2Proof

-- One thread at a time: the stacks of threads that wait for each other count against the check's memory limit.
set_option Elab.async false

/-! ## Fields of a register that is written whole -/

/-- Before LOCK a write takes every field of the register that is writable at all. -/
theorem State.putFields_of_unlocked (s : State) {page : Nat} (idx : Nat) (b : Block) (off : Nat) (v skip : Word32)
    (h : s.flag page Reg.LOCK_LOCKED = false) : s.putFields page idx b off v skip =
      let m := (accMask b off [.rw] ||| accMask b off [.rwl]) &&& ~~~skip
      s.setReg page idx off ((s.reg page idx off &&& ~~~m) ||| (v &&& m)) := by
  simp [State.putFields, h]

/-- A field whose bits a mask takes reads what was written. -/
theorem Fld.get_masked (f : Fld) (x v m : Word32) (h : ∀ k, f.lo ≤ k → k ≤ f.hi → m.getLsbD k = true) (hf : f.lo ≤ f.hi) :
    f.get ((x &&& ~~~m) ||| (v &&& m)) = f.get v := by
  apply Nat.eq_of_testBit_eq
  intro j
  rw [Fld.get_testBit, Fld.get_testBit]
  by_cases hj : j < f.hi - f.lo + 1
  · have hm := h (f.lo + j) (by omega) (by omega)
    simp [hm]
  · simp [hj]

/-! ## RGL_GENTRY (13 R336, R339) -/

theorem gBw_masked (v : Word32) : gBw (v &&& accMask .rgl 0x054 [.rwl]) = v.toNat % 4096 := by
  rw [show accMask .rgl 0x054 [.rwl] = 0x7F0FFF#32 from rfl, gBw, BitVec.toNat_and,
    show (4096 : Nat) = 2 ^ 12 from rfl, Nat.and_mod_two_pow]
  exact (Nat.and_two_pow_sub_one_eq_mod _ 12).trans (Nat.mod_mod _ _)

theorem gWin_masked (v : Word32) : gWin (v &&& accMask .rgl 0x054 [.rwl]) = v.toNat / 2 ^ 16 % 128 := by
  rw [show accMask .rgl 0x054 [.rwl] = 0x7F0FFF#32 from rfl, gWin, BitVec.toNat_and, Nat.and_div_two_pow,
    show (128 : Nat) = 2 ^ 7 from rfl, Nat.and_mod_two_pow]
  exact (Nat.and_two_pow_sub_one_eq_mod _ 7).trans (Nat.mod_mod _ _)

/-- The bandwidths that the write of one entry is judged by: the entry's own as written, the others' as they will be. -/
theorem State.bwsAdmit_one (s : State) (e bw : Nat) :
    s.bwsAdmit (fun k => if k = e then some bw else none) = (List.range 64).map fun k => if k = e then bw else
      match s.rgl.guarNext.find? fun x => x.1 == k with
      | some x => gBw x.2
      | none => gBw (s.gentry k) := by
  unfold State.bwsAdmit
  apply List.map_congr_left
  intro k _
  by_cases h : k = e
  · simp [h]
  · simp only [h, if_false]
    cases s.rgl.guarNext.find? fun x => x.1 == k <;> rfl

/-- Whether the write of an entry is admitted. -/
theorem p0Entry_eq_false {e bw win : Nat} : p0Entry e bw win = false ↔ ¬ (e < 8 ∧ (bw ≠ 0 ∨ win ≠ 0)) := by
  simp only [p0Entry, Bool.and_eq_false_iff, Bool.or_eq_false_iff, decide_eq_false_iff_not, bne_eq_false_iff_eq]
  omega

/-- The pair that took the place of those with its key is the one that is found. -/
theorem find?_replace {α : Type} (l : List (Nat × α)) (k : Nat) (x : α) :
    ((l.filter fun y => y.1 != k) ++ [(k, x)]).find? (fun y => y.1 == k) = some (k, x) := by
  rw [List.find?_append, List.find?_eq_none.mpr (by simp)]
  simp

section
variable {s : State} (v : Word32) (hl : s.flag pgRGL Reg.LOCK_LOCKED = false)
include hl

/-- A write of RGL_GENTRY that keeps every limit waits for the next tick. -/
theorem State.gentryWrite_of_admitted
    (hp : p0Entry (s.fget pgRGL Reg.RGL_GSEL_ENTRY) (v.toNat % 4096) (v.toNat / 2 ^ 16 % 128) = false)
    (hw : v.toNat / 2 ^ 16 % 128 ≤ 100)
    (hf : s.bwsFit (s.bwsAdmit fun k => if k = s.fget pgRGL Reg.RGL_GSEL_ENTRY then some (v.toNat % 4096) else none) = true) :
    s.gentryWrite v = { s with rgl := { s.rgl with
      guarNext := (s.rgl.guarNext.filter fun x => x.1 != s.fget pgRGL Reg.RGL_GSEL_ENTRY) ++
        [(s.fget pgRGL Reg.RGL_GSEL_ENTRY, v &&& accMask .rgl 0x054 [.rwl])]
      guarUpd := s.rgl.guarUpd.filter (· != s.fget pgRGL Reg.RGL_GSEL_ENTRY) } } := by
  unfold State.gentryWrite
  dsimp only
  rw [if_neg (by simp [hl]), gBw_masked, gWin_masked, hp, hf, decide_eq_false (by omega)]
  rfl

/-- Any other write is discarded. -/
theorem State.gentryWrite_of_rejected
    (h : p0Entry (s.fget pgRGL Reg.RGL_GSEL_ENTRY) (v.toNat % 4096) (v.toNat / 2 ^ 16 % 128) = true ∨
      100 < v.toNat / 2 ^ 16 % 128 ∨
      s.bwsFit (s.bwsAdmit fun k => if k = s.fget pgRGL Reg.RGL_GSEL_ENTRY then some (v.toNat % 4096) else none) = false) :
    s.gentryWrite v = s.capture pgRGL .guaranteeRejected 0 := by
  unfold State.gentryWrite
  dsimp only
  rw [if_neg (by simp [hl]), gBw_masked, gWin_masked, if_pos]
  simpa [or_assoc] using h

end

/-! ## RGL_SLOTS (13 R328) -/

/-- The bank that RGL_SLOTSEL names is that of its port and class. -/
theorem slotIdx_of_sel (n : Nat) : slotIdx (n % 32) (n / 32 % 8) = n % 256 := by
  unfold slotIdx
  omega

section
variable {s : State} (v : Word32) (hl : s.flag pgRGL Reg.LOCK_LOCKED = false)
include hl

/-- A write of RGL_SLOTS is taken where the port's sum stays within its capacity, and else discarded. -/
theorem State.slotsWrite_eq : s.slotsWrite v =
    if s.slotsOk ((s.reg pgRGL 0 0x078).toNat % 32) ((s.reg pgRGL 0 0x078).toNat / 32 % 8) (v.toNat % 1024) then
      s.putFields pgRGL (slotIdx ((s.reg pgRGL 0 0x078).toNat % 32) ((s.reg pgRGL 0 0x078).toNat / 32 % 8)) .rgl 0x07C v 0
    else s.capture pgRGL .guaranteeRejected 0 := by
  have h32 (n : Nat) : n % 256 % 32 = n % 32 := by omega
  have h8 (n : Nat) : n % 256 / 32 = n / 32 % 8 := by omega
  simp only [State.slotsWrite, hl, h32, h8, slotIdx_of_sel]
  rfl

/-- The slots of every pair after a write of those of one. -/
theorem State.slots_putFields {port tc p c : Nat} (hp : port < 32) (hp' : p < 32) :
    (s.putFields pgRGL (slotIdx port tc) .rgl 0x07C v 0).slots p c =
      if p = port ∧ c = tc then v.toNat % 1024 else s.slots p c := by
  rw [State.putFields_of_unlocked s _ _ _ _ _ hl]
  unfold State.slots State.fgetI
  by_cases h : p = port ∧ c = tc
  · obtain ⟨rfl, rfl⟩ := h
    rw [if_pos ⟨rfl, rfl⟩, show Reg.RGL_SLOTS_SLOTS.off = 0x07C from rfl, State.reg_setReg_same, Fld.get_masked]
    · simp [Fld.get, Reg.RGL_SLOTS_SLOTS]
    · intro k _ hk
      have : k < 10 := Nat.lt_succ_of_le hk
      have hm : (accMask .rgl 0x07C [.rw] ||| accMask .rgl 0x07C [.rwl]) &&& ~~~(0 : Word32) = 0x3FF#32 := by decide
      rw [hm]
      interval_cases k <;> rfl
    · decide
  · rw [if_neg h, State.reg_setReg_other]
    simp only [regKey, slotIdx, Reg.RGL_SLOTS_SLOTS]
    omega

end

/-! ## The write commands -/

section
variable {s : State} {w : Writer} (v : Word32) (hu : s.regsUp w = true) (hr : s.reaches w pgRGL = true)
  (hw : s.mayWrite w pgRGL = true) (hb : s.pageBlock pgRGL = .rgl)

theorem State.blockWrite_gentry (s : State) (w : Writer) (v : Word32) :
    s.blockWrite w pgRGL .rgl 0x054 v = s.gentryWrite v := by simp [State.blockWrite]

theorem State.blockWrite_slots (s : State) (w : Writer) (v : Word32) :
    s.blockWrite w pgRGL .rgl 0x07C v = s.slotsWrite v := by simp [State.blockWrite]

include hu hr hw hb

theorem exec_gentryWrite : exec (.gentryWrite w v) s = .next (s.gentryWrite v).touch := by
  rw [← State.blockWrite_gentry s w v]
  exact regWrite_beyondHead v hu hr hw (by decide) hb (by decide) (by decide) (by decide) (by decide)

theorem exec_slotsWrite : exec (.slotsWrite w v) s = .next (s.slotsWrite v).touch := by
  rw [← State.blockWrite_slots s w v]
  exact regWrite_beyondHead v hu hr hw (by decide) hb (by decide) (by decide) (by decide) (by decide)

end

/-! ## The end of a window (13 R343) -/

/-- The value at a key of a list that lists the keys of `l` with values other than 0. -/
theorem aget_filter_map (f : Nat → Nat) (l : List Nat) (k : Nat) :
    aget 0 ((l.map fun e => (e, f e)).filter fun x => x.2 != 0) k = if k ∈ l then f k else 0 := by
  induction l with
  | nil => rfl
  | cons a l ih =>
    rw [List.map_cons, List.filter_cons]
    by_cases ha : f a = 0
    · rw [if_neg (by simp [ha]), ih]
      by_cases hk : k = a
      · simp [hk, ha]
      · simp [hk]
    · rw [if_pos (by simp [ha]), aget, ih]
      by_cases hk : k = a
      · simp [hk]
      · simp [hk, Ne.symm hk]

/-- The edges of its window in which an entry has waited, up to now. -/
theorem State.creditNow_waited (s : State) {k : Nat} (hk : k < 64) : aget 0 s.creditNow.rgl.waited k =
    aget 0 s.rgl.waited k + if s.entryWaits k then s.now - s.rgl.creditAt else 0 := by
  by_cases h : s.now - s.rgl.creditAt = 0
  · simp [State.creditNow, h]
  · simp only [State.creditNow, h, if_false]
    rw [aget_filter_map, if_pos (List.mem_range.mpr hk)]

/-- Crediting the entries moves the Regulator's own state alone, and there neither what was served nor the windows. -/
theorem State.creditNow_shape (s : State) : ∃ g : Rgl, s.creditNow = { s with rgl := g } ∧ g.served = s.rgl.served ∧
    g.winAt = s.rgl.winAt ∧ g.reqs = s.rgl.reqs ∧ g.nextId = s.rgl.nextId ∧ g.guarNext = s.rgl.guarNext :=
  ⟨_, rfl, rfl, rfl, rfl, rfl, rfl⟩

/-- Whether the window that ends missed its guarantee (13 R343). -/
def State.missed (s : State) (k : Nat) : Bool :=
  !s.isShed k && decide (95 * (gWin (s.gentry k) * 2500) ≤ 100 * aget 0 s.creditNow.rgl.waited k) &&
    decide (100 * aget 0 s.rgl.served k < 95 * (gBw (s.gentry k) * gWin (s.gentry k) * 1000))

/-- The state in which an entry's next window begins. -/
def State.windowNext (s : State) (k : Nat) : State :=
  { s with rgl := { s.creditNow.rgl with
    served := aset s.rgl.served k 0, waited := aset s.creditNow.rgl.waited k 0, winAt := aset s.rgl.winAt k s.now } }

theorem State.windowEnd_eq (s : State) (k : Nat) : s.windowEnd k =
    if s.missed k then
      (((s.windowNext k).captureLine pgRGL .guaranteeMissed 0 (176 + k / 8)).fadd pgRGL Reg.RGL_MISS_COUNT 1).fset pgRGL
        Reg.RGL_MISS_LAST_ENTRY k
    else s.windowNext k := rfl

theorem State.windowNext_rgl (s : State) (k : Nat) : aget 0 (s.windowNext k).rgl.served k = 0 ∧
    aget 0 (s.windowNext k).rgl.waited k = 0 ∧ aget 0 (s.windowNext k).rgl.winAt k = s.now :=
  ⟨aget_aset_same .., aget_aset_same .., aget_aset_same ..⟩

/-- A line below 400 that was pulsed stands with both Snuffers. -/
theorem State.mem_lines_pulse (s : State) {l : Nat} (h : l < 400) :
    l ∈ (s.pulse l).snA.lines ∧ l ∈ (s.pulse l).snB.lines := by
  simp [State.pulse, h]

/-- A saturating counter after one more event. -/
theorem State.fget_fadd_same (s : State) (page : Nat) {f : Fld} (h : f.ok) (n : Nat) :
    (s.fadd page f n).fget page f = min (s.fget page f + n) (2 ^ (f.hi - f.lo + 1) - 1) := by
  have hp : 0 < 2 ^ (f.hi - f.lo + 1) := Nat.two_pow_pos _
  refine (s.fget_fset_same page f h _).trans (Nat.mod_eq_of_lt ?_)
  exact (Nat.min_le_right _ _).trans_lt (Nat.sub_lt hp Nat.one_pos)

/-- A field at another offset than those of a capture keeps its value. -/
theorem State.fget_captureLine_other (s : State) (page : Nat) (e : Err) (a l : Nat) {f : Fld}
    (h : f.off ∉ [0x018, 0x024, 0x028, 0x02C]) : (s.captureLine page e a l).fget page f = s.fget page f := by
  refine congrArg f.get ((State.reg_pulse ..).trans (s.reg_capture_other _ _ _ ?_))
  simpa [regKey] using h

/-- Settles O49: the three operations judge by the sums that the statement writes out. -/
theorem guaranteesAreAdmittedOrRejected : Obligations.GuaranteesAreAdmittedOrRejected := by
  refine ⟨?writes, ?window⟩
  case writes =>
    intro s w v hu hr hw hb hl e bw win bws ok
    have hbws : s.bwsAdmit (fun k => if k = e then some bw else none) = bws := s.bwsAdmit_one e bw
    have hok : ok ↔ p0Entry e bw win = false ∧ win ≤ 100 ∧ s.bwsFit bws = true := by rw [p0Entry_eq_false]
    refine ⟨fun h => ?_, fun h => ?_, ?_⟩
    · obtain ⟨hp, hwin, hfit⟩ := hok.mp h
      rw [← hbws] at hfit
      refine ⟨_, v &&& accMask .rgl 0x054 [.rwl], exec_gentryWrite v hu hr hw hb, ?_, gBw_masked v, gWin_masked v, ?_⟩
      · rw [s.gentryWrite_of_admitted v hl hp hwin hfit]
        exact find?_replace ..
      · rw [s.gentryWrite_of_admitted v hl hp hwin hfit]
        exact ⟨fun _ => rfl, rfl, rfl, rfl⟩
    · rw [exec_gentryWrite v hu hr hw hb, s.gentryWrite_of_rejected v hl]
      rw [hok, ← hbws] at h
      by_cases hp : p0Entry e bw win = false
      · by_cases hwin : win ≤ 100
        · exact Or.inr (Or.inr (Bool.eq_false_iff.mpr fun hfit => h ⟨hp, hwin, hfit⟩))
        · exact Or.inr (Or.inl (by omega))
      · exact Or.inl (Bool.eq_true_of_not_eq_false hp)
    · intro port tc
      refine ⟨fun h => ?_, fun h => ?_⟩
      · have hx : s.slotsWrite v = s.putFields pgRGL (slotIdx port tc) .rgl 0x07C v 0 := by
          rw [s.slotsWrite_eq v hl, if_pos h]
        have hport : port < 32 := Nat.mod_lt _ (by decide)
        refine ⟨_, exec_slotsWrite v hu hr hw hb, ?_, ?_, ?_, ?_⟩
        · change (s.slotsWrite v).slots port tc = _
          rw [hx, s.slots_putFields v hl hport hport, if_pos ⟨rfl, rfl⟩]
        · rw [hx, s.putFields_of_unlocked _ _ _ _ _ hl]; rfl
        · rw [hx, s.putFields_of_unlocked _ _ _ _ _ hl]; rfl
        · intro p c hp _ hne
          change (s.slotsWrite v).slots p c = _
          rw [hx, s.slots_putFields v hl hport hp, if_neg (by tauto)]
      · rw [exec_slotsWrite v hu hr hw hb, s.slotsWrite_eq v hl, if_neg (by rw [h]; decide)]
  case window =>
    intro s p tc e ha hp htc k bw win hwin hat hdue waited miss
    have hk : k < 64 := by omega
    have hex : exec (.guaranteeWindowEnd p tc e) s = .next ((elapse e s).windowEnd k) := by
      refine onAwake_of_due _ ha ?_
      obtain ⟨x, hx, hxk⟩ := hat
      simp only [Bool.and_eq_true, decide_eq_true_eq, bne_iff_ne, List.any_eq_true, beq_iff_eq]
      exact ⟨⟨⟨⟨hp, htc⟩, hwin⟩, x, hx, hxk⟩, hdue⟩
    have hserved : (elapse e s).rgl = s.rgl := elapse_rgl e s
    have hmem : (elapse e s).mem = s.mem := elapse_mem e s
    have hjobs : (elapse e s).jobs = s.jobs := elapse_jobs e s
    have hsnA : (elapse e s).snA = s.snA := elapse_snA e s
    have hsnB : (elapse e s).snB = s.snB := elapse_snB e s
    have hfget {f : Fld} (hf : f.off < 4096) : (elapse e s).fget pgRGL f = s.fget pgRGL f := calm_pgRGL.fget e s hf
    have hentry : (elapse e s).gentry k = s.gentry k := calm_pgRGL.reg e s (by omega) (by decide)
    have hshed : (elapse e s).isShed k = s.isShed k :=
      State.isShed_congr (calm_pgRGL.reg e s (by decide) (by decide)) (calm_pgRGL.reg e s (by decide) (by decide)) k
    have hwait : (elapse e s).entryWaits k = s.entryWaits k := by simp [State.entryWaits]
    have hnow : (elapse e s).now = s.now + e := elapse_now_of_awake e ha
    rw [hex]
    clear hex hdue
    generalize elapse e s = u at *
    have hwaited : aget 0 u.creditNow.rgl.waited k = waited := by
      rw [u.creditNow_waited hk, hwait, hnow, hserved]
    have hmiss : u.missed k = true ↔ miss := by
      simp only [State.missed, hshed, hentry, hwaited, hserved, Bool.and_eq_true, Bool.not_eq_true', decide_eq_true_eq, and_assoc]
      rfl
    obtain ⟨hs0, hw0, hat0⟩ := u.windowNext_rgl k
    rw [hnow] at hat0
    rw [u.windowEnd_eq]
    by_cases hm : u.missed k = true
    · rw [if_pos hm]
      have hrgl : ((((u.windowNext k).captureLine pgRGL .guaranteeMissed 0 (176 + k / 8)).fadd pgRGL Reg.RGL_MISS_COUNT 1).fset
          pgRGL Reg.RGL_MISS_LAST_ENTRY k).rgl = (u.windowNext k).rgl := by simp
      obtain ⟨hla, hlb⟩ := ((u.windowNext k).capture pgRGL .guaranteeMissed 0).mem_lines_pulse (l := 176 + k / 8) (by omega)
      refine ⟨_, rfl, by rw [hrgl, hs0], by rw [hrgl, hw0], by rw [hrgl, hat0], ?_, ?_, fun _ => ⟨?_, ?_, ?_, ?_⟩,
        fun hn => absurd (hmiss.mp hm) hn⟩
      · rw [State.fset_mem, State.fadd_mem, State.captureLine_mem]
        exact hmem
      · rw [State.fset_jobs, State.fadd_jobs, State.captureLine_jobs]
        exact hjobs
      · rw [State.fget_fset_other _ _ _ _ _ (by decide) (by decide) (by decide), State.fget_fadd_same _ _ (by decide),
          State.fget_captureLine_other _ _ _ _ _ (by decide)]
        exact congrArg (fun x => min (x + 1) (2 ^ 32 - 1)) (hfget (f := Reg.RGL_MISS_COUNT) (by decide))
      · rw [State.fget_fset_same _ _ _ (by decide)]
        exact Nat.mod_eq_of_lt hk
      · rw [show 176 + p = 176 + k / 8 by omega]
        exact hla
      · rw [show 176 + p = 176 + k / 8 by omega]
        exact hlb
    · rw [if_neg hm]
      exact ⟨_, rfl, hs0, hw0, hat0, hmem, hjobs, fun h => absurd (hmiss.mpr h) hm,
        fun _ => ⟨hfget (f := Reg.RGL_MISS_COUNT) (by decide), hfget (f := Reg.RGL_MISS_LAST_ENTRY) (by decide), hsnA, hsnB⟩⟩

end Sys2Proof.Machine
end

section
/-!
PROOF. The Trimmer: samples, the rules that change a grant, coolant alerts and the lifetime counters (18 R436 to R448; 22 R498).
-/

namespace Sys2Proof.Machine

open Sys2Proof

-- One thread at a time: the stacks of threads that wait for each other count against the check's memory limit.
set_option Elab.async false

/-! ## What the forecasts rest on (18 R438) -/

/-- `t` is `s` but for TRM_STATUS and the Snuffers. -/
def State.StatusMoved (s t : State) : Prop :=
  ∃ r a b, t = { s with regs := r, snA := a, snB := b } ∧
    ∀ p i o, regKey p i o ≠ regKey pgTRM 0 0x058 → t.reg p i o = s.reg p i o

theorem State.statusMoved_fset (s : State) {f : Fld} (x : Nat) (hf : f.off = 0x058) : s.StatusMoved (s.fset pgTRM f x) :=
  ⟨_, s.snA, s.snB, rfl, fun _ _ _ h => s.reg_fset_other f x (by rw [hf]; exact h.symm)⟩

theorem State.statusMoved_pulse (s : State) (l : Nat) : s.StatusMoved (s.pulse l) := by
  obtain ⟨a, b, h⟩ := s.pulse_shape l
  exact ⟨s.regs, a, b, h, fun p i o _ => s.reg_pulse l p i o⟩

theorem State.StatusMoved.trans {s t u : State} (h : s.StatusMoved t) (k : t.StatusMoved u) : s.StatusMoved u := by
  obtain ⟨_, _, _, rfl, hr⟩ := h
  obtain ⟨r, a, b, rfl, hr'⟩ := k
  exact ⟨r, a, b, rfl, fun p i o hk => (hr' p i o hk).trans (hr p i o hk)⟩

section
variable {s t : State} (h : s.StatusMoved t)
include h

theorem State.StatusMoved.reg {p i o : Nat} (hk : regKey p i o ≠ regKey pgTRM 0 0x058) : t.reg p i o = s.reg p i o := by
  obtain ⟨_, _, _, _, hr⟩ := h
  exact hr p i o hk

/-- A field at another offset. -/
theorem State.StatusMoved.fgetI {p i : Nat} {f : Fld} (hf : f.off < 4096) (hne : f.off ≠ 0x058) : t.fgetI p i f = s.fgetI p i f :=
  congrArg f.get (h.reg (regKey_ne_of_offs hne hf (by decide)))

theorem State.StatusMoved.fget {p : Nat} {f : Fld} (hf : f.off < 4096) (hne : f.off ≠ 0x058) : t.fget p f = s.fget p f :=
  h.fgetI hf hne

theorem State.StatusMoved.trm : t.trm = s.trm := by obtain ⟨_, _, _, rfl, _⟩ := h; rfl
theorem State.StatusMoved.cfg : t.cfg = s.cfg := by obtain ⟨_, _, _, rfl, _⟩ := h; rfl
theorem State.StatusMoved.jobs : t.jobs = s.jobs := by obtain ⟨_, _, _, rfl, _⟩ := h; rfl
theorem State.StatusMoved.fuses : t.fuses = s.fuses := by obtain ⟨_, _, _, rfl, _⟩ := h; rfl
theorem State.StatusMoved.frm : t.frm = s.frm := by obtain ⟨_, _, _, rfl, _⟩ := h; rfl
theorem State.StatusMoved.now : t.now = s.now := by obtain ⟨_, _, _, rfl, _⟩ := h; rfl
theorem State.StatusMoved.wick (w : Nat) : t.wick w = s.wick w := by obtain ⟨_, _, _, rfl, _⟩ := h; rfl

theorem State.StatusMoved.lanterns : t.lanterns = s.lanterns := h.fget (by decide) (by decide)

theorem State.StatusMoved.lanternUp (n : Nat) : t.lanternUp n = s.lanternUp n := by
  rw [State.lanternUp, State.lanternUp, h.lanterns, h.fget (by decide) (by decide)]

theorem State.StatusMoved.trmLanterns : t.trmLanterns = s.trmLanterns := by
  have hl : t.lanternUp = s.lanternUp := funext h.lanternUp
  rw [State.trmLanterns, State.trmLanterns, hl]

theorem State.StatusMoved.tcode (n : Nat) : t.tcode n = s.tcode n := h.fgetI (by decide) (by decide)
theorem State.StatusMoved.grant (n : Nat) : t.grant n = s.grant n := h.fgetI (by decide) (by decide)
theorem State.StatusMoved.fmin : t.fmin = s.fmin := h.fget (by decide) (by decide)

theorem State.StatusMoved.allowedWicks (p m : Nat) : t.allowedWicks p m = s.allowedWicks p m := by
  simp [State.allowedWicks, State.wickSet, State.wickInService, h.lanterns, h.cfg, h.lanternUp, h.wick]

theorem State.StatusMoved.unitCycles (j : Job) (u w : Nat) : t.unitCycles j u w = s.unitCycles j u w := by
  have ha : t.attnCycles j u = s.attnCycles j u := by
    simp only [State.attnCycles, State.fillWick, h.allowedWicks]
  rw [State.unitCycles, State.unitCycles, ha, h.wick]

theorem State.StatusMoved.busyFrac (n : Nat) : t.busyFrac n = s.busyFrac n := by
  have hj (j : Job) : t.jobCycles n j = s.jobCycles n j := by
    simp only [State.jobCycles, h.allowedWicks, h.unitCycles]
  have he : t.epoch = s.epoch := h.reg (regKey_ne_of_offs (by decide) (by decide) (by decide))
  have hj' : t.jobCycles n = s.jobCycles n := funext hj
  simp only [State.busyFrac, h.trm, h.jobs, h.frm, he, hj']

theorem State.StatusMoved.tp (n g : Nat) : t.tp n g = s.tp n g := by
  simp only [State.tp, h.busyFrac, h.trm, h.fuses, h.tcode, h.fgetI (f := Reg.TRM_LANTERN_RTH) (by decide) (by decide)]

theorem State.StatusMoved.tjSoft : t.tjSoft = s.tjSoft := by
  rw [State.tjSoft, State.tjSoft, h.fget (by decide) (by decide)]

theorem State.StatusMoved.rule1 : t.rule1 = s.rule1 := by
  simp only [State.rule1, h.trmLanterns, h.tp, h.grant, h.tjSoft, h.tcode, h.fget (f := Reg.TRM_TJ_SOFT) (by decide) (by decide)]

theorem State.StatusMoved.hottest : t.hottest = s.hottest := by
  simp only [State.hottest, h.trmLanterns, h.tp, h.grant]

theorem State.StatusMoved.pkgPower : t.pkgPower = s.pkgPower := by rw [State.pkgPower, State.pkgPower, h.trm]

theorem State.StatusMoved.ramp (n : Nat) : t.ramp n = s.ramp n := by
  simp only [State.ramp, State.t1s, h.trm, h.now, h.fmin, h.tp, h.fget (f := Reg.TRM_RAMP_RATE) (by decide) (by decide)]

theorem State.StatusMoved.mayRaise (n : Nat) : t.mayRaise n = s.mayRaise n := by
  have hmean : t.pnMean n = s.pnMean n := by rw [State.pnMean, State.pnMean, h.trm]
  have hpf (g : Nat) : t.pf n g = s.pf n g := by simp only [State.pf, h.busyFrac, h.tcode, h.fuses]
  unfold State.mayRaise
  dsimp only
  rw [h.grant, h.tp, h.tjSoft, h.ramp, h.pkgPower, hmean, hpf, h.fget (f := Reg.TRM_TJ_HYST) (by decide) (by decide),
    h.fget (f := Reg.TRM_PLIMIT_W) (by decide) (by decide)]

end

/-! ## Grants (18 R440) -/

/-- The flags of the rules cleared, as every application of them begins. -/
def State.rulesClear (s : State) : State := (s.fset pgTRM Reg.TRM_STATUS_SOFT 0).fset pgTRM Reg.TRM_STATUS_FLOOR 0

theorem State.statusMoved_rulesClear (s : State) : s.StatusMoved s.rulesClear :=
  (s.statusMoved_fset _ rfl).trans (State.statusMoved_fset _ _ rfl)

/-- The rules of R440 on a state whose flags are cleared. -/
def State.rulesApply (s : State) : State :=
  if s.rule1 then
    if s.flag pgTRM Reg.TRM_STATUS_ALERT then s
    else match s.hottest with
    | some n => ((s.fset pgTRM Reg.TRM_STATUS_SOFT 1).pulse 356).lowerGrant n
    | none => s
  else if s.fget pgTRM Reg.TRM_PLIMIT_W * 1000 < s.pkgPower then
    match pickBest (fun a b => decide (s.pnMean a < s.pnMean b)) s.trmLanterns with
    | some n => ((s.fset pgTRM Reg.TRM_STATUS_SOFT 1).pulse 356).lowerGrant n
    | none => s
  else
    match s.trmLanterns.find? fun n => decide (s.ramp n < s.grant n) with
    | some n => (s.setGrant n (s.ramp n)).fadd pgTRM Reg.TRM_STEPS_COUNT 1
    | none =>
      match pickBest (fun a b => tpLt (s.tp b (s.grant b)) (s.tp a (s.grant a))) (s.trmLanterns.filter s.mayRaise) with
      | some n => s.setGrant n (s.grant n + 1)
      | none => s

theorem State.grantRules_eq (s : State) : s.grantRules = s.rulesClear.rulesApply := rfl

/-- Rule 1 lowers the hottest Lantern, where no coolant alert stands. -/
theorem State.grantRules_of_rule1 {s : State} {n : Nat} (h1 : s.rule1 = true) (hh : s.hottest = some n)
    (ha : s.flag pgTRM Reg.TRM_STATUS_ALERT = false) :
    s.grantRules = ((s.rulesClear.fset pgTRM Reg.TRM_STATUS_SOFT 1).pulse 356).lowerGrant n := by
  have hm := s.statusMoved_rulesClear
  have ha' : s.rulesClear.flag pgTRM Reg.TRM_STATUS_ALERT = false := by
    rw [State.flag, State.rulesClear, State.fget_fset_other _ _ _ _ _ (by decide) (by decide) (by decide),
      State.fget_fset_other _ _ _ _ _ (by decide) (by decide) (by decide)]
    exact ha
  rw [State.grantRules_eq, State.rulesApply, if_pos (hm.rule1.trans h1), if_neg (by rw [ha']; decide), hm.hottest, hh]

/-- Where no rule applies, the flags alone are cleared. -/
theorem State.grantRules_of_none {s : State} (h1 : s.rule1 = false)
    (hp : s.pkgPower ≤ s.fget pgTRM Reg.TRM_PLIMIT_W * 1000) (hr : ∀ n, n ∈ s.trmLanterns → s.grant n ≤ s.ramp n)
    (hu : ∀ n, n ∈ s.trmLanterns → s.mayRaise n = false) : s.grantRules = s.rulesClear := by
  have hm := s.statusMoved_rulesClear
  have hf : s.trmLanterns.find? (fun n => decide (s.ramp n < s.grant n)) = none := by
    rw [List.find?_eq_none]
    intro n hn
    have := hr n hn
    simp only [decide_eq_true_eq]
    omega
  have hr' : s.trmLanterns.filter s.mayRaise = [] := by
    rw [List.filter_eq_nil_iff]
    intro n hn
    simp [hu n hn]
  have hmay : s.rulesClear.mayRaise = s.mayRaise := funext hm.mayRaise
  have hl : s.rulesClear.trmLanterns.find? (fun n => decide (s.rulesClear.ramp n < s.rulesClear.grant n)) = none := by
    simpa only [hm.trmLanterns, hm.ramp, hm.grant] using hf
  rw [State.grantRules_eq, State.rulesApply, hm.rule1, if_neg (by rw [h1]; decide), hm.pkgPower,
    hm.fget (by decide) (by decide), if_neg (by omega), hl, hm.trmLanterns, hmay, hr']
  rfl

section
variable {s : State} {n : Nat}

theorem State.lowerGrant_of_above (h : s.fmin < s.grant n) :
    s.lowerGrant n = (s.setGrant n (s.grant n - 1)).fadd pgTRM Reg.TRM_STEPS_COUNT 1 := by
  rw [State.lowerGrant, if_neg (by omega)]

theorem State.lowerGrant_of_floor (h : s.grant n ≤ s.fmin) :
    s.lowerGrant n = (s.fset pgTRM Reg.TRM_STATUS_FLOOR 1).pulse 357 := by
  rw [State.lowerGrant, if_pos h]

theorem State.grant_lt (s : State) (n : Nat) : s.grant n < 32 := Nat.mod_lt _ (by decide)

/-- The grants after one was set and the steps counted. -/
theorem State.grant_fadd_setGrant (s : State) (n k g : Nat) (hg : g < 32) :
    ((s.setGrant n g).fadd pgTRM Reg.TRM_STEPS_COUNT 1).grant k = if k = n then g else s.grant k := by
  have hs : ((s.setGrant n g).fadd pgTRM Reg.TRM_STEPS_COUNT 1).grant k = (s.setGrant n g).grant k :=
    congrArg (Fld.get _) (State.reg_setReg_other _ _ (regKey_ne_of_offs (by decide) (by decide) (by decide)))
  rw [hs]
  by_cases hk : k = n
  · rw [if_pos hk, hk]
    exact (s.fgetI_fsetI_same _ _ _ (by decide) _).trans (Nat.mod_eq_of_lt hg)
  · rw [if_neg hk]
    exact s.fgetI_fsetI_bank _ _ _ (Ne.symm hk)

end

/-! ## Samples (18 R436) -/

/-- `t` is `s` after steps of a sample that follow the trip's test: the times, the trip, the rails' voltages, the temperatures,
memory and the jobs stand. -/
structure State.Tuned (s t : State) : Prop where
  sampleAt : t.trm.sampleAt = s.trm.sampleAt
  tripped : t.trm.tripped = s.trm.tripped
  vset : t.trm.vset = s.trm.vset
  mem : t.mem = s.mem
  jobs : t.jobs = s.jobs
  tbu : t.tbu = s.tbu
  tcode : ∀ n, t.tcode n = s.tcode n

theorem State.Tuned.refl (s : State) : s.Tuned s := ⟨rfl, rfl, rfl, rfl, rfl, rfl, fun _ => rfl⟩

theorem State.Tuned.trans {s t u : State} (h : s.Tuned t) (k : t.Tuned u) : s.Tuned u :=
  ⟨k.sampleAt.trans h.sampleAt, k.tripped.trans h.tripped, k.vset.trans h.vset, k.mem.trans h.mem, k.jobs.trans h.jobs, k.tbu.trans h.tbu,
    fun n => (k.tcode n).trans (h.tcode n)⟩

theorem State.Tuned.ite {s t u : State} {c : Prop} [Decidable c] (h : s.Tuned t) (k : s.Tuned u) : s.Tuned (if c then t else u) := by
  split
  · exact h
  · exact k

/-- Registers other than the temperatures'. -/
theorem State.tuned_setReg (s : State) {p i o : Nat} (v : Word32) (ho : o < 4096) (h : o ≠ 0x054) : s.Tuned (s.setReg p i o v) :=
  ⟨rfl, rfl, rfl, rfl, rfl, rfl, fun _ => congrArg (Fld.get _) (s.reg_setReg_other v (regKey_ne_of_offs h ho (by decide)))⟩

theorem State.tuned_fset (s : State) {p : Nat} {f : Fld} (x : Nat) (hf : f.off < 4096) (h : f.off ≠ 0x054) : s.Tuned (s.fset p f x) :=
  s.tuned_setReg _ hf h

theorem State.tuned_fadd (s : State) {p : Nat} {f : Fld} (x : Nat) (hf : f.off < 4096) (h : f.off ≠ 0x054) : s.Tuned (s.fadd p f x) :=
  s.tuned_setReg _ hf h

/-- Another field of a Lantern's register. -/
theorem State.tuned_fsetI (s : State) (n : Nat) {f : Fld} (x : Nat) (hf : f.ok) (ho : f.off = 0x054)
    (d : 15 < f.lo ∨ f.hi < 8) : s.Tuned (s.fsetI pgTRM n f x) :=
  ⟨rfl, rfl, rfl, rfl, rfl, rfl, fun k => s.fgetI_fsetI_other pgTRM n k f Reg.TRM_LANTERN_T x hf (by decide) ho d⟩

theorem State.tuned_setGrant (s : State) (n g : Nat) : s.Tuned (s.setGrant n g) :=
  s.tuned_fsetI n g (by decide) rfl (Or.inr (by decide))

theorem State.tuned_pulse (s : State) (l : Nat) : s.Tuned (s.pulse l) :=
  ⟨by simp, by simp, by simp, by simp, by simp, by simp, fun n => congrArg (Fld.get _) (s.reg_pulse ..)⟩

theorem State.tuned_captureLine (s : State) (p : Nat) (e : Err) (a l : Nat) : s.Tuned (s.captureLine p e a l) := by
  refine ⟨by simp, by simp, by simp, by simp, by simp, by simp, fun n => congrArg (Fld.get _) ?_⟩
  refine (State.reg_pulse ..).trans (s.reg_capture_other _ _ _ ?_)
  simp only [List.mem_cons, List.not_mem_nil, or_false, not_or]
  exact ⟨regKey_ne_of_offs (by decide) (by decide) (by decide), regKey_ne_of_offs (by decide) (by decide) (by decide),
    regKey_ne_of_offs (by decide) (by decide) (by decide), regKey_ne_of_offs (by decide) (by decide) (by decide)⟩

theorem State.tuned_roundFree (s : State) (num : Int) (den top : Nat) : s.Tuned (s.roundFree num den top).1 := by
  unfold State.roundFree
  split
  · exact State.Tuned.refl s
  · dsimp only
    split
    · exact State.Tuned.refl s
    · exact ⟨rfl, rfl, rfl, rfl, rfl, rfl, fun _ => rfl⟩

theorem State.tuned_lowerGrant (s : State) (n : Nat) : s.Tuned (s.lowerGrant n) :=
  State.Tuned.ite ((s.tuned_fset _ (by decide) (by decide)).trans (State.tuned_pulse _ _))
    ((s.tuned_setGrant _ _).trans (State.tuned_fadd _ _ (by decide) (by decide)))

/-- The rules of R440 keep what a sample's steps keep. -/
theorem State.tuned_grantRules (s : State) : s.Tuned s.grantRules := by
  have hclear : s.Tuned s.rulesClear :=
    (s.tuned_fset _ (by decide) (by decide)).trans (State.tuned_fset _ _ (by decide) (by decide))
  have hlower (n : Nat) : s.rulesClear.Tuned (((s.rulesClear.fset pgTRM Reg.TRM_STATUS_SOFT 1).pulse 356).lowerGrant n) :=
    ((State.tuned_fset _ _ (by decide) (by decide)).trans (State.tuned_pulse _ _)).trans (State.tuned_lowerGrant _ _)
  rw [State.grantRules_eq]
  refine hclear.trans ?_
  generalize s.rulesClear = t at hlower ⊢
  unfold State.rulesApply
  refine State.Tuned.ite (State.Tuned.ite (State.Tuned.refl t) ?hot) (State.Tuned.ite ?power ?other)
  case hot =>
    split
    · exact hlower _
    · exact State.Tuned.refl t
  case power =>
    split
    · exact hlower _
    · exact State.Tuned.refl t
  case other =>
    split
    · exact (t.tuned_setGrant _ _).trans (State.tuned_fadd _ _ (by decide) (by decide))
    · split
      · exact t.tuned_setGrant _ _
      · exact State.Tuned.refl t

theorem State.tuned_hardStep (s : State) (n : Nat) : s.Tuned (s.hardStep n) :=
  State.Tuned.ite
    (((State.Tuned.ite (s.tuned_fset _ (by decide) (by decide))
        ((s.tuned_setGrant _ _).trans (State.tuned_fadd _ _ (by decide) (by decide)))).trans
      (State.tuned_captureLine _ _ _ _ _)).trans (State.tuned_fset _ _ (by decide) (by decide)))
    (State.Tuned.refl s)

theorem State.tuned_tpredRegs (s : State) : s.Tuned s.tpredRegs := by
  unfold State.tpredRegs
  dsimp only
  generalize hu : s.trmLanterns.foldl _ s = u
  have h : s.Tuned u := hu ▸ foldl_rel State.Tuned.refl State.Tuned.trans
    (fun t n => (t.tuned_roundFree _ _ _).trans (State.tuned_fsetI _ n _ (by decide) rfl (Or.inl (by decide)))) s.trmLanterns s
  split
  · exact h.trans (u.tuned_fset _ (by decide) (by decide))
  · exact h

/-- Coolant demand, and the time it changed. -/
theorem State.tuned_dutyAt (s : State) (x : Nat) : s.Tuned { s with trm := { s.trm with dutyAt := x } } :=
  ⟨rfl, rfl, rfl, rfl, rfl, rfl, fun _ => rfl⟩

theorem State.tuned_dutyStep (s : State) : s.Tuned s.dutyStep := by
  unfold State.dutyStep
  split
  · exact State.Tuned.refl s
  · dsimp only
    refine (State.tuned_roundFree _ _ _ _).trans (State.Tuned.ite ?_ (State.Tuned.ite ?_ (State.Tuned.refl _)))
    · exact (State.tuned_fset _ _ (by decide) (by decide)).trans (State.tuned_dutyAt _ _)
    · exact (State.tuned_fset _ _ (by decide) (by decide)).trans (State.tuned_dutyAt _ _)

/-! ## The readings of a sample -/

/-- `t` is `s` after readings of a sample: draws, the channels' temperatures and registers of the Trimmer's page but for the
grants. -/
def State.Read (s t : State) : Prop :=
  ∃ r d m, t = { s with regs := r, draws := d, dmc := m } ∧
    (∀ p i o, p ≠ pgTRM → i < 256 → o < 4096 → t.reg p i o = s.reg p i o) ∧ ∀ n, t.grant n = s.grant n

theorem State.Read.refl (s : State) : s.Read s := ⟨s.regs, s.draws, s.dmc, rfl, fun _ _ _ _ _ _ => rfl, fun _ => rfl⟩

theorem State.Read.trans {s t u : State} (h : s.Read t) (k : t.Read u) : s.Read u := by
  obtain ⟨_, _, _, rfl, hr, hg⟩ := h
  obtain ⟨r, d, m, rfl, hr', hg'⟩ := k
  exact ⟨r, d, m, rfl, fun p i o hp hi ho => (hr' p i o hp hi ho).trans (hr p i o hp hi ho), fun n => (hg' n).trans (hg n)⟩

section
variable {s t : State} (h : s.Read t)
include h

theorem State.Read.trmLanterns : t.trmLanterns = s.trmLanterns := by
  obtain ⟨_, _, _, _, hr, _⟩ := h
  have hl : t.lanterns = s.lanterns := congrArg (Fld.get _) (hr _ _ _ (by decide) (by decide) (by decide))
  have hm : t.fget pgLNKC Reg.LNK_INSVC_MASK = s.fget pgLNKC Reg.LNK_INSVC_MASK :=
    congrArg (Fld.get _) (hr _ _ _ (by decide) (by decide) (by decide))
  have hu : t.lanternUp = s.lanternUp := by
    funext n
    rw [State.lanternUp, State.lanternUp, hl, hm]
  rw [State.trmLanterns, State.trmLanterns, hu]

theorem State.Read.grant (n : Nat) : t.grant n = s.grant n := by obtain ⟨_, _, _, _, _, hg⟩ := h; exact hg n
theorem State.Read.trm : t.trm = s.trm := by obtain ⟨_, _, _, rfl, _⟩ := h; rfl
theorem State.Read.mem : t.mem = s.mem := by obtain ⟨_, _, _, rfl, _⟩ := h; rfl
theorem State.Read.jobs : t.jobs = s.jobs := by obtain ⟨_, _, _, rfl, _⟩ := h; rfl

end

/-- A register of the Trimmer's page other than the Lanterns'. -/
theorem State.read_fset (s : State) {f : Fld} (x : Nat) (hf : f.off < 4096) (h : f.off ≠ 0x054) : s.Read (s.fset pgTRM f x) :=
  ⟨_, _, _, rfl, fun _ _ _ hp hi ho => s.reg_fset_other f x (regKey_ne_of_page hp.symm (by decide) hi hf ho),
    fun _ => congrArg (Fld.get _) (s.reg_fset_other f x (regKey_ne_of_offs h hf (by decide)))⟩

/-- A Lantern's temperature. -/
theorem State.read_temp (s : State) {n : Nat} (hn : n < 256) (x : Nat) : s.Read (s.fsetI pgTRM n Reg.TRM_LANTERN_T x) :=
  ⟨_, _, _, rfl, fun _ _ _ hp hi ho => s.reg_setReg_other _ (regKey_ne_of_page hp.symm hn hi (by decide) ho),
    fun k => s.fgetI_fsetI_other pgTRM n k Reg.TRM_LANTERN_T Reg.TRM_LANTERN_GRANT x (by decide) (by decide) rfl
      (Or.inl (by decide))⟩

theorem State.read_roundFree (s : State) (num : Int) (den top : Nat) : s.Read (s.roundFree num den top).1 := by
  unfold State.roundFree
  split
  · exact State.Read.refl s
  · dsimp only
    split
    · exact State.Read.refl s
    · exact ⟨_, _, _, rfl, fun _ _ _ _ _ _ => rfl, fun _ => rfl⟩

/-- The temperatures that the readings give, Lantern by Lantern. -/
theorem State.read_temps (x : Nat → Nat) (l : List Nat) (hl : ∀ n ∈ l, n < 256) (s : State) :
    s.Read (l.foldl (fun t n => t.fsetI pgTRM n Reg.TRM_LANTERN_T (x n)) s) ∧
      ∀ n, (l.foldl (fun t n => t.fsetI pgTRM n Reg.TRM_LANTERN_T (x n)) s).tcode n =
        if n ∈ l then x n % 256 else s.tcode n := by
  induction l generalizing s with
  | nil => exact ⟨State.Read.refl s, fun _ => rfl⟩
  | cons a l ih =>
    obtain ⟨hr, ht⟩ := ih (fun n hn => hl n (List.mem_cons_of_mem _ hn)) (s.fsetI pgTRM a Reg.TRM_LANTERN_T (x a))
    refine ⟨(s.read_temp (hl a (by simp)) _).trans hr, fun n => ?_⟩
    rw [List.foldl_cons, ht n]
    by_cases hn : n ∈ l
    · simp [hn]
    · rw [if_neg hn]
      by_cases ha : n = a
      · subst ha
        rw [if_pos (by simp)]
        exact s.fgetI_fsetI_same _ _ _ (by decide) _
      · rw [if_neg (by simp [ha, hn])]
        exact s.fgetI_fsetI_bank _ _ _ (Ne.symm ha)

/-- What the readings leave in the Trimmer's state. -/
def Trm.sampled (r : Trm) (now : Nat) (x : TrimIn) : Trm :=
  { r with
    sampleAt := now
    hist := (now, x.temps) :: r.hist.filter (fun h => decide (now < h.1 + 250250000))
    pkg := (x.pkg :: r.pkg).take 10
    pnSum := (List.range 8).map fun n => at0 r.pnSum n + at0 x.powers n
    pnCnt := r.pnCnt + 1
    busy := x.busy
    crit := inRow r.crit x.crit
    rails := inRow r.rails x.rails }

/-- The readings after the Trimmer's own: the package power's register and the channels' temperatures. -/
def State.readRest (s : State) (x : TrimIn) : State :=
  let r := s.roundFree (sumL s.trm.pkg : Nat) (1000 * s.trm.pkg.length) 1023
  (List.range x.phys.length).foldl (fun s c => s.phyTemp c (at0 x.phys c)) (r.1.fset pgTRM Reg.TRM_PKGPWR_W r.2)

theorem State.readRest_spec (s : State) (x : TrimIn) : s.Read (s.readRest x) ∧ s.Tuned (s.readRest x) := by
  have hphy (t : State) (c : Nat) : t.Read (t.phyTemp c (at0 x.phys c)) ∧ t.Tuned (t.phyTemp c (at0 x.phys c)) :=
    ⟨⟨_, _, _, rfl, fun _ _ _ _ _ _ => rfl, fun _ => rfl⟩, rfl, rfl, rfl, rfl, rfl, rfl, fun _ => rfl⟩
  exact ⟨((s.read_roundFree _ _ _).trans (State.read_fset _ (f := Reg.TRM_PKGPWR_W) _ (by decide) (by decide))).trans
      (foldl_rel State.Read.refl State.Read.trans (fun t c => (hphy t c).1) _ _),
    ((s.tuned_roundFree _ _ _).trans (State.tuned_fset _ (f := Reg.TRM_PKGPWR_W) _ (by decide) (by decide))).trans
      (foldl_rel State.Tuned.refl State.Tuned.trans (fun t c => (hphy t c).2) _ _)⟩

/-- The state with the Trimmer's own readings taken. -/
def State.withReadings (s : State) (x : TrimIn) : State := { s with trm := s.trm.sampled s.now x }

theorem State.Read.withReadings {s t : State} (h : s.Read t) (x : TrimIn) : (s.withReadings x).Read (t.withReadings x) := by
  obtain ⟨r, d, m, rfl, hr, hg⟩ := h
  exact ⟨r, d, m, rfl, hr, hg⟩

theorem State.sampleRegs_eq (s : State) (x : TrimIn) : s.sampleRegs x =
    ((s.trmLanterns.foldl (fun t n => t.fsetI pgTRM n Reg.TRM_LANTERN_T (Nat.min (at0 x.temps n) 255)) s).withReadings x).readRest x :=
  rfl

/-- The readings of a sample: the Trimmer's own state, the temperatures, and else nothing that the rules judge by. -/
theorem State.sampleRegs_spec (s : State) (x : TrimIn) : (s.withReadings x).Read (s.sampleRegs x) ∧
    ∀ n, n ∈ s.trmLanterns → (s.sampleRegs x).tcode n = min (x.temps.getD n 0) 255 := by
  have hl : ∀ n ∈ s.trmLanterns, n < 256 := by
    intro n hn
    have := List.mem_range.mp (List.mem_of_mem_filter hn)
    omega
  obtain ⟨hr, ht⟩ := State.read_temps (fun n => Nat.min (at0 x.temps n) 255) s.trmLanterns hl s
  rw [State.sampleRegs_eq]
  generalize s.trmLanterns.foldl _ s = u at hr ht ⊢
  obtain ⟨hread, htune⟩ := (u.withReadings x).readRest_spec x
  refine ⟨(hr.withReadings x).trans hread, fun n hn => ?_⟩
  have htu : (u.withReadings x).tcode n = u.tcode n := rfl
  rw [htune.tcode, htu, ht, if_pos hn]
  exact Nat.mod_eq_of_lt (Nat.lt_succ_of_le (Nat.min_le_right _ _))

/-! ## The rails (18 R443; 22 R498) -/

/-- A rail's voltage step, and nothing else of the Trimmer. -/
theorem State.setVolt_shape (s : State) (n k : Nat) : ∃ v o, s.setVolt n k = { s with trm := { s.trm with vset := v }, out := o } ∧
    ∀ m, aget 0 v m = if m = n then k else aget 0 s.trm.vset m := by
  unfold State.setVolt
  split
  · next h =>
    refine ⟨s.trm.vset, s.out, rfl, fun m => ?_⟩
    split
    · next hm => rw [hm, h]
    · rfl
  · refine ⟨_, _, rfl, fun m => ?_⟩
    split
    · next hm => rw [hm, aget_aset_same]
    · next hm => exact aget_aset_other _ _ _ _ _ (Ne.symm hm)

/-- Every rail of a list follows its Lantern's grant. -/
theorem State.followVolts_fold (l : List Nat) (s : State) :
    ∃ v o, l.foldl (fun t n => t.setVolt n (voltStep (t.grant n))) s = { s with trm := { s.trm with vset := v }, out := o } ∧
      ∀ m, aget 0 v m = if m ∈ l then voltStep (s.grant m) else aget 0 s.trm.vset m := by
  induction l generalizing s with
  | nil => exact ⟨s.trm.vset, s.out, rfl, fun _ => rfl⟩
  | cons a l ih =>
    obtain ⟨v, o, hv, hm⟩ := s.setVolt_shape a (voltStep (s.grant a))
    obtain ⟨v', o', hv', hm'⟩ := ih (s.setVolt a (voltStep (s.grant a)))
    refine ⟨v', o', ?_, fun m => ?_⟩
    · rw [List.foldl_cons, hv', hv]
    · rw [hm', hv]
      by_cases h : m ∈ l
      · rw [if_pos h, if_pos (List.mem_cons_of_mem _ h)]
        rfl
      · rw [if_neg h, hm]
        by_cases ha : m = a
        · simp [ha]
        · simp [ha, h]

theorem State.railsOff_shape (s : State) : ∃ v o, s.railsOff = { s with trm := { s.trm with vset := v }, out := o } := by
  have h : ∀ (l : List Nat) (t : State), ∃ v o, l.foldl (fun t n => t.setVolt n 0) t = { t with trm := { t.trm with vset := v }, out := o } := by
    intro l
    induction l with
    | nil => exact fun t => ⟨t.trm.vset, t.out, rfl⟩
    | cons a l ih =>
      intro t
      obtain ⟨v, o, hv, _⟩ := t.setVolt_shape a 0
      obtain ⟨v', o', hv'⟩ := ih (t.setVolt a 0)
      exact ⟨v', o', by rw [List.foldl_cons, hv', hv]⟩
  exact h _ s

/-! ## The steps of a sample -/

/-- The count of a sensor that this sample names. -/
theorem any_inRow {old : List (Nat × Nat)} {ks : List Nat} {k : Nat} (hk : k ∈ ks) (h : 2 ≤ aget 0 old k) :
    ((inRow old ks).any fun x => decide (3 ≤ x.2)) = true := by
  rw [List.any_eq_true]
  exact ⟨(k, aget 0 old k + 1), List.mem_map.mpr ⟨k, List.mem_eraseDups.mpr hk, rfl⟩, by simpa using h⟩

/-- The steps of a sample that trips nothing: the supplies, the hard limit, rule 1 while the coolant alert stands, the
forecasts. -/
def State.sampleSteps (s : State) : State :=
  let s := s.followVolts.fset pgTRM Reg.TRM_STATUS_HARD 0
  let s := s.trmLanterns.foldl State.hardStep s
  let s := if s.flag pgTRM Reg.TRM_STATUS_ALERT ∧ s.rule1 then
      match s.hottest with
      | some n => (s.pulse 356).lowerGrant n
      | none => s
    else s
  s.tpredRegs.dutyStep

theorem State.trmSample_eq (s : State) (x : TrimIn) : s.trmSample x =
    if (s.sampleRegs x).trm.tripped then s.sampleRegs x
    else if (((s.sampleRegs x).trm.crit.any fun y => decide (3 ≤ y.2)) || (s.sampleRegs x).trm.rails.any fun y => decide (3 ≤ y.2)) then
      (s.sampleRegs x).trip
    else (s.sampleRegs x).sampleSteps := rfl

theorem State.tuned_sampleSteps (s : State) : s.followVolts.Tuned s.sampleSteps := by
  unfold State.sampleSteps
  dsimp only
  have h0 := s.followVolts.tuned_fset (p := pgTRM) (f := Reg.TRM_STATUS_HARD) 0 (by decide) (by decide)
  generalize s.followVolts.fset pgTRM Reg.TRM_STATUS_HARD 0 = t at h0 ⊢
  have h1 := h0.trans (foldl_rel State.Tuned.refl State.Tuned.trans State.tuned_hardStep t.trmLanterns t)
  generalize t.trmLanterns.foldl State.hardStep t = u at h1 ⊢
  have hrest (v : State) : v.Tuned v.tpredRegs.dutyStep := v.tuned_tpredRegs.trans (State.tuned_dutyStep _)
  split
  · split
    · exact ((h1.trans (u.tuned_pulse _)).trans (State.tuned_lowerGrant _ _)).trans (hrest _)
    · exact h1.trans (hrest _)
  · exact h1.trans (hrest _)

/-! ## The lifetime counters (18 R446 to R448) -/

/-- A cycle sample's step keeps the seconds, the sample's time, memory. -/
theorem State.cycLantern_keeps (s : State) (n : Nat) :
    (s.cycLantern n).trm.opSec = s.trm.opSec ∧ (s.cycLantern n).trm.cycAt = s.trm.cycAt ∧ (s.cycLantern n).mem = s.mem := by
  unfold State.cycLantern
  dsimp only
  split <;> exact ⟨rfl, rfl, rfl⟩

theorem State.cycLanterns_keep (l : List Nat) (s : State) :
    (l.foldl State.cycLantern s).trm.opSec = s.trm.opSec ∧ (l.foldl State.cycLantern s).trm.cycAt = s.trm.cycAt ∧
      (l.foldl State.cycLantern s).mem = s.mem := by
  induction l generalizing s with
  | nil => exact ⟨rfl, rfl, rfl⟩
  | cons a l ih =>
    obtain ⟨h1, h2, h3⟩ := ih (s.cycLantern a)
    obtain ⟨k1, k2, k3⟩ := s.cycLantern_keeps a
    exact ⟨h1.trans k1, h2.trans k2, h3.trans k3⟩

/-- `t` is `s` after lifetime registers other than the hours follow the counters. -/
def State.Lifed (s t : State) : Prop :=
  t.trm = s.trm ∧ t.mem = s.mem ∧ t.reg pgTRM 0 0x064 = s.reg pgTRM 0 0x064

theorem State.Lifed.refl (s : State) : s.Lifed s := ⟨rfl, rfl, rfl⟩

theorem State.Lifed.trans {s t u : State} (h : s.Lifed t) (k : t.Lifed u) : s.Lifed u :=
  ⟨k.1.trans h.1, k.2.1.trans h.2.1, k.2.2.trans h.2.2⟩

theorem State.lifed_lifeBit (s : State) {f : Fld} (hf : f.off ≠ 0x064) (c : Bool) : s.Lifed (s.lifeBit f c) := by
  unfold State.lifeBit
  split
  · exact ⟨by simp, by simp, (State.reg_pulse ..).trans (s.reg_fset_other _ _ (regKey_ne_of_off hf))⟩
  · exact State.Lifed.refl s

/-- The hours shown are those counted. -/
theorem State.lifeRegs_spec (s : State) : s.lifeRegs.trm = s.trm ∧ s.lifeRegs.mem = s.mem ∧
    s.lifeRegs.fget pgTRM Reg.TRM_LIFE_HRS_HOURS = s.trm.opSec / 3600 % 2 ^ 32 := by
  have h : (s.setReg pgTRM 0 0x064 (BitVec.ofNat 32 (s.trm.opSec / 3600))).Lifed s.lifeRegs := by
    unfold State.lifeRegs
    dsimp only
    refine (foldl_rel State.Lifed.refl State.Lifed.trans (fun t b => ?_) (List.range 7) _).trans
      ((State.lifed_lifeBit _ (by decide) _).trans (State.lifed_lifeBit _ (by decide) _))
    exact ⟨rfl, rfl, t.reg_setReg_other _ (regKey_ne_of_offs (by decide) (by decide) (by decide))⟩
  obtain ⟨ht, hm, hr⟩ := h
  refine ⟨ht, hm, ?_⟩
  rw [State.fget, State.fgetI, show Reg.TRM_LIFE_HRS_HOURS.off = 0x064 from rfl, hr, State.reg_setReg_same]
  simp [Fld.get, Reg.TRM_LIFE_HRS_HOURS]

/-! ## The statement -/

/-- The Trimmer's tick keeps memory and jobs, and begins the means afresh. -/
theorem State.trimmerTick_spec (s : State) : s.trimmerTick.trm.perAt = s.tbu.ns ∧ s.trimmerTick.trm.pnCnt = 0 ∧
    s.trimmerTick.mem = s.mem ∧ s.trimmerTick.jobs = s.jobs := by
  unfold State.trimmerTick
  dsimp only
  have hmeans : ∀ t : State, t.tbu = s.tbu → t.mem = s.mem → t.jobs = s.jobs →
      (if t.trm.tripped then t else t.grantRules.tpredRegs).dutyStep.tbu = s.tbu ∧
      (if t.trm.tripped then t else t.grantRules.tpredRegs).dutyStep.mem = s.mem ∧
      (if t.trm.tripped then t else t.grantRules.tpredRegs).dutyStep.jobs = s.jobs := by
    intro t htbu hmem hjobs
    have h : t.Tuned (if t.trm.tripped then t else t.grantRules.tpredRegs).dutyStep :=
      (State.Tuned.ite (State.Tuned.refl t) (t.tuned_grantRules.trans (State.tuned_tpredRegs _))).trans (State.tuned_dutyStep _)
    exact ⟨h.tbu.trans htbu, h.mem.trans hmem, h.jobs.trans hjobs⟩
  split
  · obtain ⟨h1, h2, h3⟩ := hmeans s rfl rfl rfl
    exact ⟨congrArg Tbu.ns h1, rfl, h2, h3⟩
  · obtain ⟨h1, h2, h3⟩ := hmeans { s with trm := { s.trm with pnLast := s.trm.pnSum, pnLastCnt := s.trm.pnCnt } } rfl rfl rfl
    exact ⟨congrArg Tbu.ns h1, rfl, h2, h3⟩

/-- Settles O57: each event by the lemma of its operation; the forecasts stand while TRM_STATUS alone changes. -/
theorem trimmerSamplesGrantsAndCounts : Obligations.TrimmerSamplesGrantsAndCounts := by
  intro s e ha
  refine ⟨fun x hdue => ?sample, fun n h1 hh hal => ?rule1, fun h1 hp hr hu k _ => ?none, fun hen hdue => ?period,
    fun hal => ?alert, fun hal => ?deassert, fun hdue => ?cycle, fun hdue => ?save⟩
  case sample =>
    have hex : exec (.trimmerSample e x) s = .next ((elapse e s).trmSample x) := onAwake_of_due _ ha hdue
    obtain ⟨hread, htemp⟩ := (elapse e s).sampleRegs_spec x
    have htrm : ((elapse e s).sampleRegs x).trm = s.trm.sampled (s.now + e) x := by
      rw [hread.trm, ← elapse_now_of_awake e ha, ← elapse_trm e s]
      rfl
    have hmem : ((elapse e s).sampleRegs x).mem = s.mem := hread.mem.trans (elapse_mem e s)
    have hjobs : ((elapse e s).sampleRegs x).jobs = s.jobs := hread.jobs.trans (elapse_jobs e s)
    have hup : (elapse e s).trmLanterns = s.trmLanterns := by
      simp only [State.trmLanterns, funext (elapse_lanternUp e s)]
    have hlist : ((elapse e s).sampleRegs x).trmLanterns = s.trmLanterns := hread.trmLanterns.trans hup
    have hgrant (n : Nat) (hn : n < 8) : ((elapse e s).sampleRegs x).grant n = s.grant n :=
      (hread.grant n).trans (calm_pgTRM.fgetI e s (by omega) (by decide))
    refine ⟨fun htr hcrit hrails => ?quiet, hex, fun k htr hk hcount => ?trip⟩
    case quiet =>
      refine ⟨_, hex, ?_⟩
      rw [State.trmSample_eq]
      generalize (elapse e s).sampleRegs x = r at *
      have hc : r.trm.crit = [] := by rw [htrm, Trm.sampled, hcrit]; rfl
      have hr : r.trm.rails = [] := by rw [htrm, Trm.sampled, hrails]; rfl
      have htr' : r.trm.tripped = false := by rw [htrm]; exact htr
      rw [htr', if_neg (by decide), hc, hr, if_neg (by decide)]
      have ht := r.tuned_sampleSteps
      obtain ⟨v, o, hv, hvolt⟩ := State.followVolts_fold r.trmLanterns r
      rw [State.followVolts, hv] at ht
      refine ⟨?_, ht.tripped.trans htr', ht.mem.trans hmem, ht.jobs.trans hjobs, fun n hn hl => ?_⟩
      · rw [ht.sampleAt, htrm]
        rfl
      · have hmemb : n ∈ s.trmLanterns := List.mem_filter.mpr ⟨List.mem_range.mpr hn, hl⟩
        refine ⟨(ht.tcode n).trans (htemp n (hup ▸ hmemb)), ?_⟩
        rw [ht.vset, hvolt, if_pos (hlist ▸ hmemb), hgrant n hn]
    case trip =>
      rw [hex, State.trmSample_eq]
      generalize (elapse e s).sampleRegs x = r at *
      have htr' : r.trm.tripped = false := by rw [htrm]; exact htr
      have hc : (r.trm.crit.any fun y => decide (3 ≤ y.2)) = true := by rw [htrm]; exact any_inRow hk hcount
      obtain ⟨v, o, hoff⟩ := r.railsOff_shape
      rw [htr', if_neg (by decide), hc, if_pos (by simp), State.trip, htr', if_neg (by decide)]
      refine ⟨_, rfl, ?_, ?_, (State.mem_lines_pulse _ (by decide)).1, (State.mem_lines_pulse _ (by decide)).2, ?_⟩
      · rw [State.pulse_trm, State.fset_trm]
      · rw [State.fget, State.fgetI, State.reg_pulse]
        exact State.fget_fset_same _ pgFLT Reg.FLT_BOOT_READY (by decide) 0
      · rw [State.pulse_mem, State.fset_mem, hoff]
        exact hmem
  case rule1 =>
    have hm : s.StatusMoved ((s.rulesClear.fset pgTRM Reg.TRM_STATUS_SOFT 1).pulse 356) :=
      (s.statusMoved_rulesClear.trans (State.statusMoved_fset _ _ rfl)).trans (State.statusMoved_pulse _ _)
    have h356 := ((s.rulesClear.fset pgTRM Reg.TRM_STATUS_SOFT 1).mem_lines_pulse (l := 356) (by decide)).1
    rw [s.grantRules_of_rule1 h1 hh hal]
    generalize (s.rulesClear.fset pgTRM Reg.TRM_STATUS_SOFT 1).pulse 356 = t at hm h356 ⊢
    refine ⟨fun habove hn => ?_, fun hfloor => ?_⟩
    · have := s.grant_lt n
      rw [State.lowerGrant_of_above (by rw [hm.fmin, hm.grant]; exact habove), hm.grant]
      refine ⟨?_, h356, fun k hk _ => ?_⟩
      · rw [State.grant_fadd_setGrant _ _ _ _ (by omega), if_pos rfl]
      · rw [State.grant_fadd_setGrant _ _ _ _ (by omega), if_neg hk, hm.grant]
    · rw [State.lowerGrant_of_floor (by rw [hm.fmin, hm.grant]; exact hfloor)]
      have hf := (t.statusMoved_fset (f := Reg.TRM_STATUS_FLOOR) 1 rfl).trans (State.statusMoved_pulse _ 357)
      refine ⟨by rw [hf.grant, hm.grant], ?_, (State.mem_lines_pulse _ (by decide)).1⟩
      rw [State.flag, State.fget, State.fgetI, State.reg_pulse]
      exact congrArg (· == 1) (t.fget_fset_same pgTRM Reg.TRM_STATUS_FLOOR (by decide) 1)
  case none => rw [s.grantRules_of_none h1 hp hr hu, s.statusMoved_rulesClear.grant]
  case period =>
    have hex : exec (.trimmerPeriod e) s = .next (elapse e s).trimmerTick := onAwake_of_due _ ha (by simp [hen, hdue])
    obtain ⟨h1, h2, h3, h4⟩ := (elapse e s).trimmerTick_spec
    exact ⟨_, hex, rfl, h1, h2, h3.trans (elapse_mem e s), h4.trans (elapse_jobs e s)⟩
  case alert =>
    refine ⟨_, onAwake_of_due _ ha (by simp [hal]), ?_, (State.mem_lines_pulse _ (by decide)).1,
      (State.mem_lines_pulse _ (by decide)).2, by simp, by simp, by simp⟩
    rw [State.flag, State.fget, State.fgetI, State.reg_pulse]
    exact congrArg (· == 1) (s.fget_fset_same pgTRM Reg.TRM_STATUS_ALERT (by decide) 1)
  case deassert =>
    exact ⟨_, onAwake_of_due _ ha hal, congrArg (· == 1) (s.fget_fset_same pgTRM Reg.TRM_STATUS_ALERT (by decide) 0), rfl, rfl, rfl, rfl⟩
  case cycle =>
    have hnow := elapse_now_of_awake e ha
    set u : State := { elapse e s with trm := { (elapse e s).trm with cycAt := (elapse e s).now, opSec := (elapse e s).trm.opSec + 1 } }
      with hu
    have hex : exec (.cycleSample e) s = .next (u.trmLanterns.foldl State.cycLantern u).lifeRegs := onAwake_of_due _ ha hdue
    obtain ⟨hsec, hat, hmem⟩ := State.cycLanterns_keep u.trmLanterns u
    obtain ⟨ht, hm, hh⟩ := (u.trmLanterns.foldl State.cycLantern u).lifeRegs_spec
    have hop : u.trm.opSec = s.trm.opSec + 1 := by rw [hu]; simp
    refine ⟨_, hex, ?_, ?_, ?_, ?_⟩
    · rw [ht, hsec, hop]
    · rw [ht, hat]
      exact hnow
    · rw [hm, hmem]
      exact elapse_mem e s
    · rw [hh, hsec, hop]
  case save =>
    refine ⟨_, onAwake_of_due _ ha hdue, ?_⟩
    have hnow := elapse_now_of_awake e ha
    simp [State.saveLife, hnow]

end Sys2Proof.Machine
end

section
/-!
PROOF. What moving requests and flits on changes: the Regulator's own state and its ports' counters, the channels, the links and what
goes out (13 R327 to R335; 15 R375).
-/

namespace Sys2Proof.Machine

open Sys2Proof

-- One thread at a time: the stacks of threads that wait for each other count against the check's memory limit.
set_option Elab.async false

/-- `t` is `s` after requests and flits moved on: the Regulator's state, the channels and the links, what went out, and of the
registers none below the ports' pages but the Regulator's own. -/
def State.Flowed (s t : State) : Prop :=
  ∃ r g d l o, t = { s with regs := r, rgl := g, dmc := d, links := l, out := o } ∧ s.out <:+ o ∧
    ∀ p i f, p < 0x040 → p ≠ pgRGL → i < 256 → f < 4096 → t.reg p i f = s.reg p i f

theorem State.Flowed.refl (s : State) : s.Flowed s :=
  ⟨s.regs, s.rgl, s.dmc, s.links, s.out, rfl, List.suffix_refl _, fun _ _ _ _ _ _ _ => rfl⟩

theorem State.Flowed.trans {s t u : State} (h : s.Flowed t) (k : t.Flowed u) : s.Flowed u := by
  obtain ⟨_, _, _, _, _, rfl, ho, hr⟩ := h
  obtain ⟨r, g, d, l, o, rfl, ho', hr'⟩ := k
  exact ⟨r, g, d, l, o, rfl, ho.trans ho', fun p i f h1 h2 h3 h4 => (hr' p i f h1 h2 h3 h4).trans (hr p i f h1 h2 h3 h4)⟩

theorem State.Flowed.ite {s t u : State} {c : Prop} [Decidable c] (h : s.Flowed t) (k : s.Flowed u) :
    s.Flowed (if c then t else u) := by
  split
  · exact h
  · exact k

section
variable {s t : State} (h : s.Flowed t)
include h

theorem State.Flowed.mem : t.mem = s.mem := by obtain ⟨_, _, _, _, _, rfl, _⟩ := h; rfl
theorem State.Flowed.poison : t.poison = s.poison := by obtain ⟨_, _, _, _, _, rfl, _⟩ := h; rfl
theorem State.Flowed.jobs : t.jobs = s.jobs := by obtain ⟨_, _, _, _, _, rfl, _⟩ := h; rfl
theorem State.Flowed.queues : t.queues = s.queues := by obtain ⟨_, _, _, _, _, rfl, _⟩ := h; rfl
theorem State.Flowed.pwr : t.pwr = s.pwr := by obtain ⟨_, _, _, _, _, rfl, _⟩ := h; rfl
theorem State.Flowed.dbg : t.dbg = s.dbg := by obtain ⟨_, _, _, _, _, rfl, _⟩ := h; rfl
theorem State.Flowed.now : t.now = s.now := by obtain ⟨_, _, _, _, _, rfl, _⟩ := h; rfl
theorem State.Flowed.ing : t.ing = s.ing := by obtain ⟨_, _, _, _, _, rfl, _⟩ := h; rfl
theorem State.Flowed.snA : t.snA = s.snA := by obtain ⟨_, _, _, _, _, rfl, _⟩ := h; rfl
theorem State.Flowed.snB : t.snB = s.snB := by obtain ⟨_, _, _, _, _, rfl, _⟩ := h; rfl
theorem State.Flowed.out : s.out <:+ t.out := by obtain ⟨_, _, _, _, _, rfl, ho, _⟩ := h; exact ho

theorem State.Flowed.fget {p : Nat} {f : Fld} (hp : p < 0x040) (hne : p ≠ pgRGL) (hf : f.off < 4096) : t.fget p f = s.fget p f := by
  obtain ⟨_, _, _, _, _, _, _, hr⟩ := h
  exact congrArg f.get (hr p 0 _ hp hne (by decide) hf)

end

/-! ## The operations -/

/-- A register of a port's page or above. -/
theorem State.flowed_setReg (s : State) {p i o : Nat} (v : Word32) (h : 0x040 ≤ p) : s.Flowed (s.setReg p i o v) :=
  ⟨_, _, _, _, _, rfl, List.suffix_refl _, fun _ _ _ _ _ _ _ => s.reg_setReg_other v (by unfold regKey; omega)⟩

/-- A register of the Regulator's page. -/
theorem State.flowed_fset_rgl (s : State) (f : Fld) (x : Nat) (hf : f.off < 4096) : s.Flowed (s.fset pgRGL f x) :=
  ⟨_, _, _, _, _, rfl, List.suffix_refl _, fun _ _ _ _ hp hi ho =>
    s.reg_fset_other f x (regKey_ne_of_page hp.symm (by decide) hi hf ho)⟩

/-- The Regulator's own state. -/
theorem State.flowed_rgl (s : State) (g : Rgl) : s.Flowed { s with rgl := g } :=
  ⟨s.regs, g, s.dmc, s.links, s.out, rfl, List.suffix_refl _, fun _ _ _ _ _ _ _ => rfl⟩

theorem State.flowed_setReq (s : State) (r : Req) : s.Flowed (s.setReq r) := s.flowed_rgl _

theorem State.flowed_setCh (s : State) (c : Nat) (x : DmcCh) : s.Flowed (s.setCh c x) :=
  ⟨s.regs, s.rgl, _, s.links, s.out, rfl, List.suffix_refl _, fun _ _ _ _ _ _ _ => rfl⟩

theorem State.flowed_setLink (s : State) (k : LinkMod) (x : LinkSt) : s.Flowed (s.setLink k x) :=
  ⟨s.regs, s.rgl, s.dmc, _, s.out, rfl, List.suffix_refl _, fun _ _ _ _ _ _ _ => rfl⟩

theorem State.flowed_emit (s : State) (o : OutEvent) : s.Flowed (s.emit o) :=
  ⟨s.regs, s.rgl, s.dmc, s.links, _, rfl, List.suffix_cons _ _, fun _ _ _ _ _ _ _ => rfl⟩

theorem State.flowed_creditNow (s : State) : s.Flowed s.creditNow := s.flowed_rgl _

theorem State.flowed_onWire (s : State) (l : Link) (f : List Byte) : s.Flowed (s.onWire l f) :=
  State.Flowed.ite (s.flowed_emit _) (State.Flowed.refl s)

theorem State.flowed_pump (l : Link) (n : Nat) (s : State) : s.Flowed (s.pump l n) := by
  induction n generalizing s with
  | zero => exact State.Flowed.refl s
  | succ n ih =>
    unfold State.pump
    dsimp only
    split
    · exact State.Flowed.refl s
    · exact ((s.flowed_setLink _ _).trans (State.flowed_onWire _ _ _)).trans (ih _)

theorem State.flowed_transmit (s : State) (l : Link) (f : List Byte) : s.Flowed (s.transmit l f) :=
  (s.flowed_setLink _ _).trans (State.flowed_pump _ _ _)

theorem State.flowed_toGuest (s : State) (r : Req) : s.Flowed (s.toGuest r) :=
  State.Flowed.ite (s.flowed_transmit _ _) (State.Flowed.refl s)

theorem State.flowed_countStall (s : State) (r : Req) : s.Flowed (s.countStall r) := by
  have hp : 0x040 ≤ pgPort r.port := by unfold pgPort; omega
  exact ((s.flowed_rgl _).trans (State.flowed_setReg _ _ hp)).trans (State.flowed_setReg _ _ hp)

theorem State.flowed_leave (s : State) (r : Req) : s.Flowed (s.leave r) := by
  have h (q : Req) : s.Flowed (((s.countStall r).setReq q).toGuest r) :=
    ((s.flowed_countStall r).trans (State.flowed_setReq _ q)).trans (State.flowed_toGuest _ r)
  exact State.Flowed.ite ((h _).trans (State.flowed_fset_rgl _ _ _ (by decide))) (h _)

theorem State.flowed_leaveAll (s : State) : s.Flowed s.leaveAll :=
  foldl_rel State.Flowed.refl State.Flowed.trans
    (fun t r => State.Flowed.ite (t.flowed_leave r) (State.Flowed.refl t)) s.rgl.reqs s

theorem State.flowed_repay (s : State) (c : Nat) : s.Flowed (s.repay c) :=
  State.Flowed.ite (State.Flowed.refl s) (s.flowed_setCh _ _)

theorem State.flowed_takeCredit (s : State) (r : Req) : s.Flowed (s.takeCredit r) :=
  State.Flowed.ite (s.flowed_rgl _) (s.flowed_rgl _)

theorem State.flowed_take (s : State) (c : Nat) : s.Flowed (s.take c) := by
  unfold State.take
  split
  · exact State.Flowed.refl s
  · split
    · exact (s.flowed_setReq _).trans (State.flowed_takeCredit _ _)
    · exact State.Flowed.refl s

theorem State.flowed_snLevels (s : State) : s.Flowed s.snLevels :=
  (s.flowed_fset_rgl _ _ (by decide)).trans (State.flowed_fset_rgl _ _ _ (by decide))

/-- All that requests moving on can change. -/
theorem State.flowed_flow (s : State) : s.Flowed s.flow :=
  ((s.flowed_creditNow.trans (State.flowed_leaveAll _)).trans
    (foldl_rel State.Flowed.refl State.Flowed.trans (fun t c => (t.flowed_repay c).trans (State.flowed_take _ c)) (List.range 16) _)).trans
    (State.flowed_snLevels _)

end Sys2Proof.Machine
end

section
/-!
PROOF. What a reset or a restart of a Snuffer changes: the Snuffers and their pages, the gate, INT_STATUS of the pages whose lines are
forced, and messages (11 R276, R291, R298; 20 R480).
-/

namespace Sys2Proof.Machine

open Sys2Proof

-- One thread at a time: the stacks of threads that wait for each other count against the check's memory limit.
set_option Elab.async false

/-- `t` is `s` after Snuffers were reset or restarted: of the registers only the Snuffers' pages and INT_STATUS differ. -/
def State.SnMoved (s t : State) : Prop :=
  ∃ r o q a b g, t = { s with regs := r, out := o, msixPend := q, snA := a, snB := b, gate := g } ∧ s.out <:+ o ∧
    ∀ p i f, p ≠ pgSNA → p ≠ pgSNB → i < 256 → f < 4096 → f ≠ 0x018 → t.reg p i f = s.reg p i f

theorem State.SnMoved.refl (s : State) : s.SnMoved s :=
  ⟨s.regs, s.out, s.msixPend, s.snA, s.snB, s.gate, rfl, List.suffix_refl _, fun _ _ _ _ _ _ _ _ => rfl⟩

theorem State.SnMoved.trans {s t u : State} (h : s.SnMoved t) (k : t.SnMoved u) : s.SnMoved u := by
  obtain ⟨_, _, _, _, _, _, rfl, ho, hr⟩ := h
  obtain ⟨r, o, q, a, b, g, rfl, ho', hr'⟩ := k
  exact ⟨r, o, q, a, b, g, rfl, ho.trans ho',
    fun p i f h1 h2 h3 h4 h5 => (hr' p i f h1 h2 h3 h4 h5).trans (hr p i f h1 h2 h3 h4 h5)⟩

theorem State.SnMoved.ite {s t u : State} {c : Prop} [Decidable c] (h : s.SnMoved t) (k : s.SnMoved u) :
    s.SnMoved (if c then t else u) := by
  split
  · exact h
  · exact k

section
variable {s t : State} (h : s.SnMoved t)
include h

theorem State.SnMoved.mem : t.mem = s.mem := by obtain ⟨_, _, _, _, _, _, rfl, _⟩ := h; rfl
theorem State.SnMoved.jobs : t.jobs = s.jobs := by obtain ⟨_, _, _, _, _, _, rfl, _⟩ := h; rfl
theorem State.SnMoved.queues : t.queues = s.queues := by obtain ⟨_, _, _, _, _, _, rfl, _⟩ := h; rfl
theorem State.SnMoved.wicks : t.wicks = s.wicks := by obtain ⟨_, _, _, _, _, _, rfl, _⟩ := h; rfl
theorem State.SnMoved.pwr : t.pwr = s.pwr := by obtain ⟨_, _, _, _, _, _, rfl, _⟩ := h; rfl
theorem State.SnMoved.out : s.out <:+ t.out := by obtain ⟨_, _, _, _, _, _, rfl, ho, _⟩ := h; exact ho

theorem State.SnMoved.fget {p : Nat} {f : Fld} (ha : p ≠ pgSNA) (hb : p ≠ pgSNB) (hf : f.off < 4096) (h18 : f.off ≠ 0x018) :
    t.fget p f = s.fget p f := by
  obtain ⟨_, _, _, _, _, _, _, _, hr⟩ := h
  exact congrArg f.get (hr p 0 _ ha hb (by decide) hf h18)

end

/-! ## The operations -/

theorem State.snMoved_setSn (s : State) (i : Sn) (x : Snuffer) : s.SnMoved (s.setSn i x) := by
  cases i
  · exact ⟨s.regs, s.out, s.msixPend, x, s.snB, s.gate, rfl, List.suffix_refl _, fun _ _ _ _ _ _ _ _ => rfl⟩
  · exact ⟨s.regs, s.out, s.msixPend, s.snA, x, s.gate, rfl, List.suffix_refl _, fun _ _ _ _ _ _ _ _ => rfl⟩

/-- A register of a Snuffer's page. -/
theorem State.snMoved_setReg (s : State) (i : Sn) {o : Nat} (v : Word32) (ho : o < 4096) : s.SnMoved (s.setReg (pgSn i) 0 o v) :=
  ⟨_, _, _, _, _, _, rfl, List.suffix_refl _, fun _ _ _ ha hb hi hf _ =>
    s.reg_setReg_other v (regKey_ne_of_page (pgSn_ne_of_ne ha hb) (by decide) hi ho hf)⟩

/-- INT_STATUS of any page. -/
theorem State.snMoved_status (s : State) (p : Nat) (v : Word32) : s.SnMoved (s.setReg p 0 0x018 v) :=
  ⟨_, _, _, _, _, _, rfl, List.suffix_refl _, fun _ _ _ _ _ _ hf h18 =>
    s.reg_setReg_other v (regKey_ne_of_offs h18.symm (by decide) hf)⟩

theorem State.snMoved_msix (s : State) (port part vec : Nat) : s.SnMoved (s.msix port part vec) := by
  unfold State.msix
  dsimp only
  split
  · exact State.SnMoved.refl s
  · split
    · exact ⟨s.regs, s.out, _, s.snA, s.snB, s.gate, rfl, List.suffix_refl _, fun _ _ _ _ _ _ _ _ => rfl⟩
    · exact ⟨s.regs, _, s.msixPend, s.snA, s.snB, s.gate, rfl, List.suffix_cons _ _, fun _ _ _ _ _ _ _ _ => rfl⟩

theorem State.snMoved_pendRise (s : State) (p : Nat) (b : Bool) : s.SnMoved (s.pendRise p b) :=
  State.SnMoved.ite (s.snMoved_msix _ _ _) (State.SnMoved.refl s)

theorem State.snMoved_intClear (s : State) (p : Nat) (v : Word32) : s.SnMoved (s.intClear p v) :=
  State.SnMoved.ite ((s.snMoved_status _ _).trans (State.snMoved_msix _ _ _ _)) (s.snMoved_status _ _)

theorem State.snMoved_pulse (s : State) (l : Nat) : s.SnMoved (s.pulse l) := by
  obtain ⟨a, b, h⟩ := s.pulse_shape l
  exact ⟨s.regs, s.out, s.msixPend, a, b, s.gate, h, List.suffix_refl _, fun p i f _ _ _ _ _ => s.reg_pulse l p i f⟩

theorem State.snMoved_pulseFrom (s : State) (p l : Nat) : s.SnMoved (s.pulseFrom p l) :=
  State.SnMoved.ite (s.snMoved_setSn _ _) (State.SnMoved.ite (s.snMoved_setSn _ _) (s.snMoved_pulse l))

theorem State.snMoved_forceLines (s : State) (p : Nat) (v : Word32) : s.SnMoved (s.forceLines p v) := by
  obtain ⟨f, ks, h⟩ := s.forceLines_shape p v
  rw [h]
  have hk := foldl_rel State.SnMoved.refl State.SnMoved.trans (fun t k => State.snMoved_pulseFrom t p (f k)) ks s
  exact State.SnMoved.ite hk ((hk.trans (State.snMoved_status _ _ _)).trans (State.snMoved_pendRise _ _ _))

theorem State.snMoved_forceAll (s : State) : s.SnMoved s.forceAll := by
  unfold State.forceAll
  refine State.SnMoved.ite (foldl_rel State.SnMoved.refl State.SnMoved.trans (fun t p => ?_) _ s) (State.SnMoved.refl s)
  split
  · exact foldl_rel State.SnMoved.refl State.SnMoved.trans
      (fun u k => (u.snMoved_forceLines p _).trans (State.snMoved_intClear _ p 1)) _ t
  · exact State.SnMoved.refl t

theorem State.snMoved_snEnter (s : State) (i : Sn) (st : SnState) : s.SnMoved (s.snEnter i st) :=
  (s.snMoved_setSn _ _).trans (State.snMoved_setReg _ i _ (by decide))

theorem State.snMoved_gateRearm (s : State) : s.SnMoved s.gateRearm :=
  State.SnMoved.ite
    ⟨s.regs, s.out, s.msixPend, s.snA, s.snB, _, rfl, List.suffix_refl _, fun _ _ _ _ _ _ _ _ => rfl⟩ (State.SnMoved.refl s)

/-- The offsets of a Snuffer page's own registers lie on the page. -/
theorem State.snMoved_snPageReset (s : State) (i : Sn) : s.SnMoved (s.snPageReset i) := by
  have h : ∀ (l : List Nat), (∀ k ∈ l, k < 9) → ∀ t : State,
      t.SnMoved (l.foldl (fun t k => t.setReg (pgSn i) 0 (0x040 + 4 * k) (regReset (pgSn i) (0x040 + 4 * k))) t) := by
    intro l
    induction l with
    | nil => exact fun _ t => State.SnMoved.refl t
    | cons a l ih =>
      intro hl t
      have ha := hl a (by simp)
      exact (t.snMoved_setReg i _ (by omega)).trans (ih (fun k hk => hl k (List.mem_cons_of_mem _ hk)) _)
  exact h _ (fun k hk => List.mem_range.mp hk) s

theorem State.snMoved_snReset (s : State) (i : Sn) : s.SnMoved (s.snReset i) :=
  ((s.snMoved_setSn i _).trans (State.snMoved_snPageReset _ i)).trans (State.snMoved_gateRearm _)

theorem State.snMoved_snStart (s : State) (i : Sn) : s.SnMoved (s.snStart i) :=
  State.SnMoved.ite
    ((((s.snMoved_setReg i _ (by decide)).trans (State.snMoved_setSn _ _ _)).trans (State.snMoved_snEnter _ i .testing)).trans
      (State.snMoved_forceAll _))
    ((s.snMoved_snEnter i .failed).trans (State.snMoved_setReg _ i _ (by decide)))

/-- All that a Snuffer's reset with its start can change. -/
theorem State.snMoved_snRestart (s : State) (i : Sn) : s.SnMoved (s.snRestart i) :=
  State.SnMoved.ite ((s.snMoved_snReset i).trans (State.snMoved_snStart _ i)) (s.snMoved_snReset i)

/-! ## The Snuffers after a reset -/

theorem State.sn_snPageReset (s : State) (i j : Sn) : (s.snPageReset i).sn j = s.sn j :=
  foldl_rel (R := fun t u : State => u.sn j = t.sn j) (fun _ => rfl) (fun h k => k.trans h) (fun t _ => t.sn_setReg _ _ _ _ j)
    (List.range 9) s

theorem State.sn_gateRearm (s : State) (j : Sn) : s.gateRearm.sn j = s.sn j := by
  unfold State.gateRearm
  split
  · cases j <;> rfl
  · rfl

/-- A Snuffer in RESET is what it was after power-up but for its supply, its fuses and its heartbeat. -/
theorem State.sn_snReset_same (s : State) (i : Sn) : (s.snReset i).sn i =
    { Snuffer.zero with supply := (s.sn i).supply, okrev := (s.sn i).okrev, hbIn := (s.sn i).hbIn } := by
  rw [State.snReset, State.sn_gateRearm, State.sn_snPageReset, State.sn_setSn_same]

theorem State.sn_snReset_other (s : State) {i j : Sn} (h : j ≠ i) : (s.snReset i).sn j = s.sn j := by
  rw [State.snReset, State.sn_gateRearm, State.sn_snPageReset, State.sn_setSn_other _ _ h]

end Sys2Proof.Machine
end

section
/-!
PROOF. Glow, Ember and Dark: their entries, the wake and its record, the exit, and the requests of a link meanwhile (18 R426 to R435).
-/

namespace Sys2Proof.Machine

open Sys2Proof

-- One thread at a time: the stacks of threads that wait for each other count against the check's memory limit.
set_option Elab.async false

/-! ## Idle times and entries (18 R427, R428) -/

/-- PWR_CTRL.STATE after it was written. -/
theorem State.pwrSt_fset (s : State) {x : Nat} (hx : x < 4) : (s.fset pgPWR Reg.PWR_CTRL_STATE x).pwrSt = x :=
  (s.fget_fset_same pgPWR Reg.PWR_CTRL_STATE (by decide) x).trans (Nat.mod_eq_of_lt hx)

theorem exec_glowEntry_of_due {s : State} {e : Nat} (ha : s.awake = true) (h0 : s.pwrSt = 0)
    (hus : s.fget pgPWR Reg.PWR_GLOW_IDLE_US ≠ 0) (hd : s.idleDue e (s.fget pgPWR Reg.PWR_GLOW_IDLE_US * 250) = true) :
    exec (.glowEntry e) s = .next ({ elapse e s with pwr := { (elapse e s).pwr with since := (elapse e s).realNow } }.fset
      pgPWR Reg.PWR_CTRL_STATE 1) := by
  refine onAwake_of_due _ ha ?_
  simp only [h0, Bool.and_eq_true, beq_self_eq_true, bne_iff_ne, ne_eq, hus, not_false_eq_true, true_and]
  exact hd

theorem exec_emberEntry_of_due {s : State} {e : Nat} (ha : s.awake = true) (hm : s.emberMay = true)
    (hs : s.fget pgPWR Reg.PWR_EMBER_IDLE_S ≠ 0) (hd : s.idleDue e (s.fget pgPWR Reg.PWR_EMBER_IDLE_S * 250000000) = true) :
    exec (.emberEntry e) s = .next (elapse e s).emberBegin :=
  onAwake_of_due _ ha (by simp [hm, hs, hd])

/-- Step 1 of an Ember entry. -/
theorem State.emberBegin_spec (s : State) : s.emberBegin.fget pgFLT Reg.FLT_BOOT_READY = 0 ∧
    s.emberBegin.pwr.entering = some s.now ∧ s.emberBegin.snA.st = .reset ∧ s.emberBegin.snB.st = .reset ∧
    s.emberBegin.snA.safe = false ∧ s.emberBegin.snB.safe = false ∧ s.emberBegin.mem = s.mem ∧ s.emberBegin.wicks = s.wicks := by
  set t : State := { s.fset pgFLT Reg.FLT_BOOT_READY 0 with pwr := { s.pwr with entering := some s.now } } with ht
  have he : s.emberBegin = (t.snReset .a).snReset .b := rfl
  have hm := (t.snMoved_snReset .a).trans (State.snMoved_snReset _ .b)
  have ha : s.emberBegin.snA = (t.snReset .a).sn .a := by
    rw [he]
    exact State.sn_snReset_other _ (i := .b) (j := .a) (by decide)
  have hb : s.emberBegin.snB = ((t.snReset .a).snReset .b).sn .b := rfl
  rw [State.sn_snReset_same] at ha hb
  rw [ha, hb, he]
  refine ⟨?_, by rw [hm.pwr], rfl, rfl, rfl, rfl, by rw [hm.mem]; rfl, by rw [hm.wicks]; rfl⟩
  rw [hm.fget (by decide) (by decide) (by decide) (by decide)]
  exact s.fget_fset_same pgFLT Reg.FLT_BOOT_READY (by decide) 0

/-! ## The Ember state (18 R430, Table 1) -/

/-- What is found at a key after the values were mapped. -/
theorem aget_map {α : Type} (d : α) (f : α → α) (l : List (Nat × α)) (k : Nat) :
    aget (f d) (l.map fun x => (x.1, f x.2)) k = f (aget d l k) := by
  induction l with
  | nil => rfl
  | cons x l ih =>
    rw [List.map_cons, aget, aget]
    split
    · rfl
    · exact ih

/-- A byte after the Lanterns' memories lost their contents. -/
theorem State.readByte_emberLoss (s : State) (a : Nat) :
    readByte s.emberLoss.mem a = if lanternMem a then 0 else readByte s.mem a := by
  refine (aget_filter memDefault (fun a => !lanternMem a) s.mem a).trans ?_
  cases lanternMem a <;> rfl

theorem State.wick_emberLoss (s : State) (w : Nat) : s.emberLoss.wick w = (s.wick w).unpower :=
  aget_map Wick.zero Wick.unpower s.wicks w

/-- The lifetime registers change registers and lines alone. -/
theorem State.lifeRegs_shape (s : State) : ∃ r a b, s.lifeRegs = { s with regs := r, snA := a, snB := b } := by
  let R : State → State → Prop := fun t u => ∃ r a b, u = { t with regs := r, snA := a, snB := b }
  have htrans : ∀ {t u v : State}, R t u → R u v → R t v := by
    rintro t u v ⟨_, _, _, rfl⟩ ⟨r, a, b, rfl⟩
    exact ⟨r, a, b, rfl⟩
  have hbit (t : State) (f : Fld) (c : Bool) : R t (t.lifeBit f c) := by
    unfold State.lifeBit
    split
    · obtain ⟨a, b, h⟩ := (t.fset pgTRM f 1).pulse_shape 360
      exact ⟨_, a, b, h⟩
    · exact ⟨t.regs, t.snA, t.snB, rfl⟩
  have hfold := foldl_rel (R := R) (fun t => ⟨t.regs, t.snA, t.snB, rfl⟩) htrans
    (f := fun (t : State) b => t.fsetI pgTRM b Reg.TRM_CYC_COUNT
      (Nat.min ((List.range 8).foldl (fun m n => Nat.max m (aget 0 t.trm.counts (8 * n + b))) 0) (2 ^ 32 - 1)))
    (fun t b => ⟨_, t.snA, t.snB, rfl⟩) (List.range 7) (s.setReg pgTRM 0 0x064 (BitVec.ofNat 32 (s.trm.opSec / 3600)))
  have h0 : R s (s.setReg pgTRM 0 0x064 (BitVec.ofNat 32 (s.trm.opSec / 3600))) := ⟨_, s.snA, s.snB, rfl⟩
  exact htrans (htrans (htrans h0 hfold) (hbit _ _ _)) (hbit _ _ _)

/-- The state that Ember is entered in: what it loses, and its times. -/
theorem State.emberIn_spec (s : State) : s.emberIn.pwrSt = 2 ∧ s.emberIn.pwr.entering = none ∧
    s.emberIn.pwr.since = s.realNow ∧ s.emberIn.mem = s.emberLoss.mem ∧ s.emberIn.wicks = s.emberLoss.wicks ∧
    s.emberIn.jobs = s.jobs ∧ s.emberIn.queues = s.queues ∧ s.emberIn.vbufs = s.vbufs := by
  obtain ⟨r, a, b, hl⟩ := (s.countBin 0 6).lifeRegs_shape
  obtain ⟨v, o, hv⟩ := (s.countBin 0 6).lifeRegs.saveLife.emberLoss.railsOff_shape
  refine ⟨State.pwrSt_fset _ (by decide), rfl, ?_⟩
  unfold State.emberIn
  rw [hv, hl]
  exact ⟨rfl, rfl, rfl, rfl, rfl, rfl⟩

/-! ## The wake (18 R432, R434, R435) -/

/-- Of the power state, passing time can change the time of the last activity alone. -/
theorem elapse_pwr (e : Nat) (s : State) : ∃ l, (elapse e s).pwr = { s.pwr with lastAct := l } := by
  unfold elapse
  dsimp only
  have htrace : (if s.tclkOn && decide (s.fget pgPWR Reg.PWR_CTRL_STATE ≤ 1) then s.trace 8 0 (s.nclk e) else s).pwr = s.pwr := by
    split
    · obtain ⟨_, h⟩ := s.trace_shape 8 0 (s.nclk e)
      rw [h]
    · rfl
  generalize (if s.tclkOn && decide (s.fget pgPWR Reg.PWR_CTRL_STATE ≤ 1) then s.trace 8 0 (s.nclk e) else s) = u at htrace ⊢
  have hbusy : (if u.tclkOn then u.busy e else u).pwr = s.pwr := by
    split
    · obtain ⟨_, h⟩ := u.busy_shape e
      rw [h]
      exact htrace
    · exact htrace
  generalize (if u.tclkOn then u.busy e else u) = v at hbusy ⊢
  have hlast : ∃ l, (if v.activity then { v.pwr with lastAct := s.nowAfter e } else v.pwr) = { s.pwr with lastAct := l } := by
    rw [hbusy]
    split
    · exact ⟨_, rfl⟩
    · exact ⟨s.pwr.lastAct, rfl⟩
  obtain ⟨l, hl⟩ := hlast
  exact ⟨l, State.ite_common State.pwr (State.ite_common State.pwr hl hl) hl⟩

/-- The state a wake leaves stands while time passes. -/
theorem elapse_wakeFrom (e : Nat) (s : State) : (elapse e s).wakeFrom = s.wakeFrom := by
  obtain ⟨l, hp⟩ := elapse_pwr e s
  have hl : (elapse e s).live = s.live := by
    rw [State.live, State.live, elapse_powered, State.flag, State.flag, State.fget, State.fget, State.fgetI, State.fgetI,
      show Reg.DBG_FRZ_FROZEN.off = 0x044 from rfl, elapse_freeze]
  have hs : (elapse e s).pwrSt = s.pwrSt := calm_pgPWR.fget e s (by decide)
  unfold State.wakeFrom
  rw [hl, hs, hp]

/-- The mask of the sources that wake. -/
def State.wakeMask (s : State) (f pend : Nat) : Nat := pend &&& s.fget pgPWR Reg.PWR_WAKE_EN_MASK &&& wakeList f

/-- What a wake does after its record (18 R432). -/
def State.wakeAct (s : State) (f : Nat) : State :=
  if f = 1 then { s with pwr := { s.pwr with since := s.realNow, lastAct := s.now } }.fset pgPWR Reg.PWR_CTRL_STATE 0
  else if f = 2 then s.emberLeave
  else { s with pwr := { s.pwr with dark := false, since := s.realNow } }

theorem State.wakeBy_of_masked {s : State} {f pend : Nat} (hf : s.wakeFrom = some f) (hm : s.wakeMask f pend = 0) :
    s.wakeBy pend = s := by
  unfold State.wakeBy
  rw [hf]
  exact if_pos hm

theorem State.wakeBy_of_woken {s : State} {f pend : Nat} (hf : s.wakeFrom = some f) (hm : s.wakeMask f pend ≠ 0) :
    s.wakeBy pend = (s.wakeRecord f (s.wakeMask f pend)).wakeAct f := by
  unfold State.wakeBy
  rw [hf]
  exact if_neg hm

/-- The record changes four registers and draws. -/
theorem State.wakeRecord_shape (s : State) (f m : Nat) : ∃ r, s.wakeRecord f m = { s with regs := r, draws := s.draws + 1 } ∧
    ∀ p o, p = pgPWR ∧ o ∉ [0x054, 0x058, 0x05C, 0x060] → (s.wakeRecord f m).reg p 0 o = s.reg p 0 o := by
  refine ⟨_, rfl, ?_⟩
  rintro p o ⟨rfl, ho⟩
  simp only [List.mem_cons, List.not_mem_nil, or_false, not_or] at ho
  obtain ⟨h1, h2, h3, h4⟩ := ho
  refine (State.reg_setReg_other _ _ (regKey_ne_of_off (Ne.symm h4))).trans ?_
  refine (State.reg_setReg_other _ _ (regKey_ne_of_off (Ne.symm h3))).trans ?_
  exact (State.reg_setReg_other _ _ (regKey_ne_of_off (Ne.symm h2))).trans (State.reg_setReg_other _ _ (regKey_ne_of_off (Ne.symm h1)))

theorem lowestBit_lt (m : Nat) : lowestBit m < 16 := by
  unfold lowestBit
  cases h : (List.range 11).find? fun i => m.testBit i with
  | none => decide
  | some i =>
    have := List.mem_range.mp (List.mem_of_find?_eq_some h)
    simp only [Option.getD_some]
    omega

/-- The fields of the record. -/
theorem State.wakeRecord_spec (s : State) {f m : Nat} (hf : f < 4) (hm : m < 2048) :
    (s.wakeRecord f m).fget pgPWR Reg.PWR_WAKE_LAST_SRC = lowestBit m ∧ (s.wakeRecord f m).fget pgPWR Reg.PWR_WAKE_LAST_FROM = f ∧
    (s.wakeRecord f m).fget pgPWR Reg.PWR_WAKE_LAST_PEND = m ∧
    (s.wakeRecord f m).fget pgPWR Reg.PWR_WAKE_NS_NS = (if f = 3 then 0 else s.tbu.nsec) ∧
    (s.wakeRecord f m).fget pgPWR Reg.PWR_WAKE_SEC_SEC = (if f = 3 then 0 else s.tbu.sec) % 2 ^ 32 := by
  have h54 : (s.wakeRecord f m).reg pgPWR 0 0x054 = BitVec.ofNat 32 (lowestBit m + f * 2 ^ 4 +
      (if s.pwr.entering.isSome then 2 ^ 6 else 0) + m * 2 ^ 16) :=
    (State.reg_setReg_other _ _ (regKey_ne_of_off (by decide))).trans ((State.reg_setReg_other _ _ (regKey_ne_of_off (by decide))).trans
      ((State.reg_setReg_other _ _ (regKey_ne_of_off (by decide))).trans (State.reg_setReg_same _ _ _ _ _)))
  have h58 : (s.wakeRecord f m).reg pgPWR 0 0x058 = BitVec.ofNat 32 (if f = 3 then 0 else s.tbu.nsec) :=
    (State.reg_setReg_other _ _ (regKey_ne_of_off (by decide))).trans ((State.reg_setReg_other _ _ (regKey_ne_of_off (by decide))).trans
      (State.reg_setReg_same _ _ _ _ _))
  have h5c : (s.wakeRecord f m).reg pgPWR 0 0x05C = BitVec.ofNat 32 (if f = 3 then 0 else s.tbu.sec) :=
    (State.reg_setReg_other _ _ (regKey_ne_of_off (by decide))).trans (State.reg_setReg_same _ _ _ _ _)
  have hb := lowestBit_lt m
  have hn : s.tbu.nsec < 1000000000 := Nat.mod_lt _ (by decide)
  have hx : (if s.pwr.entering.isSome then 2 ^ 6 else 0 : Nat) = 0 ∨ (if s.pwr.entering.isSome then 2 ^ 6 else 0 : Nat) = 64 := by
    split
    · exact Or.inr rfl
    · exact Or.inl rfl
  generalize (if s.pwr.entering.isSome then 2 ^ 6 else 0 : Nat) = x at h54 hx
  simp only [State.fget, State.fgetI, Fld.get, Reg.PWR_WAKE_LAST_SRC, Reg.PWR_WAKE_LAST_FROM, Reg.PWR_WAKE_LAST_PEND,
    Reg.PWR_WAKE_NS_NS, Reg.PWR_WAKE_SEC_SEC, h54, h58, h5c, BitVec.toNat_ofNat]
  refine ⟨by omega, by omega, by omega, ?_, by simp⟩
  split <;> omega

/-- What Ember may have lost already when its entry is aborted. -/
theorem State.emberLeave_spec (s : State) : s.emberLeave.pwr.exiting = some s.now ∧ s.emberLeave.pwr.entering = none ∧
    s.emberLeave.pwr.held = s.pwr.held ∧ s.emberLeave.queues = s.queues ∧ s.out <:+ s.emberLeave.out ∧
    (s.pwr.entering = none → s.emberLeave.mem = s.mem) ∧
    ∀ f : Fld, f.off < 4096 → f.off ≠ 0x018 → s.emberLeave.fget pgPWR f = s.fget pgPWR f := by
  have key : ∀ u : State, u.pwr = s.pwr → u.now = s.now → u.queues = s.queues → u.out = s.out → u.regs = s.regs →
      (s.pwr.entering = none → u.mem = s.mem) →
      let v : State := ({ u with pwr := { u.pwr with entering := none, exiting := some u.now } } : State)
      let t := (v.snRestart .a).snRestart .b
      t.pwr.exiting = some s.now ∧ t.pwr.entering = none ∧ t.pwr.held = s.pwr.held ∧ t.queues = s.queues ∧ s.out <:+ t.out ∧
        (s.pwr.entering = none → t.mem = s.mem) ∧
        ∀ f : Fld, f.off < 4096 → f.off ≠ 0x018 → t.fget pgPWR f = s.fget pgPWR f := by
    intro u hp hn hq ho hr hm v t
    have ht : v.SnMoved t := (v.snMoved_snRestart .a).trans (State.snMoved_snRestart _ .b)
    refine ⟨by rw [ht.pwr, ← hn], by rw [ht.pwr], by rw [ht.pwr, ← hp], ht.queues.trans hq, ?_, fun h => ht.mem.trans (hm h),
      fun f hf h18 => (ht.fget (by decide) (by decide) hf h18).trans ?_⟩
    · rw [← ho]
      exact ht.out
    · exact congrArg f.get (State.reg_congr hr _ _ _)
  unfold State.emberLeave
  split
  · next h =>
    have hm : s.pwr.entering = none → ∀ {m : List Host.Cell}, m = s.mem := fun hn => by rw [hn] at h; cases h
    split
    · exact key s.emberLoss.draw rfl rfl rfl rfl rfl fun hn => hm hn
    · exact key s.draw rfl rfl rfl rfl rfl fun _ => rfl
  · exact key s rfl rfl rfl rfl rfl fun _ => rfl

/-- A wake of a state that is not entering Ember keeps memory, the queues and the writes held, and what went out. -/
theorem State.wakeBy_keeps (s : State) (pend : Nat) (he : s.pwr.entering = none) : (s.wakeBy pend).mem = s.mem ∧
    (s.wakeBy pend).queues = s.queues ∧ (s.wakeBy pend).pwr.held = s.pwr.held ∧ s.out <:+ (s.wakeBy pend).out := by
  cases hf : s.wakeFrom with
  | none => rw [State.wakeBy, hf]; exact ⟨rfl, rfl, rfl, List.suffix_refl _⟩
  | some f =>
    by_cases hm : s.wakeMask f pend = 0
    · rw [State.wakeBy_of_masked hf hm]
      exact ⟨rfl, rfl, rfl, List.suffix_refl _⟩
    · rw [State.wakeBy_of_woken hf hm]
      obtain ⟨r, hr, _⟩ := s.wakeRecord_shape f (s.wakeMask f pend)
      rw [hr, State.wakeAct]
      split
      · exact ⟨rfl, rfl, rfl, List.suffix_refl _⟩
      · split
        · obtain ⟨_, _, hh, hq, ho, hmem, _⟩ := State.emberLeave_spec { s with regs := r, draws := s.draws + 1 }
          exact ⟨hmem he, hq, hh, ho⟩
        · exact ⟨rfl, rfl, rfl, List.suffix_refl _⟩

/-! ## The exit from Ember (18 R432) -/

/-- What training and the links' restart keep. -/
structure State.ExitKept (s t : State) : Prop where
  mem : t.mem = s.mem
  jobs : t.jobs = s.jobs
  pwr : t.pwr = s.pwr
  now : t.now = s.now
  dbg : t.dbg = s.dbg

theorem State.ExitKept.refl (s : State) : s.ExitKept s := ⟨rfl, rfl, rfl, rfl, rfl⟩

theorem State.ExitKept.trans {s t u : State} (h : s.ExitKept t) (k : t.ExitKept u) : s.ExitKept u :=
  ⟨k.mem.trans h.mem, k.jobs.trans h.jobs, k.pwr.trans h.pwr, k.now.trans h.now, k.dbg.trans h.dbg⟩

theorem State.ExitKept.ite {s t u : State} {c : Prop} [Decidable c] (h : s.ExitKept t) (k : s.ExitKept u) :
    s.ExitKept (if c then t else u) := by
  split
  · exact h
  · exact k

theorem State.exitKept_retrained (s : State) (c temp : Nat) (good : Bool) : s.ExitKept (s.retrained c temp good) := by
  refine State.ExitKept.ite ⟨rfl, rfl, rfl, rfl, rfl⟩ (State.ExitKept.trans (t := ((s.setCh c { s.ch c with training := none }).fset
    (pgDMCch c) Reg.DMC_CHSTATE_TRAINING 0).fadd (pgDMCch c) Reg.DMC_TRAIN_FAIL_COUNT 1) ⟨rfl, rfl, rfl, rfl, rfl⟩
    ⟨by simp, by simp, by simp, by simp, by simp⟩)

theorem State.exitKept_startGrants (s : State) : s.ExitKept s.startGrants := by
  refine foldl_rel State.ExitKept.refl State.ExitKept.trans (fun t n => ?_) (List.range s.lanterns) s
  obtain ⟨v, o, hv, _⟩ := t.setVolt_shape n (voltStep (t.fget pgTRM Reg.TRM_RAMP_FSTART))
  dsimp only
  rw [hv]
  exact ⟨rfl, rfl, rfl, rfl, rfl⟩

theorem State.exitKept_dmc (s : State) (d : List (Nat × DmcCh)) : s.ExitKept { s with dmc := d } := ⟨rfl, rfl, rfl, rfl, rfl⟩

theorem State.exitKept_emberTrain (s : State) (temps : List (Nat × Nat)) (low : List Nat) : s.ExitKept (s.emberTrain temps low) := by
  unfold State.emberTrain
  dsimp only
  have h1 := foldl_rel (f := fun (t : State) (x : Nat × Nat) => if x.1 < 16 then t.phyTemp x.1 x.2 else t) State.ExitKept.refl
    State.ExitKept.trans (fun t x => State.ExitKept.ite (t.exitKept_dmc _) (State.ExitKept.refl t)) temps s
  generalize temps.foldl _ s = t at h1 ⊢
  have h2 := foldl_rel (f := fun (t : State) c => if (t.dueAt c).isSome then t.retrained c (t.ch c).temp (!low.contains c) else t)
    State.ExitKept.refl State.ExitKept.trans (fun t c => State.ExitKept.ite (t.exitKept_retrained _ _ _) (State.ExitKept.refl t))
    (List.range 16) t
  generalize (List.range 16).foldl _ t = u at h2 ⊢
  exact (h1.trans h2).trans (u.exitKept_dmc _)

theorem State.exitKept_emberLinks (s : State) : s.ExitKept s.emberLinks := ⟨rfl, rfl, rfl, rfl, rfl⟩

/-- The device in Flame again, where no write was held. -/
theorem State.emberOut_spec (s : State) (temps : List (Nat × Nat)) (low : List Nat) (hh : s.pwr.held = []) :
    (s.emberOut temps low).pwrSt = 0 ∧ (s.emberOut temps low).pwr.exiting = none ∧ (s.emberOut temps low).pwr.since = s.realNow ∧
      (s.emberOut temps low).mem = s.mem ∧ (s.emberOut temps low).jobs = s.jobs := by
  have hk : s.ExitKept (s.startGrants.emberTrain temps low).emberLinks :=
    (s.exitKept_startGrants.trans (State.exitKept_emberTrain _ temps low)).trans (State.exitKept_emberLinks _)
  unfold State.emberOut
  dsimp only
  generalize (s.startGrants.emberTrain temps low).emberLinks = u at hk ⊢
  rw [hk.pwr, hh, List.foldl_nil]
  generalize hv : State.fset _ pgPWR Reg.PWR_CTRL_STATE 0 = v
  have hf := v.flowed_flow
  have hst : v.pwrSt = 0 := by rw [← hv]; exact State.pwrSt_fset _ (by decide)
  have hreal : u.realNow = s.realNow := by rw [State.realNow, State.realNow, hk.now, hk.dbg]
  refine ⟨(hf.fget (by decide) (by decide) (by decide)).trans hst, ?_, ?_, ?_, ?_⟩
  · rw [hf.pwr, ← hv]
    rfl
  · rw [hf.pwr, ← hv]
    exact hreal
  · rw [hf.mem, ← hv]
    exact hk.mem
  · rw [hf.jobs, ← hv]
    exact hk.jobs

/-! ## Dark (18 R433) -/

/-- The reset of the chip: what it leaves of the state, whatever its variant. -/
theorem State.chipReset_spec (s : State) : ∃ r f, s.chipReset = { State.reset with
    pending := s.pending, now := s.now, out := s.out, draws := s.draws, fuses := s.fuses
    flash := { s.flash with events := s.flash.events ++ s.flog }
    snA := s.snA, snB := s.snB, hUp0 := s.hUp0, hUp1 := s.hUp1, cfg := s.cfg
    trm := { Trm.zero with opSec := s.trm.opSec, counts := s.trm.counts }
    dbg := { Dbg.zero with frz := s.dbg.frz, frzSn := s.dbg.frzSn }
    pwr := { Pwr.zero with lastAct := s.now, since := s.realNow, dark := s.pwr.dark }
    regs := r, frm := f } := by
  unfold State.chipReset
  split
  · exact ⟨_, _, rfl⟩
  · exact ⟨_, _, rfl⟩

/-! ## Requests of a link in Ember (18 R431) -/

/-- A read of another page is answered with all ones and wakes the device. -/
theorem State.wakeBy_answer (s : State) (size port : Nat) (he : s.pwr.entering = none) :
    OutEvent.answer size (allOnes size) ∈ ((s.answer size (allOnes size)).wakeBy (2 ^ port)).out ∧
      ((s.answer size (allOnes size)).wakeBy (2 ^ port)).mem = s.mem := by
  obtain ⟨hm, _, _, ho⟩ := (s.answer size (allOnes size)).wakeBy_keeps (2 ^ port) he
  exact ⟨ho.subset (List.mem_cons_self ..), hm⟩

/-- A posted write waits in its port's wake buffer, or is lost where that is full. -/
theorem State.emberReq_posted (s : State) (port : Nat) {r : PcieReq} (hr : ∀ fn page off size, r ≠ .readReg fn page off size)
    (ho : ∀ size, r ≠ .readOther size) : s.emberReq port r = if (s.pwr.held.filter fun h => h.1 == port).length < 64 then
      ({ s with pwr := { s.pwr with held := s.pwr.held ++ [(port, r)] } } : State).wakeBy (2 ^ port) else s := by
  cases r with
  | readReg fn page off size => exact absurd rfl (hr fn page off size)
  | readOther size => exact absurd rfl (ho size)
  | writeReg | bell | aperture => rfl

/-! ## The commands -/

theorem glowEntry_enters {s : State} {e : Nat} (ha : s.awake = true) (h0 : s.pwrSt = 0)
    (hus : s.fget pgPWR Reg.PWR_GLOW_IDLE_US ≠ 0) (hd : s.idleDue e (s.fget pgPWR Reg.PWR_GLOW_IDLE_US * 250) = true) :
    ∃ t, exec (.glowEntry e) s = .next t ∧ t.pwrSt = 1 ∧ t.mem = s.mem ∧ t.wicks = s.wicks ∧ t.jobs = s.jobs ∧
      t.queues = s.queues ∧ t.snA = s.snA ∧ t.snB = s.snB :=
  ⟨_, exec_glowEntry_of_due ha h0 hus hd, State.pwrSt_fset _ (by decide), elapse_mem e s, elapse_wicks e s, elapse_jobs e s,
    elapse_queues e s, elapse_snA e s, elapse_snB e s⟩

theorem emberEntry_begins {s : State} {e : Nat} (ha : s.awake = true) (hm : s.emberMay = true)
    (hs : s.fget pgPWR Reg.PWR_EMBER_IDLE_S ≠ 0) (hd : s.idleDue e (s.fget pgPWR Reg.PWR_EMBER_IDLE_S * 250000000) = true) :
    ∃ t, exec (.emberEntry e) s = .next t ∧ t.fget pgFLT Reg.FLT_BOOT_READY = 0 ∧ t.pwr.entering = some (s.now + e) ∧
      t.snA.st = .reset ∧ t.snB.st = .reset ∧ t.snA.safe = false ∧ t.snB.safe = false ∧ t.mem = s.mem ∧ t.wicks = s.wicks := by
  obtain ⟨hready, hent, ha0, hb0, has, hbs, hmem, hw⟩ := (elapse e s).emberBegin_spec
  exact ⟨_, exec_emberEntry_of_due ha hm hs hd, hready, by rw [hent, elapse_now_of_awake e ha], ha0, hb0, has, hbs,
    by rw [hmem, elapse_mem], by rw [hw, elapse_wicks]⟩

theorem emberEntryDone_enters {s : State} {e t0 : Nat} (hl : s.live = true) (ha : s.activity = false)
    (he : s.pwr.entering = some t0) (hd : s.now + e ≤ t0 + 500000) (hlast : s.pwr.lastAct ≤ t0) :
    ∃ t, exec (.emberEntryDone e) s = .next t ∧ t.pwrSt = 2 ∧ t.pwr.entering = none ∧ t.pwr.since = s.realNow + e ∧
      (∀ a, lanternMem a = true → readByte t.mem a = 0) ∧ (∀ a, lanternMem a = false → readByte t.mem a = readByte s.mem a) ∧
      t.jobs = s.jobs ∧ t.queues = s.queues ∧ t.vbufs = s.vbufs ∧
      ∀ w, (t.wick w).sregs = [] ∧ (t.wick w).tiles = [] ∧ ((s.wick w).st = .quarantined → (t.wick w).st = .quarantined) := by
  obtain ⟨hst, hent, hsince, hmem, hw, hjobs, hqueues, hvbufs⟩ := (elapse e s).emberIn_spec
  have hb (a : Nat) : readByte (elapse e s).emberIn.mem a = if lanternMem a then 0 else readByte s.mem a := by
    rw [hmem, State.readByte_emberLoss, elapse_mem]
  have hwick (w : Nat) : (elapse e s).emberIn.wick w = (s.wick w).unpower := by
    rw [State.wick, hw]
    refine (State.wick_emberLoss _ w).trans ?_
    rw [State.wick, elapse_wicks, State.wick]
  refine ⟨_, onLive_of_due _ hl (by simp [ha, he, hd, hlast]), hst, hent, by rw [hsince, elapse_realNow],
    fun a h => by rw [hb, if_pos h], fun a h => by rw [hb, if_neg (by simp [h])], by rw [hjobs, elapse_jobs],
    by rw [hqueues, elapse_queues], by rw [hvbufs, elapse_vbufs], fun w => ?_⟩
  rw [hwick]
  exact ⟨rfl, rfl, fun h => if_pos h⟩

theorem darkEntry_enters {s : State} {e : Nat} (hl : s.live = true) (h2 : s.pwrSt = 2) (hx : s.pwr.exiting = none)
    (hen : s.flag pgPWR Reg.PWR_CTRL_DARK_EN = true) (hs : s.fget pgPWR Reg.PWR_DARK_IDLE_S ≠ 0)
    (hd : e = s.pwr.since + s.fget pgPWR Reg.PWR_DARK_IDLE_S * 250000000 - s.realNow) :
    ∃ t, exec (.darkEntry e) s = .next t ∧ t.pwr.dark = true ∧ t.powered = false ∧ t.hUp0 = false ∧ t.hUp1 = false ∧
      t.mem = [] ∧ t.jobs = [] ∧ t.queues = [] ∧ t.fuses = s.fuses ∧ t.flash.life.opSec = s.trm.opSec := by
  obtain ⟨r, f, hr⟩ := (elapse e s).saveLife.chipReset_spec
  refine ⟨(elapse e s).darkIn, onLive_of_due _ hl (by simp [h2, hx, hen, hs, ← hd]), ?_⟩
  unfold State.darkIn
  rw [hr]
  exact ⟨rfl, rfl, rfl, rfl, rfl, rfl, rfl, elapse_fuses e s, congrArg Trm.opSec (elapse_trm e s)⟩

theorem exec_wake_of_woken {s : State} {pend e f : Nat} (hf : s.wakeFrom = some f) :
    exec (.wake pend e) s = .next ((elapse e s).wakeBy (pend % 2048)) := by
  have h : exec (.wake pend e) s = .next (if s.wakeFrom.isSome then (elapse e s).wakeBy (pend % 2048) else s) := rfl
  rw [h, hf]
  rfl

/-- The states that a wake can leave. -/
theorem State.wakeFrom_cases {s : State} {f : Nat} (hf : s.wakeFrom = some f) : f = 1 ∨ f = 2 ∧ s.live = true ∨ f = 3 := by
  unfold State.wakeFrom at hf
  split at hf
  · exact Or.inr (Or.inr (Option.some.inj hf).symm)
  · split at hf
    · cases hf
    · next hlive =>
      split at hf
      · exact Or.inr (Or.inl ⟨(Option.some.inj hf).symm, by simp_all⟩)
      · split at hf
        · exact Or.inl (Option.some.inj hf).symm
        · cases hf

/-- The record's fields stand after the act of the wake. -/
theorem State.fget_wakeAct (s : State) (f : Nat) {g : Fld} (hg : g.off < 4096) (h18 : g.off ≠ 0x018) (h40 : g.off ≠ 0x040) :
    (s.wakeAct f).fget pgPWR g = s.fget pgPWR g := by
  unfold State.wakeAct
  split
  · exact congrArg g.get (State.reg_setReg_other _ _ (regKey_ne_of_off (Ne.symm h40)))
  · split
    · exact (State.emberLeave_spec s).2.2.2.2.2.2 g hg h18
    · rfl

theorem wake_records {s : State} {pend e f : Nat} (hf : s.wakeFrom = some f) (hm : s.wakeMask f (pend % 2048) ≠ 0) :
    ∃ t, exec (.wake pend e) s = .next t ∧ t.fget pgPWR Reg.PWR_WAKE_LAST_SRC = lowestBit (s.wakeMask f (pend % 2048)) ∧
      t.fget pgPWR Reg.PWR_WAKE_LAST_FROM = f ∧ t.fget pgPWR Reg.PWR_WAKE_LAST_PEND = s.wakeMask f (pend % 2048) ∧
      (f = 1 → t.pwrSt = 0 ∧ t.mem = s.mem ∧ t.wicks = s.wicks ∧ t.snA = s.snA) ∧
      (f = 2 → t.pwr.exiting = some (s.now + e) ∧ t.pwr.entering = none ∧ (s.pwr.entering = none → t.mem = s.mem)) ∧
      (f = 3 → t.pwr.dark = false ∧ t.fget pgPWR Reg.PWR_WAKE_NS_NS = 0 ∧ t.fget pgPWR Reg.PWR_WAKE_SEC_SEC = 0) ∧
      (f ≠ 3 → t.fget pgPWR Reg.PWR_WAKE_NS_NS = (elapse e s).tbu.nsec) := by
  have hcases := State.wakeFrom_cases hf
  have hmask : (elapse e s).wakeMask f (pend % 2048) = s.wakeMask f (pend % 2048) := by
    rw [State.wakeMask, State.wakeMask, calm_pgPWR.fget e s (by decide)]
  have hlt : s.wakeMask f (pend % 2048) < 2048 :=
    lt_of_le_of_lt (Nat.and_le_left.trans Nat.and_le_left) (Nat.mod_lt _ (by decide))
  generalize s.wakeMask f (pend % 2048) = m at hm hmask hlt
  have hf4 : f < 4 := by omega
  have hby := State.wakeBy_of_woken ((elapse_wakeFrom e s).trans hf) (by rw [hmask]; exact hm)
  rw [hmask] at hby
  obtain ⟨hsrc, hfrom, hpend, hns, hsec⟩ := (elapse e s).wakeRecord_spec hf4 hlt
  obtain ⟨r, hr, _⟩ := (elapse e s).wakeRecord_shape f m
  have hkeep {g : Fld} (hg : g.off < 4096) (h18 : g.off ≠ 0x018) (h40 : g.off ≠ 0x040) :=
    ((elapse e s).wakeRecord f m).fget_wakeAct f hg h18 h40
  obtain ⟨l, hp⟩ := elapse_pwr e s
  refine ⟨_, (exec_wake_of_woken hf).trans (congrArg Host.Outcome.next hby), (hkeep (by decide) (by decide) (by decide)).trans hsrc,
    (hkeep (by decide) (by decide) (by decide)).trans hfrom, (hkeep (by decide) (by decide) (by decide)).trans hpend, ?_, ?_, ?_, ?_⟩
  · rintro rfl
    rw [State.wakeAct, if_pos rfl]
    refine ⟨State.pwrSt_fset _ (by decide), ?_⟩
    rw [hr]
    exact ⟨elapse_mem e s, elapse_wicks e s, elapse_snA e s⟩
  · rintro rfl
    have hlive : s.live = true := by simpa using hcases
    obtain ⟨hx, hent, _, _, _, hmem, _⟩ := ((elapse e s).wakeRecord 2 m).emberLeave_spec
    rw [State.wakeAct, if_neg (by decide), if_pos rfl, hx, hent]
    refine ⟨?_, rfl, fun hn => (hmem ?_).trans ?_⟩
    · rw [hr]
      exact congrArg some (elapse_now_of_live e hlive)
    · rw [hr]
      exact (congrArg Pwr.entering hp).trans hn
    · rw [hr]
      exact elapse_mem e s
  · rintro rfl
    refine ⟨rfl, (hkeep (by decide) (by decide) (by decide)).trans hns, (hkeep (by decide) (by decide) (by decide)).trans hsec⟩
  · intro h3
    exact ((hkeep (by decide) (by decide) (by decide)).trans hns).trans (if_neg h3)

theorem emberExitDone_ends {s : State} {e t0 : Nat} (temps : List (Nat × Nat)) (low : List Nat) (hl : s.live = true)
    (hx : s.pwr.exiting = some t0) (hd : s.now + e ≤ t0 + 800000) :
    ∃ t, exec (.emberExitDone e temps low) s = .next t ∧ t = (elapse e s).emberOut temps low ∧
      (s.pwr.held = [] → t.pwrSt = 0 ∧ t.pwr.exiting = none ∧ t.pwr.since = s.realNow + e ∧ t.mem = s.mem ∧ t.jobs = s.jobs) := by
  refine ⟨_, onLive_of_due _ hl (by simp [hx, hd]), rfl, fun hh => ?_⟩
  obtain ⟨l, hp⟩ := elapse_pwr e s
  obtain ⟨hst, hexit, hsince, hmem, hjobs⟩ := (elapse e s).emberOut_spec temps low ((congrArg Pwr.held hp).trans hh)
  exact ⟨hst, hexit, by rw [hsince, elapse_realNow], by rw [hmem, elapse_mem], by rw [hjobs, elapse_jobs]⟩

/-- Settles O56: each power state is entered after its idle time and left by an enabled source, as the lemmas above say. -/
theorem powerStatesFollowChapter18 : Obligations.PowerStatesFollowChapter18 := by
  unfold Obligations.PowerStatesFollowChapter18
  intro s e
  refine ⟨glowEntry_enters, emberEntry_begins, fun t0 => emberEntryDone_enters, darkEntry_enters, fun pend f hf => ?_,
    fun t0 temps low => emberExitDone_ends temps low, fun port hl h2 hp hup hent => ?_⟩
  · refine ⟨fun hm => ?_, wake_records hf⟩
    rw [exec_wake_of_woken hf, State.wakeBy_of_masked ((elapse_wakeFrom e s).trans hf)]
    rw [State.wakeMask, calm_pgPWR.fget e s (by decide)]
    exact hm
  · have hreq (r : PcieReq) : exec (.emberPcieRequest port r) s = .next (s.emberReq port r) :=
      onLive_of_due _ hl (by simp [h2, hp, hup])
    refine ⟨fun off size => by rw [hreq, State.emberReq, if_pos ⟨rfl, rfl⟩],
      fun size => ⟨_, hreq _, s.wakeBy_answer size port hent⟩,
      fun fn page off size h => ⟨_, hreq _, ?_⟩, fun r hr ho => ⟨fun hlt => ⟨_, hreq r, ?_⟩, fun hge => ?_⟩⟩
    · rw [State.emberReq, if_neg (by tauto)]
      exact s.wakeBy_answer size port hent
    · rw [s.emberReq_posted port hr ho, if_pos hlt]
      obtain ⟨hmem, hq, hheld, _⟩ := State.wakeBy_keeps { s with pwr := { s.pwr with held := s.pwr.held ++ [(port, r)] } } (2 ^ port) hent
      exact ⟨hmem, hq, hheld⟩
    · rw [hreq, s.emberReq_posted port hr ho, if_neg (by omega)]

end Sys2Proof.Machine
end

section
/-!
PROOF. Power good and the boot's failures, a lost supply, and the device key (19 R450 to R469, 22 R500).
-/

namespace Sys2Proof.Machine

open Sys2Proof

-- One thread at a time: the stacks of threads that wait for each other count against the check's memory limit.
set_option Elab.async false

/-! ## What the steps of a boot keep (19 R450) -/

/-- What each step of a boot, its failure and a freeze then keep. -/
structure State.BootKept (s t : State) : Prop where
  powered : t.powered = s.powered
  released : t.released = s.released
  mem : t.mem = s.mem
  fuses : t.fuses = s.fuses
  image : t.flash.image = s.flash.image
  svn : t.reg pgFLT 0 0x048 = s.reg pgFLT 0 0x048

theorem State.BootKept.refl (s : State) : s.BootKept s := ⟨rfl, rfl, rfl, rfl, rfl, rfl⟩

theorem State.BootKept.trans {s t u : State} (h : s.BootKept t) (k : t.BootKept u) : s.BootKept u :=
  ⟨k.powered.trans h.powered, k.released.trans h.released, k.mem.trans h.mem, k.fuses.trans h.fuses, k.image.trans h.image,
    k.svn.trans h.svn⟩

theorem State.BootKept.ite {s t u : State} {c : Prop} [Decidable c] (h : s.BootKept t) (k : s.BootKept u) :
    s.BootKept (if c then t else u) := by
  split
  · exact h
  · exact k

theorem State.bootKept_setReg (s : State) (p i : Nat) {o : Nat} (v : Word32) (h : 0x048 ≠ o) (ho : o < 4096) :
    s.BootKept (s.setReg p i o v) :=
  ⟨rfl, rfl, rfl, rfl, rfl, s.reg_setReg_other v (regKey_ne_of_offs h.symm ho (by decide))⟩

theorem State.bootKept_fset (s : State) (p : Nat) (f : Fld) (x : Nat) (h : 0x048 ≠ f.off) (ho : f.off < 4096) :
    s.BootKept (s.fset p f x) := s.bootKept_setReg p 0 _ h ho

theorem State.bootKept_setWick (s : State) (w : Nat) (x : Wick) : s.BootKept (s.setWick w x) := ⟨rfl, rfl, rfl, rfl, rfl, rfl⟩

theorem State.bootKept_draw (s : State) : s.BootKept s.draw := ⟨rfl, rfl, rfl, rfl, rfl, rfl⟩

theorem State.bootKept_pulse (s : State) (l : Nat) : s.BootKept (s.pulse l) := by
  obtain ⟨a, b, h⟩ := s.pulse_shape l
  rw [h]
  exact ⟨rfl, rfl, rfl, rfl, rfl, rfl⟩

theorem State.bootKept_lifeBit (s : State) (f : Fld) (c : Bool) (h : 0x048 ≠ f.off) (ho : f.off < 4096) :
    s.BootKept (s.lifeBit f c) :=
  State.BootKept.ite ((s.bootKept_fset pgTRM f 1 h ho).trans (State.bootKept_pulse _ 360)) (State.BootKept.refl s)

theorem State.bootKept_lifeRegs (s : State) : s.BootKept s.lifeRegs := by
  unfold State.lifeRegs
  dsimp only
  refine State.BootKept.trans ?_ ((State.bootKept_lifeBit _ _ _ (by decide) (by decide)).trans
    (State.bootKept_lifeBit _ _ _ (by decide) (by decide)))
  exact (s.bootKept_setReg pgTRM 0 (BitVec.ofNat 32 (s.trm.opSec / 3600)) (o := 0x064) (by decide) (by decide)).trans
    (foldl_rel State.BootKept.refl State.BootKept.trans
      (fun t b => t.bootKept_setReg pgTRM b _ (o := Reg.TRM_CYC_COUNT.off) (by decide) (by decide)) (List.range 7) _)

theorem State.bootKept_trm (s : State) (x : Trm) : s.BootKept { s with trm := x } := ⟨rfl, rfl, rfl, rfl, rfl, rfl⟩

theorem State.bootKept_loadLog (s : State) : s.BootKept s.loadLog := by
  unfold State.loadLog
  dsimp only
  refine State.BootKept.trans (t := (List.range (64 * s.lanterns)).foldl (fun t w =>
    if 3 ≤ s.logCount 0 w then t.setWick w { t.wick w with st := .quarantined } else t) s) ?_ ?_
  · exact foldl_rel State.BootKept.refl State.BootKept.trans
      (fun t w => State.BootKept.ite (t.bootKept_setWick w _) (State.BootKept.refl t)) _ s
  · generalize (List.range (64 * s.lanterns)).foldl _ s = u
    have hbonds : u.BootKept ((List.range u.lanterns).foldl (fun t n => (List.range 64).foldl (fun t k =>
        if 0 < u.logCount 2 (64 * n + k) then
          (if k < 32 then t.fset (pgRSV n) ⟨0x04C, k, k⟩ 1 else t.fset (pgRSV n) ⟨0x050, k - 32, k - 32⟩ 1)
        else t) t) u) :=
      foldl_rel State.BootKept.refl State.BootKept.trans (fun t n => foldl_rel State.BootKept.refl State.BootKept.trans
        (fun v k => State.BootKept.ite (State.BootKept.ite (v.bootKept_fset (pgRSV n) ⟨0x04C, k, k⟩ 1 (by simp) (by simp))
          (v.bootKept_fset (pgRSV n) ⟨0x050, k - 32, k - 32⟩ 1 (by simp) (by simp))) (State.BootKept.refl v)) _ t) _ u
    generalize (List.range u.lanterns).foldl _ u = v at hbonds ⊢
    exact (hbonds.trans (v.bootKept_trm _)).trans
      (State.bootKept_setReg _ pgTRM 0 (o := 0x070) _ (by decide) (by decide))

theorem State.bootKept_flash (s : State) {f : Flash} (h : f.image = s.flash.image) : s.BootKept { s with flash := f } :=
  ⟨rfl, rfl, rfl, rfl, h, rfl⟩

theorem State.bootKept_readLog (s : State) (b : BootIn) : s.BootKept (s.readLog b) := by
  unfold State.readLog
  dsimp only
  generalize hf : ({ s.flash with events := _, life := _ } : Flash) = f
  exact (s.bootKept_flash (f := f) (by rw [← hf])).trans (State.bootKept_loadLog _)

/-- The fuses' registers. -/
theorem State.loadFuses_shape (s : State) : ∃ r, s.loadFuses = { s with regs := r } := by
  let R : State → State → Prop := fun t u => ∃ r, u = { t with regs := r }
  have htrans : ∀ {t u v : State}, R t u → R u v → R t v := by
    rintro t u v ⟨_, rfl⟩ ⟨r, rfl⟩
    exact ⟨r, rfl⟩
  unfold State.loadFuses
  dsimp only
  generalize hu : State.fset _ pgFUS Reg.FUS_ARB_CFG _ = u
  have h0 : R s u := ⟨_, hu.symm⟩
  have hfold := foldl_rel (R := R) (fun t => ⟨t.regs, rfl⟩) htrans
    (f := fun t n => t.setReg (pgRSV n) 0 0x054 (BitVec.ofNat 32 (s.fuses.bondSpare.getD n 0 % 2 ^ 16))) (fun t n => ⟨_, rfl⟩)
    (List.range u.lanterns) u
  exact htrans (htrans h0 hfold) ⟨_, rfl⟩

/-! ## Freeze after a boot (21 R487) -/

/-- A freeze acts where one is asked for. -/
def State.freezeIfAsked (s : State) : State := if s.freezeAsked then s.freezeStart else s

/-- The start of a freeze acts on the Snuffers alone. -/
theorem State.snuffersAct_freezeWire (s : State) (i : Sn) : s.SnuffersAct (s.freezeWire i) :=
  State.snuffersAct_ite _ ((s.lineAct_snuffersAct i 387).trans (State.commandStop_snuffersAct _ i 3 387)) s.snuffersAct_refl

theorem State.freezeStart_acts (s : State) : ∃ d, ({ s with dbg := d } : State).SnuffersAct s.freezeStart := by
  unfold State.freezeStart
  split
  · exact ⟨s.dbg, s.snuffersAct_refl⟩
  · refine ⟨{ s.dbg with asked := some s.now }, ?_⟩
    dsimp only
    exact State.snuffersAct_ite _ (State.snuffersAct_refl _)
      ((State.snuffersAct_freezeWire _ .a).trans (State.snuffersAct_freezeWire _ .b))

theorem State.freezeIfAsked_spec (s : State) : s.BootKept s.freezeIfAsked ∧
    ∀ o, o < 4096 → s.freezeIfAsked.reg pgFLT 0 o = s.reg pgFLT 0 o := by
  have h : ∃ d, ({ s with dbg := d } : State).SnuffersAct s.freezeIfAsked := by
    unfold State.freezeIfAsked
    split
    · exact s.freezeStart_acts
    · exact ⟨s.dbg, s.snuffersAct_refl⟩
  obtain ⟨d, hd⟩ := h
  have hreg (o : Nat) (ho : o < 4096) : s.freezeIfAsked.reg pgFLT 0 o = s.reg pgFLT 0 o :=
    hd.reg pgFLT 0 o (by decide) (by decide) (by decide) ho
  refine ⟨?_, hreg⟩
  have hsvn := hreg 0x048 (by decide)
  obtain ⟨r, o, q, a, b, g, hs⟩ := hd.shape
  exact ⟨by rw [hs], by rw [hs], by rw [hs], by rw [hs], by rw [hs], hsvn⟩

/-! ## Failures of a boot (19 R454) -/

/-- A failed boot shows the state and the step. -/
theorem State.bootFail_spec (s : State) {st step : Nat} (c : Option Err) (hst : st < 8) (hstep : step < 16) :
    (s.bootFail st step c).freezeIfAsked.bootSt = st ∧ (s.bootFail st step c).freezeIfAsked.fget pgFLT Reg.FLT_BOOT_STEP = step ∧
      s.BootKept (s.bootFail st step c).freezeIfAsked := by
  obtain ⟨hkept, hreg⟩ := (s.bootFail st step c).freezeIfAsked_spec
  have hget (f : Fld) (hf : f.off < 4096) : (s.bootFail st step c).freezeIfAsked.fget pgFLT f = (s.bootFail st step c).fget pgFLT f :=
    congrArg f.get (hreg f.off hf)
  rw [State.bootSt, hget _ (by decide), hget _ (by decide)]
  have key : ∀ (u : State) (x : Nat), u.regs = ((s.fset pgFLT Reg.FLT_BOOT_STATE st).fset pgFLT Reg.FLT_BOOT_STEP step).regs →
      (u.fset pgFLT Reg.FLT_BOOT_CAUSE x).fget pgFLT Reg.FLT_BOOT_STATE = st ∧
      (u.fset pgFLT Reg.FLT_BOOT_CAUSE x).fget pgFLT Reg.FLT_BOOT_STEP = step := by
    intro u x hu
    rw [State.fget_fset_other _ _ _ _ _ (by decide) (by decide) (by decide),
      State.fget_fset_other _ _ _ _ _ (by decide) (by decide) (by decide)]
    have hg (f : Fld) : u.fget pgFLT f = ((s.fset pgFLT Reg.FLT_BOOT_STATE st).fset pgFLT Reg.FLT_BOOT_STEP step).fget pgFLT f :=
      congrArg f.get (State.reg_congr hu _ _ _)
    rw [hg, hg, State.fget_fset_other _ _ _ _ _ (by decide) (by decide) (by decide), State.fget_fset_same _ _ _ (by decide),
      State.fget_fset_same _ _ _ (by decide)]
    exact ⟨Nat.mod_eq_of_lt hst, Nat.mod_eq_of_lt hstep⟩
  have hhead := (s.bootKept_fset pgFLT Reg.FLT_BOOT_STATE st (by decide) (by decide)).trans
    (State.bootKept_fset _ pgFLT Reg.FLT_BOOT_STEP step (by decide) (by decide))
  have hfail : s.BootKept (s.bootFail st step c) := by
    unfold State.bootFail
    cases c with
    | none =>
      exact (hhead.trans (State.bootKept_draw _)).trans (State.bootKept_fset _ pgFLT Reg.FLT_BOOT_CAUSE _ (by decide) (by decide))
    | some e => exact hhead.trans (State.bootKept_fset _ pgFLT Reg.FLT_BOOT_CAUSE _ (by decide) (by decide))
  cases c with
  | none => exact ⟨(key (State.draw _) _ rfl).1, (key (State.draw _) _ rfl).2, hfail.trans hkept⟩
  | some e => exact ⟨(key _ _ rfl).1, (key _ _ rfl).2, hfail.trans hkept⟩

/-! ## Power good -/

theorem State.now_chipReset (s : State) : s.chipReset.now = s.now := by
  obtain ⟨r, f, hr⟩ := s.chipReset_spec
  rw [hr]

/-- The device with power, its rails up. -/
def State.poweredUp (s : State) (b : BootIn) (now : Nat) : State :=
  let p : State := { s with powered := true, hUp0 := true, hUp1 := true, flt := { Flt.zero with goodAt := now, boot := some b } }
  { p with trm := { p.trm with vset := p.railsUp } }

/-- The state in which the steps of a boot begin (22 R500). -/
def State.bootStart (s : State) (b : BootIn) : State := (elapse b.edges (s.chipReset.poweredUp b s.now)).drawKeys

theorem exec_powerGood {s : State} (b : BootIn) (hp : s.powered = false) (hd : s.pwr.dark = false) :
    exec (.powerGood b) s = .next ((s.bootStart b).boot2 b).freezeIfAsked := by
  have h : exec (.powerGood b) s = .next (if s.powered ∨ s.pwr.dark then s else
    ((elapse b.edges (s.chipReset.poweredUp b s.chipReset.now)).drawKeys.boot2 b).freezeIfAsked) := rfl
  rw [h, if_neg (by simp [hp, hd]), s.now_chipReset]
  rfl

theorem State.bootStart_spec (s : State) (b : BootIn) : (s.bootStart b).powered = true ∧ (s.bootStart b).released = false ∧
    (s.bootStart b).mem = [] ∧ (s.bootStart b).fuses = s.fuses ∧ (s.bootStart b).flash.image = s.flash.image := by
  obtain ⟨r, f, hr⟩ := s.chipReset_spec
  have hup : (s.chipReset.poweredUp b s.now).powered = true ∧ (s.chipReset.poweredUp b s.now).released = false ∧
      (s.chipReset.poweredUp b s.now).mem = [] ∧ (s.chipReset.poweredUp b s.now).fuses = s.fuses ∧
      (s.chipReset.poweredUp b s.now).flash.image = s.flash.image := by
    rw [hr]
    exact ⟨rfl, rfl, rfl, rfl, rfl⟩
  have hkeys (t : State) : t.drawKeys.powered = t.powered ∧ t.drawKeys.released = t.released ∧ t.drawKeys.mem = t.mem ∧
      t.drawKeys.fuses = t.fuses ∧ t.drawKeys.flash = t.flash := ⟨rfl, rfl, rfl, rfl, rfl⟩
  obtain ⟨hp, hl, hm, hf, hfl⟩ := hkeys (elapse b.edges (s.chipReset.poweredUp b s.now))
  rw [State.bootStart, hp, hl, hm, hf, hfl, elapse_powered, elapse_released, elapse_mem, elapse_fuses, elapse_flash]
  exact hup

/-- The boot record is that of the state's fuses and flash. -/
theorem State.imageAt_congr {s t : State} (hf : t.fuses = s.fuses) (hi : t.flash.image = s.flash.image) : t.imageAt = s.imageAt := by
  unfold State.imageAt State.objErr
  rw [hf, hi]

/-- The state in which step 3 begins. -/
def State.bootStep3 (s : State) (b : BootIn) : State :=
  ((s.bootStart b).loadFuses.fset pgFLT Reg.FLT_BOOT_STATE 0).fset pgFLT Reg.FLT_BOOT_STEP 3

theorem State.bootStep3_spec (s : State) (b : BootIn) : (s.bootStep3 b).powered = true ∧ (s.bootStep3 b).released = false ∧
    (s.bootStep3 b).mem = [] ∧ (s.bootStep3 b).fuses = s.fuses ∧ (s.bootStep3 b).flash.image = s.flash.image := by
  unfold State.bootStep3
  obtain ⟨r, hr⟩ := (s.bootStart b).loadFuses_shape
  rw [hr]
  exact s.bootStart_spec b

/-- Fuses that fail stop the boot at step 2. -/
theorem powerGood_of_badFuses {s : State} {b : BootIn} (hp : s.powered = false) (hd : s.pwr.dark = false) (hf : b.fuseOk = false) :
    ∃ t, exec (.powerGood b) s = .next t ∧ t.powered = true ∧ t.released = false ∧ t.bootSt = 5 ∧
      t.fget pgFLT Reg.FLT_BOOT_STEP = 2 ∧ t.mem = [] ∧ t.fuses = s.fuses := by
  obtain ⟨hpow, hrel, hmem, hfuses, _⟩ := s.bootStart_spec b
  obtain ⟨hst, hstep, hk⟩ := (s.bootStart b).bootFail_spec (st := 5) (step := 2) (some .dataErrorDetected) (by decide) (by decide)
  refine ⟨_, exec_powerGood b hp hd, ?_⟩
  rw [State.boot2, if_neg (by simp [hf])]
  exact ⟨hk.powered.trans hpow, hk.released.trans hrel, hst, hstep, hk.mem.trans hmem, hk.fuses.trans hfuses⟩

theorem State.boot2_of_goodFuses (s : State) {b : BootIn} (hf : b.fuseOk = true) :
    (s.bootStart b).boot2 b = if 2 ≤ b.imgBad then (s.bootStep3 b).bootFail 2 3 none
      else match s.imageAt with
        | .error e => (s.bootStep3 b).bootFail 2 3 (some e)
        | .ok (h, board) => ((((s.bootStep3 b).runImage h).readLog b).countBin 0 5).lifeRegs.boot4 b board := by
  obtain ⟨_, _, _, hfu, him⟩ := s.bootStep3_spec b
  rw [State.boot2, if_pos hf, ← State.imageAt_congr hfu him]
  rfl

/-- A device without an image that can be read stops in RECOVERY at step 3. -/
theorem powerGood_of_noImage {s : State} {b : BootIn} (hp : s.powered = false) (hd : s.pwr.dark = false) (hf : b.fuseOk = true)
    (hi : s.flash.image = none ∨ 2 ≤ b.imgBad) :
    ∃ t, exec (.powerGood b) s = .next t ∧ t.powered = true ∧ t.released = false ∧ t.bootSt = 2 ∧
      t.fget pgFLT Reg.FLT_BOOT_STEP = 3 ∧ t.mem = [] ∧ t.flash.image = s.flash.image := by
  obtain ⟨hpow, hrel, hmem, _, himg⟩ := s.bootStep3_spec b
  have hfail : ∃ c, (s.bootStart b).boot2 b = (s.bootStep3 b).bootFail 2 3 c := by
    rw [s.boot2_of_goodFuses hf]
    split
    · exact ⟨none, rfl⟩
    · next hb =>
      have hat : s.imageAt = .error .signatureInvalid := by
        unfold State.imageAt
        rw [hi.resolve_right hb]
      rw [hat]
      exact ⟨_, rfl⟩
  obtain ⟨c, hc⟩ := hfail
  obtain ⟨hst, hstep, hk⟩ := (s.bootStep3 b).bootFail_spec (st := 2) (step := 3) c (by decide) (by decide)
  refine ⟨_, exec_powerGood b hp hd, ?_⟩
  rw [hc]
  exact ⟨hk.powered.trans hpow, hk.released.trans hrel, hst, hstep, hk.mem.trans hmem, hk.image.trans himg⟩

theorem State.boot2_of_image {s : State} {b : BootIn} {h : ObjHead} {r : BoardRec} (hf : b.fuseOk = true) (hi : b.imgBad < 2)
    (hat : s.imageAt = .ok (h, r)) :
    (s.bootStart b).boot2 b = ((((s.bootStep3 b).runImage h).readLog b).countBin 0 5).lifeRegs.boot4 b r := by
  rw [s.boot2_of_goodFuses hf, if_neg (by omega), hat]

/-- A board record that is refused stops the boot at step 4. -/
theorem powerGood_of_badBoard {s : State} {b : BootIn} {h : ObjHead} {r : BoardRec} (hp : s.powered = false)
    (hd : s.pwr.dark = false) (hf : b.fuseOk = true) (hi : b.imgBad < 2) (hat : s.imageAt = .ok (h, r)) (hr : r.ok = false) :
    ∃ t, exec (.powerGood b) s = .next t ∧ t.bootSt = 4 ∧ t.fget pgFLT Reg.FLT_BOOT_STEP = 4 ∧
      t.fget pgFLT Reg.FLT_FW_SVN = h.svn % 256 := by
  refine ⟨_, (exec_powerGood b hp hd).trans (by rw [State.boot2_of_image hf hi hat]), ?_⟩
  unfold State.boot4
  dsimp only
  rw [if_pos (by simp [hr])]
  generalize hu : (s.bootStep3 b).runImage h = u
  have hsvn : u.fget pgFLT Reg.FLT_FW_SVN = h.svn % 256 := by
    rw [← hu]
    refine (State.fget_fset_other _ _ _ _ _ (by decide) (by decide) (by decide)).trans ?_
    exact State.fget_fset_same _ _ _ (by decide) _
  have hk := (((u.bootKept_readLog b).trans (u := (u.readLog b).countBin 0 5) ⟨rfl, rfl, rfl, rfl, rfl, rfl⟩).trans
    (State.bootKept_lifeRegs _)).trans (State.bootKept_fset _ pgFLT Reg.FLT_BOOT_STEP 4 (by decide) (by decide))
  generalize ((u.readLog b).countBin 0 5).lifeRegs.fset pgFLT Reg.FLT_BOOT_STEP 4 = v at hk ⊢
  obtain ⟨hst, hstep, hkv⟩ := v.bootFail_spec (st := 4) (step := 4) none (by decide) (by decide)
  exact ⟨hst, hstep, (congrArg (Fld.get Reg.FLT_FW_SVN) (hk.trans hkv).svn).trans hsvn⟩

/-- A boot whose DDR-4 channels train goes on at step 5. -/
theorem State.boot4_of_trained {s : State} {b : BootIn} {r : BoardRec} (hr : r.ok = true)
    (ht : (List.range 16).any ((List.range 16).foldl (fun t c => t.trainChannel b c)
      ((s.fset pgFLT Reg.FLT_BOOT_STEP 4).loadBoard r)).trainBad = false) :
    s.boot4 b r = ((List.range 16).foldl (fun t c => t.trainChannel b c)
      ((s.fset pgFLT Reg.FLT_BOOT_STEP 4).loadBoard r)).boot5 b := by
  unfold State.boot4
  dsimp only
  rw [if_neg (by simp [hr]), if_neg (by rw [ht]; decide)]

/-! ## A lost supply (22 R500, 19 R469) -/

theorem State.linkLost_snuffersAct (s : State) (i : Sn) : s.SnuffersAct (s.linkLost i) :=
  State.snuffersAct_ite _ (s.commandStop_snuffersAct i 6 0) s.snuffersAct_refl

theorem State.sn_linkLost_other (s : State) {i j : Sn} (h : j ≠ i) : (s.linkLost i).sn j = s.sn j := by
  unfold State.linkLost
  split
  · exact s.sn_commandStop_other 6 0 h
  · rfl

theorem State.snLive_linkLost_other (s : State) {i j : Sn} (h : j ≠ i) : (s.linkLost i).snLive j = s.snLive j :=
  State.snLive_congr (by rw [s.sn_linkLost_other h])
    ((s.linkLost_snuffersAct i).reg pgDBG 0 0x044 (by decide) (by decide) (by decide) (by decide))

/-- A Snuffer whose link to the Chandelier is lost stops where it runs. -/
theorem State.linkLost_stops {s : State} {i : Sn} (hl : s.snLive i = true) (ha : (s.sn i).st.active = true) :
    ((s.linkLost i).sn i).st = .stopped ∧ ((s.linkLost i).sn i).safe = false := by
  rw [State.linkLost, if_pos hl, State.sn_commandStop_of_active 6 0 ha]
  exact ⟨rfl, rfl⟩

theorem State.linkLost_of_inactive {s : State} {i : Sn} (ha : (s.sn i).st.active = false) : s.linkLost i = s := by
  rw [State.linkLost, State.commandStop_of_inactive 0 ha (by decide), ite_self]

/-- Both links lost: each Snuffer stops where it runs, and stays as it was where it does not. -/
theorem State.linksLost_spec (s : State) (i : Sn) :
    (s.snLive i = true → (s.sn i).st.active = true →
      (((s.linkLost .a).linkLost .b).sn i).st = .stopped ∧ (((s.linkLost .a).linkLost .b).sn i).safe = false) ∧
    ((s.sn i).st.active = false → ((s.linkLost .a).linkLost .b).sn i = s.sn i) := by
  cases i with
  | a =>
    rw [State.sn_linkLost_other _ (i := .b) (j := .a) (by decide)]
    exact ⟨State.linkLost_stops, fun h => by rw [State.linkLost_of_inactive h]⟩
  | b =>
    have hsn := s.sn_linkLost_other (i := .a) (j := .b) (by decide)
    refine ⟨fun hl ha => State.linkLost_stops ((s.snLive_linkLost_other (by decide)).trans hl) (by rw [hsn]; exact ha), fun h => ?_⟩
    rw [State.linkLost_of_inactive (by rw [hsn]; exact h), hsn]

/-- Flash and the draws alone differ. -/
def State.FlashMoved (s t : State) : Prop := ∃ d f, t = { s with draws := d, flash := f }

theorem State.FlashMoved.ite {s t u : State} {c : Prop} [Decidable c] (h : s.FlashMoved t) (k : s.FlashMoved u) :
    s.FlashMoved (if c then t else u) := by
  split
  · exact h
  · exact k

theorem State.flashMoved_refl (s : State) : s.FlashMoved s := ⟨s.draws, s.flash, rfl⟩

theorem State.flashMoved_draw (s : State) : s.FlashMoved s.draw := ⟨s.draws + 1, s.flash, rfl⟩

theorem State.flashMoved_draw_program (s : State) (k : Nat) (o : Option SignedObj) : s.FlashMoved (s.draw.program k o) :=
  State.FlashMoved.ite ⟨_, _, rfl⟩ ⟨_, _, rfl⟩

/-- A mailbox command that a lost supply tears changes flash alone. -/
theorem State.flashMoved_torn (s : State) : s.FlashMoved s.torn := by
  unfold State.torn
  split
  · next r _ =>
    refine State.FlashMoved.ite s.flashMoved_refl ?_
    cases r.obj with
    | none => exact s.flashMoved_refl
    | some o => exact State.FlashMoved.ite s.flashMoved_refl (State.FlashMoved.ite s.flashMoved_draw (s.flashMoved_draw_program _ _))
  · exact s.flashMoved_refl

/-- Without a mailbox command nothing is torn. -/
theorem State.torn_of_idle {s : State} (h : s.flt.mb = none) : s.torn = s := by
  unfold State.torn
  rw [h]

/-- PWRGD_IN low: what a device that has power keeps. -/
theorem State.powerFail_spec {s : State} (hp : s.powered = true) : s.powerFail.powered = false ∧ s.powerFail.released = false ∧
    s.powerFail.mem = [] ∧ s.powerFail.keys = [] ∧ s.powerFail.jobs = [] ∧ s.powerFail.queues = [] ∧ s.powerFail.fuses = s.fuses ∧
    s.powerFail.trm.opSec = s.trm.opSec ∧ (s.flt.mb = none → s.powerFail.flash.config = s.flash.config) ∧
    ∀ i, s.powerFail.sn i = ((s.linkLost .a).linkLost .b).sn i := by
  obtain ⟨_, _, _, _, _, _, hacts⟩ := ((s.linkLost_snuffersAct .a).trans (State.linkLost_snuffersAct _ .b)).shape
  rw [State.powerFail, if_pos hp]
  generalize (s.linkLost .a).linkLost .b = u at hacts ⊢
  have hu : u.fuses = s.fuses ∧ u.trm = s.trm ∧ u.flt = s.flt ∧ u.flash = s.flash := by
    rw [hacts]
    exact ⟨rfl, rfl, rfl, rfl⟩
  obtain ⟨huf, hut, hum, hufl⟩ := hu
  obtain ⟨d, fl, ht⟩ := u.flashMoved_torn
  have hv : u.torn.fuses = u.fuses ∧ u.torn.trm = u.trm ∧ u.torn.snA = u.snA ∧ u.torn.snB = u.snB := by
    rw [ht]
    exact ⟨rfl, rfl, rfl, rfl⟩
  obtain ⟨hvf, hvt, hva, hvb⟩ := hv
  have hcfg (h : s.flt.mb = none) : u.torn.flash.config = s.flash.config := by
    rw [State.torn_of_idle (by rw [hum]; exact h), hufl]
  generalize u.torn = v at hvf hvt hva hvb hcfg ⊢
  obtain ⟨r, f, hr⟩ := v.chipReset_spec
  rw [hr]
  refine ⟨rfl, rfl, rfl, rfl, rfl, rfl, hvf.trans huf, ?_, hcfg, fun i => ?_⟩
  · exact (congrArg Trm.opSec hvt).trans (congrArg Trm.opSec hut)
  · cases i with
    | a => exact hva
    | b => exact hvb

theorem State.powerFail_off (s : State) : s.powerFail.powered = false ∧ s.powerFail.fuses = s.fuses := by
  by_cases hp : s.powered = true
  · obtain ⟨h, _, _, _, _, _, hf, _⟩ := State.powerFail_spec hp
    exact ⟨h, hf⟩
  · rw [State.powerFail, if_neg hp]
    exact ⟨by simpa using hp, rfl⟩

/-- The retained registers are as after reset once VDD_AON is lost. -/
theorem State.reg_aonLost (s : State) {p off : Nat} (hp : p = pgPWR ∨ p = pgTRM) (ho : off < 4096) :
    s.aonLost.reg p 0 off = regReset p off := by
  refine (aget_filter _ (fun k => !(decide (k / 2 ^ 20 = pgPWR) || decide (k / 2 ^ 20 = pgTRM))) s.regs _).trans (if_neg ?_)
  have hk : regKey p 0 off / 2 ^ 20 = p := by
    unfold regKey
    omega
  rw [hk]
  rcases hp with rfl | rfl <;> decide

/-! ## The statement -/

/-- Settles O58: a boot goes on while its steps pass and stops where one fails; a supply that is lost resets what it feeds. -/
theorem bootAndSupplies : Obligations.BootAndSupplies := by
  unfold Obligations.BootAndSupplies
  refine ⟨fun s b hp hd => ?_, fun s hp => ?_, fun s => ?_, fun s e t0 hl hk hr hd => ?_⟩
  · intro c p u
    have hu : u = s.bootStart b := rfl
    clear_value u
    subst hu
    refine ⟨powerGood_of_badFuses hp hd, powerGood_of_noImage hp hd, fun h r => powerGood_of_badBoard hp hd,
      fun h r hf hi hat hr => ?_⟩
    intro v w ht
    have hboot : (s.bootStart b).boot2 b = (v.countBin 0 5).lifeRegs.boot4 b r := State.boot2_of_image hf hi hat
    have hw : (v.countBin 0 5).lifeRegs.boot4 b r = w.boot5 b := State.boot4_of_trained hr ht
    refine (exec_powerGood b hp hd).trans ?_
    rw [hboot, hw]
    rfl
  · obtain ⟨hpow, hrel, hmem, hkeys, hjobs, hqueues, hfuses, hsec, hcfg, hsn⟩ := State.powerFail_spec hp
    refine ⟨s.powerFail, rfl, hpow, hrel, hmem, hkeys, hjobs, hqueues, hfuses, hsec, hcfg, fun i => ?_⟩
    rw [hsn]
    exact s.linksLost_spec i
  · exact ⟨s.powerFail.aonLost, rfl, s.powerFail_off.1, rfl, rfl, s.powerFail_off.2,
      fun off ho => ⟨State.reg_aonLost _ (Or.inl rfl) ho, State.reg_aonLost _ (Or.inr rfl) ho⟩⟩
  · exact ⟨_, onLive_of_due _ hl (by simp [hk, hr, hd]), rfl, elapse_mem e s, elapse_jobs e s, elapse_snA e s, elapse_flash e s⟩

end Sys2Proof.Machine
end

section
/-!
PROOF. Freeze, its completion and release, and the JTAG instructions (21 R487 to R496).
-/

namespace Sys2Proof.Machine

open Sys2Proof

-- One thread at a time: the stacks of threads that wait for each other count against the check's memory limit.
set_option Elab.async false

/-! ## The freeze wire of the Snuffers (21 R491) -/

theorem State.sn_lineAct_other (s : State) {i j : Sn} (line : Nat) (h : j ≠ i) : (s.lineAct i line).sn j = s.sn j := by
  unfold State.lineAct
  dsimp only
  have hevent : ((s.fadd (pgSn i) Reg.SNA_LINES_COUNT 1).event (pgSn i)).sn j = s.sn j := by rw [State.sn_event, State.sn_fadd]
  generalize (s.fadd (pgSn i) Reg.SNA_LINES_COUNT 1).event (pgSn i) = u at hevent ⊢
  exact State.ite_common (fun t => t.sn j) rfl (State.ite_common (fun t => t.sn j) ((u.sn_setSn_other _ h).trans hevent)
    (State.ite_common (fun t => t.sn j) ((u.sn_commandStop_other 3 line h).trans hevent) hevent))

/-- What a line can do to a Snuffer that runs: it stays ARMED or RUNNING, or it stops. -/
theorem State.sn_lineAct_of_active {s : State} {i : Sn} (line : Nat) (h : (s.sn i).st.active = true) :
    ((s.lineAct i line).sn i).st.active = true ∨ ((s.lineAct i line).sn i).st = .stopped ∧ ((s.lineAct i line).sn i).safe = false := by
  unfold State.lineAct
  dsimp only
  have hevent : ((s.fadd (pgSn i) Reg.SNA_LINES_COUNT 1).event (pgSn i)).sn i = s.sn i := by rw [State.sn_event, State.sn_fadd]
  generalize (s.fadd (pgSn i) Reg.SNA_LINES_COUNT 1).event (pgSn i) = u at hevent ⊢
  have hu : (u.sn i).st.active = true := by rw [hevent]; exact h
  split
  · exact Or.inl h
  · split
    · rw [State.sn_setSn_same]
      exact Or.inl hu
    · split
      · rw [State.sn_commandStop_of_active 3 line hu]
        exact Or.inr ⟨rfl, rfl⟩
      · exact Or.inl hu

/-- The wire stops a Snuffer that keeps running. -/
theorem State.freezeWire_stops {s : State} {i : Sn} (hl : s.snLive i = true) (ha : (s.sn i).st.active = true) :
    ((s.freezeWire i).sn i).st = .stopped ∧ ((s.freezeWire i).sn i).safe = false := by
  rw [State.freezeWire, if_pos hl]
  rcases State.sn_lineAct_of_active 387 ha with h | ⟨hst, hsafe⟩
  · rw [State.sn_commandStop_of_active 3 387 h]
    exact ⟨rfl, rfl⟩
  · have hinactive : ((s.lineAct i 387).sn i).st.active = false := by rw [hst]; rfl
    rw [State.commandStop, if_neg (by rw [hinactive]; decide), if_pos ⟨hst, rfl⟩, State.sn_fset]
    exact ⟨hst, hsafe⟩

theorem State.sn_freezeWire_other (s : State) {i j : Sn} (h : j ≠ i) : (s.freezeWire i).sn j = s.sn j := by
  unfold State.freezeWire
  split
  · rw [State.sn_commandStop_other _ 3 387 h, s.sn_lineAct_other 387 h]
  · rfl

theorem State.snLive_freezeWire_other (s : State) {i j : Sn} (h : j ≠ i) : (s.freezeWire i).snLive j = s.snLive j :=
  State.snLive_congr (by rw [s.sn_freezeWire_other h])
    ((s.snuffersAct_freezeWire i).reg pgDBG 0 0x044 (by decide) (by decide) (by decide) (by decide))

theorem State.freezeWires_stop {s : State} {i : Sn} (hl : s.snLive i = true) (ha : (s.sn i).st.active = true) :
    (((s.freezeWire .a).freezeWire .b).sn i).st = .stopped ∧ (((s.freezeWire .a).freezeWire .b).sn i).safe = false := by
  cases i with
  | a =>
    rw [State.sn_freezeWire_other _ (i := .b) (j := .a) (by decide)]
    exact State.freezeWire_stops hl ha
  | b =>
    have hsn := s.sn_freezeWire_other (i := .a) (j := .b) (by decide)
    exact State.freezeWire_stops ((s.snLive_freezeWire_other (by decide)).trans hl) (by rw [hsn]; exact ha)

/-! ## A freeze request (21 R487) -/

/-- The state in which the first request is held. -/
def State.asked (s : State) : State := { s with dbg := { s.dbg with asked := some s.now } }

/-- The first request: the Snuffers stop where they do not freeze with the device. -/
theorem State.freezeStart_of_first {s : State} (ha : s.dbg.asked = none) (hf : s.flag pgDBG Reg.DBG_FRZ_FROZEN = false) :
    s.freezeStart = if s.scope 3 then s.asked else (s.asked.freezeWire .a).freezeWire .b := by
  unfold State.freezeStart
  rw [if_neg (by simp [ha, hf])]
  rfl

theorem State.freezeStart_asked {s : State} (ha : s.dbg.asked = none) (hf : s.flag pgDBG Reg.DBG_FRZ_FROZEN = false) :
    s.asked.SnuffersAct s.freezeStart := by
  rw [State.freezeStart_of_first ha hf]
  exact State.snuffersAct_ite _ s.asked.snuffersAct_refl
    ((State.snuffersAct_freezeWire _ .a).trans (State.snuffersAct_freezeWire _ .b))

/-- A request that is not the first does nothing. -/
theorem State.freezeStart_of_frozen {s : State} (hf : s.flag pgDBG Reg.DBG_FRZ_FROZEN = true) : s.freezeStart = s := by
  unfold State.freezeStart
  rw [if_pos (Or.inr hf)]

/-- What the Snuffers' stop leaves: the debug state, memory and jobs, and the registers of other pages. -/
theorem State.SnuffersAct.keeps {s t : State} (h : s.SnuffersAct t) : t.dbg = s.dbg ∧ t.mem = s.mem ∧ t.jobs = s.jobs := by
  obtain ⟨_, _, _, _, _, _, hs⟩ := h.shape
  rw [hs]
  exact ⟨rfl, rfl, rfl⟩

theorem State.SnuffersAct.flag_dbg {s t : State} (h : s.SnuffersAct t) {f : Fld} (hf : f.off < 4096) : t.flag pgDBG f = s.flag pgDBG f :=
  congrArg (fun r => f.get r == 1) (h.reg pgDBG 0 f.off (by decide) (by decide) (by decide) hf)

theorem State.flag_fset_other (s : State) (p : Nat) (f g : Fld) (x : Nat) (h : f.ok) (hg : g.lo ≤ g.hi)
    (d : f.off ≠ g.off ∨ g.hi < f.lo ∨ f.hi < g.lo) : (s.fset p f x).flag p g = s.flag p g :=
  congrArg (· == 1) (s.fget_fset_other p f g x h hg d)

/-- A one-bit field after it was written. -/
theorem State.flag_fset_same (s : State) (p : Nat) {f : Fld} (h : f.ok) (h1 : f.hi = f.lo) (x : Nat) :
    (s.fset p f x).flag p f = (x % 2 == 1) := by
  rw [State.flag, s.fget_fset_same p f h, h1, Nat.sub_self, Nat.zero_add, Nat.pow_one]

/-- FREEZE_N low. -/
theorem freezeRequest_starts {s : State} (hp : s.powered = true) (ha : s.dbg.asked = none)
    (hf : s.flag pgDBG Reg.DBG_FRZ_FROZEN = false) :
    ∃ t, exec .freezeRequest s = .next t ∧ t.dbg.asked = some s.now ∧ t.flag pgDBG Reg.DBG_FRZ_BALL = true ∧ t.mem = s.mem ∧
      t.jobs = s.jobs ∧ (s.scope 3 = true → t.snA = s.snA ∧ t.snB = s.snB) ∧
      (s.scope 3 = false → ∀ i, s.snLive i = true → (s.sn i).st.active = true → (t.sn i).st = .stopped ∧ (t.sn i).safe = false) := by
  have hsn (i : Sn) : (s.fset pgDBG Reg.DBG_FRZ_BALL 1).asked.snLive i = s.snLive i := by
    have hflag := s.flag_fset_other pgDBG Reg.DBG_FRZ_BALL Reg.DBG_FRZ_SNUFFERS 1 (by decide) (by decide) (by decide)
    cases i
    · exact congrArg (fun x => s.snA.supply && !x) hflag
    · exact congrArg (fun x => s.snB.supply && !x) hflag
  have hscope : (s.fset pgDBG Reg.DBG_FRZ_BALL 1).scope 3 = s.scope 3 :=
    congrArg (fun r => (Reg.FLT_DEBUG_SCOPE.get r).testBit 3) (s.reg_setReg_other _ (regKey_ne_of_page (by decide) (by decide) (by decide)
      (by decide) (by decide)))
  have hball : (s.fset pgDBG Reg.DBG_FRZ_BALL 1).flag pgDBG Reg.DBG_FRZ_BALL = true := s.flag_fset_same pgDBG (by decide) rfl 1
  have hfrozen : (s.fset pgDBG Reg.DBG_FRZ_BALL 1).flag pgDBG Reg.DBG_FRZ_FROZEN = false :=
    (s.flag_fset_other pgDBG Reg.DBG_FRZ_BALL Reg.DBG_FRZ_FROZEN 1 (by decide) (by decide) (by decide)).trans hf
  have hact := State.freezeStart_asked (s := s.fset pgDBG Reg.DBG_FRZ_BALL 1) ha hfrozen
  have hstart := State.freezeStart_of_first (s := s.fset pgDBG Reg.DBG_FRZ_BALL 1) ha hfrozen
  obtain ⟨hdbg, hmem, hjobs⟩ := hact.keeps
  refine ⟨_, congrArg Host.Outcome.next (if_pos hp), by rw [hdbg]; rfl, (hact.flag_dbg (by decide)).trans hball, hmem, hjobs, ?_, ?_⟩
  · intro h3
    rw [hstart, hscope, if_pos h3]
    exact ⟨rfl, rfl⟩
  · intro h3 i hl hi
    rw [hstart, hscope, if_neg (by simp [h3])]
    exact State.freezeWires_stop ((hsn i).trans hl) (by cases i <;> exact hi)

/-! ## Writes of DBG_CTRL (21 R487, R493) -/

theorem State.blockWrite_dbgCtrl (s : State) (w : Writer) (v : Word32) :
    s.blockWrite w pgDBG .dbg 0x040 v = s.dbgCtrl w v := by simp [State.blockWrite]

section
variable {s : State} {w : Writer} (v : Word32) (hu : s.regsUp w = true) (hr : s.reaches w pgDBG = true)
  (hw : s.mayWrite w pgDBG = true)
include hu hr hw

theorem exec_dbgFreezeWrite : exec (.dbgFreezeWrite w v) s = .next (s.dbgCtrl w v).touch := by
  rw [← State.blockWrite_dbgCtrl s w v]
  exact regWrite_beyondHead v hu hr hw (by decide) rfl (by decide) (by decide) (by decide) (by decide)

theorem exec_dbgScanWrite : exec (.dbgScanWrite w v) s = .next (s.dbgCtrl w v).touch :=
  exec_dbgFreezeWrite v hu hr hw

end

/-- FREEZE = 1 alone. -/
theorem State.dbgCtrl_one (s : State) (w : Writer) : s.dbgCtrl w 1 =
    if s.scope 0 then (s.fset pgDBG Reg.DBG_CTRL_FREEZE 1).freezeStart else s.capture pgDBG .partitionViolation 0 := by
  have h0 : (1 : Word32).getLsbD 0 = true := by decide
  have h1 : (1 : Word32).getLsbD 1 = false := by decide
  unfold State.dbgCtrl
  dsimp only
  rw [h0, h1, if_pos rfl, if_neg (by simp)]

/-- SCAN while the device is frozen. -/
theorem State.dbgCtrl_three {s : State} (hf : s.flag pgDBG Reg.DBG_FRZ_FROZEN = true) (h0 : s.scope 0 = true) (h2 : s.scope 2 = true) :
    s.dbgCtrl .jtag 3 = (s.fset pgDBG Reg.DBG_CTRL_FREEZE 1).fset pgDBG Reg.DBG_FRZ_SCANNED 1 := by
  have hfrozen : (s.fset pgDBG Reg.DBG_CTRL_FREEZE 1).flag pgDBG Reg.DBG_FRZ_FROZEN = true :=
    (s.flag_fset_other pgDBG Reg.DBG_CTRL_FREEZE Reg.DBG_FRZ_FROZEN 1 (by decide) (by decide) (by decide)).trans hf
  have hscope (k : Nat) : (s.fset pgDBG Reg.DBG_CTRL_FREEZE 1).scope k = s.scope k :=
    congrArg (fun r => (Reg.FLT_DEBUG_SCOPE.get r).testBit k) (s.reg_setReg_other _ (regKey_ne_of_page (by decide) (by decide) (by decide)
      (by decide) (by decide)))
  have hb0 : (3 : Word32).getLsbD 0 = true := by decide
  have hb1 : (3 : Word32).getLsbD 1 = true := by decide
  unfold State.dbgCtrl
  dsimp only
  rw [hb0, hb1, if_pos rfl, if_pos h0, State.freezeStart_of_frozen hfrozen, hfrozen, hscope, hscope, h0, h2]
  rfl

theorem dbgFreezeWrite_starts {s : State} {w : Writer} (hu : s.regsUp w = true) (hr : s.reaches w pgDBG = true)
    (hw : s.mayWrite w pgDBG = true) (h0 : s.scope 0 = true) (ha : s.dbg.asked = none)
    (hf : s.flag pgDBG Reg.DBG_FRZ_FROZEN = false) :
    ∃ t, exec (.dbgFreezeWrite w 1) s = .next t ∧ t.dbg.asked = some s.now ∧ t.flag pgDBG Reg.DBG_CTRL_FREEZE = true ∧
      t.mem = s.mem ∧ t.jobs = s.jobs := by
  have hfrozen : (s.fset pgDBG Reg.DBG_CTRL_FREEZE 1).flag pgDBG Reg.DBG_FRZ_FROZEN = false :=
    (s.flag_fset_other pgDBG Reg.DBG_CTRL_FREEZE Reg.DBG_FRZ_FROZEN 1 (by decide) (by decide) (by decide)).trans hf
  have hact := State.freezeStart_asked (s := s.fset pgDBG Reg.DBG_CTRL_FREEZE 1) ha hfrozen
  obtain ⟨hdbg, hmem, hjobs⟩ := hact.keeps
  refine ⟨_, exec_dbgFreezeWrite 1 hu hr hw, ?_⟩
  rw [State.dbgCtrl_one, if_pos h0]
  refine ⟨congrArg Dbg.asked hdbg, ?_, hmem, hjobs⟩
  exact (hact.flag_dbg (f := Reg.DBG_CTRL_FREEZE) (by decide)).trans (s.flag_fset_same pgDBG (by decide) rfl 1)

theorem dbgFreezeWrite_refused {s : State} {w : Writer} (hu : s.regsUp w = true) (hr : s.reaches w pgDBG = true)
    (hw : s.mayWrite w pgDBG = true) (h0 : s.scope 0 = false) (he : s.flag pgDBG Reg.INT_STATUS_ERR = false) :
    ∃ t, exec (.dbgFreezeWrite w 1) s = .next t ∧ t.dbg = s.dbg ∧ t.fget pgDBG Reg.ERR_CODE_CODE = 0x03 ∧ t.mem = s.mem ∧
      t.flag pgDBG Reg.DBG_CTRL_FREEZE = s.flag pgDBG Reg.DBG_CTRL_FREEZE ∧ t.jobs = s.jobs := by
  refine ⟨_, exec_dbgFreezeWrite 1 hu hr hw, ?_⟩
  rw [State.dbgCtrl_one, if_neg (by simp [h0])]
  have hcode : (s.capture pgDBG .partitionViolation 0).fget pgDBG Reg.ERR_CODE_CODE = 0x03 := s.code_capture pgDBG .partitionViolation 0 he
  have hctrl : (s.capture pgDBG .partitionViolation 0).flag pgDBG Reg.DBG_CTRL_FREEZE = s.flag pgDBG Reg.DBG_CTRL_FREEZE :=
    congrArg (fun r => Reg.DBG_CTRL_FREEZE.get r == 1) (s.reg_capture_other pgDBG .partitionViolation 0 (by decide))
  obtain ⟨_, _, _, hs⟩ := s.capture_shape pgDBG .partitionViolation 0
  refine ⟨?_, hcode, ?_, hctrl, ?_⟩ <;> rw [hs] <;> rfl

theorem dbgScanWrite_scans {s : State} (hp : s.powered = true) (hf : s.flag pgDBG Reg.DBG_FRZ_FROZEN = true)
    (hr : s.reaches .jtag pgDBG = true) (hw : s.mayWrite .jtag pgDBG = true) (h0 : s.scope 0 = true) (h2 : s.scope 2 = true) :
    ∃ t, exec (.dbgScanWrite .jtag 3) s = .next t ∧ t.flag pgDBG Reg.DBG_FRZ_SCANNED = true ∧ t.mem = s.mem ∧ t.jobs = s.jobs := by
  have hu : s.regsUp .jtag = true := Bool.and_eq_true_iff.2 ⟨hp, h0⟩
  refine ⟨_, exec_dbgScanWrite 3 hu hr hw, ?_⟩
  rw [State.dbgCtrl_three hf h0 h2]
  exact ⟨(s.fset pgDBG Reg.DBG_CTRL_FREEZE 1).flag_fset_same pgDBG (f := Reg.DBG_FRZ_SCANNED) (by decide) rfl 1, rfl, rfl⟩

/-! ## Completion and release (21 R487 to R494) -/

/-- The registers of a completed freeze. -/
def State.freezeRegs (s : State) (lat : Nat) : State :=
  (((s.fset pgDBG Reg.DBG_FRZ_FROZEN 1).fset pgDBG Reg.DBG_FRZ_SNUFFERS (if s.scope 3 then 1 else 0)).fset pgDBG Reg.DBG_FRZ_LAT lat).fadd
    pgDBG Reg.DBG_FRZ_COUNT_COUNT 1

/-- What they show. -/
theorem State.freezeRegs_spec (s : State) {lat : Nat} (hl : lat ≤ 120) :
    (s.freezeRegs lat).flag pgDBG Reg.DBG_FRZ_FROZEN = true ∧ (s.freezeRegs lat).fget pgDBG Reg.DBG_FRZ_LAT = lat ∧
      (s.freezeRegs lat).flag pgDBG Reg.DBG_FRZ_SNUFFERS = s.scope 3 ∧
      (s.freezeRegs lat).fget pgDBG Reg.DBG_FRZ_COUNT_COUNT = min (s.fget pgDBG Reg.DBG_FRZ_COUNT_COUNT + 1) (2 ^ 32 - 1) := by
  set u := s.fset pgDBG Reg.DBG_FRZ_FROZEN 1 with hu
  set v := u.fset pgDBG Reg.DBG_FRZ_SNUFFERS (if s.scope 3 then 1 else 0) with hv
  set x := v.fset pgDBG Reg.DBG_FRZ_LAT lat with hx
  have hregs : s.freezeRegs lat = x.fadd pgDBG Reg.DBG_FRZ_COUNT_COUNT 1 := rfl
  have hcount {g : Fld} (hg : g.lo ≤ g.hi) (h44 : g.off = 0x044) : (s.freezeRegs lat).fget pgDBG g = x.fget pgDBG g :=
    x.fget_fset_other pgDBG Reg.DBG_FRZ_COUNT_COUNT g _ (by decide) hg (Or.inl (by rw [h44]; decide))
  refine ⟨?_, ?_, ?_, ?_⟩
  · rw [State.flag, hcount (by decide) rfl, hx, State.fget_fset_other _ _ _ _ _ (by decide) (by decide) (by decide), hv,
      State.fget_fset_other _ _ _ _ _ (by decide) (by decide) (by decide), hu, State.fget_fset_same _ _ _ (by decide)]
    rfl
  · rw [hcount (by decide) rfl, hx, State.fget_fset_same _ _ _ (by decide)]
    exact Nat.mod_eq_of_lt (lt_of_le_of_lt hl (by decide))
  · rw [State.flag, hcount (by decide) rfl, hx, State.fget_fset_other _ _ _ _ _ (by decide) (by decide) (by decide), hv,
      State.fget_fset_same _ _ _ (by decide)]
    cases s.scope 3 <;> rfl
  · rw [hregs, State.fget_fadd_same _ _ (by decide), hx, State.fget_fset_other _ _ _ _ _ (by decide) (by decide) (by decide), hv,
      State.fget_fset_other _ _ _ _ _ (by decide) (by decide) (by decide), hu,
      State.fget_fset_other _ _ _ _ _ (by decide) (by decide) (by decide)]
    rfl

theorem freezeComplete_freezes {s : State} {lat : Nat} (hp : s.powered = true) (ha : s.dbg.asked.isSome = true) (hl : lat ≤ 120)
    (he : s.pwr.entering = none) :
    ∃ t, exec (.freezeComplete lat) s = .next t ∧ t.flag pgDBG Reg.DBG_FRZ_FROZEN = true ∧ t.live = false ∧
      t.fget pgDBG Reg.DBG_FRZ_LAT = lat ∧ t.flag pgDBG Reg.DBG_FRZ_SNUFFERS = s.scope 3 ∧
      t.fget pgDBG Reg.DBG_FRZ_COUNT_COUNT = min (s.fget pgDBG Reg.DBG_FRZ_COUNT_COUNT + 1) (2 ^ 32 - 1) ∧
      t.mem = s.mem ∧ t.jobs = s.jobs ∧ t.tbu = s.tbu ∧ t.wicks = s.wicks := by
  set u : State := { s with dbg := { s.dbg with asked := none } } with hu
  have hent : ¬ s.pwr.entering.isSome = true := by simp [he]
  have hdone : s.freezeDone lat = u.freezeRegs lat := if_neg hent
  obtain ⟨hfrozen, hlat, hsn, hcount⟩ := u.freezeRegs_spec hl
  refine ⟨_, (congrArg Host.Outcome.next (if_pos (by simp [hp, ha, hl]))).trans (congrArg Host.Outcome.next hdone), hfrozen, ?_, hlat, hsn,
    hcount, rfl, rfl, rfl, rfl⟩
  rw [State.live, hfrozen]
  exact Bool.and_false _

/-- The ball released. -/
theorem exec_freezeRelease {s : State} (hp : s.powered = true) (hb : s.flag pgDBG Reg.DBG_FRZ_BALL = true)
    (hc : s.flag pgDBG Reg.DBG_CTRL_FREEZE = false) (hh : s.dbg.hold = false) :
    exec .freezeRelease s = .next (if s.flag pgDBG Reg.DBG_FRZ_SCANNED then (s.fset pgDBG Reg.DBG_FRZ_BALL 0).chipReset
      else (s.fset pgDBG Reg.DBG_FRZ_BALL 0).resume) := by
  have hball : (s.fset pgDBG Reg.DBG_FRZ_BALL 0).flag pgDBG Reg.DBG_FRZ_BALL = false := s.flag_fset_same pgDBG (by decide) rfl 0
  have hctrl : (s.fset pgDBG Reg.DBG_FRZ_BALL 0).flag pgDBG Reg.DBG_CTRL_FREEZE = false :=
    (s.flag_fset_other pgDBG _ _ 0 (by decide) (by decide) (by decide)).trans hc
  have hscan : (s.fset pgDBG Reg.DBG_FRZ_BALL 0).flag pgDBG Reg.DBG_FRZ_SCANNED = s.flag pgDBG Reg.DBG_FRZ_SCANNED :=
    s.flag_fset_other pgDBG _ _ 0 (by decide) (by decide) (by decide)
  have hasked : (s.fset pgDBG Reg.DBG_FRZ_BALL 0).freezeAsked = false := by
    rw [State.freezeAsked, hball, hctrl]
    exact hh
  refine (congrArg Host.Outcome.next (if_pos (by rw [hp, hb]; rfl))).trans ?_
  rw [State.freezeEnd, hasked, hscan]
  rfl

theorem State.resume_spec {s : State} (hp : s.powered = true) : s.resume.flag pgDBG Reg.DBG_FRZ_FROZEN = false ∧ s.resume.live = true := by
  have hfrozen : s.resume.flag pgDBG Reg.DBG_FRZ_FROZEN = false :=
    ((s.fset pgDBG Reg.DBG_FRZ_FROZEN 0).flag_fset_other pgDBG Reg.DBG_FRZ_SNUFFERS Reg.DBG_FRZ_FROZEN 0 (by decide) (by decide)
      (by decide)).trans (s.flag_fset_same pgDBG (by decide) rfl 0)
  refine ⟨hfrozen, ?_⟩
  rw [State.live, hfrozen]
  exact Bool.and_eq_true_iff.2 ⟨hp, rfl⟩

/-! ## JTAG (21 R492, R495, R496) -/

/-- EXTEST and CLAMP hold the device frozen. -/
theorem State.freezeStart_holds (s : State) : s.freezeStart.dbg.hold = s.dbg.hold ∧ s.freezeStart.dbg.ir = s.dbg.ir ∧
    s.freezeStart.mem = s.mem ∧ s.freezeStart.jobs = s.jobs := by
  by_cases h : s.dbg.asked.isSome ∨ s.flag pgDBG Reg.DBG_FRZ_FROZEN
  · rw [State.freezeStart, if_pos h]
    exact ⟨rfl, rfl, rfl, rfl⟩
  · obtain ⟨ha, hf⟩ := not_or.mp h
    obtain ⟨hdbg, hmem, hjobs⟩ := (State.freezeStart_asked (by simpa using ha) (by simpa using hf)).keeps
    exact ⟨by rw [hdbg]; rfl, by rw [hdbg]; rfl, hmem, hjobs⟩

theorem State.idcode_odd (s : State) : s.idcode % 2 = 1 := by
  unfold State.idcode
  omega

theorem State.noScope_spec {s : State} (he : s.flag pgDBG Reg.INT_STATUS_ERR = false) :
    s.noScope.dbg.ir = 0xFF ∧ s.noScope.fget pgDBG Reg.ERR_CODE_CODE = 0x03 ∧ s.noScope.mem = s.mem := by
  have hcode : s.noScope.fget pgDBG Reg.ERR_CODE_CODE = 0x03 := (s.setIr 0xFF).code_capture pgDBG .partitionViolation 0 he
  obtain ⟨_, _, _, hs⟩ := (s.setIr 0xFF).capture_shape pgDBG .partitionViolation 0
  refine ⟨?_, hcode, ?_⟩ <;> rw [State.noScope, hs] <;> rfl

/-- The words fetched from a readable Reservoir. -/
theorem State.sramWord_of_reservoir {s : State} {a n : Nat} (hr : s.region a = .reservoir n) (hp : s.poison.contains (a / 64) = false) :
    s.sramWord a = ⟨s.load a 64, byteParity (s.load a 64), parityBit a == 1, false, true⟩ := by
  unfold State.sramWord
  rw [hr, hp]
  rfl

theorem dbgMem_fetches {s : State} {a n : Nat} (hp : s.powered = true) (h0 : s.scope 0 = true) (h1 : s.scope 1 = true)
    (ha : a < 2 ^ 48) (h64 : a % 64 = 0) (hf : s.flag pgDBG Reg.DBG_FRZ_FROZEN = true) (hr : s.region a = .reservoir n)
    (hpoison : s.poison.contains (a / 64) = false) :
    ∃ t, exec (.dbgMem a) s = .next t ∧ t.dbg.ir = 0x21 ∧ t.dbg.word.data = s.load a 64 ∧ t.dbg.word.valid = true ∧
      t.dbg.word.poisoned = false ∧ t.mem = s.mem ∧ t.regs = s.regs ∧
      (s.dbg.ir = 0x21 → OutEvent.dbgWord s.dbg.word ∈ t.out) := by
  have hline : a % 2 ^ 48 / 64 * 64 = a := by omega
  have hexec : exec (.dbgMem a) s = .next (if !s.powered then s else if !(s.scope 0 && s.scope 1) then s.noScope else
      let t := s.emit (.dbgWord (if s.dbg.ir = 0x21 then s.dbg.word else DbgWord.invalid))
      let w := if s.flag pgDBG Reg.DBG_FRZ_FROZEN then s.sramWord (a % 2 ^ 48 / 64 * 64) else DbgWord.invalid
      { t with draws := t.draws + 1, dbg := { t.dbg with ir := 0x21, word := w } }) := rfl
  rw [if_neg (by simp [hp]), if_neg (by simp [h0, h1]), hline, if_pos hf, State.sramWord_of_reservoir hr hpoison] at hexec
  refine ⟨_, hexec, rfl, rfl, rfl, rfl, rfl, rfl, fun hir => ?_⟩
  exact List.mem_cons.2 (Or.inl (by rw [if_pos hir]))

/-- DBG_REG under scope bit 0: the page and the offset of a register address. -/
theorem exec_dbgReg {s : State} {page off : Nat} (rw : Nat) (d : Word32) (hp : s.powered = true) (h0 : s.scope 0 = true)
    (hpage : page < 4096) (hoff : off < 4096) : exec (.dbgReg (0xF000000000 + page * 4096 + off) rw d) s =
      .next (if rw = 0 then (s.setIr 0x20).readReg .jtag page off 4
        else if rw = 1 then (s.setIr 0x20).writeReg .jtag page off 4 (d.setWidth 64) else s.setIr 0x20) := by
  have hmod : (0xF000000000 + page * 4096 + off) % 2 ^ 48 = 0xF000000000 + page * 4096 + off := Nat.mod_eq_of_lt (by omega)
  have hdiv : (0xF000000000 + page * 4096 + off - 0xF000000000) / 4096 = page := by omega
  have hrem : (0xF000000000 + page * 4096 + off) % 4096 = off := by omega
  have h : exec (.dbgReg (0xF000000000 + page * 4096 + off) rw d) s = execDbgReg (0xF000000000 + page * 4096 + off) rw d s := rfl
  rw [h, execDbgReg, hmod, if_neg (by simp [hp]), if_neg (by simp [h0])]
  dsimp only
  rw [if_neg (by omega), hdiv, hrem]

theorem exec_bypass_of_other {s : State} {code : Nat} (hp : s.powered = true) (hc : jtagCodes.contains (code % 256) = false) :
    exec (.bypass code) s = .next (s.setIr (code % 256)) := by
  have hne (k : Nat) (hk : jtagCodes.contains (k % 256) = true) : code ≠ k := by
    rintro rfl
    rw [hk] at hc
    cases hc
  refine congrArg Host.Outcome.next ((if_neg (by simp [hp])).trans ((if_neg fun h => hne 0x20 (by decide) h.1).trans
    ((if_neg fun h => hne 0x21 (by decide) h.1).trans (if_neg (by rw [hc]; decide)))))

/-! ## The statement -/

/-- Settles O60: a freeze starts, completes and ends, and the JTAG instructions act by their scope, as the lemmas above say. -/
theorem freezeAndJtagFollowChapter21 : Obligations.FreezeAndJtagFollowChapter21 := by
  unfold Obligations.FreezeAndJtagFollowChapter21
  intro s hp
  refine ⟨freezeRequest_starts hp, fun w hu hr hw => ⟨dbgFreezeWrite_starts hu hr hw, dbgFreezeWrite_refused hu hr hw⟩,
    dbgScanWrite_scans hp, fun lat => freezeComplete_freezes hp, fun hb hc hh => ⟨fun hs => ?_, fun hs => ?_⟩, ?_, ?_, ?_, fun l => ?_, ?_,
    fun page off d hpage hoff h0 => ⟨exec_dbgReg 0 d hp h0 hpage hoff, exec_dbgReg 1 d hp h0 hpage hoff⟩,
    fun a rw d h0 he => ?_, fun a n h0 h1 => dbgMem_fetches hp h0 h1, fun code hc => ⟨_, exec_bypass_of_other hp hc, rfl, rfl, rfl⟩⟩
  · obtain ⟨hfrozen, hlive⟩ := State.resume_spec (s := s.fset pgDBG Reg.DBG_FRZ_BALL 0) hp
    exact ⟨_, (exec_freezeRelease hp hb hc hh).trans (by rw [if_neg (by simp [hs])]), hfrozen, hlive, rfl, rfl, rfl, rfl, rfl, rfl⟩
  · obtain ⟨r, f, hr⟩ := (s.fset pgDBG Reg.DBG_FRZ_BALL 0).chipReset_spec
    refine ⟨_, (exec_freezeRelease hp hb hc hh).trans (by rw [if_pos hs]), ?_⟩
    rw [hr]
    exact ⟨rfl, rfl, rfl, rfl⟩
  · obtain ⟨hhold, hir, hmem, hjobs⟩ := State.freezeStart_holds { s.setIr 0x00 with dbg := { (s.setIr 0x00).dbg with hold := true } }
    exact ⟨_, congrArg Host.Outcome.next (if_pos hp), hhold, hir, hmem, hjobs⟩
  · obtain ⟨hhold, hir, hmem, hjobs⟩ := State.freezeStart_holds { s.setIr 0x03 with dbg := { (s.setIr 0x03).dbg with hold := true } }
    exact ⟨_, congrArg Host.Outcome.next (if_pos hp), hhold, hir, hmem, hjobs⟩
  · exact ⟨_, congrArg Host.Outcome.next (if_pos hp), rfl, List.mem_cons_self .., s.idcode_odd, rfl, rfl⟩
  · exact ⟨_, congrArg Host.Outcome.next (if_pos hp), rfl, rfl, rfl, rfl⟩
  · exact ⟨_, congrArg Host.Outcome.next (if_pos hp), rfl, rfl, rfl, rfl⟩
  · exact ⟨_, congrArg Host.Outcome.next ((if_neg (by rw [hp]; decide)).trans (if_pos (by rw [h0]; decide))), State.noScope_spec he⟩

end Sys2Proof.Machine
end

section
/-!
PROOF. What a read, a write and their errors keep: the jobs, the queues, the ports, flash and fuses (02 R53, 12 R303, 14 R361).
-/

namespace Sys2Proof.Machine

open Sys2Proof

-- One thread at a time: the stacks of threads that wait for each other count against the check's memory limit.
set_option Elab.async false

/-- What an access of memory keeps, with its marks and errors. -/
structure State.DataKept (s t : State) : Prop where
  jobs : t.jobs = s.jobs
  queues : t.queues = s.queues
  flash : t.flash = s.flash
  fuses : t.fuses = s.fuses
  flt : t.flt = s.flt
  aps : t.aps = s.aps
  ing : t.ing = s.ing
  ethTx : t.ethTx = s.ethTx
  cfg : t.cfg = s.cfg
  now : t.now = s.now
  dbg : t.dbg = s.dbg
  powered : t.powered = s.powered
  vbufs : t.vbufs = s.vbufs

theorem State.DataKept.refl (s : State) : s.DataKept s := ⟨rfl, rfl, rfl, rfl, rfl, rfl, rfl, rfl, rfl, rfl, rfl, rfl, rfl⟩

theorem State.DataKept.trans {s t u : State} (h : s.DataKept t) (k : t.DataKept u) : s.DataKept u :=
  ⟨k.jobs.trans h.jobs, k.queues.trans h.queues, k.flash.trans h.flash, k.fuses.trans h.fuses, k.flt.trans h.flt, k.aps.trans h.aps,
    k.ing.trans h.ing, k.ethTx.trans h.ethTx, k.cfg.trans h.cfg, k.now.trans h.now, k.dbg.trans h.dbg, k.powered.trans h.powered,
    k.vbufs.trans h.vbufs⟩

theorem State.onlyWritten.dataKept {s t : State} (h : s.onlyWritten t) : s.DataKept t := by
  obtain ⟨_, _, _, _, _, _, _, _, _, rfl⟩ := h
  exact ⟨rfl, rfl, rfl, rfl, rfl, rfl, rfl, rfl, rfl, rfl, rfl, rfl, rfl⟩

section
variable {s t : State} (h : s.DataKept t)
include h

theorem State.DataKept.ite {u : State} {c : Prop} [Decidable c] (k : s.DataKept u) : s.DataKept (if c then t else u) := by
  split
  · exact h
  · exact k

theorem State.DataKept.wrote {u : State} (k : t.onlyWritten u) : s.DataKept u := h.trans k.dataKept

theorem State.DataKept.traffic {m : Option Master} {port tc p a n : Nat} {w : Bool} : s.DataKept (t.traffic m port tc p a n w) :=
  h.wrote (t.traffic_onlyWritten m port tc p a n w)

theorem State.DataKept.storeAt {a : Nat} {bs : List Byte} : s.DataKept (t.storeAt a bs) := h.wrote (t.storeAt_onlyWritten a bs)

end

/-- What a read keeps: memory too. -/
structure State.ReadKept (s t : State) : Prop extends s.DataKept t where
  mem : t.mem = s.mem

theorem State.ReadKept.refl (s : State) : s.ReadKept s := ⟨.refl s, rfl⟩

theorem State.ReadKept.trans {s t u : State} (h : s.ReadKept t) (k : t.ReadKept u) : s.ReadKept u :=
  ⟨h.toDataKept.trans k.toDataKept, k.mem.trans h.mem⟩

section
variable {s t : State} (h : s.ReadKept t)
include h

theorem State.ReadKept.ite {u : State} {c : Prop} [Decidable c] (k : s.ReadKept u) : s.ReadKept (if c then t else u) := by
  split
  · exact h
  · exact k

theorem State.ReadKept.setReg {p i o : Nat} {v : Word32} : s.ReadKept (t.setReg p i o v) :=
  ⟨h.toDataKept.wrote (t.setReg_onlyWritten p i o v), h.mem⟩

theorem State.ReadKept.fset {p : Nat} {f : Fld} {x : Nat} : s.ReadKept (t.fset p f x) := h.setReg

theorem State.ReadKept.fadd {p : Nat} {f : Fld} {n : Nat} : s.ReadKept (t.fadd p f n) := h.setReg

theorem State.ReadKept.capture {p : Nat} {e : Err} {a : Nat} : s.ReadKept (t.capture p e a) :=
  ⟨h.toDataKept.wrote (t.capture_onlyWritten p e a), by simpa using h.mem⟩

theorem State.ReadKept.captureLine {p : Nat} {e : Err} {a l : Nat} : s.ReadKept (t.captureLine p e a l) :=
  ⟨h.toDataKept.wrote (t.captureLine_onlyWritten p e a l), by simpa using h.mem⟩

theorem State.ReadKept.pulse {l : Nat} : s.ReadKept (t.pulse l) := by
  obtain ⟨a, b, hp⟩ := t.pulse_shape l
  rw [hp]
  exact h.trans ⟨⟨rfl, rfl, rfl, rfl, rfl, rfl, rfl, rfl, rfl, rfl, rfl, rfl, rfl⟩, rfl⟩

theorem State.ReadKept.event {p : Nat} : s.ReadKept (t.event p) := by
  obtain ⟨r, o, q, hp⟩ := t.event_shape p
  rw [hp]
  exact h.trans ⟨⟨rfl, rfl, rfl, rfl, rfl, rfl, rfl, rfl, rfl, rfl, rfl, rfl, rfl⟩, rfl⟩

theorem State.ReadKept.emit {o : OutEvent} : s.ReadKept (t.emit o) :=
  h.trans ⟨⟨rfl, rfl, rfl, rfl, rfl, rfl, rfl, rfl, rfl, rfl, rfl, rfl, rfl⟩, rfl⟩

theorem State.ReadKept.touch : s.ReadKept t.touch :=
  h.trans ⟨⟨rfl, rfl, rfl, rfl, rfl, rfl, rfl, rfl, rfl, rfl, rfl, rfl, rfl⟩, rfl⟩

theorem State.ReadKept.draw : s.ReadKept t.draw :=
  h.trans ⟨⟨rfl, rfl, rfl, rfl, rfl, rfl, rfl, rfl, rfl, rfl, rfl, rfl, rfl⟩, rfl⟩

theorem State.ReadKept.poisonLine {l : Nat} : s.ReadKept (t.poisonLine l) :=
  h.trans (State.ReadKept.ite (.refl t) ⟨⟨rfl, rfl, rfl, rfl, rfl, rfl, rfl, rfl, rfl, rfl, rfl, rfl, rfl⟩, rfl⟩)

theorem State.ReadKept.bonds {l : List (Nat × Nat)} : s.ReadKept { t with bonds := l } :=
  h.trans ⟨⟨rfl, rfl, rfl, rfl, rfl, rfl, rfl, rfl, rfl, rfl, rfl, rfl, rfl⟩, rfl⟩

theorem State.ReadKept.flog {l : List (Nat × Nat)} : s.ReadKept { t with flog := l } :=
  h.trans ⟨⟨rfl, rfl, rfl, rfl, rfl, rfl, rfl, rfl, rfl, rfl, rfl, rfl, rfl⟩, rfl⟩

theorem State.ReadKept.rgl {x : Rgl} : s.ReadKept { t with rgl := x } :=
  h.trans ⟨⟨rfl, rfl, rfl, rfl, rfl, rfl, rfl, rfl, rfl, rfl, rfl, rfl, rfl⟩, rfl⟩

theorem State.ReadKept.setCh {c : Nat} {x : DmcCh} : s.ReadKept (t.setCh c x) :=
  h.trans ⟨⟨rfl, rfl, rfl, rfl, rfl, rfl, rfl, rfl, rfl, rfl, rfl, rfl, rfl⟩, rfl⟩

theorem State.ReadKept.foldl {α : Type} {f : State → α → State} (hf : ∀ u x, s.ReadKept u → s.ReadKept (f u x)) (l : List α) :
    s.ReadKept (l.foldl f t) :=
  List.foldlRecOn l f (motive := s.ReadKept) h fun u hu x _ => hf u x hu

/-! ## Ranks and marks -/

theorem State.ReadKept.setRankSt {c r st : Nat} : s.ReadKept (t.setRankSt c r st) := (h.fset (p := pgDMCch c)).flog

theorem State.ReadKept.readmit {code : Err} : s.ReadKept (t.readmit code) := by
  have hloop : ∀ (n : Nat) (u : State), s.ReadKept u → s.ReadKept (u.shedLoop code n) := by
    intro n
    induction n with
    | zero => exact fun u hu => hu
    | succ n ih =>
      intro u hu
      unfold State.shedLoop
      dsimp only
      refine hu.ite ?_
      split
      · exact hu
      · exact ih _ (State.ReadKept.ite hu.setReg.captureLine.pulse hu.setReg.captureLine)
  exact (hloop 64 _ h.fset.fset).fset

theorem State.ReadKept.tellOffline {c r : Nat} : s.ReadKept (t.tellOffline c r) := by
  refine h.foldl (fun u p hu => ?_) (List.range 8)
  split
  · exact hu.captureLine.event
  · exact hu

theorem State.ReadKept.offlineRank {c r a : Nat} : s.ReadKept (t.offlineRank c r a) := h.setRankSt.captureLine.tellOffline.readmit

theorem State.ReadKept.rankError {c r a : Nat} {cmd : Bool} : s.ReadKept (t.rankError c r a cmd) :=
  .ite (h.setRankSt.fset.captureLine.ite h.offlineRank) (.ite (h.setRankSt.offlineRank.touch.ite
    (h.setRankSt.pulse.ite h.captureLine)) (h.ite h.captureLine))

theorem State.ReadKept.mapAccess {a n : Nat} : s.ReadKept (t.mapAccess a n) := h.captureLine.ite h

theorem State.ReadKept.storedError {a : Nat} : s.ReadKept (t.storedError a) := by
  unfold State.storedError
  dsimp only
  split
  · exact h.poisonLine.fadd.captureLine.bonds
  · exact h.poisonLine.fadd.captureLine
  · exact h.poisonLine.fadd.captureLine
  · exact h.poisonLine.fadd.rankError
  · exact h.poisonLine.captureLine

theorem State.ReadKept.countPoisoned {a : Nat} : s.ReadKept (t.countPoisoned a) := by
  unfold State.countPoisoned
  split
  · exact h.fadd
  · exact h

theorem State.ReadKept.poisonHit {a : Nat} : s.ReadKept (t.poisonHit a) := h.capture.ite h.captureLine

theorem State.ReadKept.countReread {a : Nat} : s.ReadKept (t.countReread a) := by
  unfold State.countReread
  split
  · exact h.fadd
  · exact h.fadd
  · exact h.fadd
  · exact h.fadd
  · exact h

/-- The marks a read leaves. -/
theorem State.ReadKept.readMarks {a n : Nat} {chk : ReadCheck} : s.ReadKept (t.readMarks a n chk) := by
  unfold State.readMarks
  dsimp only
  split
  · exact h.mapAccess.countPoisoned.ite h.mapAccess.countPoisoned.poisonHit
  · exact h.mapAccess.fadd.ite h.mapAccess.storedError
  · split
    · exact h.mapAccess.countReread.ite h.mapAccess
    · exact h.mapAccess

/-- The bytes that go through a port of no master of Cormer mode. -/
theorem State.ReadKept.traffic_none {port tc p a n : Nat} {w : Bool} : s.ReadKept (t.traffic none port tc p a n w) := by
  refine ⟨h.toDataKept.traffic, ?_⟩
  refine State.ite_common State.mem h.mem ?_
  dsimp only
  have hdem (u : State) : (u.serveDdr port tc p n w).mem = u.mem := State.ite_common State.mem rfl rfl
  exact State.ite_common State.mem ((hdem _).trans h.mem) h.mem

end

end Sys2Proof.Machine
end

section
/-!
PROOF. The mailbox: the issue of a command, its completion, and what each object does (19 R456 to R472).
-/

namespace Sys2Proof.Machine

open Sys2Proof

-- One thread at a time: the stacks of threads that wait for each other count against the check's memory limit.
set_option Elab.async false

/-! ## Issue (19 R468) -/

theorem mbWrite_of_owner {s : State} {w : Writer} (cmd : Nat) (o : Option SignedObj) (fail : Option Nat) (hu : s.regsUp w = true)
    (hr : s.reaches w pgFLT = true) (hw : s.mayWrite w pgFLT = true) :
    mbWrite w cmd o fail s = .next (s.mbStart cmd o fail).touch := by
  rw [mbWrite, if_neg (by simp [hu, hr]), if_pos hw]

theorem State.mbStart_of_busy {s : State} (cmd : Nat) (o : Option SignedObj) (fail : Option Nat)
    (hb : s.flag pgFLT Reg.FLT_MB_STATUS_BUSY = true) : s.mbStart cmd o fail = s := if_pos (by rw [hb]; rfl)

/-- A command taken: BUSY, and the run waits with its references. -/
theorem State.mbStart_of_idle {s : State} {cmd : Nat} (o : Option SignedObj) (fail : Option Nat)
    (hb : s.flag pgFLT Reg.FLT_MB_STATUS_BUSY = false) (ha : s.mbAccepts cmd = true) :
    (s.mbStart cmd o fail).flag pgFLT Reg.FLT_MB_STATUS_BUSY = true ∧
      (s.mbStart cmd o fail).flt.mb = some (MbRun.mk cmd o s.mbIn s.mbOut fail) ∧ (s.mbStart cmd o fail).mem = s.mem ∧
      (s.mbStart cmd o fail).jobs = s.jobs ∧ (s.mbStart cmd o fail).flash = s.flash ∧ (s.mbStart cmd o fail).fuses = s.fuses := by
  set u := (s.fset pgFLT Reg.FLT_MB_STATUS_BUSY 1).fset pgFLT Reg.FLT_MB_STATUS_PROGRESS 0 with hu
  have hbusy : u.flag pgFLT Reg.FLT_MB_STATUS_BUSY = true :=
    ((s.fset pgFLT Reg.FLT_MB_STATUS_BUSY 1).flag_fset_other pgFLT Reg.FLT_MB_STATUS_PROGRESS Reg.FLT_MB_STATUS_BUSY 0 (by decide)
      (by decide) (by decide)).trans (s.flag_fset_same pgFLT (by decide) rfl 1)
  have hreg {x : Nat} (hx : 0x050 ≠ x) : u.reg pgFLT 0 x = s.reg pgFLT 0 x :=
    (State.reg_setReg_other _ _ (regKey_ne_of_off hx)).trans (State.reg_setReg_other _ _ (regKey_ne_of_off hx))
  have hin : u.mbIn = s.mbIn := by rw [State.mbIn, hreg (by decide), hreg (by decide), State.mbIn]
  have hout : u.mbOut = s.mbOut := by rw [State.mbOut, hreg (by decide), hreg (by decide), State.mbOut]
  have h : s.mbStart cmd o fail = { u with flt := { u.flt with mb := some (MbRun.mk cmd o u.mbIn u.mbOut fail) } } :=
    if_neg (by rw [hb, ha]; decide)
  rw [h]
  exact ⟨hbusy, by rw [← hin, ← hout], rfl, rfl, rfl, rfl⟩

/-! ## Completion (19 R468) -/

/-- A command that completed: none runs, BUSY is clear, EVT raised, and the jobs are as they were. -/
structure State.MbEnded (s t : State) : Prop where
  mb : t.flt.mb = none
  jobs : t.jobs = s.jobs
  busy : t.flag pgFLT Reg.FLT_MB_STATUS_BUSY = false
  evt : t.flag pgFLT Reg.INT_STATUS_EVT = true

/-- What the end of a command keeps. -/
theorem State.mbEnd_keeps (s : State) (r : Option (Option Err)) : (s.mbEnd r).mem = s.mem ∧ (s.mbEnd r).jobs = s.jobs ∧
    (s.mbEnd r).flash = s.flash ∧ (s.mbEnd r).fuses = s.fuses ∧ (s.mbEnd r).snA = s.snA ∧ (s.mbEnd r).snB = s.snB ∧
    (s.mbEnd r).flt = { s.flt with mb := none } := by
  have hres : (s.mbResult r).mem = s.mem ∧ (s.mbResult r).jobs = s.jobs ∧ (s.mbResult r).flash = s.flash ∧
      (s.mbResult r).fuses = s.fuses ∧ (s.mbResult r).snA = s.snA ∧ (s.mbResult r).snB = s.snB := by
    unfold State.mbResult
    split <;> exact ⟨rfl, rfl, rfl, rfl, rfl, rfl⟩
  unfold State.mbEnd
  generalize s.mbResult r = u at hres ⊢
  obtain ⟨_, _, _, he⟩ := State.event_shape { u.fset pgFLT Reg.FLT_MB_STATUS_BUSY 0 with flt := { s.flt with mb := none } } pgFLT
  rw [he]
  exact ⟨hres.1, hres.2.1, hres.2.2.1, hres.2.2.2.1, hres.2.2.2.2.1, hres.2.2.2.2.2, rfl⟩

/-- The registers of the FLT page that the end of a command writes. -/
theorem State.reg_mbEnd_other (s : State) (r : Option (Option Err)) {o : Nat} (h18 : o ≠ 0x018) (h50 : o ≠ 0x050) :
    (s.mbEnd r).reg pgFLT 0 o = s.reg pgFLT 0 o := by
  have hres : (s.mbResult r).reg pgFLT 0 o = s.reg pgFLT 0 o := by
    unfold State.mbResult
    split <;> exact State.reg_setReg_other _ _ (regKey_ne_of_off (Ne.symm h50))
  refine (State.reg_event_other _ (regKey_ne_of_off (Ne.symm h18))).trans ?_
  exact (State.reg_setReg_other _ _ (regKey_ne_of_off (Ne.symm h50))).trans hres

/-- MB_STATUS after the end of a command. -/
theorem State.status_mbEnd (s : State) (r : Option (Option Err)) (f : Fld) (hf : f.off = 0x050) :
    (s.mbEnd r).fget pgFLT f = ((s.mbResult r).fset pgFLT Reg.FLT_MB_STATUS_BUSY 0).fget pgFLT f :=
  congrArg f.get (State.reg_event_other _ (regKey_ne_of_off (by rw [hf]; decide)))

/-- Its code is that of the result. -/
theorem State.err_mbEnd (s : State) (r : Option Err) :
    (s.mbEnd (r.map some)).fget pgFLT Reg.FLT_MB_STATUS_ERR = (r.map Err.code).getD 0 := by
  rw [s.status_mbEnd _ _ rfl, State.fget_fset_other _ _ _ _ _ (by decide) (by decide) (by decide)]
  cases r with
  | none => exact s.fget_fset_same pgFLT Reg.FLT_MB_STATUS_ERR (by decide) 0
  | some e =>
    refine (s.fget_fset_same pgFLT Reg.FLT_MB_STATUS_ERR (by decide) e.code).trans ?_
    cases e <;> rfl

/-- A command that ends has ended. -/
theorem State.mbEnded_mbEnd {s u : State} (r : Option (Option Err)) (h : u.jobs = s.jobs) : s.MbEnded (u.mbEnd r) := by
  obtain ⟨_, hjobs, _, _, _, _, hflt⟩ := u.mbEnd_keeps r
  refine ⟨by rw [hflt], hjobs.trans h, ?_, ?_⟩
  · rw [State.flag, u.status_mbEnd r _ rfl, State.fget_fset_same _ _ _ (by decide)]
    rfl
  · unfold State.mbEnd State.event State.flag State.fget State.fgetI
    simp only [State.reg_pendRise]
    rw [State.reg_fset_same, Fld.get_put_same _ (by decide)]
    rfl

theorem State.MbEnded.ite {s t u : State} {c : Prop} [Decidable c] (h : s.MbEnded t) (k : s.MbEnded u) :
    s.MbEnded (if c then t else u) := by
  split
  · exact h
  · exact k

/-- The jobs of two states are the same (the one thing that a command's work keeps in every case). -/
theorem State.MbEnded.of_jobs {s t u : State} (h : t.MbEnded u) (k : t.jobs = s.jobs) : s.MbEnded u :=
  ⟨h.mb, h.jobs.trans k, h.busy, h.evt⟩

/-! ## What the commands do (19 R456 to R472) -/

theorem State.addMeas_keeps (s : State) (m : Meas) : ∃ f, s.addMeas m = { s with flt := f } ∧ f.nonce = s.flt.nonce := by
  unfold State.addMeas
  split
  · exact ⟨_, rfl, rfl⟩
  · exact ⟨_, rfl, rfl⟩

theorem State.jobs_addMeas (s : State) (m : Meas) : (s.addMeas m).jobs = s.jobs := by
  obtain ⟨f, h, _⟩ := s.addMeas_keeps m
  rw [h]

theorem State.mbEnded_mbReply {s u : State} (ref : Word64) (bs : List Byte) (h : u.jobs = s.jobs) : s.MbEnded (u.mbReply ref bs) := by
  unfold State.mbReply
  split
  · exact State.mbEnded_mbEnd _ h
  · split
    · exact State.mbEnded_mbEnd _ h
    · exact State.mbEnded_mbEnd _ (((State.DataKept.refl u).traffic.storeAt).jobs.trans h)

theorem State.jobs_pkgCopy (s : State) (p : Nat) (ws : List (Nat × List Byte)) : (s.pkgCopy p ws).jobs = s.jobs :=
  List.foldlRecOn ws _ (motive := fun t => t.jobs = s.jobs) rfl fun t ht _ _ => ((State.DataKept.refl t).traffic.storeAt).jobs.trans ht

theorem State.jobs_unCopy (s : State) (ws : List (Nat × List Byte)) : (s.unCopy ws).jobs = s.jobs :=
  List.foldlRecOn ws _ (motive := fun t => t.jobs = s.jobs) rfl fun t ht _ _ => (State.DataKept.refl t).storeAt.jobs.trans ht

theorem State.jobs_addDirs (s : State) (p : Nat) (plan : List (Nat × Nat × List Byte)) : (s.addDirs p plan).jobs = s.jobs :=
  List.foldlRecOn plan _ (motive := fun t : State => t.jobs = s.jobs) rfl fun _ ht _ _ => ht

theorem State.mbEnded_loadPkg (s : State) (o : SignedObj) : s.MbEnded (s.loadPkg o) := by
  unfold State.loadPkg
  dsimp only
  split
  · exact State.mbEnded_mbEnd _ rfl
  · refine (State.mbEnded_mbEnd _ rfl).ite ?_
    split
    · exact State.mbEnded_mbEnd _ rfl
    · split
      · exact State.mbEnded_mbEnd _ ((State.jobs_unCopy _ _).trans (s.jobs_pkgCopy _ _))
      · next plan _ =>
        have hprog (n : Nat) (t : State) : (t.mbProgress n).jobs = t.jobs := rfl
        generalize s.pkgWrites (o.head.target % 8) _ plan = ws
        have hcopy := s.jobs_pkgCopy (o.head.target % 8) ws
        generalize s.pkgCopy (o.head.target % 8) ws = u at hcopy ⊢
        generalize hv : u.mbProgress _ = v
        have hv' : v.jobs = s.jobs := by rw [← hv, hprog, hcopy]
        have hun := State.mbEnded_mbEnd (s := s) (some (some .signatureInvalid)) ((v.jobs_unCopy ws).trans hv')
        exact hun.ite ((State.mbEnded_mbEnd _ ((v.jobs_unCopy ws).trans hv')).ite (hun.ite
          (State.mbEnded_mbEnd _ ((State.jobs_addMeas _ _).trans ((v.jobs_addDirs _ plan).trans hv')))))
  · exact State.mbEnded_mbEnd _ rfl

theorem State.mbEnded_update (s : State) (o : SignedObj) : s.MbEnded (s.update o) := by
  unfold State.update
  dsimp only
  split
  · exact State.mbEnded_mbEnd _ rfl
  · refine (State.mbEnded_mbEnd _ rfl).ite ?_
    split
    · exact State.mbEnded_mbEnd _ (State.ite_common State.jobs (by simp) rfl)
    · exact State.mbEnded_mbEnd _ (State.jobs_addMeas _ _)
  · exact State.mbEnded_mbEnd _ rfl

/-- A device that runs goes on as it was after a write of its flash. -/
theorem State.reboot_of_running {s : State} (kind : Nat) (hb : s.bootSt = 1) : ∃ b, s.reboot kind = { s with flt := { s.flt with boot := b } } := by
  unfold State.reboot
  split
  · exact ⟨s.flt.boot, rfl⟩
  · next b _ =>
    have hst (f : Flt) : ({ s with flt := f } : State).bootSt = 1 := hb
    dsimp only
    rw [if_neg (by rw [hst]; omega), if_neg (by rw [hst]; omega)]
    exact ⟨_, rfl⟩

theorem State.bootSt_mbEnd (s : State) (r : Option (Option Err)) : (s.mbEnd r).bootSt = s.bootSt :=
  congrArg (Fld.get Reg.FLT_BOOT_STATE) (s.reg_mbEnd_other r (by decide) (by decide))

/-- An object that passes its checks is written to flash. -/
theorem State.flashWrite_of_good {s : State} {kind : Nat} {o : SignedObj} (hb : s.bootSt = 1) (he : s.flashErr kind o = none) :
    ∃ b, s.flashWrite kind o = (let t := ((s.program kind (some o)).mbProgress (o.head.bodyLen + 3392)).mbEnd none
      { t with flt := { t.flt with boot := b } }) := by
  have hprog : (s.program kind (some o)).bootSt = s.bootSt := State.ite_common State.bootSt rfl rfl
  have hbar (t : State) (n : Nat) : (t.mbProgress n).bootSt = t.bootSt :=
    congrArg (Fld.get Reg.FLT_BOOT_STATE) (t.reg_setReg_other _ (regKey_ne_of_off (by decide)))
  unfold State.flashWrite
  rw [he]
  exact State.reboot_of_running kind (by rw [State.bootSt_mbEnd, hbar, hprog, hb])

theorem State.mbEnded_flashWrite {s : State} (kind : Nat) (o : SignedObj) (hb : s.bootSt = 1) : s.MbEnded (s.flashWrite kind o) := by
  cases he : s.flashErr kind o with
  | none =>
    obtain ⟨b, h⟩ := State.flashWrite_of_good hb he
    have hprog : (s.program kind (some o)).jobs = s.jobs := State.ite_common State.jobs rfl rfl
    have hend := State.mbEnded_mbEnd (s := s) (u := (s.program kind (some o)).mbProgress (o.head.bodyLen + 3392)) none hprog
    rw [h]
    exact ⟨hend.mb, hend.jobs, hend.busy, hend.evt⟩
  | some e =>
    rw [State.flashWrite, he]
    exact State.mbEnded_mbEnd _ rfl

/-- A die after the burning of a slot: its bit is set where it was not. -/
def State.burned (s : State) (slot die : Nat) : State := if (s.okrevOf die).testBit slot then s else s.burn die slot

theorem State.burned_snuffers (s : State) (slot die : Nat) : (die ≠ 0 → (s.burned slot die).snA = s.snA) ∧
    (die ≠ 1 → (s.burned slot die).snB = s.snB) ∧ (die = 0 ∨ die = 1 → (s.burned slot die).fuses = s.fuses) ∧
    (s.burned slot die).jobs = s.jobs := by
  unfold State.burned
  split
  · exact ⟨fun _ => rfl, fun _ => rfl, fun _ => rfl, rfl⟩
  · unfold State.burn
    dsimp only
    split
    · next h => exact ⟨fun h0 => absurd h h0, fun _ => rfl, fun _ => rfl, rfl⟩
    · split
      · next h => exact ⟨fun _ => rfl, fun h1 => absurd h h1, fun _ => rfl, rfl⟩
      · exact ⟨fun _ => rfl, fun _ => rfl, fun h => by omega, rfl⟩

theorem State.testBit_burned (s : State) (slot : Nat) {die : Nat} (hd : die < 3) :
    ((s.burned slot die).okrevOf die).testBit slot = true := by
  unfold State.burned
  split
  · next h => exact h
  · have hor (v : Nat) : (v ||| 2 ^ slot).testBit slot = true := by simp [Nat.testBit_or, Nat.testBit_two_pow_self]
    interval_cases die
    · exact hor s.snA.okrev
    · exact hor s.snB.okrev
    · exact hor s.fuses.okrev

theorem State.burnDies_cons {s : State} {slot die : Nat} {fail : Option Nat} (ds : List Nat) (hf : fail ≠ some die) :
    s.burnDies slot fail (die :: ds) = (s.burned slot die).burnDies slot fail ds := by
  rw [State.burnDies, if_neg hf, State.burned]
  split <;> rfl

/-- Every die that does not fail is burned. -/
theorem State.burnDies_of_none (s : State) (slot : Nat) :
    s.burnDies slot none [0, 1, 2] = (((s.burned slot 0).burned slot 1).burned slot 2, true) := by
  rw [State.burnDies_cons _ (by simp), State.burnDies_cons _ (by simp), State.burnDies_cons _ (by simp)]
  rfl

/-- The read-back of Snuffer B fails. -/
theorem State.burnDies_of_second {s : State} {slot : Nat} (hb : s.snB.okrev.testBit slot = false) :
    s.burnDies slot (some 1) [0, 1, 2] = (s.burned slot 0, false) := by
  have hsnB := (s.burned_snuffers slot 0).2.1 (by decide)
  rw [State.burnDies_cons _ (by simp), State.burnDies, if_neg, if_pos rfl]
  rw [State.okrevOf, if_neg (by decide), if_pos rfl, hsnB, hb]
  decide

theorem State.jobs_burnDies (s : State) (slot : Nat) (fail : Option Nat) (ds : List Nat) : (s.burnDies slot fail ds).1.jobs = s.jobs := by
  induction ds generalizing s with
  | nil => rfl
  | cons d ds ih =>
    unfold State.burnDies
    split
    · exact ih s
    · split
      · rfl
      · refine (ih _).trans ?_
        unfold State.burn
        dsimp only
        exact State.ite_common State.jobs rfl (State.ite_common State.jobs rfl rfl)

/-- The end of a revocation whose dies are burned, or whose read-back failed. -/
def State.revokeEnd (s : State) (o : SignedObj) (x : State × Bool) : State :=
  if x.2 then (x.1.addMeas (s.measure 0 o.head)).mbEnd none else x.1.mbEnd (some (some .dataErrorDetected))

/-- A revocation that passes its checks. -/
theorem State.revoke_of_good {s : State} {o : SignedObj} (fail : Option Nat) (he : s.objErr 7 0 o.head = none)
    (hk : o.head.keyslot ≠ o.head.target % 4)
    (hs : ∃ k, k < 4 ∧ k ≠ o.head.target % 4 ∧ s.fuses.slotGood s.fuses.okrev k = true) :
    s.revoke o fail = s.revokeEnd o (s.burnDies (o.head.target % 4) fail [0, 1, 2]) := by
  obtain ⟨k, hk4, hkt, hgood⟩ := hs
  have hany : ((List.range 4).any fun k => k != o.head.target % 4 && s.fuses.slotGood s.fuses.okrev k) = true :=
    List.any_eq_true.2 ⟨k, List.mem_range.2 hk4, by simp [hkt, hgood]⟩
  rw [State.revoke, he]
  dsimp only
  rw [hany, if_neg (by simp [hk])]
  obtain ⟨t, b⟩ := s.burnDies (o.head.target % 4) fail [0, 1, 2]
  cases b <;> rfl

theorem State.mbEnded_revoke (s : State) (o : SignedObj) (fail : Option Nat) : s.MbEnded (s.revoke o fail) := by
  unfold State.revoke
  dsimp only
  split
  · exact State.mbEnded_mbEnd _ rfl
  · refine (State.mbEnded_mbEnd _ rfl).ite ?_
    have hb := s.jobs_burnDies (o.head.target % 4) fail [0, 1, 2]
    split
    · next t h => exact State.mbEnded_mbEnd _ ((t.jobs_addMeas _).trans (h ▸ hb :))
    · next t h => exact State.mbEnded_mbEnd _ (h ▸ hb :)

/-! ## The object (19 R455, R456) -/

/-- The read of bytes through IN keeps memory and what no access changes. -/
theorem State.readKept_inRead (s : State) (ref : Word64) (n : Nat) : s.ReadKept (s.inRead ref n).1 := by
  unfold State.inRead
  split
  · exact .refl s
  · split
    · exact .refl s
    · exact (State.ReadKept.refl s).readMarks
    · exact (State.ReadKept.refl s).traffic_none

theorem State.readKept_inObj (s : State) (r : MbRun) : s.ReadKept (s.inObj r).1 := by
  unfold State.inObj
  split
  · split
    · exact s.readKept_inRead _ _
    · exact .refl s
  · exact .refl s

theorem State.mbEnded_attest (s : State) (r : MbRun) : s.MbEnded (s.attest r) := by
  have hr := (s.readKept_inRead r.inRef 32).jobs
  unfold State.attest
  split
  · next h => rw [h] at hr; exact State.mbEnded_mbEnd _ hr
  · next h _ => rw [h] at hr; exact State.mbEnded_mbEnd _ hr
  · next h _ => rw [h] at hr; exact State.mbEnded_mbReply _ _ hr

/-- An accepted token's grant. -/
theorem State.unlock_of_good {s : State} {o : SignedObj} (h : s.tokenOk o = true) : s.unlock o =
    (let u := ({ s with flt := { s.flt with nonce := none } } : State).fset pgFLT Reg.FLT_DEBUG_SCOPE
      (s.fget pgFLT Reg.FLT_DEBUG_SCOPE ||| o.head.target)
    let v : State := { u.pulse 352 with flog := (u.pulse 352).flog ++ [(5, o.head.target)] }
    (v.addMeas (s.measure 0 o.head)).mbEnd none) := if_pos h

theorem State.unlock_of_bad {s : State} {o : SignedObj} (h : s.tokenOk o = false) :
    s.unlock o = ({ s with flt := { s.flt with nonce := none } } : State).mbEnd (some (some .signatureInvalid)) :=
  if_neg (by rw [h]; decide)

theorem State.mbEnded_unlock (s : State) (o : SignedObj) : s.MbEnded (s.unlock o) ∧ (s.unlock o).flt.nonce = none := by
  have hnonce (u : State) (r : Option (Option Err)) : (u.mbEnd r).flt.nonce = u.flt.nonce := by
    rw [(u.mbEnd_keeps r).2.2.2.2.2.2]
  cases h : s.tokenOk o with
  | false =>
    rw [State.unlock_of_bad h]
    exact ⟨State.mbEnded_mbEnd _ rfl, hnonce _ _⟩
  | true =>
    rw [State.unlock_of_good h]
    dsimp only
    generalize hu : State.fset _ pgFLT Reg.FLT_DEBUG_SCOPE _ = u
    have hu' : u.jobs = s.jobs ∧ u.flt.nonce = none := by rw [← hu]; exact ⟨rfl, rfl⟩
    obtain ⟨a, b, hp⟩ := u.pulse_shape 352
    rw [hp, hnonce]
    obtain ⟨f, hf, hn⟩ := State.addMeas_keeps { u with snA := a, snB := b, flog := u.flog ++ [(5, o.head.target)] } (s.measure 0 o.head)
    exact ⟨State.mbEnded_mbEnd _ ((State.jobs_addMeas _ _).trans hu'.1), by rw [hf]; exact hn.trans hu'.2⟩

section
variable (s : State) {r : MbRun} {o : SignedObj} (ho : r.obj = some o)
include ho

theorem State.mbAct_config (h : r.cmd = 3) : s.mbAct r = s.flashWrite 2 o := by
  obtain ⟨c, ob, _, _, _⟩ := r
  obtain rfl : c = 3 := h
  obtain rfl : ob = some o := ho
  rfl

theorem State.mbAct_revoke (h : r.cmd = 5) : s.mbAct r = s.revoke o r.fail := by
  obtain ⟨c, ob, _, _, _⟩ := r
  obtain rfl : c = 5 := h
  obtain rfl : ob = some o := ho
  rfl

theorem State.mbAct_unlock (h : r.cmd = 9) : s.mbAct r = s.unlock o := by
  obtain ⟨c, ob, _, _, _⟩ := r
  obtain rfl : c = 9 := h
  obtain rfl : ob = some o := ho
  rfl

end

/-- Every command that completes in a device that runs has ended. -/
theorem State.mbEnded_mbAct {s : State} (r : MbRun) (hb : s.bootSt = 1) : s.MbEnded (s.mbAct r) := by
  unfold State.mbAct
  dsimp only
  split
  · exact s.mbEnded_loadPkg _
  · exact s.mbEnded_update _
  · exact State.mbEnded_flashWrite 2 _ hb
  · exact State.mbEnded_flashWrite 1 _ hb
  · exact s.mbEnded_revoke _ _
  · exact s.mbEnded_attest r
  · exact State.mbEnded_mbReply _ _ rfl
  · exact State.mbEnded_mbReply _ _ rfl
  · exact (s.mbEnded_unlock _).1
  · exact State.mbEnded_mbEnd _ rfl
  · exact State.mbEnded_mbEnd _ rfl
  · exact State.mbEnded_mbEnd _ rfl

/-! ## Completion (19 R468) -/

theorem State.mbDone_of_unread {s : State} {r : MbRun} {er : Err} (he : (s.inObj r).2 = some er) :
    s.mbDone r = (if r.cmd = 9 then { (s.inObj r).1 with flt := { (s.inObj r).1.flt with nonce := none } } else (s.inObj r).1).mbEnd
      (some (some er)) := by
  unfold State.mbDone
  split
  · next t e h =>
    rw [h] at he ⊢
    obtain rfl : e = er := Option.some.inj he
    rfl
  · next t h => rw [h] at he; cases he

theorem State.mbDone_of_read {s : State} {r : MbRun} (he : (s.inObj r).2 = none) : s.mbDone r = (s.inObj r).1.mbAct r := by
  unfold State.mbDone
  split
  · next t e h => rw [h] at he; cases he
  · next t h => rw [h]

/-- Reading the object leaves the boot state. -/
theorem State.bootSt_inObj {s : State} {r : MbRun} (he : (s.inObj r).2 = none) : (s.inObj r).1.bootSt = s.bootSt := by
  obtain ⟨_, _, _, _, _, hreg, _⟩ := s.inObj_onlyMoved r he
  exact congrArg (Fld.get Reg.FLT_BOOT_STATE) (hreg pgFLT 0 0x040 (by decide) (Or.inl (by decide)) (by decide) (by decide))

theorem State.mbEnded_mbDone {s : State} (r : MbRun) (hb : s.bootSt = 1) : s.MbEnded (s.mbDone r) := by
  have hk := s.readKept_inObj r
  cases he : (s.inObj r).2 with
  | some er =>
    rw [State.mbDone_of_unread he]
    exact State.mbEnded_mbEnd _ (State.ite_common State.jobs hk.jobs hk.jobs)
  | none =>
    rw [State.mbDone_of_read he]
    exact (State.mbEnded_mbAct r ((State.bootSt_inObj he).trans hb)).of_jobs hk.jobs

/-- An object that cannot be read changes neither flash nor fuses. -/
theorem State.mbDone_unread_keeps {s : State} {r : MbRun} {er : Err} (he : (s.inObj r).2 = some er) :
    (s.mbDone r).fget pgFLT Reg.FLT_MB_STATUS_ERR = er.code ∧ (s.mbDone r).flash = s.flash ∧ (s.mbDone r).fuses = s.fuses ∧
      (r.cmd = 9 → (s.mbDone r).flt.nonce = none) := by
  have hk := s.readKept_inObj r
  rw [State.mbDone_of_unread he]
  generalize hu : (if r.cmd = 9 then _ else (s.inObj r).1 : State) = u
  have hu' : u.flash = s.flash ∧ u.fuses = s.fuses ∧ (r.cmd = 9 → u.flt.nonce = none) := by
    rw [← hu]
    refine ⟨State.ite_common State.flash hk.flash hk.flash, State.ite_common State.fuses hk.fuses hk.fuses, fun h9 => ?_⟩
    rw [if_pos h9]
  obtain ⟨_, _, hflash, hfuses, _, _, hflt⟩ := u.mbEnd_keeps (some (some er))
  exact ⟨u.err_mbEnd (some er), hflash.trans hu'.1, hfuses.trans hu'.2.1, fun h9 => by rw [hflt]; exact hu'.2.2 h9⟩

/-- The checks of an object depend on the fuses alone. -/
theorem State.objErr_congr {s t : State} (h : t.fuses = s.fuses) (k n : Nat) (o : ObjHead) : t.objErr k n o = s.objErr k n o := by
  rw [State.objErr, State.objErr, h]

section
variable {s : State} {r : MbRun} {o : SignedObj} (hr : (s.inObj r).2 = none) (ho : r.obj = some o)
include hr ho

/-- A configuration that is refused. -/
theorem State.mbDone_config_refused {er : Err} (h3 : r.cmd = 3) (he : s.objErr 2 s.fuses.arbCfg o.head = some er) :
    (s.mbDone r).fget pgFLT Reg.FLT_MB_STATUS_ERR = er.code ∧ (s.mbDone r).flash = s.flash ∧ (s.mbDone r).fuses = s.fuses ∧
      (s.mbDone r).mem = s.mem := by
  have hk := s.readKept_inObj r
  have hfl : (s.inObj r).1.flashErr 2 o = some er := by
    rw [State.flashErr, if_neg (by decide), hk.fuses, State.objErr_congr hk.fuses, he]
  rw [State.mbDone_of_read hr, State.mbAct_config _ ho h3, State.flashWrite, hfl]
  obtain ⟨hmem, _, hflash, hfuses, _⟩ := (s.inObj r).1.mbEnd_keeps (some (some er))
  exact ⟨State.err_mbEnd _ (some er), hflash.trans hk.flash, hfuses.trans hk.fuses, hmem.trans hk.mem⟩

/-- A configuration that passes is in flash. -/
theorem State.mbDone_config_written (hb : s.bootSt = 1) (h3 : r.cmd = 3) (he : s.flashErr 2 o = none) :
    (s.mbDone r).fget pgFLT Reg.FLT_MB_STATUS_ERR = 0 ∧ (s.mbDone r).flash.config = some o ∧ (s.mbDone r).flash.image = s.flash.image := by
  have hk := s.readKept_inObj r
  have hfl : (s.inObj r).1.flashErr 2 o = none := by
    rw [← he]
    unfold State.flashErr
    rw [hk.fuses, State.objErr_congr hk.fuses]
  obtain ⟨b, hw⟩ := State.flashWrite_of_good ((State.bootSt_inObj hr).trans hb) hfl
  rw [State.mbDone_of_read hr, State.mbAct_config _ ho h3, hw]
  dsimp only
  generalize hu : ((s.inObj r).1.program 2 (some o)).mbProgress (o.head.bodyLen + 3392) = u
  have huf : u.flash = { s.flash with config := some o } := by rw [← hu, ← hk.flash]; rfl
  have hflash := (u.mbEnd_keeps none).2.2.1
  exact ⟨u.err_mbEnd none, by rw [hflash, huf], by rw [hflash, huf]⟩

theorem State.mbDone_revoke (h5 : r.cmd = 5) : s.mbDone r = (s.inObj r).1.revoke o r.fail := by
  rw [State.mbDone_of_read hr, State.mbAct_revoke _ ho h5]

/-- A revocation that fails its checks. -/
theorem State.mbDone_revoke_refused {er : Err} (h5 : r.cmd = 5) (he : s.objErr 7 0 o.head = some er) :
    (s.mbDone r).fget pgFLT Reg.FLT_MB_STATUS_ERR = er.code ∧ (s.mbDone r).fuses = s.fuses ∧ (s.mbDone r).snA = s.snA ∧
      (s.mbDone r).snB = s.snB := by
  obtain ⟨_, _, _, _, hs, _⟩ := s.inObj_onlyMoved r hr
  have hk := s.readKept_inObj r
  have hsnA : (s.inObj r).1.snA = s.snA := by rw [hs]
  have hsnB : (s.inObj r).1.snB = s.snB := by rw [hs]
  rw [State.mbDone_revoke hr ho h5, State.revoke, State.objErr_congr hk.fuses, he]
  obtain ⟨_, _, _, hfuses, ha, hb, _⟩ := (s.inObj r).1.mbEnd_keeps (some (some er))
  exact ⟨State.err_mbEnd _ (some er), hfuses.trans hk.fuses, ha.trans hsnA, hb.trans hsnB⟩

/-- A revocation that passes: its bit on the three dies, or the read-back of Snuffer B fails. -/
theorem State.mbDone_revoke_burns (h5 : r.cmd = 5) (he : s.objErr 7 0 o.head = none) (hslot : o.head.keyslot ≠ o.head.target % 4)
    (hs : ∃ k, k < 4 ∧ k ≠ o.head.target % 4 ∧ s.fuses.slotGood s.fuses.okrev k = true) :
    (r.fail = none → (s.mbDone r).fget pgFLT Reg.FLT_MB_STATUS_ERR = 0 ∧ (s.mbDone r).snA.okrev.testBit (o.head.target % 4) = true ∧
      (s.mbDone r).snB.okrev.testBit (o.head.target % 4) = true ∧ (s.mbDone r).fuses.okrev.testBit (o.head.target % 4) = true) ∧
    (r.fail = some 1 → s.snB.okrev.testBit (o.head.target % 4) = false →
      (s.mbDone r).fget pgFLT Reg.FLT_MB_STATUS_ERR = 0x05 ∧ (s.mbDone r).snB = s.snB ∧ (s.mbDone r).fuses = s.fuses ∧
      (s.mbDone r).snA.okrev.testBit (o.head.target % 4) = true) := by
  obtain ⟨_, _, _, _, hshape, _⟩ := s.inObj_onlyMoved r hr
  have hk := s.readKept_inObj r
  have hsnB : (s.inObj r).1.snB = s.snB := by rw [hshape]
  have hrev := State.revoke_of_good r.fail ((State.objErr_congr hk.fuses 7 0 o.head).trans he) hslot (by rw [hk.fuses]; exact hs)
  rw [State.mbDone_revoke hr ho h5, hrev]
  generalize (s.inObj r).1 = u at hk hsnB ⊢
  generalize o.head.target % 4 = slot
  constructor
  · intro hf
    rw [hf, State.burnDies_of_none, State.revokeEnd, if_pos rfl]
    have h0 := u.testBit_burned slot (die := 0) (by decide)
    have h1 := (u.burned slot 0).testBit_burned slot (die := 1) (by decide)
    have h2 := ((u.burned slot 0).burned slot 1).testBit_burned slot (die := 2) (by decide)
    obtain ⟨ha1, _⟩ := (u.burned slot 0).burned_snuffers slot 1
    obtain ⟨ha2, hb2, _⟩ := ((u.burned slot 0).burned slot 1).burned_snuffers slot 2
    generalize ((u.burned slot 0).burned slot 1).burned slot 2 = v at h2 ha2 hb2 ⊢
    obtain ⟨f, hm, _⟩ := v.addMeas_keeps (u.measure 0 o.head)
    rw [hm]
    obtain ⟨_, _, _, hfuses, ha, hb, _⟩ := State.mbEnd_keeps { v with flt := f } none
    refine ⟨State.err_mbEnd _ none, ?_, ?_, by rw [hfuses]; exact h2⟩
    · rw [ha, show ({ v with flt := f } : State).snA = v.snA from rfl, ha2 (by decide), ha1 (by decide)]
      exact h0
    · rw [hb, show ({ v with flt := f } : State).snB = v.snB from rfl, hb2 (by decide)]
      exact h1
  · intro hf hbit
    rw [hf, State.burnDies_of_second (by rw [hsnB]; exact hbit), State.revokeEnd, if_neg Bool.false_ne_true]
    have h0 := u.testBit_burned slot (die := 0) (by decide)
    obtain ⟨_, hb0, hfu0, _⟩ := u.burned_snuffers slot 0
    obtain ⟨_, _, _, hfuses, ha, hb, _⟩ := (u.burned slot 0).mbEnd_keeps (some (some .dataErrorDetected))
    exact ⟨State.err_mbEnd _ (some .dataErrorDetected), (hb.trans (hb0 (by decide))).trans hsnB,
      (hfuses.trans (hfu0 (Or.inl rfl))).trans hk.fuses, by rw [ha]; exact h0⟩

theorem State.mbDone_unlock (h9 : r.cmd = 9) : s.mbDone r = (s.inObj r).1.unlock o := by
  rw [State.mbDone_of_read hr, State.mbAct_unlock _ ho h9]

end

/-- What a token is checked against is not changed by its reading. -/
theorem State.tokenOk_inObj (s : State) (r : MbRun) (o : SignedObj) : (s.inObj r).1.tokenOk o = s.tokenOk o := by
  have hk := s.readKept_inObj r
  rw [State.tokenOk, State.tokenOk, State.objErr_congr hk.fuses, hk.flt]

theorem State.scope_inObj {s : State} {r : MbRun} (hr : (s.inObj r).2 = none) : (s.inObj r).1.fget pgFLT Reg.FLT_DEBUG_SCOPE = s.fget pgFLT Reg.FLT_DEBUG_SCOPE := by
  obtain ⟨_, _, _, _, _, hreg, _⟩ := s.inObj_onlyMoved r hr
  exact congrArg (Fld.get Reg.FLT_DEBUG_SCOPE) (hreg pgFLT 0 0x064 (by decide) (Or.inl (by decide)) (by decide) (by decide))

/-- The target of a token that is accepted is a scope. -/
theorem State.target_of_tokenOk {s : State} {o : SignedObj} (h : s.tokenOk o = true) : o.head.target < 32 := by
  have hnone : s.objErr 6 0 o.head = none := by
    rw [State.tokenOk, Bool.and_eq_true, Bool.and_eq_true] at h
    exact Option.isNone_iff_eq_none.1 h.1.1
  have htarget : o.head.kind = 6 ∧ targetOk o.head = true := by
    rw [State.objErr, headErr] at hnone
    by_cases hc : o.head.magic ≠ 0x4F534C57 ∨ o.head.ver ≠ 1 ∨ o.head.kind ≠ 6 ∨ !o.head.zerosOk ∨ !targetOk o.head
    · rw [if_pos hc] at hnone
      cases hnone
    · simp only [not_or, not_not, Bool.not_eq_true', Bool.not_eq_false] at hc
      exact ⟨hc.2.2.1, hc.2.2.2.2⟩
  obtain ⟨hkind, ht⟩ := htarget
  rw [targetOk, hkind, Bool.and_eq_true] at ht
  exact of_decide_eq_true ht.1

/-- An accepted token adds its scope and pulses line 352. -/
theorem State.unlock_grants {s : State} {o : SignedObj} (h : s.tokenOk o = true) :
    (s.unlock o).fget pgFLT Reg.FLT_DEBUG_SCOPE = (s.fget pgFLT Reg.FLT_DEBUG_SCOPE ||| o.head.target) ∧
      352 ∈ (s.unlock o).snA.lines ∧ 352 ∈ (s.unlock o).snB.lines := by
  have ht := State.target_of_tokenOk h
  have hscope : s.fget pgFLT Reg.FLT_DEBUG_SCOPE < 32 := Nat.mod_lt _ (by decide)
  rw [State.unlock_of_good h]
  dsimp only
  generalize hu : State.fset _ pgFLT Reg.FLT_DEBUG_SCOPE _ = u
  have hget : u.fget pgFLT Reg.FLT_DEBUG_SCOPE = (s.fget pgFLT Reg.FLT_DEBUG_SCOPE ||| o.head.target) := by
    rw [← hu, State.fget_fset_same _ _ _ (by decide)]
    exact Nat.mod_eq_of_lt (Nat.or_lt_two_pow (n := 5) hscope ht)
  have hlines := State.mem_lines_pulse u (l := 352) (by decide)
  obtain ⟨a, b, hp⟩ := u.pulse_shape 352
  rw [hp] at hlines ⊢
  obtain ⟨f, hf, _⟩ := State.addMeas_keeps { u with snA := a, snB := b, flog := u.flog ++ [(5, o.head.target)] } (s.measure 0 o.head)
  rw [hf]
  obtain ⟨_, _, _, _, ha, hb, _⟩ := State.mbEnd_keeps { u with snA := a, snB := b, flog := u.flog ++ [(5, o.head.target)], flt := f } none
  refine ⟨(congrArg (Fld.get Reg.FLT_DEBUG_SCOPE) (State.reg_mbEnd_other _ none (by decide) (by decide))).trans hget, ?_, ?_⟩
  · rw [ha]
    exact hlines.1
  · rw [hb]
    exact hlines.2

/-- A token that is refused grants nothing. -/
theorem State.unlock_refuses {s : State} {o : SignedObj} (h : s.tokenOk o = false) :
    (s.unlock o).fget pgFLT Reg.FLT_MB_STATUS_ERR = 0x0E ∧
      (s.unlock o).fget pgFLT Reg.FLT_DEBUG_SCOPE = s.fget pgFLT Reg.FLT_DEBUG_SCOPE := by
  rw [State.unlock_of_bad h]
  exact ⟨State.err_mbEnd _ (some .signatureInvalid),
    congrArg (Fld.get Reg.FLT_DEBUG_SCOPE) (State.reg_mbEnd_other _ _ (by decide) (by decide))⟩

/-! ## The statement -/

/-- Settles O59: a command is taken while none runs, and completes with what its object does, as the lemmas above say. -/
theorem mailboxRunsOneCommand : Obligations.MailboxRunsOneCommand := by
  unfold Obligations.MailboxRunsOneCommand
  refine ⟨fun s w o fail hu hr hw => ?_, fun s r hl hp hb hmb hkey => ?_⟩
  · intro issued
    have hissued (c : Instr) (n : Nat) (ob : Option SignedObj) (fl : Option Nat) (hc : exec c s = mbWrite w n ob fl s) : issued c n ob fl := by
      have hexec := hc.trans (mbWrite_of_owner n ob fl hu hr hw)
      refine ⟨fun hb ha => ?_, fun hb => by rw [hexec, State.mbStart_of_busy n ob fl hb]⟩
      obtain ⟨hbusy, hmb, hmem, hjobs, hflash, hfuses⟩ := State.mbStart_of_idle ob fl hb ha
      exact ⟨_, hexec, hbusy, hmb, hmem, hjobs, hflash, hfuses⟩
    exact ⟨hissued _ _ _ _ rfl, hissued _ _ _ _ rfl, hissued _ _ _ _ rfl, hissued _ _ _ _ rfl, hissued _ _ _ _ rfl,
      hissued _ _ _ _ rfl, hissued _ _ _ _ rfl, hissued _ _ _ _ rfl, hissued _ _ _ _ rfl⟩
  · have hexec : exec .mailboxCommandDone s = .next (s.mbDone r) := by
      have h : exec .mailboxCommandDone s = execMailboxCommandDone s := rfl
      rw [h, execMailboxCommandDone, hmb]
      exact onLive_of_due _ hl (by
        rw [show s.fget pgPWR Reg.PWR_CTRL_STATE = s.pwrSt from rfl]
        rcases hkey with h6 | hk
        · simp [hp, h6]
        · simp [hp, hk])
    obtain ⟨hnone, hjobs, hbusy, hevt⟩ := State.mbEnded_mbDone r hb
    refine ⟨_, hexec, rfl, hnone, hjobs, hbusy, hevt, fun er he => ?_, fun o er h3 ho hr he => State.mbDone_config_refused hr ho h3 he,
      fun o h3 ho hr he => State.mbDone_config_written hr ho hb h3 he, fun o er h5 ho hr he => State.mbDone_revoke_refused hr ho h5 he,
      fun o h5 ho hr he hk hs => State.mbDone_revoke_burns hr ho h5 he hk hs, fun o h9 ho => ⟨?_, fun hr ht => ?_, fun hr ht => ?_⟩⟩
    · obtain ⟨hcode, hflash, hfuses, _⟩ := State.mbDone_unread_keeps he
      exact ⟨hcode, hflash, hfuses⟩
    · cases he : (s.inObj r).2 with
      | some er => exact (State.mbDone_unread_keeps he).2.2.2 h9
      | none => rw [State.mbDone_unlock he ho h9]; exact (State.mbEnded_unlock _ o).2
    · obtain ⟨hscope, ha, hb⟩ := State.unlock_grants ((s.tokenOk_inObj r o).trans ht)
      rw [State.mbDone_unlock hr ho h9]
      exact ⟨hscope.trans (by rw [State.scope_inObj hr]), ha, hb⟩
    · obtain ⟨hcode, hscope⟩ := State.unlock_refuses ((s.tokenOk_inObj r o).trans ht)
      rw [State.mbDone_unlock hr ho h9]
      exact ⟨hcode, hscope.trans (State.scope_inObj hr)⟩

end Sys2Proof.Machine
end

section
/-!
PROOF. Camera packets, the stamped frames, the slices of the Pixel Engine, and the closing of input versions (16 R390 to R398,
09 R216, R221).
-/

namespace Sys2Proof.Machine

open Sys2Proof

-- One thread at a time: the stacks of threads that wait for each other count against the check's memory limit.
set_option Elab.async false

/-! ## What the ingest engines keep -/

/-- What the writing of samples keeps: jobs, queues, the versions closed, and the engine's time. -/
structure State.Ingested (s t : State) : Prop where
  jobs : t.jobs = s.jobs
  queues : t.queues = s.queues
  cfg : t.cfg = s.cfg
  closed : t.ing.closed = s.ing.closed
  freeAt : t.ing.freeAt = s.ing.freeAt

theorem State.Ingested.refl (s : State) : s.Ingested s := ⟨rfl, rfl, rfl, rfl, rfl⟩

theorem State.Ingested.trans {s t u : State} (h : s.Ingested t) (k : t.Ingested u) : s.Ingested u :=
  ⟨k.jobs.trans h.jobs, k.queues.trans h.queues, k.cfg.trans h.cfg, k.closed.trans h.closed, k.freeAt.trans h.freeAt⟩

theorem State.DataKept.ingested {s t : State} (h : s.DataKept t) : s.Ingested t :=
  ⟨h.jobs, h.queues, h.cfg, by rw [h.ing], by rw [h.ing]⟩

/-- A predicate that an operation on memory, registers, slots and waiting samples keeps, whatever the operation. -/
structure State.IngestLaw (R : State → Prop) : Prop where
  data : ∀ {t u : State}, R t → t.DataKept u → R u
  setVbuf : ∀ {t : State} (v : VBuf), R t → R (t.setVbuf v)
  setInVer : ∀ {t : State} (v : InVer), R t → R (t.setInVer v)

/-- A law that covers the frames of the cameras too. -/
structure State.CamLaw (R : State → Prop) : Prop extends State.IngestLaw R where
  cams : ∀ {t : State} (l : List (Nat × List CamFrame)), R t → R { t with ing := { t.ing with cams := l } }

/-- A law that covers the packets that wait, and every version that opens. -/
structure State.EthLaw (R : State → Prop) : Prop extends State.IngestLaw R where
  vers : ∀ {t : State} (l : List InVer), R t → R { t with ing := { t.ing with vers := l } }
  waiting : ∀ {t : State} (l : List EthPkt), R t → R { t with ing := { t.ing with waiting := l } }

/-- The laws that hold for what the engines keep. -/
theorem State.camLaw_ingested (s : State) : State.CamLaw s.Ingested where
  data h k := h.trans k.ingested
  cams _ h := ⟨h.jobs, h.queues, h.cfg, h.closed, h.freeAt⟩
  setVbuf _ h := ⟨h.jobs, h.queues, h.cfg, h.closed, h.freeAt⟩
  setInVer _ h := ⟨h.jobs, h.queues, h.cfg, h.closed, h.freeAt⟩

theorem State.ethLaw_ingested (s : State) : State.EthLaw s.Ingested where
  toIngestLaw := s.camLaw_ingested.toIngestLaw
  vers _ h := ⟨h.jobs, h.queues, h.cfg, h.closed, h.freeAt⟩
  waiting _ h := ⟨h.jobs, h.queues, h.cfg, h.closed, h.freeAt⟩

theorem State.ite_law {R : State → Prop} {t u : State} {c : Prop} [Decidable c] (ht : R t) (hu : R u) : R (if c then t else u) := by
  split
  · exact ht
  · exact hu

section
variable {R : State → Prop} (law : State.IngestLaw R) {t : State} (h : R t)
include law h

theorem State.IngestLaw.setReg (p i o : Nat) (v : Word32) : R (t.setReg p i o v) :=
  law.data h (State.DataKept.refl t |>.wrote (t.setReg_onlyWritten p i o v))

theorem State.IngestLaw.fset (p : Nat) (f : Fld) (x : Nat) : R (t.fset p f x) := law.setReg h p 0 f.off _

theorem State.IngestLaw.fadd (p : Nat) (f : Fld) (n : Nat) : R (t.fadd p f n) := law.setReg h p 0 f.off _

theorem State.IngestLaw.pxeCount (i : Nat) (f : Fld) : R (t.pxeCount i f) := law.setReg h pgPXE i f.off _

theorem State.IngestLaw.setLevel (port fill : Nat) : R (t.setLevel port fill) := by
  unfold State.setLevel
  split
  · exact h
  · exact law.fset h _ _ _

omit law in
theorem State.IngestLaw.foldl {α : Type} {f : State → α → State} (hf : ∀ u x, R u → R (f u x)) (l : List α) : R (l.foldl f t) :=
  List.foldlRecOn l f (motive := R) h fun u hu x _ => hf u x hu

/-- The match is taken apart with `ingestPlace` still folded, so that the kernel need not evaluate the buffer entry's bits. -/
theorem State.IngestLaw.ingestWrite (port : Nat) (b : Nat × Nat × Nat) (off : Nat) (bs : List Byte) : R (t.ingestWrite port b off bs) := by
  generalize hf : @State.ingestWrite = f
  delta State.ingestWrite at hf
  subst hf
  beta_reduce
  split
  · exact State.ite_law (law.data h (State.DataKept.refl t).traffic.storeAt) h
  · exact h

theorem State.IngestLaw.ingestWriteAll (v : InVer) (off : Nat) (bs : List Byte) : R (t.ingestWriteAll v off bs) :=
  State.IngestLaw.foldl h (fun _ _ hu => law.ingestWrite hu _ _ _ _) v.bufs

theorem State.IngestLaw.lateDrop : R t.lateDrop := law.fadd h _ _ _

theorem State.IngestLaw.lateFold : R t.lateFold := law.fadd h _ _ _

theorem State.IngestLaw.writeRecs (m : CamCfg) (v : InVer) (stamp : List Byte) (status lines : Nat) :
    R (t.writeRecs m v stamp status lines) :=
  State.IngestLaw.foldl h (fun _ _ hu => State.IngestLaw.foldl hu (fun _ _ hw => law.ingestWrite hw _ _ _ _) _) _

theorem State.IngestLaw.pixelRows (m : CamCfg) (l : LevelCfg) (lines : List (List Byte)) (y0 y1 : Nat) (b : Nat × Nat × Nat) :
    R (t.pixelRows m l lines y0 y1 b) :=
  State.IngestLaw.foldl h (fun _ _ hu => State.IngestLaw.foldl hu (fun _ _ hw => State.IngestLaw.foldl hw (fun _ _ hx => law.ingestWrite hx _ _ _ _) _) _) _

theorem State.IngestLaw.pixelWrite (m : CamCfg) (v : InVer) (lines : List (List Byte)) (a b : Nat) (last : Bool) :
    R (t.pixelWrite m v lines a b last) :=
  State.IngestLaw.foldl h (fun _ _ hu => State.IngestLaw.foldl hu (fun _ _ hw => law.pixelRows hw _ _ _ _ _ _) _) _

theorem State.IngestLaw.camKeep (i : Nat) (m : CamCfg) (v : InVer) (f : CamFrame) (late : Bool) : R (t.camKeep i m v f late) := by
  unfold State.camKeep
  split
  · exact law.lateDrop h
  · dsimp only
    have hdrop : R (if v.image.isSome then t.lateDrop else t) := by
      split
      · exact law.lateDrop h
      · exact h
    have hset := law.setInVer { v with image := if f.lines.isEmpty then none else some f.stamp }
      (law.writeRecs hdrop m v (stampRec f.stamp i 0 f.ctr late) (f.status m) f.lines.length)
    split
    · exact law.lateFold hset
    · exact hset

end

section
variable {R : State → Prop} (law : State.CamLaw R) {t : State} (h : R t)
include law h

theorem State.CamLaw.setCamFrames (i : Nat) (fs : List CamFrame) : R (t.setCamFrames i fs) := law.cams _ h

theorem State.CamLaw.camGone (i : Nat) (m : CamCfg) (f : CamFrame) : R (t.camGone i m f) := by
  have hgone := law.setCamFrames h i ((t.camFrames i).drop 1)
  unfold State.camGone
  dsimp only
  generalize t.setCamFrames i ((t.camFrames i).drop 1) = u at hgone ⊢
  have hcount : R (u.fsetI pgPXE i Reg.PXE_FRAMES_COUNT (u.fgetI pgPXE i Reg.PXE_FRAMES_COUNT + 1)) := law.setReg hgone _ _ _ _
  exact State.ite_law hcount (law.pxeCount hcount i _)

end

/-! ## Versions that open -/

/-- A version opens: its slots are tagged, and it joins the open ones. -/
theorem State.openVer_cases (s : State) (key : Nat) (f : Word32) : s.openVer key f = s ∨
    ∃ v : InVer, v.key = key ∧ v.frame = f ∧ s.openVer key f =
      (let t := (s.cfg.ingestBufs key).foldl (fun t b => t.ingestTag b.1 b.2 f) s
       let u : State := { t with ing := { t.ing with vers := t.ing.vers ++ [v] } }
       if key < 64 then u else u.ingestWriteAll v 0 v.head) := by
  unfold State.openVer
  split
  · exact Or.inl rfl
  · dsimp only
    split
    · exact Or.inl rfl
    · exact Or.inr ⟨_, rfl, rfl, rfl⟩

/-- Tagging changes slots alone. -/
theorem State.ingestTags_shape (f : Word32) (l : List (Nat × Nat)) (s : State) :
    ∃ v, l.foldl (fun t b => t.ingestTag b.1 b.2 f) s = { s with vbufs := v } :=
  List.foldlRecOn l _ (motive := fun t : State => ∃ v, t = { s with vbufs := v }) ⟨s.vbufs, rfl⟩
    fun t ht b _ => by obtain ⟨v, rfl⟩ := ht; exact ⟨_, rfl⟩

/-- A camera's version opens without a write. -/
theorem State.openVer_camera (s : State) {key : Nat} (f : Word32) (hk : key < 64) :
    ∃ v l, s.openVer key f = { s with vbufs := v, ing := { s.ing with vers := l } } := by
  rcases s.openVer_cases key f with h | ⟨v, _, _, h⟩
  · exact ⟨s.vbufs, s.ing.vers, h⟩
  · obtain ⟨b, hb⟩ := State.ingestTags_shape f (s.cfg.ingestBufs key) s
    rw [h, hb]
    dsimp only
    rw [if_pos hk]
    exact ⟨_, _, rfl⟩

/-- A stream's frame `f` has closed and no version of it is open. -/
structure State.ClosedAt (key : Nat) (f : Word32) (s : State) : Prop where
  closed : s.closedOf key = f
  none : ∀ v ∈ s.ing.vers, v.key = key → v.frame ≠ f

theorem State.camLaw_closedAt (key : Nat) (f : Word32) : State.CamLaw (State.ClosedAt key f) where
  data {t u} h k := by
    have hing := k.ing
    exact ⟨(congrArg (fun i : Ingest => aget 0 i.closed key) hing).trans h.closed, by rw [hing]; exact h.none⟩
  cams _ h := ⟨h.closed, h.none⟩
  setVbuf _ h := ⟨h.closed, h.none⟩
  setInVer {t} v h := by
    refine ⟨h.closed, fun w hw hk => ?_⟩
    obtain ⟨x, hx, rfl⟩ := List.mem_map.1 hw
    by_cases hxv : (x.key == v.key && x.frame == v.frame) = true
    · rw [if_pos hxv] at hk ⊢
      obtain ⟨hkey, hframe⟩ := Bool.and_eq_true_iff.1 hxv
      exact beq_iff_eq.1 hframe ▸ h.none x hx ((beq_iff_eq.1 hkey).trans hk)
    · rw [if_neg hxv] at hk ⊢
      exact h.none x hx hk

/-- No version is open that is closed. -/
theorem State.ClosedAt.inVer {key : Nat} {f : Word32} {s : State} (h : s.ClosedAt key f) : s.inVer key f = .none := by
  refine List.find?_eq_none.2 fun v hv hb => ?_
  obtain ⟨hk, hf⟩ := Bool.and_eq_true_iff.1 hb
  exact h.none v hv (beq_iff_eq.1 hk) (beq_iff_eq.1 hf)

/-- A law that also covers the opening of versions of a stream that have not closed. -/
structure State.OpenLaw (key : Nat) (R : State → Prop) : Prop extends State.CamLaw R where
  openVer : ∀ {t : State} (g : Word32), R t → g ≠ t.closedOf key → R (t.openVer key g)

theorem State.IngestLaw.openVer_of_vers {R : State → Prop} (law : State.IngestLaw R) {t : State} (h : R t) (key : Nat) (g : Word32)
    (hv : ∀ (u : State) (v : InVer), R u → v.key = key → v.frame = g → R { u with ing := { u.ing with vers := u.ing.vers ++ [v] } }) :
    R (t.openVer key g) := by
  rcases t.openVer_cases key g with hs | ⟨v, hk, hg, hs⟩
  · rwa [hs]
  · have htags : R ((t.cfg.ingestBufs key).foldl (fun t b => t.ingestTag b.1 b.2 g) t) :=
      State.IngestLaw.foldl h (fun _ _ hu => law.setVbuf _ hu) _
    have hu := hv _ v htags hk hg
    rw [hs]
    dsimp only
    split
    · exact hu
    · exact law.ingestWriteAll hu v 0 _

theorem State.openLaw_ingested (key : Nat) (s : State) : State.OpenLaw key s.Ingested where
  toCamLaw := s.camLaw_ingested
  openVer g h _ := s.camLaw_ingested.openVer_of_vers h key g fun _ _ hu _ _ => ⟨hu.jobs, hu.queues, hu.cfg, hu.closed, hu.freeAt⟩

theorem State.openLaw_closedAt (key : Nat) (f : Word32) : State.OpenLaw key (State.ClosedAt key f) where
  toCamLaw := State.camLaw_closedAt key f
  openVer g h hg := (State.camLaw_closedAt key f).openVer_of_vers h key g fun u v hu _ hvg => ⟨hu.closed, fun w hw hk => by
    rcases List.mem_append.1 hw with hw | hw
    · exact hu.none w hw hk
    · obtain rfl := List.mem_singleton.1 hw
      rw [hvg, ← h.closed]
      exact hg⟩

theorem frameBelow_self (f : Word32) : frameBelow f f = false := by
  simp [frameBelow]

/-- A frame of a version that has not closed is not the one that closed last. -/
theorem State.ne_closedOf {s : State} {key : Nat} {f : Word32} (h : s.isClosed key f = false) : f ≠ s.closedOf key := by
  rintro rfl
  rw [State.isClosed, frameBelow_self] at h
  cases h

theorem State.oldestOpen_ne (s : State) (key : Nat) : s.oldestOpen key ≠ s.closedOf key := by
  unfold State.oldestOpen
  generalize s.closedOf key = f
  bv_omega

/-! ## Frames that finish (16 R393, 09 R221, R222) -/

section
variable {i : Nat} {R : State → Prop} (law : State.OpenLaw i R)
include law

theorem State.OpenLaw.camFinish (m : CamCfg) (f : CamFrame) {t : State} (h : R t) : R (t.camFinish i m f) := by
  have hil := law.toCamLaw
  unfold State.camFinish
  dsimp only
  split
  · next hc =>
    have hopen := law.openVer f.frame h (State.ne_closedOf (by simpa using hc))
    split
    · exact hopen
    · split
      · exact hil.lateDrop (hil.camGone hopen i m f)
      · exact hil.camKeep (hil.camGone hopen i m f) i m _ f false
  · split
    · exact hil.lateDrop (hil.camGone h i m f)
    · have hopen := law.openVer (t.oldestOpen i) h (t.oldestOpen_ne i)
      split
      · exact hopen
      · split
        · exact hil.lateDrop (hil.camGone hopen i m f)
        · exact hil.camKeep (hil.pixelWrite (hil.camGone hopen i m f) m _ f.lines 0 f.lines.length true) i m _ f true

theorem State.OpenLaw.camSettle (m : CamCfg) (n : Nat) {t : State} (h : R t) : R (t.camSettle i m n) := by
  induction n generalizing t with
  | zero => exact h
  | succ n ih =>
    unfold State.camSettle
    split
    · next f _ _ =>
      have hf := law.camFinish m f h
      split
      · dsimp only
        split
        · exact ih hf
        · exact hf
      · exact h
    · exact h

theorem State.OpenLaw.sliceLines (m : CamCfg) (f : CamFrame) (n : Nat) {t : State} (h : R t) : R (t.sliceLines i m f n) := by
  have hil := law.toCamLaw
  unfold State.sliceLines
  dsimp only
  split
  · exact hil.setCamFrames h i _
  · next hc =>
    have hopen := law.openVer f.frame h (State.ne_closedOf (by simpa using hc))
    split
    · exact hopen
    · next v _ =>
      split
      · exact hil.setCamFrames hopen i _
      · have hdrop : R (if v.image.isSome then (t.openVer i f.frame).lateDrop else t.openVer i f.frame) := by
          split
          · exact hil.lateDrop hopen
          · exact hopen
        exact hil.setCamFrames (hil.pixelWrite (hil.setInVer _ hdrop) m _ f.lines f.done _ _) i _

end

/-! ## Packets (16 R390, R391) -/

section
variable {s : State} {rx vc : Nat} (ha : s.awake = true) (hrx : rx < 16)
include ha hrx

/-- A packet of a pair that no entry names. -/
theorem csi2Packet_unmatched (hc : s.cfg.camOf rx vc = none) (dt : Nat) (ecc crc : Bool) (pl : List Byte) :
    ∃ t, exec (.csi2Packet rx vc dt ecc crc pl) s = .next t ∧ t.mem = s.mem ∧ t.ing = s.ing ∧ t.jobs = s.jobs ∧
      t.fget pgPXE Reg.PXE_UNMATCHED_COUNT = min (s.fget pgPXE Reg.PXE_UNMATCHED_COUNT + 1) (2 ^ 32 - 1) := by
  have hexec : exec (.csi2Packet rx vc dt ecc crc pl) s = .next (s.pktErr rx vc) := by
    refine onAwake_of_due _ ha ?_ |>.trans ?_
    · simpa using hrx
    · rw [hc]
  have herr : s.pktErr rx vc = s.fadd pgPXE Reg.PXE_UNMATCHED_COUNT 1 := by rw [State.pktErr, hc]
  rw [herr] at hexec
  exact ⟨_, hexec, rfl, rfl, rfl, s.fget_fadd_same pgPXE (by decide) 1⟩

variable {i : Nat} {m : CamCfg} (hc : s.cfg.camOf rx vc = some (i, m))
include hc

theorem exec_csi2Packet (dt : Nat) (ecc crc : Bool) (pl : List Byte) : exec (.csi2Packet rx vc dt ecc crc pl) s =
    .next (if ecc && crc then s.camPacket i m dt pl else s.pxeCount i Reg.PXE_PKTERR_COUNT) := by
  have herr : s.pktErr rx vc = s.pxeCount i Reg.PXE_PKTERR_COUNT := by rw [State.pktErr, hc]
  refine onAwake_of_due _ ha ?_ |>.trans ?_
  · simpa using hrx
  · rw [hc, herr]

end

/-- A count of a stream's page bank. -/
theorem State.pxeCount_spec (s : State) (i : Nat) {f : Fld} (hf : f.ok) (h32 : f.hi - f.lo + 1 = 32) :
    (s.pxeCount i f).fgetI pgPXE i f = min (s.fgetI pgPXE i f + 1) (2 ^ 32 - 1) := by
  have hlt : min (s.fgetI pgPXE i f + 1) (2 ^ (f.hi - f.lo + 1) - 1) < 2 ^ (f.hi - f.lo + 1) := by
    rw [h32]
    exact (Nat.min_le_right _ _).trans_lt (by decide)
  exact (s.fgetI_fsetI_same pgPXE i f hf _).trans ((Nat.mod_eq_of_lt hlt).trans (by rw [h32]))

theorem State.camFrames_setCamFrames (s : State) (i : Nat) (fs : List CamFrame) : (s.setCamFrames i fs).camFrames i = fs :=
  aget_aset_same _ _ _ _

/-- The level of a group changes a register alone. -/
theorem State.groupLevel_shape (s : State) (g : Nat) : ∃ r, s.groupLevel g = { s with regs := r } := by
  unfold State.groupLevel State.setLevel
  split
  · exact ⟨s.regs, rfl⟩
  · exact ⟨_, rfl⟩

theorem State.camPacket_of_line {s : State} {i : Nat} {m : CamCfg} {f : CamFrame} (pl : List Byte) (hf : s.camCur i = some f)
    (hdt : m.dt ≠ 0x12) : s.camPacket i m m.dt pl = s.camLine i m f pl := by
  rw [State.camPacket, if_pos (Or.inl rfl), hf]
  exact if_neg hdt

/-! ## Frame starts and ends (16 R392, R393) -/

section
variable {s : State} {rx vc : Nat} (ha : s.awake = true) (hrx : rx < 16) {i : Nat} {m : CamCfg} (hc : s.cfg.camOf rx vc = some (i, m))
include ha hrx hc

theorem exec_csi2FrameStart (num e : Nat) (ecc : Bool) : exec (.csi2FrameStart rx vc num ecc e) s =
    .next (if ecc then (elapse e s).camStart i m num else (elapse e s).pktErr rx vc) := by
  refine onAwake_of_due _ ha ?_ |>.trans ?_
  · simpa using hrx
  · dsimp only
    rw [elapse_cfg, hc]

theorem exec_csi2FrameEnd (e : Nat) (ecc : Bool) : exec (.csi2FrameEnd rx vc ecc e) s =
    .next (if ecc then (elapse e s).camEnd i m else (elapse e s).pktErr rx vc) := by
  refine onAwake_of_due _ ha ?_ |>.trans ?_
  · simpa using hrx
  · dsimp only
    rw [elapse_cfg, hc]

end

theorem State.camFrames_elapse (e : Nat) (s : State) (i : Nat) : (elapse e s).camFrames i = s.camFrames i := by
  rw [State.camFrames, State.camFrames, elapse_ing]

theorem State.camCur_elapse (e : Nat) (s : State) (i : Nat) : (elapse e s).camCur i = s.camCur i := by
  rw [State.camCur, State.camCur, State.camFrames_elapse]

/-- The frame that starts: it is stamped now. -/
def State.newFrame (s : State) (m : CamCfg) (num : Nat) : CamFrame :=
  CamFrame.mk (s.sampleFrame s.tbu.ns) s.tbu.ns ((if m.fcsrc = 0 then num else Config.freeNat s.draws) % 65536) (decide (m.fcsrc = 0))
    [] 0 false false false

/-- The state with the frame that starts. -/
def State.withNewFrame (s : State) (i : Nat) (m : CamCfg) (num : Nat) : State :=
  (if m.fcsrc = 0 then s else s.draw).setCamFrames i (s.camFrames i ++ [s.newFrame m num])

/-- A frame start of a stream without a frame in progress. -/
theorem State.camStart_eq {s : State} {i : Nat} (m : CamCfg) (num : Nat) (hf : s.camCur i = none) : s.camStart i m num =
    if (s.withNewFrame i m num).isClosed i (s.sampleFrame s.tbu.ns) then s.withNewFrame i m num
    else (s.withNewFrame i m num).openVer i (s.sampleFrame s.tbu.ns) := by
  have hend : s.camEnd i m = s := by rw [State.camEnd, hf]
  unfold State.camStart State.withNewFrame State.newFrame
  dsimp only
  rw [hend]
  split <;> rfl

theorem State.camStart_spec {s : State} {i : Nat} (m : CamCfg) (num : Nat) (hi : i < 64) (hf : s.camCur i = none) :
    (s.camStart i m num).mem = s.mem ∧ (s.camStart i m num).jobs = s.jobs ∧
      (s.camStart i m num).camFrames i = s.camFrames i ++ [s.newFrame m num] := by
  have hnew : (s.withNewFrame i m num).mem = s.mem ∧ (s.withNewFrame i m num).jobs = s.jobs ∧
      (s.withNewFrame i m num).camFrames i = s.camFrames i ++ [s.newFrame m num] := by
    refine ⟨State.ite_common State.mem rfl rfl, State.ite_common State.jobs rfl rfl, State.camFrames_setCamFrames _ i _⟩
  rw [State.camStart_eq m num hf]
  generalize s.withNewFrame i m num = u at hnew ⊢
  split
  · exact hnew
  · obtain ⟨v, l, ho⟩ := u.openVer_camera (s.sampleFrame s.tbu.ns) hi
    rw [ho]
    exact hnew

/-- A frame end of a stream whose only frame still has lines to process. -/
theorem State.camEnd_spec {s : State} {i : Nat} (m : CamCfg) {f : CamFrame} (hf : s.camFrames i = [f]) (he : f.ended = false)
    (hd : f.done < f.lines.length) : s.camEnd i m = s.setCamFrames i [{ f with ended := true }] := by
  have hcur : s.camCur i = some f := by rw [State.camCur, hf]; exact if_neg (by simp [he])
  have hset : s.setCamCur i { f with ended := true } = s.setCamFrames i [{ f with ended := true }] := by
    rw [State.setCamCur, hf]
    rfl
  have hthrough (u : State) : u.camThrough i m { f with ended := true } = false := by
    have hne : (f.done == f.lines.length) = false := by simp; omega
    simp [State.camThrough, hne]
  rw [State.camEnd, hcur]
  dsimp only
  rw [hset, State.camSettle, State.camFrames_setCamFrames]
  dsimp only
  rw [if_neg (by rw [hthrough]; decide)]

/-! ## Slices (16 R397) -/

/-- The engine busy for a slice's cycles. -/
def State.engineBusy (s : State) (cyc : Nat) : State :=
  let t := s.fwrap pgPXE Reg.PXE_BUSY_COUNT cyc
  { t with ing := { t.ing with freeAt := t.now + cyclesToEdges cyc 600 } }

/-- What a slice does: the test lines or the active ones. -/
def State.sliceWork (s : State) (i : Nat) (m : CamCfg) (f : CamFrame) : State :=
  if decide (f.groupLines m = 0) then (s.guardReport i m f).setCamFrame i f { f with tested := true } else s.sliceLines i m f (f.groupLines m)

theorem State.ingested_sliceWork (s : State) (i : Nat) (m : CamCfg) (f : CamFrame) : s.Ingested (s.sliceWork i m f) := by
  have law := State.openLaw_ingested i s
  have hguard : s.Ingested (s.guardReport i m f) := (State.DataKept.refl s).storeAt.ingested
  exact State.ite_law (law.toCamLaw.setCamFrames hguard i _) (law.sliceLines m f _ (State.Ingested.refl s))

/-- A slice keeps the engine busy for its cycles. -/
theorem State.slice_spec (s : State) (i : Nat) (m : CamCfg) (f : CamFrame) : (s.slice i m f).jobs = s.jobs ∧
    (s.slice i m f).queues = s.queues ∧ (s.slice i m f).ing.freeAt = s.now +
      cyclesToEdges (16 + (m.width * (if f.groupLines m = 0 then 4 else f.groupLines m) + 3) / 4) 600 := by
  have hcyc : (if decide (f.groupLines m = 0) then 4 else f.groupLines m) = if f.groupLines m = 0 then 4 else f.groupLines m := by
    simp only [decide_eq_true_eq]
  have hslice : s.slice i m f =
      (((s.engineBusy (16 + (m.width * (if decide (f.groupLines m = 0) then 4 else f.groupLines m) + 3) / 4)).sliceWork i m f).camSettle
        i m 8).groupLevel (m.rx / 4) := rfl
  rw [hslice, hcyc]
  generalize 16 + (m.width * (if f.groupLines m = 0 then 4 else f.groupLines m) + 3) / 4 = cyc
  have hbusy : (s.engineBusy cyc).jobs = s.jobs ∧ (s.engineBusy cyc).queues = s.queues ∧
      (s.engineBusy cyc).ing.freeAt = s.now + cyclesToEdges cyc 600 := ⟨rfl, rfl, rfl⟩
  generalize s.engineBusy cyc = u at hbusy ⊢
  have law := State.openLaw_ingested i u
  obtain ⟨r, hr⟩ := ((u.sliceWork i m f).camSettle i m 8).groupLevel_shape (m.rx / 4)
  have h := law.camSettle m 8 (u.ingested_sliceWork i m f)
  rw [hr]
  exact ⟨h.jobs.trans hbusy.1, h.queues.trans hbusy.2.1, h.freeAt.trans hbusy.2.2⟩

theorem pxeSlice_serves {s : State} {e i : Nat} {m : CamCfg} {f : CamFrame} (ha : s.awake = true)
    (hd : s.dueNow e s.ing.freeAt = true) (hp : (elapse e s).pxePick = some i) (hm : s.cfg.cams[i]? = some m)
    (hn : (elapse e s).camNext i m = some f) :
    ∃ t, exec (.pxeSlice e) s = .next t ∧ t.jobs = s.jobs ∧ t.queues = s.queues ∧ t.ing.freeAt = s.now + e +
      cyclesToEdges (16 + (m.width * (if f.groupLines m = 0 then 4 else f.groupLines m) + 3) / 4) 600 := by
  have hexec : exec (.pxeSlice e) s = .next ((elapse e s).slice i m f) := by
    refine onAwake_of_due _ ha ?_ |>.trans ?_
    · rw [hd, hp]
      rfl
    · rw [hp]
      dsimp only
      rw [elapse_cfg, hm]
      dsimp only
      rw [hn]
  obtain ⟨hjobs, hqueues, hfree⟩ := (elapse e s).slice_spec i m f
  exact ⟨_, hexec, by rw [hjobs, elapse_jobs], by rw [hqueues, elapse_queues], by rw [hfree, elapse_now_of_awake e ha]⟩

/-! ## Closing (09 R221) -/

theorem State.closedAt_markClosed (s : State) (key : Nat) (f : Word32) : (s.markClosed key f).ClosedAt key f where
  closed := aget_aset_same _ _ _ _
  none v hv hk hf := by
    have := (List.mem_filter.1 hv).2
    simp [hk, hf] at this

/-- The records of a version without a whole image. -/
def State.absentRecs (s : State) (i : Nat) (m : CamCfg) (f : Word32) : State :=
  match s.inVer i f with
  | some v => if v.image.isSome then s else s.writeRecs m v (List.replicate 16 0) 2 0
  | none => s

/-- A camera's version closes. -/
theorem State.camClose_spec (s : State) (i : Nat) (m : CamCfg) (f : Word32) : (s.camClose i m f).ClosedAt i f ∧
    (s.camClose i m f).jobs = s.jobs := by
  have law := State.openLaw_ingested i s
  have hopen : s.Ingested (s.openVer i f) :=
    law.toCamLaw.openVer_of_vers (State.Ingested.refl s) i f fun _ _ hu _ _ => ⟨hu.jobs, hu.queues, hu.cfg, hu.closed, hu.freeAt⟩
  have hkeep (u : State) : (u.markClosed i f).jobs = u.jobs := rfl
  have hclose : s.camClose i m f = (((s.openVer i f).absentRecs i m f).markClosed i f).camSettle i m 8 := rfl
  have hrec : s.Ingested ((s.openVer i f).absentRecs i m f) := by
    unfold State.absentRecs
    split
    · exact State.ite_law hopen (law.toCamLaw.writeRecs hopen _ _ _ _ _)
    · exact hopen
  rw [hclose]
  generalize (s.openVer i f).absentRecs i m f = w at hrec ⊢
  exact ⟨(State.openLaw_closedAt i f).camSettle m 8 (w.closedAt_markClosed i f),
    (((State.openLaw_ingested i (w.markClosed i f)).camSettle m 8 (State.Ingested.refl _)).jobs.trans (hkeep w)).trans hrec.jobs⟩

section
variable {R : State → Prop} (law : State.IngestLaw R) {t : State} (h : R t)
include law h

theorem State.IngestLaw.ethInto (x : EthStream) (v : InVer) (k : EthPkt) (late : Bool) : R (t.ethInto x v k late) := by
  have hput (off : Nat) (bs : List Byte) (w : InVer) : R (((t.ingestWriteAll v off bs).ingestWriteAll v 0 w.head).setInVer w) :=
    law.setInVer w (law.ingestWriteAll (law.ingestWriteAll h v off bs) v 0 w.head)
  exact State.ite_law (State.ite_law (law.lateFold (hput _ _ _)) (law.lateDrop h))
    (State.ite_law (hput _ _ _) (law.setInVer _ (law.ingestWriteAll h v 0 _)))

end

section
variable {R : State → Prop} (law : State.EthLaw R) {t : State} (h : R t)
include law h

theorem State.EthLaw.openVer (key : Nat) (f : Word32) : R (t.openVer key f) :=
  law.toIngestLaw.openVer_of_vers h key f fun _ _ hu _ _ => law.vers _ hu

theorem State.EthLaw.ethPlace {u : State} {k : EthPkt} (hu : t.ethPlace k = some u) : R u := by
  unfold State.ethPlace at hu
  split at hu
  · obtain rfl := Option.some.inj hu
    exact h
  · dsimp only at hu
    split at hu
    · obtain rfl := Option.some.inj hu
      exact law.lateDrop h
    · obtain ⟨v, _, rfl⟩ := Option.map_eq_some_iff.1 hu
      exact law.ethInto (law.openVer h _ _) _ _ _ _

/-- The packets that wait are placed. -/
theorem State.EthLaw.ethDrain : R t.ethDrain := by
  refine law.toIngestLaw.setLevel (State.IngestLaw.foldl (law.waiting [] h) (fun u k hu => ?_) t.ing.waiting) 17 _
  dsimp only
  split
  · exact law.waiting _ hu
  · split
    · next w hw => exact law.ethPlace hu hw
    · exact law.waiting _ hu

end

/-- An Ethernet stream's version closes. -/
theorem State.ethClose_spec (s : State) (k : Nat) (f : Word32) : (s.ethClose k f).closedOf (ethKey k) = f ∧
    (s.ethClose k f).jobs = s.jobs := by
  have hopen := s.ethLaw_ingested.openVer (State.Ingested.refl s) (ethKey k) f
  have hdrain := (State.ethLaw_ingested ((s.openVer (ethKey k) f).markClosed (ethKey k) f)).ethDrain (State.Ingested.refl _)
  have hmark : ((s.openVer (ethKey k) f).markClosed (ethKey k) f).jobs = (s.openVer (ethKey k) f).jobs := rfl
  refine ⟨(congrArg (fun l => aget 0 l (ethKey k)) hdrain.closed).trans (State.closedAt_markClosed _ (ethKey k) f).closed,
    (hdrain.jobs.trans hmark).trans hopen.jobs⟩

/-! ## The statement -/

/-- Settles O53: packets join their frame or are counted, and slices and closings take their course, as the lemmas above say. -/
theorem cameraStreamsFollowChapter16 : Obligations.CameraStreamsFollowChapter16 := by
  unfold Obligations.CameraStreamsFollowChapter16
  intro s rx vc ha hrx
  refine ⟨fun hc => csi2Packet_unmatched ha hrx hc, fun i m hc hi => ⟨fun dt ecc crc pl hbad => ?_, fun f pl hf hdt hdrop hlen => ?_,
    fun num e => ?_, fun num e hf => ?_, fun f e hf he hd => ?_⟩, fun e i m f => pxeSlice_serves ha, fun e i m hm hen hd => ?_,
    fun e k hk hd => ?_⟩
  · have hcount := s.pxeCount_spec i (f := Reg.PXE_PKTERR_COUNT) (by decide) rfl
    have hexec : exec (.csi2Packet rx vc dt ecc crc pl) s = .next (s.pxeCount i Reg.PXE_PKTERR_COUNT) := by
      rw [exec_csi2Packet ha hrx hc]
      rcases hbad with hb | ⟨rfl, hn⟩
      · rw [if_neg (by rw [hb]; decide)]
      · rw [State.camPacket, if_pos (Or.inl rfl), hn, ite_self]
    exact ⟨_, hexec, rfl, rfl, rfl, hcount⟩
  · have hexec : exec (.csi2Packet rx vc m.dt true true pl) s = .next (s.camLine i m f pl) := by
      rw [exec_csi2Packet ha hrx hc, if_pos (by decide), State.camPacket_of_line pl hf hdt]
    refine ⟨fun hfit => ?_, fun hover => ?_⟩
    · have hline : s.camLine i m f pl = (s.setCamCur i { f with lines := f.lines ++ [pl] }).groupLevel (m.rx / 4) := by
        rw [State.camLine, if_neg (by simp [hdrop]), if_neg (by omega), if_neg (by omega)]
      obtain ⟨r, hr⟩ := (s.setCamCur i { f with lines := f.lines ++ [pl] }).groupLevel_shape (m.rx / 4)
      refine ⟨_, hexec, ?_⟩
      rw [hline, hr]
      exact ⟨rfl, rfl, State.camFrames_setCamFrames s i _⟩
    · have hline : s.camLine i m f pl = (s.setCamCur i { f with drop := true }).pxeCount i Reg.PXE_OVF_COUNT := by
        rw [State.camLine, if_neg (by simp [hdrop]), if_neg (by omega), if_pos hover]
      refine ⟨_, hexec, ?_⟩
      rw [hline]
      exact ⟨rfl, rfl, State.camFrames_setCamFrames s i _, State.pxeCount_spec _ i (by decide) rfl⟩
  · exact ⟨exec_csi2FrameStart ha hrx hc num e true, exec_csi2FrameStart ha hrx hc num e false, exec_csi2FrameEnd ha hrx hc e true,
      exec_csi2FrameEnd ha hrx hc e false⟩
  · obtain ⟨hmem, hjobs, hframes⟩ := State.camStart_spec (s := elapse e s) m num hi ((s.camCur_elapse e i).trans hf)
    exact ⟨_, exec_csi2FrameStart ha hrx hc num e true, hmem.trans (elapse_mem e s), hjobs.trans (elapse_jobs e s),
      hframes.trans (by rw [State.camFrames_elapse]; rfl)⟩
  · refine ⟨_, exec_csi2FrameEnd ha hrx hc e true, ?_⟩
    rw [if_pos rfl, State.camEnd_spec m ((s.camFrames_elapse e i).trans hf) he hd]
    exact ⟨elapse_mem e s, elapse_jobs e s, State.camFrames_setCamFrames _ i _⟩
  · obtain ⟨hclosed, hjobs⟩ := (elapse e s).camClose_spec i m (s.oldestOpen i)
    have hexec : exec (.inputVersionClose 0 i e) s = .next ((elapse e s).camClose i m (s.oldestOpen i)) := by
      have h : exec (.inputVersionClose 0 i e) s = execInputVersionClose 0 i e s := rfl
      rw [h, execInputVersionClose, if_pos rfl, hm]
      exact onAwake_of_due _ ha (by rw [hen, hd]; rfl)
    exact ⟨_, hexec, hclosed.closed, hclosed.inVer, hjobs.trans (elapse_jobs e s)⟩
  · obtain ⟨hclosed, hjobs⟩ := (elapse e s).ethClose_spec k (s.oldestOpen (ethKey k))
    have hexec : exec (.inputVersionClose 1 k e) s = .next ((elapse e s).ethClose k (s.oldestOpen (ethKey k))) := by
      have h : exec (.inputVersionClose 1 k e) s = execInputVersionClose 1 k e s := rfl
      rw [h, execInputVersionClose, if_neg (by decide)]
      exact onAwake_of_due _ ha (by rw [hk, hd]; rfl)
    exact ⟨_, hexec, hclosed, hjobs.trans (elapse_jobs e s)⟩

end Sys2Proof.Machine
end

section
/-!
PROOF. Ethernet: reception and its counts, the transmit queues' heads, the gate's frame, and links that go up and down
(16 R399 to R406).
-/

namespace Sys2Proof.Machine

open Sys2Proof

-- One thread at a time: the stacks of threads that wait for each other count against the check's memory limit.
set_option Elab.async false

/-! ## Lines of the Snuffers' inputs -/

/-- Every line that was pulsed is still in the queues of both Snuffers. -/
def State.LinesKept (s t : State) : Prop := ∀ l, (l ∈ s.snA.lines → l ∈ t.snA.lines) ∧ (l ∈ s.snB.lines → l ∈ t.snB.lines)

theorem State.linesKept_refl (s : State) : s.LinesKept s := fun _ => ⟨id, id⟩

theorem State.LinesKept.trans {s t u : State} (h : s.LinesKept t) (k : t.LinesKept u) : s.LinesKept u :=
  fun l => ⟨fun hl => (k l).1 ((h l).1 hl), fun hl => (k l).2 ((h l).2 hl)⟩

theorem State.linesKept_of_eq {s t : State} (ha : t.snA = s.snA) (hb : t.snB = s.snB) : s.LinesKept t := by
  unfold State.LinesKept
  rw [ha, hb]
  exact s.linesKept_refl

theorem State.linesKept_pulse (s : State) (l : Nat) : s.LinesKept (s.pulse l) := by
  unfold State.pulse
  split
  · exact fun _ => ⟨List.mem_append_left _, List.mem_append_left _⟩
  · exact s.linesKept_refl

theorem State.linesKept_store (s : State) (a : Nat) (bs : List Byte) : s.LinesKept (s.store a bs) := by
  obtain ⟨_, h⟩ := s.store_shape a bs
  exact State.linesKept_of_eq (by rw [h]) (by rw [h])

/-- A predicate that a store keeps, and all that a store can do besides: registers, captured errors and pulsed lines. -/
structure State.StoreLaw (R : State → Prop) : Prop where
  setReg : ∀ {t : State} (p i o : Nat) (v : Word32), R t → R (t.setReg p i o v)
  capture : ∀ {t : State} (p : Nat) (e : Err) (a : Nat), R t → R (t.capture p e a)
  pulse : ∀ {t : State} (l : Nat), R t → R (t.pulse l)
  store : ∀ {t : State} (a : Nat) (bs : List Byte), R t → R (t.store a bs)

section
variable {R : State → Prop} (law : State.StoreLaw R) {t : State} (h : R t)
include law h

theorem State.StoreLaw.captureLine (p : Nat) (e : Err) (a l : Nat) : R (t.captureLine p e a l) := law.pulse l (law.capture p e a h)

theorem State.StoreLaw.storeLine (a : Nat) (bs : List Byte) : R (t.storeLine a bs) := by
  unfold State.storeLine
  split
  · split
    · exact law.setReg _ _ _ _ h
    · exact State.ite_law (law.setReg _ _ _ _ h) h
    · exact h
  · exact law.store a bs h

theorem State.StoreLaw.storeLines (n a : Nat) (bs : List Byte) : R (t.storeLines n a bs) := by
  induction n generalizing t a bs with
  | zero => exact h
  | succ n ih =>
    unfold State.storeLines
    exact State.ite_law h (ih (law.storeLine h _ _) _ _)

theorem State.StoreLaw.storePlain (a : Nat) (bs : List Byte) : R (t.storePlain a bs) :=
  State.ite_law (State.ite_law (law.captureLine h _ _ _ _) h) (State.ite_law (law.store a bs h) (law.storeLines h _ a bs))

theorem State.StoreLaw.storeAt (a : Nat) (bs : List Byte) : R (t.storeAt a bs) := by
  rw [State.storeAt]
  have hp := law.storePlain h a bs
  generalize t.storePlain a bs = u at hp ⊢
  exact State.ite_law hp (State.IngestLaw.foldl hp (fun _ _ hv => State.ite_law (law.capture _ _ _ hv) hv) _)

end

theorem State.storeLaw_linesKept (s : State) : State.StoreLaw s.LinesKept where
  setReg _ _ _ _ h := h
  capture _ _ _ h := h.trans (State.linesKept_of_eq (by simp) (by simp))
  pulse l h := h.trans (State.linesKept_pulse _ l)
  store a bs h := h.trans (State.linesKept_store _ a bs)

/-! ## What the transmit engine keeps -/

/-- What the transmit engine's accesses keep; with rings in the eight classes also the ports' registers and the lines. -/
structure State.TxKept (s t : State) : Prop extends s.DataKept t where
  rest : (∀ r ∈ s.cfg.eth.rings, r.tc < 8) → s.LinesKept t ∧
    ∀ p o, 0x098 ≤ p → p < 0x0A0 → o < 4096 → o ∉ writeOffs → t.reg p 0 o = s.reg p 0 o

theorem State.TxKept.refl (s : State) : s.TxKept s := ⟨.refl s, fun _ => ⟨s.linesKept_refl, fun _ _ _ _ _ _ => rfl⟩⟩

theorem State.TxKept.trans {s t u : State} (h : s.TxKept t) (k : t.TxKept u) : s.TxKept u := by
  refine ⟨h.toDataKept.trans k.toDataKept, fun hr => ?_⟩
  obtain ⟨hl, hreg⟩ := h.rest hr
  obtain ⟨kl, kreg⟩ := k.rest (by rw [h.cfg]; exact hr)
  exact ⟨hl.trans kl, fun p o h1 h2 h3 h4 => (kreg p o h1 h2 h3 h4).trans (hreg p o h1 h2 h3 h4)⟩

theorem State.txKept_storeAt (s : State) (a : Nat) (bs : List Byte) : s.TxKept (s.storeAt a bs) :=
  ⟨(State.DataKept.refl s).storeAt, fun _ =>
    ⟨s.storeLaw_linesKept.storeAt s.linesKept_refl a bs, fun p _ _ _ ho hw => State.reg_storeAt_of_offset hw ho s a p bs⟩⟩

/-- A register of a queue's page. -/
theorem State.txKept_setReg (s : State) {p o : Nat} (v : Word32) (hp : 0x0A0 ≤ p) (ho : o < 4096) : s.TxKept (s.setReg p 0 o v) :=
  ⟨(State.DataKept.refl s).wrote (s.setReg_onlyWritten p 0 o v), fun _ => ⟨s.linesKept_refl, fun _ _ _ hlt hx _ =>
    s.reg_setReg_other v (regKey_ne_of_page (by omega) (by decide) (by decide) ho hx)⟩⟩

theorem State.txKept_msix (s : State) (a b c : Nat) : s.TxKept (s.msix a b c) := by
  obtain ⟨o, q, h⟩ := s.msix_shape a b c
  rw [h]
  exact ⟨⟨rfl, rfl, rfl, rfl, rfl, rfl, rfl, rfl, rfl, rfl, rfl, rfl, rfl⟩, fun _ => ⟨s.linesKept_refl, fun _ _ _ _ _ _ => rfl⟩⟩

theorem State.txKept_draw (s : State) : s.TxKept s.draw :=
  ⟨(State.ReadKept.refl s).draw.toDataKept, fun _ => ⟨s.linesKept_refl, fun _ _ _ _ _ _ => rfl⟩⟩

theorem State.txKept_txMoves (s : State) (p q a n : Nat) (w : Bool) : s.TxKept (s.txMoves p q a n w) := by
  unfold State.txMoves
  split
  · next r hr =>
    refine ⟨(State.DataKept.refl s).traffic, fun htc => ?_⟩
    have hlt := htc r (List.mem_of_find?_eq_some hr)
    obtain ⟨_, _, _, _, h, hreg, _⟩ := s.traffic_onlyMoved (some (.chimney 5)) 18 r.tc r.part a n w (by decide) hlt
    refine ⟨State.linesKept_of_eq (by rw [h]) (by rw [h]), fun p' o h1 h2 ho _ => ?_⟩
    exact hreg p' 0 o (by rintro rfl; revert h1; decide) (Or.inr (by omega)) (by decide) ho
  · exact .refl s

theorem State.TxKept.ite {s t u : State} {c : Prop} [Decidable c] (h : s.TxKept t) (k : s.TxKept u) : s.TxKept (if c then t else u) :=
  State.ite_law h k

/-- The moment of transmission, where the descriptor's word asks for it. -/
def State.txStamp (s : State) (a w1 : Nat) (stamp : Option Nat) : State :=
  match stamp with
  | some ns => if txTs w1 then s.storeAt (a + 24) (toLE 4 (ns % 1000000000) ++ toLE 4 (ns / 1000000000)) else s
  | none => s

theorem State.txKept_txStamp (s : State) (a w1 : Nat) (stamp : Option Nat) : s.TxKept (s.txStamp a w1 stamp) := by
  cases stamp with
  | none => exact .refl s
  | some ns => exact (s.txKept_storeAt (a + 24) _).ite (.refl s)

theorem State.txKept_ringNext (s : State) {p : Nat} (hp : 0x0A0 ≤ p) : s.TxKept (s.ringNext p) :=
  s.txKept_setReg (o := Reg.ETQ_HW_INDEX.off) _ hp (by decide)

theorem State.txKept_dropped (s : State) {p : Nat} (hp : 0x0A0 ≤ p) : s.TxKept (s.fadd p Reg.ETQ_DROP_COUNT 1) :=
  s.txKept_setReg (o := Reg.ETQ_DROP_COUNT.off) _ hp (by decide)

/-- The end of a write-back: the index moves on, a drop is counted, and the owner is told if it asked. -/
def State.txDone (s : State) (p w1 st : Nat) (r : EtqCfg) : State :=
  let s := s.ringNext p
  let s := if st = 1 then s else s.fadd p Reg.ETQ_DROP_COUNT 1
  if txIrq w1 then s.ringVec p r else s

theorem State.txKept_txDone (s : State) {p : Nat} (hp : 0x0A0 ≤ p) (w1 st : Nat) (r : EtqCfg) : s.TxKept (s.txDone p w1 st r) := by
  have h := s.txKept_ringNext hp
  have hd : s.TxKept (if st = 1 then s.ringNext p else (s.ringNext p).fadd p Reg.ETQ_DROP_COUNT 1) :=
    h.ite (h.trans (State.txKept_dropped _ hp))
  exact State.TxKept.ite (hd.trans (State.txKept_msix _ _ _ _)) hd

/-- The descriptor's state and error are written over its second word. -/
def txWord (w1 st err : Nat) : List Byte :=
  toLE 8 (w1 % 2 ^ 32 + st % 4 * 2 ^ 32 + err % 256 * 2 ^ 40 + w1 / 2 ^ 48 * 2 ^ 48)

/-- The write-back of the head at address `a`. -/
def State.txBackAt (s : State) (p q st err : Nat) (stamp : Option Nat) (r : EtqCfg) (a : Nat) : State :=
  let s := s.txMoves p q a 32 false
  let w1 := s.loadLE (a + 8) 8
  ((((s.txMoves p q (a + 8) 8 true).storeAt (a + 8) (txWord w1 st err)).txStamp a w1 stamp)).txDone (pgTxq p q) w1 st r

theorem State.txBack_some {s : State} {p q : Nat} {r : EtqCfg} {a : Nat} (h : s.txHead p q = some (r, a)) (st err : Nat)
    (stamp : Option Nat) : s.txBack p q st err stamp = s.txBackAt p q st err stamp r a := by
  unfold State.txBack
  rw [h]
  rfl

theorem State.txBack_none {s : State} {p q : Nat} (h : s.txHead p q = none) (st err : Nat) (stamp : Option Nat) :
    s.txBack p q st err stamp = s := by
  unfold State.txBack
  rw [h]

theorem State.txKept_txBack (s : State) (p q st err : Nat) (stamp : Option Nat) : s.TxKept (s.txBack p q st err stamp) := by
  have hpage : 0x0A0 ≤ pgTxq p q := by unfold pgTxq; omega
  rcases hh : s.txHead p q with _ | ⟨r, a⟩
  · rw [State.txBack_none hh]
    exact .refl s
  · rw [State.txBack_some hh]
    exact ((((s.txKept_txMoves p q a 32 false).trans (State.txKept_txMoves _ _ _ _ _ _)).trans (State.txKept_storeAt _ _ _)).trans
      (State.txKept_txStamp _ _ _ _)).trans (State.txKept_txDone _ hpage _ _ _)

/-! ## Reception -/

theorem calm_pgETH {p : Nat} (hp : p < 8) : Calm (pgETH p) := by
  interval_cases p <;> exact calm_of_lt (by decide) (by decide)

section Rx
variable {s : State} {p : Nat} (hp : p < 8) (ha : s.awake = true) (hup : s.ethUp p = true) (bs : List Byte) (e dur : Nat)
include hp ha hup

theorem exec_ethRxFrame_failed : exec (.ethRxFrame p bs false e dur) s =
    .next ((elapse dur (elapse e s)).fadd (pgETH p) Reg.ETH_RX_FCSERR_COUNT 1) :=
  onAwake_of_due _ ha (by rw [hup, decide_eq_true hp]; rfl)

theorem exec_ethRxFrame_good : exec (.ethRxFrame p bs true e dur) s =
    .next ((elapse dur (elapse e s)).ethRx p (elapse e s).tbu.ns ((elapse e s).sampleFrame (elapse e s).tbu.ns) bs) :=
  onAwake_of_due _ ha (by rw [hup, decide_eq_true hp]; rfl)

omit ha hup in
theorem State.fget_fadd_elapsed {f : Fld} (h : f.ok) (ho : f.off < 4096) (n : Nat) :
    ((elapse dur (elapse e s)).fadd (pgETH p) f n).fget (pgETH p) f = min (s.fget (pgETH p) f + n) (2 ^ (f.hi - f.lo + 1) - 1) := by
  rw [State.fget_fadd_same _ _ h, (calm_pgETH hp).fget _ _ ho, (calm_pgETH hp).fget _ _ ho]

end Rx

/-- The frame is of a length out of range, of flow control, or beyond the receive buffer. -/
def State.rxRefused (s : State) (p : Nat) (bs : List Byte) : Prop :=
  bs.length + 4 < 64 ∨ s.fget (pgETH p) Reg.ETH_PORT_MAXLEN < bs.length + 4 ∨ (parseEth bs).etype = 0x8808 ∨
    ethBufBytes < s.ethFill + bs.length

theorem State.rxRefused_elapse {p : Nat} (hp : p < 8) (e dur : Nat) (s : State) (bs : List Byte) :
    (elapse dur (elapse e s)).rxRefused p bs ↔ s.rxRefused p bs := by
  unfold State.rxRefused State.ethFill
  rw [(calm_pgETH hp).fget _ _ (by decide), (calm_pgETH hp).fget _ _ (by decide), elapse_ing, elapse_ing]

section Match
variable {u : State} {p stamp : Nat} {f : Word32} {bs : List Byte}

theorem State.ethRx_refused (h : u.rxRefused p bs) : u.ethRx p stamp f bs = u.fadd (pgETH p) Reg.ETH_RX_DROP_COUNT 1 := if_pos h

theorem State.ethRx_ptp (h : ¬ u.rxRefused p bs) (ht : (parseEth bs).etype = 0x88F7) : u.ethRx p stamp f bs =
    if u.flag pgTBU Reg.TBU_SERVO_OWNER then u.hostRx (u.fget pgTBU Reg.TBU_SERVO_HOSTQ) p stamp bs else u :=
  (if_neg h).trans (if_pos ht)

variable (h : ¬ u.rxRefused p bs) (ht : (parseEth bs).etype ≠ 0x88F7)
include h ht

theorem State.ethRx_nomatch (hr : (u.cfg.eth.rules.find? fun r => r.hits p (parseEth bs)) = none) :
    u.ethRx p stamp f bs = u.fadd (pgETH p) Reg.ETH_RX_NOMATCH_COUNT 1 := by
  refine (if_neg h).trans ((if_neg ht).trans ?_)
  rw [hr]

theorem State.ethRx_drop {r : EthRule} (hr : (u.cfg.eth.rules.find? fun r => r.hits p (parseEth bs)) = some r) (hd : r.act = .drop) :
    u.ethRx p stamp f bs = u := by
  refine (if_neg h).trans ((if_neg ht).trans ?_)
  rw [hr]
  dsimp only
  rw [hd]

theorem State.ethRx_hostq {r : EthRule} {q : Nat} (hr : (u.cfg.eth.rules.find? fun r => r.hits p (parseEth bs)) = some r)
    (hq : r.act = .hostq q) : u.ethRx p stamp f bs = u.hostRx q p stamp bs := by
  refine (if_neg h).trans ((if_neg ht).trans ?_)
  rw [hr]
  dsimp only
  rw [hq]

theorem State.ethRx_stream {r : EthRule} {k : Nat} (hr : (u.cfg.eth.rules.find? fun r => r.hits p (parseEth bs)) = some r)
    (hk : r.act = .stream k) : u.ethRx p stamp f bs = u.ethStreamRx k p stamp f (parseEth bs) := by
  refine (if_neg h).trans ((if_neg ht).trans ?_)
  rw [hr]
  dsimp only
  rw [hk]

end Match

/-- What a drain of the receive buffer keeps: the jobs, the streams' sequence counts and the cameras. -/
structure State.Drained (s t : State) : Prop where
  jobs : t.jobs = s.jobs
  seqs : t.ing.seqs = s.ing.seqs
  cams : t.ing.cams = s.ing.cams

theorem State.ethLaw_drained (s : State) : State.EthLaw s.Drained where
  data h k := ⟨k.jobs.trans h.jobs, (congrArg Ingest.seqs k.ing).trans h.seqs, (congrArg Ingest.cams k.ing).trans h.cams⟩
  setVbuf _ h := ⟨h.jobs, h.seqs, h.cams⟩
  setInVer _ h := ⟨h.jobs, h.seqs, h.cams⟩
  vers _ h := ⟨h.jobs, h.seqs, h.cams⟩
  waiting _ h := ⟨h.jobs, h.seqs, h.cams⟩

theorem State.drained_ethDrain (s : State) : s.Drained s.ethDrain := s.ethLaw_drained.ethDrain ⟨rfl, rfl, rfl⟩

theorem State.ethStreamRx_spec (s : State) (k port stamp : Nat) (f : Word32) (h : EthHdr) :
    aget 0 (s.ethStreamRx k port stamp f h).ing.seqs k = aget 0 s.ing.seqs k + 1 ∧
    (s.ethStreamRx k port stamp f h).jobs = s.jobs ∧ (s.ethStreamRx k port stamp f h).ing.cams = s.ing.cams := by
  obtain ⟨hjobs, hseqs, hcams⟩ := State.drained_ethDrain { s with ing := { s.ing with
    seqs := aset s.ing.seqs k (aget 0 s.ing.seqs k + 1)
    waiting := s.ing.waiting ++ [{ t := k, frame := f, stamp := stamp, seq := aget 0 s.ing.seqs k % 65536, port := port, src := h.src,
                                   payload := (h.udp.map (·.2.2)).getD [] }] } }
  exact ⟨(congrArg (aget 0 · k) hseqs).trans (aget_aset_same _ _ _ _), hjobs, hcams⟩

/-! ## Links -/

theorem eth_reg_kept {s t : State} (h : s.TxKept t) (hr : ∀ r ∈ s.cfg.eth.rings, r.tc < 8) {p : Nat} (hp : p < 8) {f : Fld}
    (ho : f.off < 4096) (hw : f.off ∉ writeOffs) : t.fget (pgETH p) f = s.fget (pgETH p) f := by
  obtain ⟨_, hreg⟩ := h.rest hr
  exact congrArg f.get (hreg (pgETH p) f.off (by unfold pgETH; omega) (by unfold pgETH; omega) ho hw)

/-- The MAC of port `p` is free again. -/
def State.macFree (s : State) (p : Nat) : State := { s with ethTx := s.ethTx.filter fun y => y.1 != p }

theorem State.macBusy_macFree (s : State) (p : Nat) : (s.macFree p).macBusy p = none := by
  unfold State.macBusy State.macFree
  rw [List.find?_eq_none.mpr (by simp), Option.map_none]

theorem State.txKept_pulse (s : State) (l : Nat) : s.TxKept (s.pulse l) := by
  refine ⟨(State.ReadKept.refl s).pulse.toDataKept, fun _ => ⟨s.linesKept_pulse l, fun p o _ _ _ _ => ?_⟩⟩
  unfold State.pulse
  split <;> rfl

/-- The transmit engine after the end of a transmission: the write-back, or line 347 for a gate's frame that failed. -/
theorem State.txKept_txEnd (s : State) (p : Nat) (x : EthTx) (good : Bool) :
    (s.macFree p).TxKept (s.txEnd p x good) := by
  unfold State.txEnd
  dsimp only
  rw [← State.macFree]
  generalize s.macFree p = u
  split
  · exact (u.txKept_txBack _ _ _ _ _).ite (u.txKept_draw.trans (State.txKept_txBack _ _ _ _ _ _))
  · exact (State.TxKept.refl u).ite (u.txKept_pulse 347)

theorem State.macBusy_txEnd (s : State) (p : Nat) (x : EthTx) (good : Bool) : (s.txEnd p x good).macBusy p = none := by
  have h := (s.txKept_txEnd p x good).ethTx
  rw [State.macBusy, h]
  exact s.macBusy_macFree p

/-- A port's link goes down: its rate is 0, its line pulses, and the transmission under way ends unsent. -/
def State.linkDown (s : State) (p : Nat) : State :=
  let s := (s.fset (pgETH p) Reg.ETH_PORT_RATE 0).pulse (336 + p)
  match s.macBusy p with
  | some x => s.txEnd p x false
  | none => s

theorem State.linkDown_spec {s : State} {p : Nat} (hp : p < 8) (hr : ∀ r ∈ s.cfg.eth.rings, r.tc < 8) :
    (s.linkDown p).ethUp p = false ∧ 336 + p ∈ (s.linkDown p).snA.lines ∧ 336 + p ∈ (s.linkDown p).snB.lines ∧
    (s.linkDown p).jobs = s.jobs ∧ (s.linkDown p).ing = s.ing := by
  have hk := (s.fset (pgETH p) Reg.ETH_PORT_RATE 0).txKept_pulse (336 + p)
  have hlines := (s.fset (pgETH p) Reg.ETH_PORT_RATE 0).mem_lines_pulse (l := 336 + p) (by omega)
  have hrate : ((s.fset (pgETH p) Reg.ETH_PORT_RATE 0).pulse (336 + p)).fget (pgETH p) Reg.ETH_PORT_RATE = 0 :=
    (eth_reg_kept hk hr hp (by decide) (by decide)).trans (s.fget_fset_same (pgETH p) _ (by decide) 0)
  have hd : s.DataKept ((s.fset (pgETH p) Reg.ETH_PORT_RATE 0).pulse (336 + p)) := (State.ReadKept.refl s).fset.pulse.toDataKept
  unfold State.linkDown
  dsimp only
  generalize (s.fset (pgETH p) Reg.ETH_PORT_RATE 0).pulse (336 + p) = u at hlines hrate hd
  obtain ⟨hA, hB⟩ := hlines
  split
  · next x _ =>
    have hx := u.txKept_txEnd p x false
    have hru : ∀ r ∈ u.cfg.eth.rings, r.tc < 8 := by rw [hd.cfg]; exact hr
    obtain ⟨hl, _⟩ := hx.rest hru
    have hrate' := eth_reg_kept hx hru hp (f := Reg.ETH_PORT_RATE) (by decide) (by decide)
    exact ⟨bne_eq_false_iff_eq.mpr (hrate'.trans hrate), (hl _).1 hA, (hl _).2 hB, hx.jobs.trans hd.jobs, hx.ing.trans hd.ing⟩
  · exact ⟨bne_eq_false_iff_eq.mpr hrate, hA, hB, hd.jobs, hd.ing⟩

theorem exec_ethLinkDown {s : State} {p : Nat} (hp : p < 8) (ha : s.awake = true) (hup : s.ethUp p = true) :
    exec (.ethLinkDown p) s = .next (s.linkDown p) :=
  onAwake_of_due _ ha (by rw [hup, decide_eq_true hp]; rfl)

theorem exec_ethLinkUp {s : State} {p r : Nat} (hp : p < 8) (ha : s.awake = true) (h1 : 1 ≤ r) (h5 : r ≤ 5) :
    exec (.ethLinkUp p r) s = .next (s.fset (pgETH p) Reg.ETH_PORT_RATE r) :=
  onAwake_of_due _ ha (by rw [decide_eq_true hp, decide_eq_true h1, decide_eq_true h5]; rfl)

theorem State.ethUp_fset_other (s : State) {p q : Nat} (hq : q ≠ p) (r : Nat) :
    (s.fset (pgETH p) Reg.ETH_PORT_RATE r).ethUp q = s.ethUp q := by
  unfold State.ethUp
  exact congrArg (· != 0) (congrArg (Fld.get _) (s.reg_setReg_other _ (regKey_ne_of_page (by unfold pgETH; omega) (by decide) (by decide)
    (by decide) (by decide))))

/-! ## ETQ_SW -/

section Sw
variable {s : State} {p q : Nat} (hp : p < 8) (hq : q < 8)
include hp hq

theorem State.blockWrite_etqSw (w : Writer) (v : Word32) : s.blockWrite w (pgTxq p q) .etqTx 0x040 v =
    if s.designatedQ p q then s.capture (pgTxq p q) .partitionViolation 0
    else s.putFields (pgTxq p q) 0 .etqTx 0x040 v 0 := by
  have h1 : (pgTxq p q - 0x0A0) / 8 = p := by unfold pgTxq; omega
  have h2 : (pgTxq p q - 0x0A0) % 8 = q := by unfold pgTxq; omega
  simp [State.blockWrite, State.bank, h1, h2]

variable {w : Writer} (hu : s.regsUp w = true) (hr : s.reaches w (pgTxq p q) = true) (hw : s.mayWrite w (pgTxq p q) = true)
  (hb : s.pageBlock (pgTxq p q) = .etqTx) (v : Word32)
include hu hr hw hb

theorem exec_etqSwWrite : exec (.etqSwWrite w (pgTxq p q) v) s =
    .next (if s.designatedQ p q then s.capture (pgTxq p q) .partitionViolation 0
      else s.putFields (pgTxq p q) 0 .etqTx 0x040 v 0).touch := by
  have hlt : 0x0A0 ≤ pgTxq p q ∧ pgTxq p q < 0x0E8 := by unfold pgTxq; omega
  have h : exec (.etqSwWrite w (pgTxq p q) v) s = execEtqSwWrite w (pgTxq p q) v s := rfl
  rw [h, execEtqSwWrite, if_pos hlt, ← State.blockWrite_etqSw hp hq w v]
  exact regWrite_beyondHead v hu hr hw (by unfold pgMsix; omega) hb (by decide) (by decide) (by decide) (by decide)

end Sw

/-- The index is writable whether or not the page is locked. -/
theorem State.putFields_etqSw (s : State) (page : Nat) (v : Word32) : s.putFields page 0 .etqTx 0x040 v 0 =
    s.setReg page 0 0x040 ((s.reg page 0 0x040 &&& ~~~(accMask .etqTx 0x040 [.rw])) ||| (v &&& accMask .etqTx 0x040 [.rw])) := by
  have hrwl : accMask .etqTx 0x040 [.rwl] = 0 := by decide
  have hrw : accMask .etqTx 0x040 [.rw] = 0xFFFF#32 := by decide
  simp [State.putFields, hrwl, hrw]

theorem State.etqSw_written (s : State) (page : Nat) (v : Word32) (hv : v.toNat < 65536) :
    (s.putFields page 0 .etqTx 0x040 v 0).fget page Reg.ETQ_SW_INDEX = v.toNat := by
  rw [s.putFields_etqSw, State.fget, State.fgetI]
  have hm : accMask .etqTx 0x040 [.rw] = 0xFFFF#32 := by decide
  rw [show Reg.ETQ_SW_INDEX.off = 0x040 from rfl, State.reg_setReg_same, Fld.get_masked _ _ _ _ (fun k _ hk => ?_) (by decide)]
  · simp [Fld.get, Reg.ETQ_SW_INDEX, Nat.mod_eq_of_lt hv]
  · have hk' : k < 16 := Nat.lt_succ_of_le hk
    rw [hm]
    interval_cases k <;> rfl

/-! ## The gate's frame, the queues' heads, and what is late -/

theorem find?_aset {α : Type} (l : List (Nat × α)) (k : Nat) (v : α) :
    (aset l k v).find? (fun x => x.1 == k) = some (k, v) := by
  induction l with
  | nil => simp [aset]
  | cons x l ih =>
    obtain ⟨k', v'⟩ := x
    unfold aset
    by_cases h : k' = k
    · simp [h]
    · by_cases h2 : k < k'
      · simp [h, h2]
      · simp [h, h2, ih]

theorem State.macBusy_txStart (s : State) (p : Nat) (q : Option Nat) (bs : List Byte) :
    ((s.txStart p q bs).macBusy p).map (·.bytes) = some bs := by
  unfold State.txStart State.macBusy
  dsimp only
  rw [find?_aset]
  rfl

theorem Gate.seq_launched (g : Gate) : g.launched.seq = g.seq + 1 := by
  unfold Gate.launched
  dsimp only
  split <;> rfl

theorem Gate.out_launched (g : Gate) : g.launched.out = g.out := by
  unfold Gate.launched
  dsimp only
  split <;> rfl

theorem Gate.hold_launched {g : Gate} {r f c k} (h : g.trajNext = some (r, f, c, k)) :
    g.launched.holdRec = some r ∧ g.launched.holdFrame = f ∧ g.launched.holdP = c ∧ g.launched.holdAlt = k := by
  unfold Gate.launched
  dsimp only
  rw [h]
  exact ⟨rfl, rfl, rfl, rfl⟩

theorem State.gateLaunch_up {s : State} {p : Nat} (h : s.ethUp p = true) (bs : List Byte) : s.gateLaunch p bs =
    ({ s with gate := { s.gate with out := none }.launched }.emit (.gateFrame p s.snTable.gateQ s.tbu.ns bs)).txStart p none bs :=
  if_pos h

theorem State.gateLaunch_down {s : State} {p : Nat} (h : s.ethUp p = false) (bs : List Byte) : s.gateLaunch p bs =
    ({ s with gate := { s.gate with out := none, trajNext := none } }).pulse 347 :=
  if_neg fun hup => Bool.false_ne_true (h.symm.trans hup)

theorem State.gate_pulse (s : State) (l : Nat) : (s.pulse l).gate = s.gate := by
  unfold State.pulse
  split <;> rfl

theorem State.ethUp_elapse {p : Nat} (hp : p < 8) (e : Nat) (s : State) : (elapse e s).ethUp p = s.ethUp p := by
  rw [State.ethUp, (calm_pgETH hp).fget _ _ (by decide), ← State.ethUp]

section Start
variable {s : State} {p : Nat} (hp : p < 8) (ha : s.awake = true) (hm : s.macBusy p = none) (e : Nat)
include hp ha hm

theorem exec_ethTxStart_gate {bs : List Byte} (hg : s.gateDue p e = some bs) :
    exec (.ethTxStart p e) s = .next ((elapse e s).gateLaunch p bs) := by
  have h : exec (.ethTxStart p e) s = execEthTxStart p e s := rfl
  rw [h, execEthTxStart, hg]
  exact onAwake_of_due _ ha (by rw [hm, decide_eq_true hp]; rfl)

theorem exec_ethTxStart_head (hg : s.gateDue p e = none) {q : Nat}
    (hup : (((elapse e s).gateMissed.txOpen p).txClean p).ethUp p = true)
    (hq : (((elapse e s).gateMissed.txOpen p).txClean p).txPick p = some q) :
    exec (.ethTxStart p e) s = .next ((((elapse e s).gateMissed.txOpen p).txClean p).txQueueStart p q) := by
  have h : exec (.ethTxStart p e) s = execEthTxStart p e s := rfl
  rw [h, execEthTxStart, hg]
  dsimp only
  rw [if_pos hup, hq]
  exact onAwake_of_due _ ha (by rw [hm, decide_eq_true hp]; rfl)

theorem exec_ethTxStart_clean (hg : s.gateDue p e = none) {q : Nat} (hq8 : q < 8)
    (hq : (((elapse e s).gateMissed.txOpen p).txClean p).ethUp p = false ∨ (((elapse e s).gateMissed.txOpen p).txClean p).txPick p = none)
    (hleft : (((elapse e s).gateMissed.txOpen p).txClean p).txLeft (pgTxq p q) ≠ s.txLeft (pgTxq p q)) :
    exec (.ethTxStart p e) s = .next (((elapse e s).gateMissed.txOpen p).txClean p) := by
  have h : exec (.ethTxStart p e) s = execEthTxStart p e s := rfl
  rw [h, execEthTxStart, hg]
  dsimp only
  generalize ((elapse e s).gateMissed.txOpen p).txClean p = t at hq hleft ⊢
  have hpick : (if t.ethUp p then t.txPick p else none) = none := by
    rcases hq with hq | hq
    · rw [hq]; rfl
    · rw [hq, ite_self]
  rw [hpick]
  refine onAwake_of_due _ ha ?_
  rw [hm, decide_eq_true hp, Option.isNone_none, Bool.and_self, Bool.true_and, List.any_eq_true]
  exact ⟨q, List.mem_range.mpr hq8, bne_iff_ne.mpr hleft⟩

end Start

/-- What the gate's frame does where it launches. -/
theorem State.gateLaunch_spec {s : State} {p : Nat} (bs : List Byte) (e : Nat) (hp : p < 8) (hm : s.macBusy p = none) :
    let t := (elapse e s).gateLaunch p bs
    t.gate.out = none ∧ t.mem = s.mem ∧ t.jobs = s.jobs ∧
    (s.ethUp p = true → t.gate.seq = s.gate.seq + 1 ∧ (t.macBusy p).map (·.bytes) = some bs ∧
      OutEvent.gateFrame p s.snTable.gateQ (elapse e s).tbu.ns bs ∈ t.out ∧
      (∀ r f c k, s.gate.trajNext = some (r, f, c, k) →
        t.gate.holdRec = some r ∧ t.gate.holdFrame = f ∧ t.gate.holdP = c ∧ t.gate.holdAlt = k)) ∧
    (s.ethUp p = false → t.gate.seq = s.gate.seq ∧ t.gate.holdRec = s.gate.holdRec ∧ t.macBusy p = none ∧
      347 ∈ t.snA.lines ∧ 347 ∈ t.snB.lines) := by
  dsimp only
  have hmem := elapse_mem e s
  have hjobs := elapse_jobs e s
  have hgate := elapse_gate e s
  have hup := State.ethUp_elapse hp e s
  have htab : (elapse e s).snTable = s.snTable := by rw [State.snTable, elapse_cfg, ← State.snTable]
  have hbusy : (elapse e s).macBusy p = none := by rw [State.macBusy, elapse_ethTx, ← State.macBusy, hm]
  generalize elapse e s = u at hmem hjobs hgate hup htab hbusy ⊢
  rw [← hmem, ← hjobs, ← hgate, ← hup, ← htab]
  cases h : u.ethUp p
  · rw [State.gateLaunch_down h]
    have hk := (State.ReadKept.refl { u with gate := { u.gate with out := none, trajNext := none } }).pulse (l := 347)
    obtain ⟨hA, hB⟩ := State.mem_lines_pulse { u with gate := { u.gate with out := none, trajNext := none } } (l := 347) (by decide)
    refine ⟨by rw [State.gate_pulse], hk.mem, hk.jobs, fun h => (Bool.false_ne_true h).elim, fun _ => ⟨by rw [State.gate_pulse],
      by rw [State.gate_pulse], ?_, hA, hB⟩⟩
    rw [State.macBusy, hk.ethTx]
    exact hbusy
  · rw [State.gateLaunch_up h]
    refine ⟨Gate.out_launched _, rfl, rfl, fun _ => ⟨Gate.seq_launched _, State.macBusy_txStart _ _ _ _, List.mem_cons_self,
      fun _ _ _ _ ht => Gate.hold_launched ht⟩, fun h => (Bool.false_ne_true h.symm).elim⟩

theorem State.gateMissed_spec (s : State) : s.gateMissed.ethTx = s.ethTx ∧ s.gateMissed.jobs = s.jobs ∧ s.gateMissed.mem = s.mem ∧
    s.LinesKept s.gateMissed := by
  unfold State.gateMissed
  split
  · split
    · have hk := (State.ReadKept.refl { s with gate := { s.gate with out := none, trajNext := none } }).pulse (l := 347)
      exact ⟨hk.ethTx, hk.jobs, hk.mem, State.linesKept_pulse { s with gate := { s.gate with out := none, trajNext := none } } 347⟩
    · exact ⟨rfl, rfl, rfl, s.linesKept_refl⟩
  · exact ⟨rfl, rfl, rfl, s.linesKept_refl⟩

theorem exec_ethTxDone {s : State} {p e : Nat} {x : EthTx} (good : Bool) (ha : s.awake = true) (hx : s.macBusy p = some x)
    (hd : s.dueNow e x.endAt = true) : exec (.ethTxDone p good e) s = .next ((elapse e s).txOver p x good) := by
  have h : exec (.ethTxDone p good e) s = execEthTxDone p good e s := rfl
  rw [h, execEthTxDone, hx]
  exact onAwake_of_due _ ha hd

theorem State.txEnd_gate (s : State) (p : Nat) {x : EthTx} (good : Bool) (hx : x.queue = none) : s.txEnd p x good =
    if good then s.macFree p
    else (s.macFree p).pulse 347 := by
  unfold State.txEnd
  dsimp only
  rw [hx]
  rfl

theorem State.txOver_spec (s : State) (p : Nat) (x : EthTx) (good : Bool) :
    (s.txOver p x good).macBusy p = none ∧ (s.txOver p x good).jobs = s.jobs ∧
    (x.queue = none → (s.txOver p x good).mem = s.mem ∧
      (good = false → 347 ∈ (s.txOver p x good).snA.lines ∧ 347 ∈ (s.txOver p x good).snB.lines)) := by
  obtain ⟨htx, hjobs, hmem, hlines⟩ := (s.txEnd p x good).gateMissed_spec
  refine ⟨?_, hjobs.trans (s.txKept_txEnd p x good).jobs, fun hq => ⟨hmem.trans ?_, fun hg => ?_⟩⟩
  · rw [State.macBusy, State.txOver, htx]
    exact s.macBusy_txEnd p x good
  · rw [State.txEnd_gate s p good hq]
    cases good
    · exact ((State.ReadKept.refl (s.macFree p)).pulse (l := 347)).mem
    · rfl
  · subst hg
    obtain ⟨hA, hB⟩ := State.mem_lines_pulse (s.macFree p) (l := 347) (by decide)
    have hlost := (s.txEnd_gate p false hq).trans (if_neg Bool.false_ne_true)
    rw [hlost] at hlines
    rw [State.txOver, hlost]
    exact ⟨(hlines 347).1 hA, (hlines 347).2 hB⟩

/-! ## The heads' lines in Cormer mode -/

theorem State.txOpen_onlyMoved (s : State) (p : Nat) : s.onlyMoved (s.txOpen p) := by
  refine foldl_rel State.onlyMoved_refl State.onlyMoved_trans (fun t q => ?_) _ s
  split
  · exact t.onlyMoved_keyed _ _ _
  · exact t.onlyMoved_refl

theorem State.keyed_of_clear {s : State} (hc : s.cfg.cormer = false) (m : Option Master) (a n : Nat) : s.keyed m a n = s := by
  unfold State.keyed
  split
  · rfl
  · rw [hc]; rfl

theorem State.txOpen_of_clear {s : State} (hc : s.cfg.cormer = false) (p : Nat) : s.txOpen p = s := by
  unfold State.txOpen
  induction List.range 8 with
  | nil => rfl
  | cons q l ih =>
    rw [List.foldl_cons]
    split
    · rw [State.keyed_of_clear hc]
      exact ih
    · exact ih

theorem State.onlyMoved_fget {s t : State} (h : s.onlyMoved t) {p : Nat} {f : Fld} (hp : p ≠ pgRGL) (hp' : p < 0x040 ∨ 0x060 ≤ p)
    (ho : f.off < 4096) : t.fget p f = s.fget p f := by
  obtain ⟨_, _, _, _, _, hreg, _⟩ := h
  exact congrArg f.get (hreg p 0 f.off hp hp' (by decide) ho)

theorem State.onlyMoved_fields {s t : State} (h : s.onlyMoved t) : t.jobs = s.jobs ∧ t.cfg = s.cfg ∧ t.ethTx = s.ethTx ∧ t.tbu = s.tbu := by
  obtain ⟨_, _, _, _, rfl, _⟩ := h
  exact ⟨rfl, rfl, rfl, rfl⟩

theorem State.onlyMoved_awake {s t : State} (h : s.onlyMoved t) : t.awake = s.awake := by
  have hdbg : t.flag pgDBG Reg.DBG_FRZ_FROZEN = s.flag pgDBG Reg.DBG_FRZ_FROZEN := by
    rw [State.flag, State.flag, State.onlyMoved_fget h (by decide) (by decide) (by decide)]
  have hpwr : t.fget pgPWR Reg.PWR_CTRL_STATE = s.fget pgPWR Reg.PWR_CTRL_STATE :=
    State.onlyMoved_fget h (by decide) (by decide) (by decide)
  obtain ⟨r, g, m, k, rfl, _⟩ := h
  rw [State.awake, State.awake, State.live, State.live, hdbg, hpwr]

theorem State.dueCtr_congr {s t : State} (h : t.tbu = s.tbu) (e ns : Nat) : t.dueCtr e ns = s.dueCtr e ns := by
  unfold State.dueCtr
  rw [h]

theorem pgETH_apart {p : Nat} (hp : p < 8) : pgETH p ≠ pgRGL ∧ (pgETH p < 0x040 ∨ 0x060 ≤ pgETH p) := by
  unfold pgETH pgRGL
  omega

theorem exec_ethTxLate {s u : State} {p q e a : Nat} {r : EtqCfg} (hu : s.txOpen p = u) (ha : s.awake = true) (hp : p < 8)
    (hq : q < 8) (hh : u.txHead p q = some (r, a)) (hl : txLt (u.loadLE (a + 8) 8) = true)
    (hm : ∀ x, s.macBusy p = some x → x.queue ≠ some q)
    (hd : s.dueCtr e (u.txLaunch a + s.fget (pgETH p) Reg.ETH_LATETOL_NS + 1) = true) :
    exec (.ethTxLate p q e) s =
      .next (((elapse e u).fadd (pgETH p) Reg.ETH_TX_LATE_COUNT 1).txBack p q 2 0 none) := by
  have h : exec (.ethTxLate p q e) s = execEthTxLate p q e s := rfl
  have hk : s.onlyMoved u := hu ▸ s.txOpen_onlyMoved p
  obtain ⟨_, _, htx, htbu⟩ := State.onlyMoved_fields hk
  have hbusy : u.macBusy p = s.macBusy p := by rw [State.macBusy, htx, State.macBusy]
  rw [h]
  delta execEthTxLate
  rw [hu]
  dsimp only
  rw [hh]
  refine onAwake_of_due _ ((State.onlyMoved_awake hk).trans ha) ?_
  rw [hbusy, State.dueCtr_congr htbu, State.onlyMoved_fget hk (pgETH_apart hp).1 (pgETH_apart hp).2 (by decide), hl, hd,
    decide_eq_true hp, decide_eq_true hq, Bool.and_true, Bool.true_and, Bool.true_and, Bool.true_and, Option.all_eq_true]
  exact fun x hx => bne_iff_ne.mpr (hm x hx)

theorem State.txLate_spec (s : State) {p : Nat} (q e : Nat) (hp : p < 8) (hr : ∀ r ∈ s.cfg.eth.rings, r.tc < 8) :
    let t := ((elapse e (s.txOpen p)).fadd (pgETH p) Reg.ETH_TX_LATE_COUNT 1).txBack p q 2 0 none
    t.jobs = s.jobs ∧
      t.fget (pgETH p) Reg.ETH_TX_LATE_COUNT = min (s.fget (pgETH p) Reg.ETH_TX_LATE_COUNT + 1) (2 ^ 32 - 1) := by
  have hk := s.txOpen_onlyMoved p
  obtain ⟨hjobs, hcfg, _, _⟩ := State.onlyMoved_fields hk
  have hb := ((elapse e (s.txOpen p)).fadd (pgETH p) Reg.ETH_TX_LATE_COUNT 1).txKept_txBack p q 2 0 none
  generalize s.txOpen p = u at *
  dsimp only
  refine ⟨by rw [hb.jobs, State.fadd_jobs, elapse_jobs, hjobs], ?_⟩
  rw [eth_reg_kept hb (by rw [State.fadd_cfg, elapse_cfg, hcfg]; exact hr) hp (by decide) (by decide),
    State.fget_fadd_same _ _ (by decide), (calm_pgETH hp).fget _ _ (by decide),
    State.onlyMoved_fget hk (pgETH_apart hp).1 (pgETH_apart hp).2 (by decide)]
  rfl

/-- Settles O54: a received frame is judged in the rules' order, a MAC's head is written back with the ports' registers
kept, and the gate's frame goes first. -/
theorem ethernetReceivesAndTransmits : Obligations.EthernetReceivesAndTransmits := by
  unfold Obligations.EthernetReceivesAndTransmits
  intro s p hp ha
  refine ⟨fun hup => ⟨?failed, ?refused, ?taken, fun hr => ⟨_, exec_ethLinkDown hp ha hup, State.linkDown_spec hp hr⟩⟩,
    ?linkUp, ?sw, ?gate, ?start, ?done, ?late⟩
  case failed =>
    intro bs e dur
    refine ⟨_, exec_ethRxFrame_failed hp ha hup bs e dur, ?_, ?_, ?_, State.fget_fadd_elapsed hp e dur (by decide) (by decide) 1⟩
    all_goals simp
  case refused =>
    intro bs e dur h
    rw [exec_ethRxFrame_good hp ha hup bs e dur, State.ethRx_refused ((State.rxRefused_elapse hp e dur s bs).mpr h)]
    refine ⟨_, rfl, ?_, ?_, State.fget_fadd_elapsed hp e dur (by decide) (by decide) 1⟩
    all_goals simp
  case taken =>
    intro bs e dur h1 h2 h3 h4
    have hok : ¬ (elapse dur (elapse e s)).rxRefused p bs := by
      rw [State.rxRefused_elapse hp]
      unfold State.rxRefused
      omega
    have hcfg : (elapse dur (elapse e s)).cfg = s.cfg := by simp
    rw [exec_ethRxFrame_good hp ha hup bs e dur]
    refine ⟨fun ht => ⟨fun ho => ?_, fun ho => ?_⟩, fun ht hn => ?_, fun r ht hr => ⟨fun hd => ?_, fun q hq => ?_, fun k hk => ?_⟩⟩
    · rw [State.ethRx_ptp hok ht, if_pos ho]
    · rw [State.ethRx_ptp hok ht, ho]; rfl
    · rw [State.ethRx_nomatch hok ht (by rw [hcfg]; exact hn)]
      refine ⟨_, rfl, ?_, ?_, State.fget_fadd_elapsed hp e dur (by decide) (by decide) 1⟩
      all_goals simp
    · rw [State.ethRx_drop hok ht (by rw [hcfg]; exact hr) hd]
    · rw [State.ethRx_hostq hok ht (by rw [hcfg]; exact hr) hq]
    · rw [State.ethRx_stream hok ht (by rw [hcfg]; exact hr) hk]
      obtain ⟨hseq, hjobs, hcams⟩ := (elapse dur (elapse e s)).ethStreamRx_spec k p (elapse e s).tbu.ns
        ((elapse e s).sampleFrame (elapse e s).tbu.ns) (parseEth bs)
      exact ⟨_, rfl, by simpa using hseq, by simpa using hjobs, by simpa using hcams⟩
  case linkUp =>
    intro r h1 h5
    refine ⟨_, exec_ethLinkUp hp ha h1 h5, ?_, rfl, rfl, rfl, fun q hq _ => s.ethUp_fset_other hq r⟩
    exact (s.fget_fset_same _ _ (by decide) r).trans (Nat.mod_eq_of_lt (by change r < 8; omega))
  case sw =>
    intro w q v hq hu hr hw hb hv
    rw [exec_etqSwWrite hp hq hu hr hw hb v]
    refine ⟨fun hd => ?_, fun hd herr => ?_⟩
    · rw [hd, if_neg Bool.false_ne_true]
      exact ⟨_, rfl, congrArg (fun t => t.touch.mem) (s.putFields_etqSw _ v), s.etqSw_written _ v hv⟩
    · rw [hd, if_pos rfl]
      refine ⟨_, rfl, (State.ReadKept.refl s).capture.mem, congrArg (Fld.get _) (s.reg_capture_other _ _ _ ?_), s.code_capture _ _ _ herr⟩
      simp [regKey, Reg.ETQ_SW_INDEX]
  case gate =>
    intro e bs hm hg
    exact ⟨_, exec_ethTxStart_gate hp ha hm e hg, State.gateLaunch_spec bs e hp hm⟩
  case start =>
    intro e hm hg
    exact ⟨fun q hup hq => exec_ethTxStart_head hp ha hm e hg hup hq, fun q hq hq8 hl => exec_ethTxStart_clean hp ha hm e hg hq8 hq hl⟩
  case done =>
    intro x good e hx hd
    obtain ⟨hbusy, hjobs, hgate⟩ := (elapse e s).txOver_spec p x good
    rw [elapse_mem] at hgate
    exact ⟨_, exec_ethTxDone good ha hx hd, rfl, hbusy, hjobs.trans (elapse_jobs e s), hgate⟩
  case late =>
    intro q e r a hq hr u hh hl hm hd
    obtain ⟨hjobs, hcount⟩ := s.txLate_spec q e hp hr
    exact ⟨_, exec_ethTxLate rfl ha hp hq hh hl hm hd, hjobs, rfl, hcount, fun hc => State.txOpen_of_clear hc p⟩

end Sys2Proof.Machine
end

section
/-!
PROOF. Apertures, function-level reset and PCIe links (16 R406, R409, R411, R412; 02 R53).
-/

namespace Sys2Proof.Machine

open Sys2Proof

-- One thread at a time: the stacks of threads that wait for each other count against the check's memory limit.
set_option Elab.async false

theorem pgPCH_bounds {h fn : Nat} (hh : h < 2) (hf : fn ≤ 8) : 0x0F0 ≤ pgPCH h fn ∧ pgPCH h fn < 0x102 := by
  unfold pgPCH
  omega

theorem calm_pgPCH {h fn : Nat} (hh : h < 2) (hf : fn ≤ 8) : Calm (pgPCH h fn) := by
  obtain ⟨h1, h2⟩ := pgPCH_bounds hh hf
  generalize pgPCH h fn = p at h1 h2
  refine calm_of_lt (by omega) ?_
  simp only [List.mem_cons, List.not_mem_nil, or_false, pgDBG, pgTBU, pgCCU, pgPRU, pgXCU]
  omega

/-- A page of a function is that of no other. -/
theorem pch_ne {h fn h' fn' : Nat} (hf : fn ≤ 8) (hf' : fn' ≤ 8) (hne : (h', fn') ≠ (h, fn)) : 9 * h' + fn' ≠ 9 * h + fn := by
  rw [ne_eq, Prod.mk.injEq] at hne
  omega

/-! ## Accesses -/

section Access
variable {s : State} {h fn ap off : Nat} {d : Option (List Byte)} {n : Nat}

theorem State.apAccess_stale (hr : s.apResolve h fn ap off ((d.map List.length).getD n) d.isSome = .stale) (chk : ReadCheck) :
    s.apAccess h fn ap off d n chk = (s.capture (pgQueue (fn - 1)) .partitionViolation (ap * 2 ^ 30 + off)).apZero d n := by
  unfold State.apAccess
  dsimp only
  rw [hr]

theorem State.apAccess_fail {er : Err} (hr : s.apResolve h fn ap off ((d.map List.length).getD n) d.isSome = .fail er)
    (chk : ReadCheck) : s.apAccess h fn ap off d n chk = (s.captureLine (pgPCH h fn) er (ap * 2 ^ 30 + off) 349).apZero d n := by
  unfold State.apAccess
  dsimp only
  rw [hr]

theorem State.apAccess_write {a : Nat} {bs : List Byte} (hr : s.apResolve h fn ap off bs.length true = .at_ a) (n : Nat)
    (chk : ReadCheck) : s.apAccess h fn ap off (some bs) n chk =
      if s.bondWait a bs.length then s
      else (s.traffic (some (.pcie h fn)) (19 + h) 4 (fn - 1) a bs.length true).storeAt a bs := by
  unfold State.apAccess
  dsimp only
  rw [show ((some bs).map List.length).getD n = bs.length from rfl, show (some bs).isSome = true from rfl, hr]

/-- The state after a read's passage through the aperture's port. -/
def State.apPassed (s : State) (h fn a n : Nat) : State :=
  (s.traffic (some (.pcie h fn)) (19 + h) 4 (fn - 1) a n false).guestIn a n

theorem State.apAccess_read {a : Nat} (hr : s.apResolve h fn ap off n false = .at_ a) (hb : s.bondWait a n = false) (chk : ReadCheck) :
    (((s.apPassed h fn a n).readRes a n chk).err = none →
      s.apAccess h fn ap off none n chk =
        (((s.apPassed h fn a n).readMarks a n chk).emit (.data ((s.apPassed h fn a n).load a n)))) ∧
    (∀ er, ((s.apPassed h fn a n).readRes a n chk).err = some er →
      s.apAccess h fn ap off none n chk =
        ((((s.apPassed h fn a n).readMarks a n chk).captureLine (pgPCH h fn) er a 349).emit (.data (List.replicate n 0)))) := by
  unfold State.apAccess
  dsimp only
  rw [show ((none : Option (List Byte)).map List.length).getD n = n from rfl, show (none : Option (List Byte)).isSome = false from rfl,
    hr]
  dsimp only
  rw [hb, if_neg Bool.false_ne_true, ← State.apPassed]
  generalize s.apPassed h fn a n = u
  refine ⟨fun he => ?_, fun er he => ?_⟩
  · rw [he]
  · rw [he]
    rfl

theorem exec_apertureAccess (ha : s.awake = true) (hp : s.portUp h = true) (h1 : 1 ≤ fn) (hf : fn ≤ 8) (hap : ap < 64)
    (ho : off < 2 ^ 30) (chk : ReadCheck) :
    exec (.apertureAccess (.host h fn) ap off d n chk) s = .next (s.apAccess h fn ap off d n chk).touch := by
  obtain ⟨f, rfl⟩ : ∃ f, fn = f + 1 := ⟨fn - 1, by omega⟩
  refine onAwake_of_due _ ha ?_
  rw [hp, decide_eq_true h1, decide_eq_true hf, decide_eq_true hap, decide_eq_true ho]
  rfl

end Access

/-- A failed access stores nothing, answers zeros, and captures its code with line 349. -/
theorem State.apFailed_spec (s : State) {h fn : Nat} (er : Err) (a n : Nat) (d : Option (List Byte))
    (herr : s.flag (pgPCH h fn) Reg.INT_STATUS_ERR = false) :
    let t := ((s.captureLine (pgPCH h fn) er a 349).apZero d n).touch
    t.mem = s.mem ∧ t.fget (pgPCH h fn) Reg.ERR_CODE_CODE = er.code ∧ 349 ∈ t.snA.lines ∧ 349 ∈ t.snB.lines ∧
      (d = none → OutEvent.data (List.replicate n 0) ∈ t.out) := by
  have hmem : (s.captureLine (pgPCH h fn) er a 349).mem = s.mem := by simp
  have hcode : (s.captureLine (pgPCH h fn) er a 349).fget (pgPCH h fn) Reg.ERR_CODE_CODE = er.code :=
    s.code_capture (pgPCH h fn) er a herr
  obtain ⟨hA, hB⟩ := (s.capture (pgPCH h fn) er a).mem_lines_pulse (l := 349) (by decide)
  change 349 ∈ (s.captureLine (pgPCH h fn) er a 349).snA.lines at hA
  change 349 ∈ (s.captureLine (pgPCH h fn) er a 349).snB.lines at hB
  generalize s.captureLine (pgPCH h fn) er a 349 = u at *
  cases d with
  | none => exact ⟨hmem, hcode, hA, hB, fun _ => List.mem_cons_self⟩
  | some bs => exact ⟨hmem, hcode, hA, hB, fun h => (Option.some_ne_none _ h).elim⟩

/-! ## The recovery window -/

section Recovery
variable {s : State} {h off n : Nat} (hr : s.inRecovery = true) (hp : s.portUp h = true)
include hr hp

theorem exec_apertureAccess_recovery (d : Option (List Byte)) (chk : ReadCheck) :
    exec (.apertureAccess (.host h 0) 0 off d n chk) s = .next (s.recoveryAccess off d n) := by
  have hx : exec (.apertureAccess (.host h 0) 0 off d n chk) s =
      .next (if s.inRecovery && s.portUp h && (0 : Nat) == 0 then s.recoveryAccess off d n else s) := rfl
  rw [hx, hr, hp]
  rfl

end Recovery

/-! ## A read that is never answered -/

section Timeout
variable {s : State} {h fn ap n e : Nat}

theorem exec_apertureReadTimeout (ha : s.awake = true) (hp : s.portUp h = true) (h1 : 1 ≤ fn) (hf : fn ≤ 8) (hap : ap < 64)
    (he : e = s.fget (pgPCH h fn) Reg.PCH_CTO_US * edgesPerUs) :
    exec (.apertureReadTimeout (.host h fn) ap n e) s =
      .next ((((elapse e s).fadd (pgPCH h fn) Reg.PCH_CTO_COUNT_COUNT 1).captureLine (pgPCH h fn) .deadlineMissed (ap * 2 ^ 30)
        349).apZero none n) := by
  refine onAwake_of_due _ ha ?_
  rw [hp, decide_eq_true h1, decide_eq_true hf, decide_eq_true hap, beq_iff_eq.mpr he]
  rfl

end Timeout

/-! ## PCH_AP_LO -/

section ApLo
variable (s : State) {h fn : Nat} (hh : h < 2) (hf : fn ≤ 8) (v : Word32)
include hh hf

theorem State.blockWrite_apLo (w : Writer) : s.blockWrite w (pgPCH h fn) .pch 0x044 v =
    (s.putFields (pgPCH h fn) (s.fget (pgPCH h fn) Reg.PCH_APSEL_AP) .pch 0x044 v 0).apCapture h fn := by
  have h1 : (pgPCH h fn - 0x0F0) / 9 = h := by unfold pgPCH; omega
  have h2 : (pgPCH h fn - 0x0F0) % 9 = fn := by unfold pgPCH; omega
  simp [State.blockWrite, State.bank, h1, h2]

omit hh hf in
/-- The fields are writable whether or not the page is locked. -/
theorem State.putFields_apLo (p i : Nat) : s.putFields p i .pch 0x044 v 0 =
    s.setReg p i 0x044 ((s.reg p i 0x044 &&& ~~~0x3FFFF#32) ||| (v &&& 0x3FFFF#32)) := by
  have hrwl : accMask .pch 0x044 [.rwl] = 0 := by decide
  have hrw : accMask .pch 0x044 [.rw] = 0x3FFFF#32 := by decide
  simp [State.putFields, hrwl, hrw]

omit hh hf in
/-- A field of the 18 bits reads what was written. -/
theorem State.apLo_written (p i : Nat) {f : Fld} (hoff : f.off = 0x044) (hlo : f.lo ≤ f.hi) (hhi : f.hi < 18) :
    (s.putFields p i .pch 0x044 v 0).fgetI p i f = f.get v := by
  rw [s.putFields_apLo, State.fgetI, hoff, State.reg_setReg_same, Fld.get_masked _ _ _ _ (fun k _ hk => ?_) hlo]
  have hk' : k < 18 := hk.trans_lt hhi
  interval_cases k <;> rfl

variable {s v}

theorem exec_pchApLoWrite {w : Writer} (hu : s.regsUp w = true) (hr : s.reaches w (pgPCH h fn) = true)
    (hw : s.mayWrite w (pgPCH h fn) = true) (hb : s.pageBlock (pgPCH h fn) = .pch) :
    exec (.pchApLoWrite w (pgPCH h fn) v) s =
      .next ((s.putFields (pgPCH h fn) (s.fget (pgPCH h fn) Reg.PCH_APSEL_AP) .pch 0x044 v 0).apCapture h fn).touch := by
  have hlt := pgPCH_bounds hh hf
  have hx : exec (.pchApLoWrite w (pgPCH h fn) v) s = execPchApLoWrite w (pgPCH h fn) v s := rfl
  rw [hx, execPchApLoWrite, if_pos hlt, ← s.blockWrite_apLo hh hf v w]
  exact regWrite_beyondHead v hu hr hw (by unfold pgMsix; omega) hb (by decide) (by decide) (by decide) (by decide)

end ApLo

/-- The aperture selected captures the entry of the handle written. -/
theorem State.apCapture_written (s : State) {h fn : Nat} (h1 : 1 ≤ fn) (ht : s.bufTab (fn - 1) ≠ 0) (v : Word32) :
    aget BufEntry.zero ((s.putFields (pgPCH h fn) (s.fget (pgPCH h fn) Reg.PCH_APSEL_AP) .pch 0x044 v 0).apCapture h fn).aps
      (apKey h fn (s.fget (pgPCH h fn) Reg.PCH_APSEL_AP)) = s.entry (fn - 1) (v.toNat % 2 ^ 16) := by
  have hhandle := s.apLo_written v (pgPCH h fn) (s.fget (pgPCH h fn) Reg.PCH_APSEL_AP) (f := Reg.PCH_AP_LO_HANDLE) rfl (by decide)
    (by decide)
  have hother {p : Nat} {f : Fld} (hf : f.off ≠ 0x044) (ho : f.off < 4096) :
      (s.putFields (pgPCH h fn) (s.fget (pgPCH h fn) Reg.PCH_APSEL_AP) .pch 0x044 v 0).fget p f = s.fget p f := by
    rw [State.putFields_apLo]
    exact congrArg f.get (s.reg_setReg_other _ (regKey_ne_of_offs (Ne.symm hf) (by decide) ho))
  have hmem : (s.putFields (pgPCH h fn) (s.fget (pgPCH h fn) Reg.PCH_APSEL_AP) .pch 0x044 v 0).mem = s.mem := by
    rw [State.putFields_apLo]
    rfl
  have hsel := hother (p := pgPCH h fn) (f := Reg.PCH_APSEL_AP) (by decide) (by decide)
  have htab : (s.putFields (pgPCH h fn) (s.fget (pgPCH h fn) Reg.PCH_APSEL_AP) .pch 0x044 v 0).bufTab (fn - 1) = s.bufTab (fn - 1) := by
    rw [State.bufTab, hother (by decide) (by decide), hother (by decide) (by decide), ← State.bufTab]
  generalize s.putFields (pgPCH h fn) (s.fget (pgPCH h fn) Reg.PCH_APSEL_AP) .pch 0x044 v 0 = t at *
  have hno : ¬ (fn = 0 ∨ t.noTab (fn - 1) = true) := by
    rw [State.noTab, htab, beq_eq_false_iff_ne.mpr ht]
    exact fun hc => hc.elim (by omega) (fun h => Bool.false_ne_true h)
  unfold State.apCapture
  dsimp only
  rw [hsel, aget_aset_same, if_neg hno, hhandle, State.entry, State.loadLE, State.entryAddr, htab, hmem]
  simp [State.entry, State.loadLE, State.entryAddr, Fld.get, Reg.PCH_AP_LO_HANDLE]

/-! ## Function-level reset -/

/-- The state after a reset of a function: its apertures and its MSI-X table are gone. -/
def State.functionReset (s : State) (port fn : Nat) : State :=
  { s with
    regs := s.regs.filter fun r => !(r.1 / 2 ^ 20 == pgPCH port fn && (r.1 % 2 ^ 12 == 0x044 || r.1 % 2 ^ 12 == 0x048))
    aps := s.aps.filter fun x => x.1 / 64 != 9 * port + fn
    msixTab := s.msixTab.filter fun x => x.1 / 8192 != 9 * port + fn
    msixPend := s.msixPend.filter fun k => k / 2048 != 9 * port + fn }

theorem exec_functionLevelReset {s : State} {port fn : Nat} (hl : s.live = true) (hp : port < 2) (hf : fn ≤ 8) :
    exec (.functionLevelReset port fn) s = .next (s.functionReset port fn) :=
  onLive_of_due _ hl (by rw [decide_eq_true hp, decide_eq_true hf]; rfl)

/-- The reset value of PCH_AP_LO. -/
theorem regReset_apLo {h fn : Nat} (hh : h < 2) (hf : fn ≤ 8) : regReset (pgPCH h fn) 0x044 = 0 := by
  interval_cases h <;> interval_cases fn <;> decide

section Flr
variable (s : State) {h fn : Nat}

theorem State.aps_functionReset (k ap : Nat) (hap : ap < 64) :
    aget BufEntry.zero (s.functionReset h fn).aps (k * 64 + ap) = if k = 9 * h + fn then BufEntry.zero
      else aget BufEntry.zero s.aps (k * 64 + ap) := by
  refine (aget_filter BufEntry.zero (fun k => k / 64 != 9 * h + fn) s.aps _).trans ?_
  rw [show (k * 64 + ap) / 64 = k by omega]
  by_cases hk : k = 9 * h + fn
  · rw [hk, if_pos rfl, bne_self_eq_false, if_neg Bool.false_ne_true]
  · rw [if_neg hk, if_pos (bne_iff_ne.mpr hk)]

theorem State.reg_functionReset (p i o : Nat) (hi : i < 256) (ho : o < 4096) :
    (s.functionReset h fn).reg p i o = if p = pgPCH h fn ∧ (o = 0x044 ∨ o = 0x048) then regReset p o else s.reg p i o := by
  refine (aget_filter (regReset p o)
    (fun k => !(k / 2 ^ 20 == pgPCH h fn && (k % 2 ^ 12 == 0x044 || k % 2 ^ 12 == 0x048))) s.regs _).trans ?_
  rw [show regKey p i o / 2 ^ 20 = p by unfold regKey; omega, show regKey p i o % 2 ^ 12 = o by unfold regKey; omega]
  by_cases hk : p = pgPCH h fn ∧ (o = 0x044 ∨ o = 0x048)
  · rw [if_pos hk, if_neg (by simpa [Decidable.not_not, or_iff_not_imp_left] using hk)]
  · rw [if_neg hk, if_pos (by simpa [imp_iff_not_or] using hk)]
    rfl

theorem State.msixWord_functionReset {vec d : Nat} (hvec : vec < 2048) (hd : d < 4) :
    (s.functionReset h fn).msixWord (msixKey h fn vec) d = if d = 3 then 1 else 0 := by
  refine (aget_filter _ (fun k => k / 8192 != 9 * h + fn) s.msixTab _).trans ?_
  rw [show (4 * msixKey h fn vec + d) / 8192 = 9 * h + fn by unfold msixKey; omega, bne_self_eq_false, if_neg Bool.false_ne_true]

end Flr

/-! ## Links -/

theorem State.portUp_setPort (s : State) {h : Nat} (hh : h < 2) (up : Bool) : (s.setPort h up).portUp h = up := by
  interval_cases h <;> rfl

/-- Every field but the two links' states is kept. -/
theorem State.setPort_shape (s : State) (h : Nat) (up : Bool) : ∃ a b, s.setPort h up = { s with hUp0 := a, hUp1 := b } := by
  unfold State.setPort
  split
  · exact ⟨up, s.hUp1, rfl⟩
  · exact ⟨s.hUp0, up, rfl⟩

theorem State.linkLost_spec (s : State) {h : Nat} (hh : h < 2) :
    let t := (s.setPort h false).pulse (344 + h)
    t.portUp h = false ∧ 344 + h ∈ t.snA.lines ∧ 344 + h ∈ t.snB.lines ∧ t.mem = s.mem ∧ t.jobs = s.jobs ∧ t.queues = s.queues ∧
      t.regs = s.regs ∧ t.aps = s.aps := by
  have hlt : 344 + h < 400 := by omega
  have hup := s.portUp_setPort hh false
  obtain ⟨a, b, hs⟩ := s.setPort_shape h false
  rw [hs] at hup ⊢
  obtain ⟨hA, hB⟩ := State.mem_lines_pulse { s with hUp0 := a, hUp1 := b } hlt
  refine ⟨?_, hA, hB, ?_⟩
  all_goals unfold State.pulse; rw [if_pos hlt]
  · exact hup
  · exact ⟨rfl, rfl, rfl, rfl, rfl⟩

/-- Settles O55: an access is what its resolution says, and a reset or a lost link reaches only what is the function's or
the port's. -/
theorem aperturesAndPcieLinks : Obligations.AperturesAndPcieLinks := by
  unfold Obligations.AperturesAndPcieLinks
  intro s h fn hh hf
  refine ⟨fun ap off n ha hp h1 hap ho => ⟨?write, ?stale, ?fail, ?read⟩, ?recovery, ?timeout, ?apLo, fun hl => ⟨?reset, ?down, ?up⟩⟩
  case write =>
    intro a bs hr
    have hx := exec_apertureAccess (d := some bs) (n := n) ha hp h1 hf hap ho .ok
    rw [State.apAccess_write hr] at hx
    have hk := State.DataKept.storeAt (a := a) (bs := bs)
      (State.DataKept.traffic (m := some (.pcie h fn)) (port := 19 + h) (tc := 4) (p := fn - 1) (a := a) (n := bs.length) (w := true)
        (.refl s))
    refine ⟨s.traffic_onlyMoved _ _ _ _ _ _ _ (by omega) (by decide), fun hb => ?_, fun hb => ⟨?_, hk.jobs, hk.aps⟩⟩
    · rw [hx, if_pos hb]
    · rw [hx, if_neg (by rw [hb]; exact Bool.false_ne_true)]
  case stale =>
    intro d hr
    rw [exec_apertureAccess ha hp h1 hf hap ho .ok, State.apAccess_stale hr]
  case fail =>
    intro er d hr herr
    rw [exec_apertureAccess ha hp h1 hf hap ho .ok, State.apAccess_fail hr]
    exact ⟨_, rfl, s.apFailed_spec er (ap * 2 ^ 30 + off) n d herr⟩
  case read =>
    intro a hr hb
    obtain ⟨hok, herr⟩ := State.apAccess_read hr hb .ok
    refine ⟨fun he => ?_, fun er he => ?_⟩
    · rw [exec_apertureAccess ha hp h1 hf hap ho .ok, hok he]
      rfl
    · rw [exec_apertureAccess ha hp h1 hf hap ho .ok, herr er he]
      rfl
  case recovery =>
    intro off bs n hr hp hb hn
    rw [exec_apertureAccess_recovery hr hp, exec_apertureAccess_recovery hr hp]
    exact ⟨congrArg Host.Outcome.next (if_neg (Nat.not_lt.mpr hb)), congrArg Host.Outcome.next (if_neg (Nat.not_lt.mpr hn))⟩
  case timeout =>
    intro ap n e ha hp h1 hap he herr
    rw [exec_apertureReadTimeout ha hp h1 hf hap he]
    have hc := calm_pgPCH hh hf
    have herr' : ((elapse e s).fadd (pgPCH h fn) Reg.PCH_CTO_COUNT_COUNT 1).flag (pgPCH h fn) Reg.INT_STATUS_ERR = false := by
      exact (State.flag_fset_other (f := Reg.PCH_CTO_COUNT_COUNT) (g := Reg.INT_STATUS_ERR) _ _ _ (by decide) (by decide)
        (by decide)).trans ((hc.flag _ _ (by decide)).trans herr)
    obtain ⟨hmem, hcode, _, _, hdata⟩ := State.apFailed_spec ((elapse e s).fadd (pgPCH h fn) Reg.PCH_CTO_COUNT_COUNT 1)
      (h := h) (fn := fn) .deadlineMissed (ap * 2 ^ 30) n none herr'
    refine ⟨_, rfl, hmem.trans (elapse_mem e s), ?_, hdata rfl, hcode, ?_⟩
    · exact (State.captureLine_jobs _ _ _ _ _).trans (elapse_jobs e s)
    · refine (State.fget_captureLine_other _ _ _ _ _ (by decide)).trans ?_
      rw [State.fget_fadd_same _ _ (by decide), hc.fget _ _ (by decide)]
      rfl
  case apLo =>
    intro w v hu hr hw hb h1 ht
    rw [exec_pchApLoWrite hh hf hu hr hw hb]
    have hw {f : Fld} := s.apLo_written v (pgPCH h fn) (s.fget (pgPCH h fn) Reg.PCH_APSEL_AP) (f := f)
    have hfields := s.putFields_apLo v (pgPCH h fn) (s.fget (pgPCH h fn) Reg.PCH_APSEL_AP)
    refine ⟨_, rfl, ?_, ?_, ?_, ?_, ?_, s.apCapture_written h1 ht v⟩
    · exact congrArg (fun t => (t.apCapture h fn).touch.mem) hfields
    · exact congrArg (fun t => (t.apCapture h fn).touch.jobs) hfields
    · exact (hw (f := Reg.PCH_AP_LO_HANDLE) rfl (by decide) (by decide)).trans (by simp [Fld.get, Reg.PCH_AP_LO_HANDLE])
    · exact (hw (f := Reg.PCH_AP_LO_SLOT) rfl (by decide) (by decide)).trans (by simp [Fld.get, Reg.PCH_AP_LO_SLOT])
    · exact (hw (f := Reg.PCH_AP_LO_VALID) rfl (by decide) (by decide)).trans (by simp [Fld.get, Reg.PCH_AP_LO_VALID])
  case reset =>
    refine ⟨_, exec_functionLevelReset hl hh hf, rfl, rfl, rfl, rfl, rfl, fun ap hap => ⟨?_, ?_⟩, fun vec d hv hd => ?_, fun k hk => ?_,
      fun h' fn' ap hh' hf' hap hne => ⟨?_, ?_⟩⟩
    · exact (s.aps_functionReset _ ap hap).trans (if_pos rfl)
    · rw [State.fgetI, s.reg_functionReset _ _ _ (by omega) (by decide), if_pos ⟨rfl, .inl rfl⟩]
      rw [show Reg.PCH_AP_LO_VALID.off = 0x044 from rfl, regReset_apLo hh hf]
      rfl
    · exact s.msixWord_functionReset hv hd
    · obtain ⟨hk, hne⟩ := List.mem_filter.mp hk
      exact ⟨hk, bne_iff_ne.mp hne⟩
    · exact (s.aps_functionReset _ ap hap).trans (if_neg (pch_ne hf hf' hne))
    · rw [s.reg_functionReset _ _ _ (by omega) (by decide), if_neg]
      intro hc
      have := pch_ne hf hf' hne
      have hpg := hc.1
      unfold pgPCH at hpg
      omega
  case down =>
    intro hp
    exact ⟨_, onLive_of_due _ hl (by rw [decide_eq_true hh, hp]; rfl), s.linkLost_spec hh⟩
  case up =>
    intro hp
    refine ⟨_, onLive_of_due _ hl (by rw [decide_eq_true hh, hp]; rfl), s.portUp_setPort hh true, ?_⟩
    obtain ⟨a, b, hs⟩ := s.setPort_shape h true
    rw [hs]
    exact ⟨rfl, rfl, rfl, rfl, rfl⟩

end Sys2Proof.Machine
end

section
/-!
PROOF. Requests at the Regulator: they enter, leave, and are answered (13 R324, R327 to R331; 04 R100; 15 R387).
-/

namespace Sys2Proof.Machine

open Sys2Proof

-- One thread at a time: the stacks of threads that wait for each other count against the check's memory limit.
set_option Elab.async false

/-! ## What flits change -/

/-- `t` is `s` after flits moved: the links, and what went out. -/
def State.Sent (s t : State) : Prop := ∃ l o, t = { s with links := l, out := o } ∧ s.out <:+ o

theorem State.Sent.refl (s : State) : s.Sent s := ⟨s.links, s.out, rfl, List.suffix_refl _⟩

theorem State.Sent.trans {s t u : State} (h : s.Sent t) (k : t.Sent u) : s.Sent u := by
  obtain ⟨_, _, rfl, ho⟩ := h
  obtain ⟨l, o, rfl, ho'⟩ := k
  exact ⟨l, o, rfl, ho.trans ho'⟩

theorem State.sent_setLink (s : State) (k : LinkMod) (x : LinkSt) : s.Sent (s.setLink k x) := ⟨_, s.out, rfl, List.suffix_refl _⟩

theorem State.sent_onWire (s : State) (l : Link) (f : List Byte) : s.Sent (s.onWire l f) :=
  State.ite_law (R := s.Sent) ⟨s.links, _, rfl, List.suffix_cons _ _⟩ (State.Sent.refl s)

theorem State.sent_pump (l : Link) (n : Nat) (s : State) : s.Sent (s.pump l n) := by
  induction n generalizing s with
  | zero => exact State.Sent.refl s
  | succ n ih =>
    unfold State.pump
    dsimp only
    split
    · exact State.Sent.refl s
    · exact ((s.sent_setLink _ _).trans (State.sent_onWire _ _ _)).trans (ih _)

theorem State.sent_transmit (s : State) (l : Link) (f : List Byte) : s.Sent (s.transmit l f) :=
  (s.sent_setLink _ _).trans (State.sent_pump _ _ _)

theorem State.sent_answerGuest (u v : State) (r : Req) : v.Sent (u.answerGuest v r) := by
  unfold State.answerGuest
  exact State.ite_law (R := v.Sent) (State.Sent.refl v) (v.sent_transmit _ _)

theorem State.sent_toGuest (s : State) (r : Req) : s.Sent (s.toGuest r) :=
  State.ite_law (R := s.Sent) (s.sent_transmit _ _) (State.Sent.refl s)

section
variable {s t : State} (h : s.Sent t)
include h

theorem State.Sent.mem : t.mem = s.mem := by obtain ⟨_, _, rfl, _⟩ := h; rfl
theorem State.Sent.regs : t.regs = s.regs := by obtain ⟨_, _, rfl, _⟩ := h; rfl
theorem State.Sent.rgl : t.rgl = s.rgl := by obtain ⟨_, _, rfl, _⟩ := h; rfl
theorem State.Sent.out : s.out <:+ t.out := by obtain ⟨_, _, rfl, ho⟩ := h; exact ho

end

/-! ## What every request keeps while requests move on -/

/-- What a request keeps until it is answered. -/
def Req.core (r : Req) : Nat × Nat × Nat × Nat × Nat × Option (List Byte) := (r.id, r.port, r.tc, r.part, r.addr, r.data)

/-- A reading of requests by their ids, which leaving a port or being taken at a channel does not change. -/
structure Reading {α : Type} (f : Req → α) (L : List α) : Prop where
  ids : ∀ x y : Req, f x ∈ L → f y ∈ L → x.id = y.id → f x = f y
  left : ∀ (r : Req) (reserved : Bool) (tc at_ : Nat), f { r with out := true, reserved := reserved, servedTc := tc, outAt := at_ } = f r
  taken : ∀ r : Req, f { r with started := true } = f r

/-- A fold that keeps its choice or takes the next one ends with one of the list. -/
theorem foldl_picks {α : Type} {g : Option α → α → Option α} (hg : ∀ b x, g b x = some x ∨ g b x = b) (l : List α) {b : Option α}
    {r : α} (h : l.foldl g b = some r) : r ∈ l ∨ b = some r := by
  induction l generalizing b with
  | nil => exact .inr h
  | cons x l ih =>
    rcases ih h with hm | hb
    · exact .inl (List.mem_cons_of_mem _ hm)
    · rcases hg b x with hx | hx
      · exact .inl (Option.some.inj (hb.symm.trans hx) ▸ List.mem_cons_self)
      · exact .inr (hx.symm.trans hb)

theorem State.reqs_takeCredit (s : State) (r : Req) : (s.takeCredit r).rgl.reqs = s.rgl.reqs := by
  unfold State.takeCredit
  split <;> rfl

section
variable {α : Type} {f : Req → α} {L : List α} (hf : Reading f L)

/-- The requests, as the reading sees them. -/
def State.Reads (f : Req → α) (L : List α) (t : State) : Prop := t.rgl.reqs.map f = L

variable {t : State} (h : t.Reads f L)
include h

theorem State.Reads.mem {r : Req} (hr : r ∈ t.rgl.reqs) : f r ∈ L := h ▸ List.mem_map_of_mem hr

theorem State.Reads.of_eq {u : State} (hu : u.rgl.reqs = t.rgl.reqs) : u.Reads f L := (congrArg (List.map f) hu).trans h

theorem State.Reads.sent {u : State} (hu : t.Sent u) : u.Reads f L := h.of_eq (by rw [hu.rgl])

include hf

theorem State.Reads.setReq {q : Req} (hq : f q ∈ L) : (t.setReq q).Reads f L := by
  refine Eq.trans ?_ h
  unfold State.setReq
  rw [List.map_map]
  refine List.map_congr_left fun x hx => ?_
  by_cases hid : x.id = q.id
  · exact (congrArg f (if_pos hid)).trans (hf.ids q x hq (h.mem hx) hid.symm)
  · exact congrArg f (if_neg hid)

theorem State.Reads.leave {r : Req} (hr : f r ∈ L) : (t.leave r).Reads f L := by
  have hc : (t.countStall r).Reads f L := h
  have hq (reserved : Bool) (tc at_ : Nat) :
      (((t.countStall r).setReq { r with out := true, reserved := reserved, servedTc := tc, outAt := at_ }).toGuest r).Reads f L :=
    (hc.setReq hf (by rw [hf.left]; exact hr)).sent (State.sent_toGuest _ r)
  exact State.ite_law (R := State.Reads f L) (hq _ _ _) (hq _ _ _)

theorem State.Reads.leaves (l : List Req) (hl : ∀ r ∈ l, f r ∈ L) :
    (l.foldl (fun t r => if !r.out && t.mayLeave r then t.leave r else t) t).Reads f L := by
  induction l generalizing t with
  | nil => exact h
  | cons r l ih =>
    exact ih (State.ite_law (R := State.Reads f L) (h.leave hf (hl r List.mem_cons_self)) h) fun x hx => hl x (List.mem_cons_of_mem _ hx)

omit hf in
theorem State.Reads.repay (c : Nat) : (t.repay c).Reads f L := State.ite_law (R := State.Reads f L) h h

omit hf in
theorem State.Reads.snLevels : t.snLevels.Reads f L := h

omit hf in
theorem State.Reads.creditNow : t.creditNow.Reads f L := h.of_eq rfl

theorem State.Reads.take (c : Nat) : (t.take c).Reads f L := by
  unfold State.take
  split
  · exact h
  · split
    · next r hr =>
      have hmem : r ∈ t.atChannel c := by
        refine (foldl_picks (fun b x => ?_) _ hr).resolve_right (Option.some_ne_none r ∘ Eq.symm)
        cases b with
        | none => exact .inl rfl
        | some q => exact (ite_eq_or_eq _ (some x) (some q)).imp id id
      have hset := h.setReq hf (q := { r with started := true }) (by rw [hf.taken]; exact h.mem (List.mem_of_mem_filter hmem))
      exact hset.of_eq (State.reqs_takeCredit _ r)
    · exact h

theorem State.Reads.flow : t.flow.Reads f L := by
  have hc : t.creditNow.Reads f L := h.creditNow
  have hl : t.creditNow.leaveAll.Reads f L := hc.leaves hf _ fun r hr => hc.mem hr
  have hstep (u : State) (c : Nat) (hu : u.Reads f L) : ((u.repay c).take c).Reads f L :=
    State.Reads.take hf (State.Reads.repay hu c) c
  exact State.Reads.snLevels (State.IngestLaw.foldl hl hstep (List.range 16))

end

/-- Requests are read by their ids alone. -/
theorem reading_id (L : List Nat) : Reading Req.id L := ⟨fun _ _ _ _ h => h, fun _ _ _ _ => rfl, fun _ => rfl⟩

/-- Where no two requests have one id, a request is known by it. -/
theorem reading_core {L : List (Nat × Nat × Nat × Nat × Nat × Option (List Byte))} (hn : (L.map Prod.fst).Nodup) :
    Reading Req.core L :=
  ⟨fun _ _ hx hy hid => List.inj_on_of_nodup_map hn hx hy hid, fun _ _ _ _ => rfl, fun _ => rfl⟩

theorem map_fst_core (l : List Req) : (l.map Req.core).map Prod.fst = l.map Req.id := by
  rw [List.map_map]
  rfl

/-- No request that moves on gets the id of another. -/
theorem State.ids_flow (s : State) : s.flow.rgl.reqs.map Req.id = s.rgl.reqs.map Req.id :=
  State.Reads.flow (reading_id _) (f := Req.id) (t := s) rfl

/-! ## A request enters -/

/-- The request of a master as its port holds it. -/
def State.asReq (s : State) (q : MemReq) (tag : Nat) : Req :=
  { id := s.rgl.nextId, port := q.port, tc := q.tc, part := q.part, master := q.master, addr := q.addr
    len := (q.data.map (·.length)).getD q.len, data := q.data, out := false, reserved := false, servedTc := q.tc
    started := false, at_ := s.now, outAt := 0, tag := tag }

/-- The state with the request in its port, before requests move on. -/
def State.inPort (s : State) (q : MemReq) (tag : Nat) : State :=
  { s.creditNow with rgl := { s.creditNow.rgl with
      reqs := s.creditNow.rgl.reqs ++ [s.asReq q tag], nextId := (s.asReq q tag).id + 1 } }

theorem State.enterTagged_eq (s : State) (q : MemReq) (tag : Nat) : s.enterTagged q tag = (s.inPort q tag).flow := rfl

section
variable {s : State} (hn : (s.rgl.reqs.map (·.id)).Nodup) (hlt : ∀ r, r ∈ s.rgl.reqs → r.id < s.rgl.nextId) (q : MemReq) (tag : Nat)
include hn hlt

/-- The new request is the newest, and every request of before is kept. -/
theorem State.cores_enterTagged : (s.enterTagged q tag).rgl.reqs.map Req.core =
    s.rgl.reqs.map Req.core ++ [(s.asReq q tag).core] := by
  have hin : (s.inPort q tag).rgl.reqs.map Req.core = s.rgl.reqs.map Req.core ++ [(s.asReq q tag).core] := List.map_append
  rw [State.enterTagged_eq]
  refine (State.Reads.flow (t := s.inPort q tag) (reading_core ?_) hin : State.Reads Req.core _ (s.inPort q tag).flow)
  rw [List.map_append, map_fst_core]
  refine List.Nodup.append hn (List.nodup_singleton _) fun k hk hk' => ?_
  obtain ⟨r, hr, rfl⟩ := List.mem_map.mp hk
  exact (hlt r hr).ne (List.mem_singleton.mp hk')

theorem State.enterTagged_spec :
    (s.enterTagged q tag).rgl.reqs.length = s.rgl.reqs.length + 1 ∧
    (∀ r, r ∈ s.rgl.reqs → ∃ r2, r2 ∈ (s.enterTagged q tag).rgl.reqs ∧ r2.id = r.id ∧ r2.tc = r.tc ∧ r2.part = r.part ∧
      r2.addr = r.addr ∧ r2.data = r.data) ∧
    (∃ r2, r2 ∈ (s.enterTagged q tag).rgl.reqs ∧ r2.id = s.rgl.nextId ∧ r2.port = q.port ∧ r2.tc = q.tc ∧ r2.part = q.part ∧
      r2.addr = q.addr ∧ r2.data = q.data) := by
  have hc := State.cores_enterTagged hn hlt q tag
  generalize (s.enterTagged q tag).rgl.reqs = l at hc ⊢
  have hfind (x : Req) (hx : x.core ∈ s.rgl.reqs.map Req.core ++ [(s.asReq q tag).core]) : ∃ r2 ∈ l, r2.core = x.core := by
    rw [← hc] at hx
    exact List.mem_map.mp hx
  refine ⟨?_, fun r hr => ?_, ?_⟩
  · have hlen := congrArg List.length hc
    rwa [List.length_map, List.length_append, List.length_map] at hlen
  · obtain ⟨r2, hr2, hcore⟩ := hfind r (List.mem_append_left _ (List.mem_map_of_mem hr))
    simp only [Req.core, Prod.mk.injEq] at hcore
    obtain ⟨hid, _, htc, hpart, haddr, hdata⟩ := hcore
    exact ⟨r2, hr2, hid, htc, hpart, haddr, hdata⟩
  · obtain ⟨r2, hr2, hcore⟩ := hfind (s.asReq q tag) (List.mem_append_right _ List.mem_cons_self)
    simp only [Req.core, Prod.mk.injEq] at hcore
    exact ⟨r2, hr2, hcore⟩

end

/-- A request that enters is the Regulator's business alone. -/
theorem State.flowed_enterTagged (s : State) (q : MemReq) (tag : Nat) : s.Flowed (s.enterTagged q tag) :=
  ((s.flowed_creditNow).trans (State.flowed_rgl _ _)).trans (State.flowed_flow (s.inPort q tag))

theorem exec_memoryRequestIssue {s : State} {q : MemReq} (ha : s.awake = true) (hp : s.portUpR q.port = true) (ht : q.tc < 8)
    (hq : q.part < 8) (hl : lineReq q.addr ((q.data.map (·.length)).getD q.len) = true) (hs : s.sends q = true)
    (hc : s.chooses q = true) (hw : s.wickRoom q.master = true) :
    exec (.memoryRequestIssue q) s = .next (s.enterTagged q (s.rgl.nextId % 1024)) :=
  onAwake_of_due _ ha (by rw [hp, decide_eq_true ht, decide_eq_true hq, hl, hs, hc, hw]; rfl)

/-! ## A request is answered -/

/-- A read without errors found is of no line whose error is stored. -/
theorem State.readRes_ok_ne_stored (s : State) (a n l : Nat) : s.readRes a n .ok ≠ .stored l := by
  have he : s.checkEnd .ok = .ok := rfl
  unfold State.readRes
  rw [he]
  split
  · exact fun h => nomatch h
  · split
    · exact fun h => nomatch h
    · split
      · exact fun h => nomatch h
      · exact fun h => nomatch h

/-- The requests are as they were. -/
def State.SameReqs (s t : State) : Prop := t.rgl.reqs = s.rgl.reqs

theorem State.storeLaw_sameReqs (s : State) : State.StoreLaw s.SameReqs where
  setReg _ _ _ _ h := h
  capture {t} p e a h := by
    obtain ⟨_, _, _, hs⟩ := t.capture_shape p e a
    rw [State.SameReqs, hs]
    exact h
  pulse {t} l h := by
    obtain ⟨_, _, hs⟩ := t.pulse_shape l
    rw [State.SameReqs, hs]
    exact h
  store {t} a bs h := by
    obtain ⟨_, hs⟩ := t.store_shape a bs
    rw [State.SameReqs, hs]
    exact h

section
variable {s t : State} (h : s.SameReqs t)
include h

theorem State.SameReqs.ite {u : State} {c : Prop} [Decidable c] (k : s.SameReqs u) : s.SameReqs (if c then t else u) := State.ite_law h k

theorem State.SameReqs.keyed (m : Option Master) (a n : Nat) : s.SameReqs (t.keyed m a n) := by
  unfold State.keyed
  split
  · exact h
  · refine State.ite_law (State.IngestLaw.foldl h (fun u l hu => ?_) _) h
    split
    · exact State.ite_law (R := s.SameReqs) hu hu
    · exact hu

theorem State.SameReqs.captureLine (p : Nat) (e : Err) (a l : Nat) : s.SameReqs (t.captureLine p e a l) :=
  s.storeLaw_sameReqs.captureLine h p e a l

/-- A read that no check marks. -/
theorem State.SameReqs.readMarks (a n : Nat) : s.SameReqs (t.readMarks a n .ok) := by
  have hm : s.SameReqs (t.mapAccess a n) := (h.captureLine _ _ _ _).ite h
  unfold State.readMarks
  dsimp only
  generalize t.mapAccess a n = u at hm ⊢
  have hp (l : Nat) : s.SameReqs (u.countPoisoned l) := by
    unfold State.countPoisoned
    split
    · exact hm
    · exact hm
  split
  · next l _ =>
    have hc := hp (l * 64)
    generalize u.countPoisoned (l * 64) = v at hc ⊢
    exact hc.ite (State.SameReqs.ite (s.storeLaw_sameReqs.capture _ _ _ hc) (hc.captureLine _ _ _ _))
  · next l hl => exact (u.readRes_ok_ne_stored a n l hl).elim
  · exact hm

theorem State.SameReqs.readAnswer (r : Req) : s.SameReqs (t.readAnswer r .ok) := by
  have hm := h.readMarks r.addr r.len
  unfold State.readAnswer
  dsimp only
  generalize t.readMarks r.addr r.len .ok = u at hm ⊢
  split
  · exact hm
  · exact hm

theorem State.SameReqs.buffer (r : Req) : s.SameReqs (t.buffer r) := by
  have hc : s.SameReqs (t.takeCredit r) := (State.reqs_takeCredit t r).trans h
  unfold State.buffer
  dsimp only
  generalize t.takeCredit r = u at hc ⊢
  split
  · exact hc
  · split
    · exact hc
    · exact hc

theorem State.SameReqs.haltQueue (qid : Nat) (e : Err) (bell : Bool) : s.SameReqs (t.haltQueue qid e bell) := by
  have hq : s.SameReqs (t.setQueue qid { t.queue qid with halt := true, haltErr := e, haltDoorbell := bell, fetch := none }) := h
  unfold State.haltQueue
  dsimp only
  generalize t.setQueue qid { t.queue qid with halt := true, haltErr := e, haltDoorbell := bell, fetch := none } = u at hq ⊢
  split
  · next p _ =>
    have hc := s.storeLaw_sameReqs.pulse 2 (hq.captureLine (pgQueue p) e 0 4)
    exact State.ite_law (R := s.SameReqs) hc (hq.captureLine (pgQueue p) e 0 4)
  · exact hq

theorem State.SameReqs.applyBell (qid p : Nat) (v : Word64) (ep : Word32) (res : BellRes) :
    s.SameReqs (t.applyBell qid p v ep res) := by
  unfold State.applyBell
  dsimp only
  split
  · exact s.storeLaw_sameReqs.capture _ _ _ h
  · exact h.captureLine _ _ _ _
  · exact (h.captureLine _ _ _ _).ite (h.haltQueue _ _ _)
  · exact h

theorem State.SameReqs.ringBell (p qid : Nat) (v : Word64) : s.SameReqs (t.ringBell p qid v false) := by
  have ht : s.SameReqs (t.ctxTouch qid) := h.ite h
  unfold State.ringBell
  dsimp only
  exact (s.storeLaw_sameReqs.capture _ _ _ h).ite ((ht.applyBell _ _ _ _ _).ite h)

theorem State.SameReqs.writeAnswer (r : Req) (bs : List Byte) : s.SameReqs (t.writeAnswer r bs) := by
  have hst := s.storeLaw_sameReqs.storeAt h r.addr bs
  unfold State.writeAnswer
  split
  · exact State.SameReqs.buffer (s.storeLaw_sameReqs.storePlain h r.addr bs) r
  · exact hst.ite h
  · exact hst.ite h
  · exact hst.ite h
  · exact (h.ringBell _ _ _).ite (s.storeLaw_sameReqs.capture _ _ _ h)
  · exact s.storeLaw_sameReqs.capture _ _ _ h
  · exact hst

theorem State.SameReqs.mirrorAnswer (r : Req) : s.SameReqs (t.mirrorAnswer r .ok) := h

theorem State.SameReqs.guestAnswer (r : Req) : s.SameReqs (t.guestAnswer r) := by
  unfold State.guestAnswer
  exact State.ite_law (R := s.SameReqs) (State.ite_law (R := s.SameReqs) h h)
    (State.ite_law (R := s.SameReqs) h (State.ite_law (R := s.SameReqs) h h))

end

/-- A region other than the guest window: the answer comes from the place. -/
def State.placeAnswer (s : State) (r : Req) (chk : ReadCheck) (rg : Region) : State :=
  let s := s.keyed (some r.master) r.addr r.len
  match r.data with
  | some bs => s.writeAnswer r bs
  | none =>
    if rg = .doorbell then (s.capture pgLMP .partitionViolation r.addr).emit (.data (List.replicate r.len 0))
    else if rg = .mirror then s.mirrorAnswer r chk
    else s.readAnswer r chk

theorem State.reqEffect_denied {s : State} {r : Req} (h : s.reqAllowed r = false) (chk : ReadCheck) :
    s.reqEffect r chk = s.emit (.memErr (s.reqDenyErr r).code) := by
  unfold State.reqEffect
  rw [h]
  rfl

theorem State.reqEffect_guest {s : State} {r : Req} (h : s.reqAllowed r = true) (hg : s.region r.addr = .guest) (chk : ReadCheck) :
    s.reqEffect r chk = s.guestAnswer r := by
  unfold State.reqEffect
  rw [h, if_neg (by decide)]
  generalize s.region r.addr = rg at hg
  subst hg
  dsimp only

theorem State.reqEffect_place {s : State} {r : Req} (h : s.reqAllowed r = true) (hg : s.region r.addr ≠ .guest) (chk : ReadCheck) :
    s.reqEffect r chk = s.placeAnswer r chk (s.region r.addr) := by
  unfold State.reqEffect
  rw [h]
  generalize s.region r.addr = rg at hg
  cases rg
  case guest => exact absurd rfl hg
  all_goals rfl

theorem State.sameReqs_reqEffect (s : State) (r : Req) : s.SameReqs (s.reqEffect r .ok) := by
  cases h : s.reqAllowed r
  · rw [State.reqEffect_denied h]
    rfl
  · by_cases hg : s.region r.addr = .guest
    · rw [State.reqEffect_guest h hg]
      exact State.SameReqs.guestAnswer (s := s) (t := s) rfl r
    · rw [State.reqEffect_place h hg]
      have hk : s.SameReqs (s.keyed (some r.master) r.addr r.len) := State.SameReqs.keyed (s := s) (t := s) rfl _ _ _
      unfold State.placeAnswer
      dsimp only
      generalize s.keyed (some r.master) r.addr r.len = k at hk ⊢
      split
      · exact hk.writeAnswer r _
      · exact State.ite_law (R := s.SameReqs) (s.storeLaw_sameReqs.capture _ _ _ hk)
          (State.ite_law (R := s.SameReqs) (hk.mirrorAnswer r) (hk.readAnswer r))

theorem exec_memoryResponse {s : State} {id : Nat} {r : Req} (ha : s.awake = true)
    (hr : s.rgl.reqs.find? (fun x => x.id == id) = some r) (hs : s.answerable r = true) (chk : ReadCheck) (e : Nat) :
    let u := ((elapse e s).creditNow.dropReq id).reqCount r
    exec (.memoryResponse id chk e) s =
      .next ((u.answerGuest (u.reqEffect r chk) r).emit (.response r.port r.tc r.part)).flow := by
  refine onAwake_of_due _ ha rfl |>.trans ?_
  rw [hr]
  dsimp only
  rw [if_pos hs]

/-- The requests, the bytes and the configuration are as they were. -/
structure State.Counted (s t : State) : Prop where
  reqs : s.SameReqs t
  mem : t.mem = s.mem
  cfg : t.cfg = s.cfg

theorem State.Counted.trace {s t : State} (h : s.Counted t) (code inst n : Nat) : s.Counted (t.trace code inst n) := by
  obtain ⟨_, ht⟩ := t.trace_shape code inst n
  rw [ht]
  exact ⟨h.reqs, h.mem, h.cfg⟩

/-- Counting an answered request leaves the requests and the bytes. -/
theorem State.counted_reqCount (s : State) (r : Req) : s.Counted (s.reqCount r) := by
  have hctr (p o v : Nat) : s.Counted (s.setCtr64 p o v) := ⟨rfl, rfl, rfl⟩
  have htrace (u : State) (h : s.Counted u) :
      s.Counted (if u.isDdr r && r.data.isNone then u.trace 5 (u.ddrChannel r.addr) 1 else u) := State.ite_law (h.trace _ _ _) h
  have hserved (u : State) (h : s.Counted u) : s.Counted (if u.isDdr r then { u with rgl := { u.rgl with
      served := aset u.rgl.served r.entry (aget 0 u.rgl.served r.entry + r.len) } } else u) :=
    State.ite_law (R := s.Counted) ⟨h.reqs, h.mem, h.cfg⟩ h
  have hmax (u : State) (h : s.Counted u) : s.Counted (if u.tc0Read r && u.designated r.port then
      u.fset pgRGL Reg.RGL_TC0_MAX_NS (Nat.max (u.fget pgRGL Reg.RGL_TC0_MAX_NS) (Nat.min 0xFFFF ((u.now - r.outAt) * 4))) else u) :=
    State.ite_law (R := s.Counted) ⟨h.reqs, h.mem, h.cfg⟩ h
  exact hmax _ (hserved _ (htrace _ (hctr _ _ _)))

/-- The state in which a request is answered: it is no longer waiting, and it is counted. -/
def State.answering (s : State) (r : Req) (id e : Nat) : State := ((elapse e s).creditNow.dropReq id).reqCount r

theorem State.answering_spec (s : State) (r : Req) (id e : Nat) :
    (∀ x ∈ (s.answering r id e).rgl.reqs, x.id ≠ id) ∧ (s.answering r id e).mem = s.mem ∧ (s.answering r id e).cfg = s.cfg := by
  obtain ⟨hreqs, hmem, hcfg⟩ := ((elapse e s).creditNow.dropReq id).counted_reqCount r
  refine ⟨fun x hx => ?_, hmem.trans (elapse_mem e s), hcfg.trans (elapse_cfg e s)⟩
  have hx' : x ∈ ((elapse e s).creditNow.dropReq id).rgl.reqs := hreqs ▸ hx
  exact bne_iff_ne.mp (List.mem_filter.mp hx').2

/-- A request is gone once it is answered. -/
theorem State.answered_gone {u v : State} {id : Nat} (r : Req) (o : OutEvent) (h : ∀ x ∈ u.rgl.reqs, x.id ≠ id) (hv : u.SameReqs v) :
    ∀ x ∈ ((u.answerGuest v r).emit o).flow.rgl.reqs, x.id ≠ id := by
  intro x hx hid
  have hmem : x.id ∈ ((u.answerGuest v r).emit o).flow.rgl.reqs.map Req.id := List.mem_map_of_mem hx
  rw [State.ids_flow] at hmem
  have hreqs : ((u.answerGuest v r).emit o).rgl.reqs = u.rgl.reqs :=
    (congrArg Rgl.reqs (u.sent_answerGuest v r).rgl).trans hv
  rw [hreqs] at hmem
  obtain ⟨y, hy, hyid⟩ := List.mem_map.mp hmem
  exact h y hy (hyid.trans hid)

/-- Only lines of DDR-4 come under a key. -/
theorem State.keyed_of_region {s : State} {a : Nat} (h : s.region a ≠ .ddr) (m : Option Master) (n : Nat) : s.keyed m a n = s := by
  unfold State.keyed
  split
  · rfl
  · rw [decide_eq_false h, Bool.and_false]
    rfl

theorem State.placeAnswer_read {s : State} {r : Req} {rg : Region} (hd : r.data = none) (h1 : rg ≠ .doorbell) (h2 : rg ≠ .mirror)
    (h : (s.keyed (some r.master) r.addr r.len).readsOk r.part r.addr r.len) : s.placeAnswer r .ok rg =
      (s.keyed (some r.master) r.addr r.len).emit (.data ((s.keyed (some r.master) r.addr r.len).load r.addr r.len)) := by
  unfold State.placeAnswer
  dsimp only
  generalize s.keyed (some r.master) r.addr r.len = k at h ⊢
  have hm := readMarks_of_readsOk k r.part r.addr r.len h
  obtain ⟨_, hres⟩ := h
  rw [hd]
  dsimp only
  rw [if_neg h1, if_neg h2, State.readAnswer, hm, hres]
  rfl

/-- A store to a place that takes it writes its bytes. -/
theorem State.mem_storeAt_of_writesOk {s : State} {p a : Nat} {bs : List Byte} (h : s.writesOk p a bs.length) :
    (s.storeAt a bs).mem = writeBytes s.mem a bs := by
  obtain ⟨_, hmap, hdead, _⟩ := h
  rw [State.storeAt, State.mergeMarks_mem, State.storePlain, if_neg hmap, if_pos (by rw [hdead]; rfl)]
  rfl

theorem State.placeAnswer_reservoir {s : State} {r : Req} {bs : List Byte} {n : Nat} (hd : r.data = some bs)
    (hr : s.region r.addr = .reservoir n) (hl : s.lanternUp n = true) (chk : ReadCheck) (rg : Region) :
    s.placeAnswer r chk rg = s.storeAt r.addr bs := by
  unfold State.placeAnswer
  rw [State.keyed_of_region (by rw [hr]; exact fun h => nomatch h), hd]
  dsimp only
  unfold State.writeAnswer
  rw [hr]
  dsimp only
  rw [if_pos hl]

/-! ## The guest -/

section Guest
variable {s : State} (ha : s.awake = true) (hg : s.guestUp = true)
include ha hg

theorem exec_guestRequest (q : GuestReq) : exec (.guestRequest q) s = .next (s.guestSends q) := onAwake_of_due _ ha hg

omit ha hg in
theorem State.guestSends_interrupt (v : Nat) : s.guestSends (.interrupt v) =
    if v < (s.guestDie.map (·.gvec)).getD 0 then s.msix (s.fget pgGST Reg.INT_ROUTE_PORT) (s.fget pgGST Reg.GST_CFG_PART) v
    else s.guestReject := rfl

omit ha hg in
/-- An access of the guest that is refused: counted, and answered with the error. -/
theorem State.guestAccess_refused (tag tc part addr len : Nat) (data : Option (List Byte))
    (h : tc ≠ 7 ∨ part ≠ s.fget pgGST Reg.GST_CFG_PART ∨
      s.cfg.ownRange (s.fget pgGST Reg.GST_CFG_PART) addr ((data.map (·.length)).getD len) data.isSome = false) :
    (s.guestReject.emit (.memErr Err.partitionViolation.code)).Sent (s.guestAccess tag tc part addr len data) := by
  unfold State.guestAccess
  dsimp only
  rw [if_neg]
  · exact State.sent_answerGuest _ _ _
  · rintro ⟨htc, hpart, hrange, -⟩
    rcases h with h | h | h
    · exact h htc
    · exact h hpart
    · exact Bool.false_ne_true (h.symm.trans hrange)

theorem exec_guestRequestTimeout {id e : Nat} {r : Req} (hr : s.rgl.reqs.find? (fun x => x.id == id) = some r) (ho : r.out = true)
    (hw : s.region r.addr = .guest) (hd : s.dueNow e (r.outAt + s.fget pgGST Reg.GST_TMO_TMO * 25) = true) :
    exec (.guestRequestTimeout id e) s =
      .next ((((elapse e s).dropReq id).fadd pgGST Reg.GST_TIMEOUT_COUNT 1).emit (.memErr Err.dataErrorDetected.code)).flow := by
  refine onAwake_of_due _ ha rfl |>.trans ?_
  rw [hr]
  dsimp only
  rw [if_pos]
  rw [ho, hw, hg, hd]
  rfl

end Guest

/-- Settles O48: no request that moves on changes what another one is, and what an answer does is what its place does. -/
theorem requestsIssueAndAnswer : Obligations.RequestsIssueAndAnswer := by
  unfold Obligations.RequestsIssueAndAnswer
  refine ⟨?issue, ?answer, ?guest⟩
  case issue =>
    intro s q ha hp ht hq hl hs hc hw hn hlt
    have hk := s.flowed_enterTagged q (s.rgl.nextId % 1024)
    exact ⟨_, exec_memoryRequestIssue ha hp ht hq hl hs hc hw, hk.mem, hk.jobs, hk.queues, State.enterTagged_spec hn hlt q _⟩
  case answer =>
    intro s id e r ha hr hs
    obtain ⟨hgone, hmem, hcfg⟩ := s.answering_spec r id e
    have hx := exec_memoryResponse ha hr hs .ok e
    rw [← State.answering] at hx ⊢
    generalize s.answering r id e = u at hgone hmem hcfg hx ⊢
    dsimp only at hx ⊢
    refine ⟨hx, ?_, State.answered_gone r _ hgone (u.sameReqs_reqEffect r), fun hd => ?_, fun hok hd hplace hread => ?_,
      fun bs n hok hd hplace hl hw => ?_, fun hc => State.keyed_of_clear (hcfg ▸ hc) _ _ _⟩
    · exact (State.flowed_flow _).mem.trans (u.sent_answerGuest _ r).mem
    · rw [State.reqEffect_denied hd]
      exact ⟨rfl, hmem⟩
    · have hg : u.region r.addr ≠ .guest ∧ u.region r.addr ≠ .doorbell ∧ u.region r.addr ≠ .mirror := by
        obtain h | ⟨n, h⟩ := hplace <;> simp [h]
      obtain ⟨hg, hb, hm⟩ := hg
      rw [State.reqEffect_place hok hg, State.placeAnswer_read hd hb hm hread]
    · have hv : (u.reqEffect r .ok).mem = writeBytes s.mem r.addr bs := by
        rw [State.reqEffect_place hok (by rw [hplace]; exact fun h => nomatch h), State.placeAnswer_reservoir hd hplace hl,
          State.mem_storeAt_of_writesOk hw, hmem]
      rw [hv]
      refine ⟨fun i hi => ?_, fun a ha => ?_⟩
      · rw [readByte_writeBytes, if_pos (by omega), Nat.add_sub_cancel_left, List.getElem?_eq_getElem hi,
          List.getD_eq_getElem _ _ hi]
      · rw [readByte_writeBytes, if_neg ha]
  case guest =>
    intro s ha hg
    refine ⟨fun v hv => ?_, fun v hv => ?_, fun tc part addr len data => ⟨fun ht hp hr hl => ?_, fun h => ?_⟩, fun id e r hr ho hw hd => ?_⟩
    · rw [exec_guestRequest ha hg, State.guestSends_interrupt, if_pos hv]
    · rw [exec_guestRequest ha hg, State.guestSends_interrupt, if_neg (Nat.not_lt.mpr hv)]
    · rw [exec_guestRequest ha hg]
      subst ht hp
      exact congrArg Host.Outcome.next (if_pos ⟨rfl, rfl, hr, hl⟩)
    · have hs := State.guestAccess_refused (s := s) 0 tc part addr len data h
      refine ⟨_, exec_guestRequest ha hg _, ?_, hs.out.mem List.mem_cons_self, hs.mem, hs.rgl⟩
      refine Eq.trans ?_ (s.fget_fadd_same pgGST (f := Reg.GST_REJECT_COUNT) (by decide) 1)
      exact congrArg (fun r => Reg.GST_REJECT_COUNT.get (aget (regReset pgGST _) r _)) hs.regs
    · refine ⟨exec_guestRequestTimeout ha hg hr ho hw hd, fun x hx => bne_iff_ne.mp (List.mem_filter.mp hx).2, ?_⟩
      rw [State.fget_fadd_same _ _ (by decide)]
      exact congrArg (fun n => min (n + 1) _) (calm_pgGST.fget e s (f := Reg.GST_TIMEOUT_COUNT) (by decide))

end Sys2Proof.Machine
end

section
/-!
PROOF. The channels of the DDR-4: the write buffer, refreshes, migration, alerts and training (13 R332, R333; 14 R357 to R362).
-/

namespace Sys2Proof.Machine

open Sys2Proof

-- One thread at a time: the stacks of threads that wait for each other count against the check's memory limit.
set_option Elab.async false

/-! ## What marks of errors keep -/

/-- `t` is `s` after errors were marked: the channels and the registers of `keep` are as they were, lines were pulsed, and lines may
have been poisoned. -/
structure State.Marked (keep : Nat → Nat → Prop) (s t : State) : Prop where
  dmc : t.dmc = s.dmc
  lines : s.LinesKept t
  poison : ∀ l ∈ s.poison, l ∈ t.poison
  regs : ∀ p o, keep p o → t.reg p 0 o = s.reg p 0 o

/-- Registers that no capture writes. -/
def Apart (keep : Nat → Nat → Prop) : Prop := ∀ p o, keep p o → o < 4096 ∧ o ∉ [0x018, 0x024, 0x028, 0x02C]

section
variable {keep : Nat → Nat → Prop}

theorem State.Marked.refl (s : State) : s.Marked keep s := ⟨rfl, s.linesKept_refl, fun _ h => h, fun _ _ _ => rfl⟩

theorem State.Marked.trans {s t u : State} (h : s.Marked keep t) (k : t.Marked keep u) : s.Marked keep u :=
  ⟨k.dmc.trans h.dmc, h.lines.trans k.lines, fun l hl => k.poison l (h.poison l hl),
    fun p o hp => (k.regs p o hp).trans (h.regs p o hp)⟩

theorem State.Marked.ite {s t u : State} {c : Prop} [Decidable c] (h : s.Marked keep t) (k : s.Marked keep u) :
    s.Marked keep (if c then t else u) := State.ite_law h k

variable (s : State)

theorem State.marked_setReg {p i o : Nat} (v : Word32) (h : ∀ p' o', keep p' o' → regKey p' 0 o' ≠ regKey p i o) :
    s.Marked keep (s.setReg p i o v) :=
  ⟨rfl, s.linesKept_refl, fun _ h => h, fun p' o' hk => s.reg_setReg_other v (h p' o' hk).symm⟩

theorem State.marked_pulse (l : Nat) : s.Marked keep (s.pulse l) := by
  have hl := s.linesKept_pulse l
  obtain ⟨a, b, h⟩ := s.pulse_shape l
  rw [h] at hl ⊢
  exact ⟨rfl, hl, fun _ h => h, fun _ _ _ => rfl⟩

theorem State.marked_poisonLine (l : Nat) : s.Marked keep (s.poisonLine l) ∧ l ∈ (s.poisonLine l).poison := by
  unfold State.poisonLine
  split
  · next h => exact ⟨State.Marked.refl s, h⟩
  · refine ⟨⟨rfl, s.linesKept_refl, fun x hx => ?_, fun _ _ _ => rfl⟩, by simp⟩
    simp only [List.mem_append, List.mem_filter, List.mem_singleton, decide_eq_true_eq]
    rcases Nat.lt_trichotomy x l with h | h | h
    · exact .inl (.inl ⟨hx, h⟩)
    · exact .inl (.inr h)
    · exact .inr ⟨hx, h⟩

variable (ha : Apart keep)
include ha

theorem State.marked_capture (p : Nat) (e : Err) (a : Nat) : s.Marked keep (s.capture p e a) := by
  have hreg (p' o' : Nat) (hk : keep p' o') : (s.capture p e a).reg p' 0 o' = s.reg p' 0 o' := by
    obtain ⟨hlt, hne⟩ := ha p' o' hk
    refine s.reg_capture_other _ _ _ ?_
    simp only [List.mem_cons, List.not_mem_nil, or_false, not_or] at hne ⊢
    obtain ⟨h1, h2, h3, h4⟩ := hne
    exact ⟨regKey_ne_of_offset h1 hlt (by decide), regKey_ne_of_offset h2 hlt (by decide), regKey_ne_of_offset h3 hlt (by decide),
      regKey_ne_of_offset h4 hlt (by decide)⟩
  obtain ⟨r, o, q, h⟩ := s.capture_shape p e a
  rw [h] at hreg ⊢
  exact ⟨rfl, s.linesKept_refl, fun _ h => h, hreg⟩

theorem State.marked_captureLine (p : Nat) (e : Err) (a l : Nat) : s.Marked keep (s.captureLine p e a l) :=
  (s.marked_capture ha p e a).trans (State.marked_pulse _ l)

theorem State.marked_event (p : Nat) : s.Marked keep (s.event p) := by
  have hset : s.Marked keep (s.fset p Reg.INT_STATUS_EVT 1) := s.marked_setReg _ fun p' o' hk => by
    obtain ⟨hlt, hne⟩ := ha p' o' hk
    simp only [List.mem_cons, List.not_mem_nil, or_false, not_or] at hne
    exact regKey_ne_of_offset hne.1 hlt (by decide)
  refine hset.trans ?_
  obtain ⟨o, q, h⟩ := (s.fset p Reg.INT_STATUS_EVT 1).pendRise_shape p (s.pend p)
  rw [State.event, h]
  exact ⟨rfl, State.linesKept_refl _, fun _ h => h, fun _ _ _ => rfl⟩

omit ha in
/-- A register of the Regulator's page, where none is kept. -/
theorem State.marked_rgl (hr : ∀ p o, keep p o → p ≠ pgRGL ∧ o < 4096) {o : Nat} (v : Word32) (ho : o < 4096) :
    s.Marked keep (s.setReg pgRGL 0 o v) :=
  s.marked_setReg v fun p' o' hk => regKey_ne_of_page (hr p' o' hk).1 (by decide) (by decide) (hr p' o' hk).2 ho

/-- Admission that runs again. -/
theorem State.marked_readmit (hr : ∀ p o, keep p o → p ≠ pgRGL ∧ o < 4096) (code : Err) : s.Marked keep (s.readmit code) := by
  have hloop (n : Nat) (u : State) : u.Marked keep (u.shedLoop code n) := by
    induction n generalizing u with
    | zero => exact State.Marked.refl u
    | succ n ih =>
      unfold State.shedLoop
      dsimp only
      refine (State.Marked.refl u).ite ?_
      split
      · exact State.Marked.refl u
      · next e _ =>
        have hshed : u.Marked keep (u.setShed e true) := u.marked_rgl hr _ (by split <;> decide)
        have hc := hshed.trans (State.marked_captureLine _ ha pgRGL code 0 185)
        exact (State.Marked.ite (hc.trans (State.marked_pulse _ 184)) hc).trans (ih _)
  have hb : s.Marked keep s.budgetRegs := (s.marked_rgl hr _ (by decide)).trans (State.marked_rgl _ hr _ (by decide))
  exact (hb.trans (hloop 64 s.budgetRegs)).trans (State.marked_rgl _ hr _ (by decide))

theorem State.marked_tellOffline (c r : Nat) : s.Marked keep (s.tellOffline c r) := by
  refine foldl_rel State.Marked.refl State.Marked.trans (fun t p => ?_) _ s
  split
  · exact (t.marked_captureLine ha _ _ _ _).trans (State.marked_event _ ha _)
  · exact State.Marked.refl t

/-- A rank's error where neither the ranks' states nor the watermarks are kept. -/
theorem State.marked_rankError (hr : ∀ p o, keep p o → p ≠ pgRGL ∧ o ∉ [0x040, 0x044]) (c r a : Nat) (cmd : Bool) :
    s.Marked keep (s.rankError c r a cmd) := by
  have hrgl (p o : Nat) (hk : keep p o) : p ≠ pgRGL ∧ o < 4096 := ⟨(hr p o hk).1, (ha p o hk).1⟩
  have hoff {p o x : Nat} (hx : x ∈ [0x040, 0x044]) (hk : keep p o) : regKey p 0 o ≠ regKey (pgDMCch c) 0 x := by
    have hne : o ≠ x := fun h => (hr p o hk).2 (h ▸ hx)
    exact regKey_ne_of_offset hne (ha p o hk).1 (by simp only [List.mem_cons, List.not_mem_nil, or_false] at hx; omega)
  have hst (u : State) (q st : Nat) : u.Marked keep (u.setRankSt c q st) := by
    have h := u.marked_setReg (keep := keep) (p := pgDMCch c) (i := 0) (o := 0x040)
      ((if q = 0 then Reg.DMC_CHSTATE_RANK0 else Reg.DMC_CHSTATE_RANK1).put (u.reg (pgDMCch c) 0 0x040) st) fun _ _ => hoff (by simp)
    unfold State.setRankSt
    split
    · next hq => rw [if_pos hq] at h; exact ⟨h.dmc, h.lines, h.poison, h.regs⟩
    · next hq => rw [if_neg hq] at h; exact ⟨h.dmc, h.lines, h.poison, h.regs⟩
  have hmark (u : State) : u.Marked keep (u.fset (pgDMCch c) Reg.DMC_WMARK_ROWS 0) := u.marked_setReg _ fun _ _ => hoff (by decide)
  have hcap (u : State) (e : Err) : u.Marked keep (u.captureLine (pgDMCch c) e a (208 + 4 * c)) := u.marked_captureLine ha _ _ _ _
  have hoffline (u : State) (q : Nat) : u.Marked keep (u.offlineRank c q a) :=
    (((hst u q 5).trans (hcap _ _)).trans (State.marked_tellOffline _ ha c q)).trans (State.marked_readmit _ ha hrgl _)
  have hsec (u : State) : u.Marked keep u.touch := ⟨rfl, u.linesKept_refl, fun _ h => h, fun _ _ _ => rfl⟩
  unfold State.rankError
  exact .ite (.ite (((hst s r 3).trans (hmark _)).trans (hcap _ _)) (hoffline s r))
    (.ite (.ite (((hst s r 5).trans (hoffline _ _)).trans (hsec _)) (.ite ((hst s r 5).trans (State.marked_pulse _ _)) (hcap s _)))
      (.ite (.refl s) (hcap s _)))

end

/-! ## A row that migrates (13 R333) -/

/-- The registers that say where a line of DDR-4 lies, and how far each rank is copied. -/
def rowRegs (p o : Nat) : Prop :=
  p = pgDMC ∧ o < 4096 ∧ o ∉ [0x018, 0x024, 0x028, 0x02C] ∨ 0x070 ≤ p ∧ p < 0x080 ∧ (o = 0x040 ∨ o = 0x044)

theorem apart_rowRegs : Apart rowRegs := by
  rintro p o (⟨_, hlt, hne⟩ | ⟨_, _, rfl | rfl⟩)
  · exact ⟨hlt, hne⟩
  · decide
  · decide

theorem rowRegs_page {p o : Nat} (h : rowRegs p o) : p < 0x080 := by
  rcases h with ⟨rfl, _⟩ | ⟨_, h, _⟩
  · decide
  · exact h

theorem rowRegs_apart_rgl (p o : Nat) (h : rowRegs p o) : p ≠ pgRGL ∧ o < 4096 := by
  refine ⟨?_, (apart_rowRegs p o h).1⟩
  rcases h with ⟨rfl, _⟩ | ⟨h, _⟩
  · decide
  · unfold pgRGL
    omega

theorem rowRegs_channel {c : Nat} (hc : c < 16) : rowRegs (pgDMCch c) 0x040 ∧ rowRegs (pgDMCch c) 0x044 := by
  unfold rowRegs pgDMCch
  omega

theorem selectCount_le (s : State) : s.selectCount ≤ 8 := by
  unfold State.selectCount
  split <;> decide

section
variable {s t : State} (h : s.Marked rowRegs t)
include h

theorem State.Marked.dmcField {f : Fld} (hf : f.off < 4096 ∧ f.off ∉ [0x018, 0x024, 0x028, 0x02C]) :
    t.fget pgDMC f = s.fget pgDMC f := congrArg f.get (h.regs _ _ (.inl ⟨rfl, hf.1, hf.2⟩))

theorem State.Marked.ddrMask {k : Nat} (hk : k < 100) : t.ddrMask k = s.ddrMask k := by
  unfold State.ddrMask
  rw [h.regs pgDMC (0x080 + 8 * k) (.inl ⟨rfl, by omega, by simp; omega⟩),
    h.regs pgDMC (0x084 + 8 * k) (.inl ⟨rfl, by omega, by simp; omega⟩)]

theorem State.Marked.selectCount : t.selectCount = s.selectCount := by
  unfold State.selectCount
  rw [h.dmcField (by decide)]

theorem State.Marked.rowBits : t.rowBits = s.rowBits := by
  unfold State.rowBits
  rw [h.dmcField (by decide)]

theorem State.Marked.rankRows : t.rankRows = s.rankRows := by
  unfold State.rankRows
  rw [h.rowBits, h.selectCount]

theorem State.Marked.rankSt {c : Nat} (hc : c < 16) (r : Nat) : t.rankSt c r = s.rankSt c r := by
  unfold State.rankSt
  split
  · exact congrArg (Fld.get _) (h.regs _ _ (rowRegs_channel hc).1)
  · exact congrArg (Fld.get _) (h.regs _ _ (rowRegs_channel hc).1)

theorem State.Marked.wmark {c : Nat} (hc : c < 16) : t.fget (pgDMCch c) Reg.DMC_WMARK_ROWS = s.fget (pgDMCch c) Reg.DMC_WMARK_ROWS :=
  congrArg (Fld.get _) (h.regs _ _ (rowRegs_channel hc).2)

theorem State.Marked.ddrChannel (a : Nat) : t.ddrChannel a = s.ddrChannel a := by
  unfold State.ddrChannel
  exact List.foldl_ext _ _ _ fun acc i hi => by rw [h.ddrMask ((List.mem_range.mp hi).trans (by decide))]

theorem State.Marked.plainBits : t.plainBits = s.plainBits := by
  have hle := selectCount_le s
  unfold State.plainBits
  rw [h.selectCount]
  have hm : (List.range s.selectCount).filterMap (fun k => homeBit (t.ddrMask k)) =
      (List.range s.selectCount).filterMap fun k => homeBit (s.ddrMask k) :=
    List.filterMap_congr fun k hk => by rw [h.ddrMask (by have := List.mem_range.mp hk; omega)]
  rw [hm]

theorem State.Marked.rowIndex (a : Nat) : t.rowIndex a = s.rowIndex a := by
  have hle := selectCount_le s
  have hb : t.ddrBank a = s.ddrBank a := by
    unfold State.ddrBank
    rw [h.selectCount]
    exact List.foldl_ext _ _ _ fun acc i hi => by rw [h.ddrMask (by have := List.mem_range.mp hi; omega)]
  unfold State.rowIndex State.ddrRow
  rw [hb, h.selectCount, h.plainBits, h.rowBits]

theorem State.Marked.ddrRank {a : Nat} (hc : s.ddrChannel a < 16) : t.ddrRank a = s.ddrRank a := by
  have hr : t.cfgRanks = s.cfgRanks := by
    unfold State.cfgRanks
    rw [h.dmcField (by decide)]
  unfold State.ddrRank
  dsimp only
  rw [hr, h.plainBits, h.rowBits, h.ddrChannel, h.rankSt hc, h.rankSt hc]

end

/-- A line of the row that is being copied is read on the rank that retires. -/
theorem State.hitRank_of_onRow {s : State} {c r l : Nat}
    (h : s.onRow c r (s.fget (pgDMCch c) Reg.DMC_WMARK_ROWS) l = true) :
    s.ddrChannel (l * 64) = c ∧ s.hitRank (l * 64) = r := by
  simp only [State.onRow, Bool.and_eq_true, beq_iff_eq] at h
  obtain ⟨⟨hc, hr⟩, hw⟩ := h
  refine ⟨hc, ?_⟩
  have hspare : s.onSpare (l * 64) = false := by
    unfold State.onSpare
    dsimp only
    rw [hc, hw, decide_eq_false (Nat.lt_irrefl _), Bool.and_false]
  rw [State.hitRank, hspare, hr, if_neg Bool.false_ne_true]

/-- An error on a rank that is being copied is captured. -/
theorem State.rankError_of_copying {s : State} {c r : Nat} (h : s.rankSt c r = 3) (a : Nat) :
    s.rankError c r a false = s.captureLine (pgDMCch c) .dataErrorDetected a (208 + 4 * c) := by
  unfold State.rankError
  dsimp only
  rw [h]
  rfl

theorem State.marked_rowReg (s : State) {p i o : Nat} (v : Word32) (hp : 0x080 ≤ p) : s.Marked rowRegs (s.setReg p i o v) :=
  s.marked_setReg v fun p' o' hk => by
    have hp' := rowRegs_page hk
    have ho' := (apart_rowRegs p' o' hk).1
    unfold regKey
    omega

theorem State.Marked.bonds {keep : Nat → Nat → Prop} {s t : State} (h : s.Marked keep t) (b : List (Nat × Nat)) :
    s.Marked keep { t with bonds := b } := ⟨h.dmc, h.lines, h.poison, h.regs⟩

/-- A counter of a channel's page. -/
theorem State.marked_channelReg (s : State) {c o : Nat} (v : Word32) (hc : c < 16) (ho : o < 4096) (h : o ∉ [0x040, 0x044]) :
    s.Marked rowRegs (s.setReg (pgDMCch c) 0 o v) :=
  s.marked_setReg v fun p' o' hk => by
    have ho' := (apart_rowRegs p' o' hk).1
    rcases hk with ⟨rfl, _⟩ | ⟨_, _, hx⟩
    · exact regKey_ne_of_page (by unfold pgDMC pgDMCch; omega) (by decide) (by decide) ho' ho
    · refine regKey_ne_of_offset (fun he => h ?_) ho' ho
      rcases hx with rfl | rfl
      · exact he ▸ by decide
      · exact he ▸ by decide

/-- A line of the row that failed: it is poisoned, and no rank changes its state. -/
theorem State.marked_storedError (s : State) {c r l : Nat} (hc : c < 16) (hst : s.rankSt c r = 3)
    (h : s.onRow c r (s.fget (pgDMCch c) Reg.DMC_WMARK_ROWS) l = true) :
    s.Marked rowRegs (s.storedError (l * 64)) ∧ l ∈ (s.storedError (l * 64)).poison := by
  obtain ⟨hch, hhit⟩ := State.hitRank_of_onRow h
  obtain ⟨hp, hl⟩ := s.marked_poisonLine (keep := rowRegs) l
  have hhit' : (s.poisonLine l).hitRank (l * 64) = r := by
    rw [← hhit]
    unfold State.poisonLine
    split <;> rfl
  have hst' := (hp.rankSt hc r).trans hst
  unfold State.storedError
  dsimp only
  rw [hch, Nat.mul_div_cancel l (by decide)]
  generalize s.poisonLine l = u at hp hl hhit' hst' ⊢
  suffices hu : ∀ v : State, u.Marked rowRegs v → s.Marked rowRegs v ∧ l ∈ v.poison by
    split
    · next n _ =>
      exact hu _ (((u.marked_rowReg (p := pgRSV n) (i := 0) (o := Reg.RSV_DET_COUNT.off) _ (by unfold pgRSV pgLantern; omega)).trans
        (State.marked_captureLine _ apart_rowRegs _ _ _ _)).bonds _)
    · next w _ =>
      exact hu _ ((u.marked_rowReg (p := pgWck w) (i := 0) (o := Reg.WCK_DET_COUNT.off) _ (by unfold pgWck pgLantern; omega)).trans
        (State.marked_captureLine _ apart_rowRegs _ _ _ _))
    · next k _ =>
      exact hu _ ((u.marked_rowReg (p := pgScn k) (i := 0) (o := Reg.SCN_DET_COUNT.off) _ (by unfold pgScn pgLantern; omega)).trans
        (State.marked_captureLine _ apart_rowRegs _ _ _ _))
    · have hm : u.Marked rowRegs (u.fadd (pgDMCch c) Reg.DMC_STORED_COUNT 1) := u.marked_channelReg _ hc (by decide) (by decide)
      rw [hhit', State.rankError_of_copying ((hm.rankSt hc r).trans hst')]
      exact hu _ (hm.trans (State.marked_captureLine _ apart_rowRegs _ _ _ _))
    · exact hu _ (u.marked_captureLine apart_rowRegs _ _ _ _)
  exact fun v hv => ⟨hp.trans hv, hv.poison l hl⟩

/-- The lines of the row that is being copied. -/
def State.copiedRow (s : State) (c r l : Nat) : Prop := s.onRow c r (s.fget (pgDMCch c) Reg.DMC_WMARK_ROWS) l = true

theorem State.Marked.copiedRow {s t : State} (h : s.Marked rowRegs t) {c r l : Nat} (hc : c < 16) (hl : s.copiedRow c r l) :
    t.copiedRow c r l := by
  have hch : s.ddrChannel (l * 64) = c := (State.hitRank_of_onRow hl).1
  rw [State.copiedRow, State.onRow, h.wmark hc, h.ddrChannel, h.ddrRank (by rw [hch]; exact hc), h.rowIndex]
  exact hl

/-- The lines of a row that failed, one after the other. -/
theorem State.marked_failedLines {c r : Nat} (hc : c < 16) (ls : List Nat) (s : State) (hst : s.rankSt c r = 3)
    (hls : ∀ l ∈ ls, s.copiedRow c r l) :
    s.Marked rowRegs (ls.foldl (fun t l => t.storedError (l * 64)) s) ∧
      ∀ l ∈ ls, l ∈ (ls.foldl (fun t l => t.storedError (l * 64)) s).poison := by
  induction ls generalizing s with
  | nil => exact ⟨State.Marked.refl s, fun _ h => nomatch h⟩
  | cons l ls ih =>
    obtain ⟨hm, hl⟩ := s.marked_storedError hc hst (hls l List.mem_cons_self)
    obtain ⟨hall, hrest⟩ := ih (s.storedError (l * 64)) ((hm.rankSt hc r).trans hst)
      fun x hx => hm.copiedRow hc (hls x (List.mem_cons_of_mem _ hx))
    refine ⟨hm.trans hall, fun x hx => ?_⟩
    rcases List.mem_cons.mp hx with rfl | hx
    · exact hall.poison x hl
    · exact hrest x hx

/-- The row's marks: the lines that failed, and a count and a line for each that is poisoned. -/
def State.rowMarked (s : State) (c r : Nat) (bad : List Nat) : State :=
  let w := s.fget (pgDMCch c) Reg.DMC_WMARK_ROWS
  let failed := bad.eraseDups.filter fun l => s.onRow c r w l && !s.poison.contains l
  let s := failed.foldl (fun t l => t.storedError (l * 64)) s
  let n := (s.poison.filter fun l => s.onRow c r w l).length
  (List.range n).foldl (fun t _ => (t.fadd (pgDMCch c) Reg.DMC_MIG_POISON_COUNT 1).pulse (211 + 4 * c)) s

theorem State.rowMarked_spec {s : State} {c r : Nat} (hc : c < 16) (hst : s.rankSt c r = 3) (bad : List Nat) :
    s.Marked rowRegs (s.rowMarked c r bad) ∧ (s.rowMarked c r bad).mem = s.mem ∧
      ∀ l ∈ bad, s.copiedRow c r l → l ∈ (s.rowMarked c r bad).poison := by
  unfold State.rowMarked
  dsimp only
  have hrow (l : Nat) (hl : l ∈ bad.eraseDups.filter fun l =>
      s.onRow c r (s.fget (pgDMCch c) Reg.DMC_WMARK_ROWS) l && !s.poison.contains l) : s.copiedRow c r l :=
    (Bool.and_eq_true_iff.mp (List.mem_filter.mp hl).2).1
  obtain ⟨hm, hp⟩ := s.marked_failedLines hc _ hst hrow
  have hmem := ((State.ReadKept.refl s).foldl (fun u l hu => hu.storedError (a := l * 64)) (bad.eraseDups.filter fun l =>
      s.onRow c r (s.fget (pgDMCch c) Reg.DMC_WMARK_ROWS) l && !s.poison.contains l)).mem
  generalize (bad.eraseDups.filter fun l => s.onRow c r (s.fget (pgDMCch c) Reg.DMC_WMARK_ROWS) l && !s.poison.contains l).foldl
      (fun t l => t.storedError (l * 64)) s = u at hm hp hmem ⊢
  have hcount := foldl_rel (R := State.Marked rowRegs) State.Marked.refl State.Marked.trans
    (f := fun t (_ : Nat) => (t.fadd (pgDMCch c) Reg.DMC_MIG_POISON_COUNT 1).pulse (211 + 4 * c))
    (fun t _ => (t.marked_channelReg (o := Reg.DMC_MIG_POISON_COUNT.off) _ hc (by decide) (by decide)).trans (State.marked_pulse _ _))
    (List.range (u.poison.filter fun l => u.onRow c r (s.fget (pgDMCch c) Reg.DMC_WMARK_ROWS) l).length) u
  have hmem' := ((State.ReadKept.refl u).foldl (f := fun t (_ : Nat) => (t.fadd (pgDMCch c) Reg.DMC_MIG_POISON_COUNT 1).pulse (211 + 4 * c))
    (fun t _ ht => ht.fadd.pulse)
    (List.range (u.poison.filter fun l => u.onRow c r (s.fget (pgDMCch c) Reg.DMC_WMARK_ROWS) l).length)).mem
  refine ⟨hm.trans hcount, hmem'.trans hmem, fun l hl hcr => hcount.poison l ?_⟩
  by_cases hin : l ∈ s.poison
  · exact hm.poison l hin
  · refine hp l (List.mem_filter.mpr ⟨List.mem_eraseDups.mpr hl, ?_⟩)
    rw [show s.onRow c r (s.fget (pgDMCch c) Reg.DMC_WMARK_ROWS) l = true from hcr]
    simpa using hin

/-- What the watermark's step leaves of the state after the marks: the next row, or the rank's retirement. -/
def State.rowNext (s : State) (c r w : Nat) : State :=
  let s := s.fset (pgDMCch c) Reg.DMC_WMARK_ROWS (w + 1)
  if w + 1 = s.rankRows then
    ((((s.setRankSt c r 4).setRankSt c (1 - r) 1).captureLine (pgDMCch c) .rankRetired 0 (208 + 4 * c)).readmit .rankRetired).touch
  else s

theorem State.rowDone_of_copying {s : State} {c r : Nat} (hc : c < 16) (hst : s.rankSt c r = 3) (bad : List Nat) :
    s.rowDone c r bad = (s.rowMarked c r bad).rowNext c r (s.fget (pgDMCch c) Reg.DMC_WMARK_ROWS) :=
  if_neg (not_not.mpr (((s.rowMarked_spec hc hst bad).1.rankSt hc r).trans hst))

theorem State.rankSt_setRankSt (s : State) {c r r' st : Nat} (hr : r < 2) (hr' : r' < 2) (hst : st < 8) :
    (s.setRankSt c r st).rankSt c r' = if r' = r then st else s.rankSt c r' := by
  have hother : (s.setRankSt c r st).rankSt c r' =
      (s.fset (pgDMCch c) (if r = 0 then Reg.DMC_CHSTATE_RANK0 else Reg.DMC_CHSTATE_RANK1) st).fget (pgDMCch c)
        (if r' = 0 then Reg.DMC_CHSTATE_RANK0 else Reg.DMC_CHSTATE_RANK1) := rfl
  rw [hother]
  interval_cases r <;> interval_cases r'
  · exact (s.fget_fset_same _ _ (by decide) st).trans (Nat.mod_eq_of_lt hst)
  · exact s.fget_fset_other _ _ _ _ (by decide) (by decide) (by decide)
  · exact s.fget_fset_other _ _ _ _ (by decide) (by decide) (by decide)
  · exact (s.fget_fset_same _ _ (by decide) st).trans (Nat.mod_eq_of_lt hst)

/-- A rank has at most 2^21 rows. -/
theorem State.rankRows_le (s : State) : s.rankRows ≤ 2 ^ 21 := by
  have h := selectCount_le s
  unfold State.rankRows State.rowBits
  refine Nat.pow_le_pow_right (by decide) ?_
  split <;> omega

theorem State.rowNext_spec (s : State) {c r w : Nat} (hc : c < 16) (hr : r < 2) (hst : s.rankSt c r = 3) :
    (s.rowNext c r w).mem = s.mem ∧ (∀ l ∈ s.poison, l ∈ (s.rowNext c r w).poison) ∧
    (w + 1 < s.rankRows → (s.rowNext c r w).fget (pgDMCch c) Reg.DMC_WMARK_ROWS = w + 1 ∧ (s.rowNext c r w).rankSt c r = 3) ∧
    (w + 1 = s.rankRows → (s.rowNext c r w).rankSt c r = 4 ∧ (s.rowNext c r w).rankSt c (1 - r) = 1) := by
  have hrows : (s.fset (pgDMCch c) Reg.DMC_WMARK_ROWS (w + 1)).rankRows = s.rankRows := by
    have hother (f : Fld) (hf : f.off < 4096) : (s.fset (pgDMCch c) Reg.DMC_WMARK_ROWS (w + 1)).fget pgDMC f = s.fget pgDMC f :=
      congrArg f.get (s.reg_setReg_other _ (regKey_ne_of_page (by unfold pgDMC pgDMCch; omega) (by decide) (by decide) (by decide) hf))
    unfold State.rankRows State.rowBits State.selectCount
    rw [hother _ (by decide), hother _ (by decide)]
  have hw := s.fget_fset_same (pgDMCch c) Reg.DMC_WMARK_ROWS (by decide) (w + 1)
  have hst' : (s.fset (pgDMCch c) Reg.DMC_WMARK_ROWS (w + 1)).rankSt c r = 3 := by
    rw [← hst]
    unfold State.rankSt
    split
    · exact s.fget_fset_other _ _ _ _ (by decide) (by decide) (by decide)
    · exact s.fget_fset_other _ _ _ _ (by decide) (by decide) (by decide)
  have hmem : (s.fset (pgDMCch c) Reg.DMC_WMARK_ROWS (w + 1)).mem = s.mem := rfl
  have hpoison : (s.fset (pgDMCch c) Reg.DMC_WMARK_ROWS (w + 1)).poison = s.poison := rfl
  unfold State.rowNext
  dsimp only
  rw [hrows, ← hmem, ← hpoison]
  generalize s.fset (pgDMCch c) Reg.DMC_WMARK_ROWS (w + 1) = u at hw hst' ⊢
  have hle := s.rankRows_le
  generalize s.rankRows = n at hle ⊢
  by_cases h : w + 1 = n
  · rw [if_pos h]
    have hm1 := State.rankSt_setRankSt (u.setRankSt c r 4) (c := c) (r := 1 - r) (r' := r) (st := 1) (by omega) hr (by decide)
    have hm2 := State.rankSt_setRankSt (u.setRankSt c r 4) (c := c) (r := 1 - r) (r' := 1 - r) (st := 1) (by omega) (by omega) (by decide)
    rw [if_neg (by omega), State.rankSt_setRankSt u hr hr (by decide), if_pos rfl] at hm1
    rw [if_pos rfl] at hm2
    have hk := (State.ReadKept.refl u).setRankSt (c := c) (r := r) (st := 4) |>.setRankSt (c := c) (r := 1 - r) (st := 1)
    have hpo : ((u.setRankSt c r 4).setRankSt c (1 - r) 1).poison = u.poison := rfl
    generalize (u.setRankSt c r 4).setRankSt c (1 - r) 1 = v at hm1 hm2 hk hpo ⊢
    have hmark : v.Marked rowRegs ((v.captureLine (pgDMCch c) .rankRetired 0 (208 + 4 * c)).readmit .rankRetired) :=
      (v.marked_captureLine apart_rowRegs _ _ _ _).trans (State.marked_readmit _ apart_rowRegs rowRegs_apart_rgl _)
    have hmem' := (hk.captureLine (p := pgDMCch c) (e := .rankRetired) (a := 0) (l := 208 + 4 * c)).readmit (code := .rankRetired) |>.mem
    generalize (v.captureLine (pgDMCch c) .rankRetired 0 (208 + 4 * c)).readmit .rankRetired = x at hmark hmem' ⊢
    exact ⟨hmem', fun l hl => hmark.poison l (hpo ▸ hl), fun hlt => absurd hlt (by omega),
      fun _ => ⟨(hmark.rankSt hc r).trans hm1, (hmark.rankSt hc (1 - r)).trans hm2⟩⟩
  · rw [if_neg h]
    exact ⟨rfl, fun _ hl => hl, fun hlt => ⟨hw.trans (Nat.mod_eq_of_lt (by change w + 1 < 2 ^ 22; omega)), hst'⟩, fun he => absurd he h⟩

theorem calm_pgDMCch {c : Nat} (hc : c < 16) : Calm (pgDMCch c) := by
  refine calm_of_lt (by unfold pgDMCch; omega) ?_
  simp only [List.mem_cons, List.not_mem_nil, or_false, pgDBG, pgTBU, pgCCU, pgPRU, pgXCU, pgDMCch]
  omega

theorem State.ch_setCh (s : State) (c : Nat) (x : DmcCh) : (s.setCh c x).ch c = x := aget_aset_same _ _ _ _

theorem State.ch_setCh_other (s : State) {c k : Nat} (x : DmcCh) (h : k ≠ c) : (s.setCh c x).ch k = s.ch k :=
  aget_aset_other _ _ _ _ _ h.symm

/-! ## The write buffer (13 R332) -/

/-- The channel without the line that is drained. -/
def State.unbuffered (s : State) (c : Nat) (b : Nat × Nat × Bool) : State :=
  s.setCh c { s.ch c with wbuf := (s.ch c).wbuf.filter fun y => y.1 != b.1 }

/-- A line written in part is read first. -/
def State.drainRead (s : State) (c : Nat) (b : Nat × Nat × Bool) (chk : ReadCheck) : State :=
  match s.readRes (b.1 * 64) 64 chk with
  | .poisoned l => s.capture (pgDMCch c) .poisonedRead (l * 64)
  | _ => s.readMarks (b.1 * 64) 64 chk

theorem State.drain_eq (s : State) (c : Nat) (b : Nat × Nat × Bool) (chk : ReadCheck) : s.drain c b chk =
    if s.lineOffline (b.1 * 64) then (s.unbuffered c b).fadd (pgDMCch c) Reg.DMC_OFFLINE_WR_COUNT 1
    else if !b.2.2 then s.unbuffered c b
    else (s.unbuffered c b).drainRead c b chk := rfl

theorem State.readKept_drain (s : State) (c : Nat) (b : Nat × Nat × Bool) (chk : ReadCheck) :
    (s.unbuffered c b).ReadKept (s.drain c b chk) := by
  have h := State.ReadKept.refl (s.unbuffered c b)
  rw [State.drain_eq]
  refine h.fadd.ite (h.ite ?_)
  unfold State.drainRead
  split
  · exact h.capture
  · exact h.readMarks

/-- A read of DDR-4 that finds its data leaves no mark. -/
theorem State.readMarks_of_data {s : State} {a n : Nat} (hr : s.region a = .ddr) (hd : s.readRes a n .ok = .data) :
    s.readMarks a n .ok = s := by
  have hm : s.mapAccess a n = s := if_neg fun h => by rw [hr] at h; exact nomatch h.2
  unfold State.readMarks
  dsimp only
  rw [hm, hd]
  rfl

theorem State.drainRead_spec (s : State) (c : Nat) (b : Nat × Nat × Bool) :
    (∀ l, s.readRes (b.1 * 64) 64 .ok = .poisoned l → s.drainRead c b .ok = s.capture (pgDMCch c) .poisonedRead (l * 64)) ∧
    (s.region (b.1 * 64) = .ddr → s.readRes (b.1 * 64) 64 .ok = .data → s.drainRead c b .ok = s) := by
  unfold State.drainRead
  refine ⟨fun l h => ?_, fun hr h => ?_⟩
  · rw [h]
  · rw [h]
    exact State.readMarks_of_data hr h

theorem exec_writeBufferDrain {s : State} {c : Nat} {b : Nat × Nat × Bool} (hc : c < 16) (ha : s.awake = true)
    (ht : (s.ch c).training = none) (hal : (s.ch c).alert = false)
    (hw : ∀ r, r ∈ s.atChannel c → 1 < s.tier r ∧ (3 < s.tier r ∨ 48 ≤ (s.ch c).wbuf.length)) (hb : s.drainNext c = some b)
    (chk : ReadCheck) : exec (.writeBufferDrain c chk) s = .next (s.drain c b chk).flow := by
  have h1 : ((s.atChannel c).any fun r => decide (s.tier r ≤ 1)) = false := by
    rw [List.any_eq_false]
    intro r hr
    have := (hw r hr).1
    simpa using this
  have h3 : (!((s.atChannel c).any fun r => decide (s.tier r ≤ 3)) || decide (48 ≤ (s.ch c).wbuf.length)) = true := by
    rw [Bool.or_eq_true, Bool.not_eq_true', List.any_eq_false, decide_eq_true_eq]
    by_cases hl : 48 ≤ (s.ch c).wbuf.length
    · exact .inr hl
    · refine .inl fun r hr => ?_
      have := (hw r hr).2.resolve_right hl
      simpa using this
  have hx : exec (.writeBufferDrain c chk) s = execWriteBufferDrain c chk s := rfl
  rw [hx, execWriteBufferDrain, hb]
  exact onAwake_of_due _ ha (by beta_reduce; rw [h1, h3, ht, hal, decide_eq_true hc]; rfl)

/-! ## Refreshes (14 R357) -/

theorem exec_refreshDue {s : State} {c r : Nat} (hc : c < 16) (hr : r < 2) (ha : s.awake = true) (hst : s.rankSt c r ≠ 0)
    (hd : aget 0 (s.ch c).refAt r ≤ s.now) : exec (.refreshDue c r) s = .next (s.refresh c r) :=
  onAwake_of_due _ ha (by rw [decide_eq_true hc, decide_eq_true hr, bne_iff_ne.mpr hst, decide_eq_true hd]; rfl)

theorem State.refresh_spec (s : State) (c r : Nat) :
    aget 0 ((s.refresh c r).ch c).refAt r = aget 0 (s.ch c).refAt r + s.trefi ∧ (s.refresh c r).mem = s.mem ∧
    (s.rankPressed c r = true → aget 0 (s.ch c).postponed r < 8 →
      aget 0 ((s.refresh c r).ch c).postponed r = aget 0 (s.ch c).postponed r + 1) ∧
    (s.rankPressed c r = false ∨ 8 ≤ aget 0 (s.ch c).postponed r → ((s.refresh c r).ch c).postponed = (s.ch c).postponed) := by
  unfold State.refresh
  dsimp only
  by_cases h : s.rankPressed c r = true ∧ aget 0 (s.ch c).postponed r < 8
  · rw [if_pos h]
    refine ⟨(congrArg (fun x => aget 0 (DmcCh.refAt x) r) (aget_aset_same _ _ _ _)).trans (aget_aset_same _ _ _ _), rfl,
      fun _ _ => (congrArg (fun x => aget 0 (DmcCh.postponed x) r) (aget_aset_same _ _ _ _)).trans (aget_aset_same _ _ _ _), fun hn => ?_⟩
    obtain ⟨hp, hlt⟩ := h
    rcases hn with hn | hn
    · exact absurd (hn.symm.trans hp) Bool.false_ne_true
    · omega
  · rw [if_neg h]
    exact ⟨(congrArg (fun x => aget 0 (DmcCh.refAt x) r) (aget_aset_same _ _ _ _)).trans (aget_aset_same _ _ _ _), rfl,
      fun hp hlt => absurd ⟨hp, hlt⟩ h, fun _ => by rw [State.ch_setCh]⟩

/-! ## Migration -/

theorem State.retiring_spec {s : State} {c r : Nat} (h : s.retiring c = some r) : r < 2 ∧ s.rankSt c r = 3 :=
  ⟨List.mem_range.mp (List.mem_of_find?_eq_some h), beq_iff_eq.mp (List.find?_some (p := fun r => s.rankSt c r == 3) h)⟩

theorem exec_migrationRowDone {s : State} {c r : Nat} (hc : c < 16) (ha : s.awake = true) (ht : (s.ch c).training = none)
    (hr : s.retiring c = some r) (bad : List Nat) : exec (.migrationRowDone c bad) s = .next (s.rowDone c r bad).flow := by
  have hx : exec (.migrationRowDone c bad) s = execMigrationRowDone c bad s := rfl
  rw [hx, execMigrationRowDone, hr]
  exact onAwake_of_due _ ha (by rw [ht, decide_eq_true hc]; rfl)

/-! ## Alerts -/

/-- The counters of retries. -/
def retryRegs (p o : Nat) : Prop := 0x070 ≤ p ∧ p < 0x080 ∧ (o = 0x058 ∨ o = 0x05C)

theorem apart_retryRegs : Apart retryRegs := by
  rintro p o ⟨_, _, rfl | rfl⟩ <;> decide

theorem retryRegs_other {p o : Nat} (h : retryRegs p o) : p ≠ pgRGL ∧ o ∉ [0x040, 0x044] := by
  obtain ⟨h, _, rfl | rfl⟩ := h
  · exact ⟨by unfold pgRGL; omega, by decide⟩
  · exact ⟨by unfold pgRGL; omega, by decide⟩

/-- The commands of the last four alerts came too fast. -/
def DmcCh.storm (x : DmcCh) : Prop :=
  4 ≤ x.alerts.length ∧ x.alerts.getD (x.alerts.length - 1) 0 - x.alerts.getD (x.alerts.length - 4) 0 ≤ 250000

/-- The retry counter of an alert's cause. -/
def retryFld (wcrc : Bool) : Fld := if wcrc then Reg.DMC_WCRC_RETRY_COUNT else Reg.DMC_CAPAR_RETRY_COUNT

theorem State.alertDone_storm {s : State} {c : Nat} (h : (s.ch c).storm) (wcrc : Bool) (ranks : List Nat) :
    s.alertDone c wcrc ranks = (ranks.eraseDups.filter (· < 2)).foldl (fun t r => t.rankError c r 0 true)
      ((s.setCh c { s.ch c with alert := false, alerts := [] }).pulse (210 + 4 * c)) := if_pos h

theorem State.alertDone_replay {s : State} {c : Nat} (h : ¬ (s.ch c).storm) (wcrc : Bool) (ranks : List Nat) :
    s.alertDone c wcrc ranks = (s.setCh c { s.ch c with alert := false, alerts := (s.ch c).alerts.drop ((s.ch c).alerts.length - 3) }).fadd
      (pgDMCch c) (retryFld wcrc) 1 := if_neg h

theorem State.alertDone_spec (s : State) {c : Nat} (hc : c < 16) (wcrc : Bool) (ranks : List Nat) :
    ((s.alertDone c wcrc ranks).ch c).alert = false ∧ (s.alertDone c wcrc ranks).mem = s.mem ∧
    (¬ (s.ch c).storm → (s.alertDone c wcrc ranks).fget (pgDMCch c) (retryFld wcrc) =
      min (s.fget (pgDMCch c) (retryFld wcrc) + 1) (2 ^ 32 - 1)) ∧
    ((s.ch c).storm → (s.alertDone c wcrc ranks).fget (pgDMCch c) (retryFld wcrc) = s.fget (pgDMCch c) (retryFld wcrc) ∧
      210 + 4 * c ∈ (s.alertDone c wcrc ranks).snA.lines ∧ 210 + 4 * c ∈ (s.alertDone c wcrc ranks).snB.lines) := by
  by_cases h : (s.ch c).storm
  · rw [State.alertDone_storm h]
    have hch := s.ch_setCh c { s.ch c with alert := false, alerts := [] }
    have hmem : (s.setCh c { s.ch c with alert := false, alerts := [] }).mem = s.mem := rfl
    have hf : (s.setCh c { s.ch c with alert := false, alerts := [] }).fget (pgDMCch c) (retryFld wcrc) =
      s.fget (pgDMCch c) (retryFld wcrc) := rfl
    generalize s.setCh c { s.ch c with alert := false, alerts := [] } = u at hch hmem hf ⊢
    obtain ⟨hA, hB⟩ := u.mem_lines_pulse (l := 210 + 4 * c) (by omega)
    have hm := (u.marked_pulse (keep := retryRegs) (210 + 4 * c)).trans (foldl_rel State.Marked.refl State.Marked.trans
      (fun t r => t.marked_rankError apart_retryRegs (fun _ _ => retryRegs_other) c r 0 true) (ranks.eraseDups.filter (· < 2)) _)
    have hl := foldl_rel (R := State.Marked retryRegs) State.Marked.refl State.Marked.trans
      (fun t r => t.marked_rankError apart_retryRegs (fun _ _ => retryRegs_other) c r 0 true) (ranks.eraseDups.filter (· < 2))
      (u.pulse (210 + 4 * c))
    have hk := ((State.ReadKept.refl u).pulse (l := 210 + 4 * c)).foldl (f := fun t r => t.rankError c r 0 true)
      (fun t r ht => ht.rankError) (ranks.eraseDups.filter (· < 2))
    generalize (ranks.eraseDups.filter (· < 2)).foldl (fun t r => t.rankError c r 0 true) (u.pulse (210 + 4 * c)) = v at hm hl hk ⊢
    refine ⟨?_, hk.mem.trans hmem, fun hn => absurd h hn, fun _ => ⟨?_, (hl.lines _).1 hA, (hl.lines _).2 hB⟩⟩
    · rw [State.ch, hm.dmc, ← State.ch, hch]
    · rw [← hf]
      refine congrArg (Fld.get _) (hm.regs _ _ ⟨by unfold pgDMCch; omega, by unfold pgDMCch; omega, ?_⟩)
      cases wcrc
      · exact .inr rfl
      · exact .inl rfl
  · rw [State.alertDone_replay h]
    refine ⟨congrArg DmcCh.alert (s.ch_setCh c _), rfl, fun _ => ?_, fun hs => absurd hs h⟩
    cases wcrc
    · exact State.fget_fadd_same _ _ (by decide) 1
    · exact State.fget_fadd_same _ _ (by decide) 1

/-! ## Training -/

/-- A channel in training, from now on. -/
def State.training (s : State) (c : Nat) : State :=
  (s.setCh c { s.ch c with training := some s.now }).fset (pgDMCch c) Reg.DMC_CHSTATE_TRAINING 1

/-- The window is seen. -/
def State.maintSeen (s : State) : State := { s with frm := { s.frm with maintSeen := true } }

/-- The lowest channel that is due trains where the window leaves room. -/
def State.maintTrain (s : State) : Option Nat → State
  | some c => s.training c
  | none => s

theorem State.maintOpen_eq (s : State) : s.maintOpen =
    if s.frameNs + 120000 ≤ (s.frm.maintStart + s.frm.maintLen) * 1000 then
      s.maintSeen.maintTrain ((List.range 16).find? fun c => (s.dueAt c).isSome)
    else s.maintSeen := rfl

theorem State.maintTrain_kept (s : State) (o : Option Nat) : (s.maintTrain o).frm = s.frm ∧ (s.maintTrain o).mem = s.mem := by
  cases o <;> exact ⟨rfl, rfl⟩

theorem State.maintOpen_kept (s : State) : s.maintOpen.frm.maintSeen = true ∧ s.maintOpen.mem = s.mem := by
  rw [State.maintOpen_eq]
  split
  · obtain ⟨hf, hm⟩ := s.maintSeen.maintTrain_kept ((List.range 16).find? fun c => (s.dueAt c).isSome)
    exact ⟨by rw [hf]; rfl, hm⟩
  · exact ⟨rfl, rfl⟩

theorem find?_range_first {p : Nat → Bool} {c n : Nat} (hc : c < n) (h : p c = true) (hn : ∀ k, k < c → p k = false) :
    (List.range n).find? p = some c := by
  rw [List.find?_range_eq_some]
  exact ⟨h, List.mem_range.mpr hc, fun k hk => by rw [hn k hk]; rfl⟩

theorem State.maintOpen_due {s : State} {c : Nat} (hc : c < 16) (hroom : s.frameNs + 120000 ≤ (s.frm.maintStart + s.frm.maintLen) * 1000)
    (hd : s.dueAt c ≠ none) (hn : ∀ k, k < c → s.dueAt k = none) : s.maintOpen = s.maintSeen.training c := by
  rw [State.maintOpen_eq, if_pos hroom, find?_range_first hc (Option.isSome_iff_ne_none.mpr hd) fun k hk => by rw [hn k hk]; rfl]
  rfl

theorem State.training_spec (s : State) (c : Nat) : ((s.training c).ch c).training = some s.now ∧
    (s.training c).fget (pgDMCch c) Reg.DMC_CHSTATE_TRAINING = 1 ∧ ∀ k, k ≠ c → (s.training c).ch k = s.ch k :=
  ⟨congrArg DmcCh.training (s.ch_setCh c _), State.fget_fset_same _ _ _ (by decide) 1, fun _ hk => s.ch_setCh_other _ hk⟩

theorem exec_maintWindowOpen {s : State} {e : Nat} (ha : s.awake = true) (ht : s.frm.tickAt.isSome = true)
    (hs : s.frm.maintSeen = false) (hd : s.dueCtr e (s.tickNs + s.frm.maintStart * 1000) = true) :
    exec (.maintWindowOpen e) s = .next (elapse e s).maintOpen :=
  onAwake_of_due _ ha (by rw [ht, hs, hd]; rfl)

theorem exec_retrainDone {s : State} {c e t0 : Nat} (hc : c < 16) (hl : s.live = true) (ht : (s.ch c).training = some t0)
    (hd : s.now + e ≤ t0 + 30000) (temp : Nat) (good : Bool) :
    exec (.retrainDone c e temp good) s = .next ((elapse e s).retrained c temp good).flow := by
  have hx : exec (.retrainDone c e temp good) s = execRetrainDone c e temp good s := rfl
  rw [hx, execRetrainDone, ht]
  exact onLive_of_due _ hl (by dsimp only; rw [decide_eq_true hc, decide_eq_true hd]; rfl)

/-- The training has ended. -/
def State.trained (s : State) (c : Nat) : State :=
  (s.setCh c { s.ch c with training := none }).fset (pgDMCch c) Reg.DMC_CHSTATE_TRAINING 0

theorem State.retrained_poor (s : State) (c temp : Nat) : s.retrained c temp false =
    ((s.trained c).fadd (pgDMCch c) Reg.DMC_TRAIN_FAIL_COUNT 1).pulse (209 + 4 * c) := rfl

theorem State.ch_trained (s : State) (c : Nat) : (s.trained c).ch c = { s.ch c with training := none } := s.ch_setCh c _

theorem State.retrained_good_spec (s : State) (c temp : Nat) : ((s.retrained c temp true).ch c).training = none ∧
    ((s.retrained c temp true).ch c).trainedAt = s.now ∧ ((s.retrained c temp true).ch c).dueSince = none ∧
    ((s.retrained c temp true).ch c).overdue = false ∧ (s.retrained c temp true).mem = s.mem := by
  have h : (s.retrained c temp true).ch c =
      { (s.trained c).ch c with trainedAt := (s.trained c).now, temp := temp, dueSince := none, overdue := false } :=
    (s.trained c).ch_setCh c _
  rw [h, s.ch_trained]
  exact ⟨rfl, rfl, rfl, rfl, rfl⟩

theorem State.retrained_poor_spec (s : State) {c : Nat} (hc : c < 16) (temp : Nat) : ((s.retrained c temp false).ch c).training = none ∧
    ((s.retrained c temp false).ch c).trainedAt = (s.ch c).trainedAt ∧ 209 + 4 * c ∈ (s.retrained c temp false).snA.lines ∧
    209 + 4 * c ∈ (s.retrained c temp false).snB.lines ∧
    (s.retrained c temp false).fget (pgDMCch c) Reg.DMC_TRAIN_FAIL_COUNT =
      min (s.fget (pgDMCch c) Reg.DMC_TRAIN_FAIL_COUNT + 1) (2 ^ 32 - 1) ∧ (s.retrained c temp false).mem = s.mem := by
  rw [State.retrained_poor]
  have hch : ((s.trained c).fadd (pgDMCch c) Reg.DMC_TRAIN_FAIL_COUNT 1).ch c = { s.ch c with training := none } := s.ch_trained c
  have hf : ((s.trained c).fadd (pgDMCch c) Reg.DMC_TRAIN_FAIL_COUNT 1).fget (pgDMCch c) Reg.DMC_TRAIN_FAIL_COUNT =
      min (s.fget (pgDMCch c) Reg.DMC_TRAIN_FAIL_COUNT + 1) (2 ^ 32 - 1) := by
    rw [State.fget_fadd_same _ _ (by decide), State.trained, State.fget_fset_other _ _ _ _ _ (by decide) (by decide) (by decide)]
    rfl
  have hmem : ((s.trained c).fadd (pgDMCch c) Reg.DMC_TRAIN_FAIL_COUNT 1).mem = s.mem := rfl
  generalize (s.trained c).fadd (pgDMCch c) Reg.DMC_TRAIN_FAIL_COUNT 1 = u at hch hf hmem ⊢
  obtain ⟨hA, hB⟩ := u.mem_lines_pulse (l := 209 + 4 * c) (by omega)
  have hchp : (u.pulse (209 + 4 * c)).ch c = u.ch c := by
    obtain ⟨a, b, h⟩ := u.pulse_shape (209 + 4 * c)
    rw [h]
    rfl
  have hfp : (u.pulse (209 + 4 * c)).fget (pgDMCch c) Reg.DMC_TRAIN_FAIL_COUNT = u.fget (pgDMCch c) Reg.DMC_TRAIN_FAIL_COUNT := by
    obtain ⟨a, b, h⟩ := u.pulse_shape (209 + 4 * c)
    rw [h]
    rfl
  rw [hchp, hch, hfp]
  exact ⟨rfl, rfl, hA, hB, hf, ((State.ReadKept.refl u).pulse.mem).trans hmem⟩

theorem exec_retrainOverdue {s : State} {c e k : Nat} (hc : c < 16) (ha : s.awake = true) (ho : (s.ch c).overdue = false)
    (hk : (elapse e s).dueAt c = some k) (hd : s.dueNow e (k + 15000000000) = true) :
    exec (.retrainOverdue c e) s =
      .next (((elapse e s).setCh c { (elapse e s).ch c with overdue := true }).pulse (209 + 4 * c)) := by
  have hx : exec (.retrainOverdue c e) s = execRetrainOverdue c e s := rfl
  rw [hx, execRetrainOverdue, hk]
  exact onAwake_of_due _ ha (by dsimp only; rw [ho, hd, decide_eq_true hc]; rfl)

theorem exec_ddrAlert {s : State} {c : Nat} (hc : c < 16) (hl : s.live = true) (ha : (s.ch c).alert = false) (e : Nat) :
    exec (.ddrAlert c e) s = .next ((elapse e s).setCh c { (elapse e s).ch c with
      alert := true, alerts := ((elapse e s).ch c).alerts ++ [(elapse e s).now] }) :=
  onLive_of_due _ hl (by rw [ha, decide_eq_true hc]; rfl)

theorem exec_ddrAlertDeassert {s : State} {c : Nat} (hc : c < 16) (hl : s.live = true) (ha : (s.ch c).alert = true) (wcrc : Bool)
    (ranks : List Nat) : exec (.ddrAlertDeassert c wcrc ranks) s = .next (s.alertDone c wcrc ranks).flow :=
  onLive_of_due _ hl (by rw [ha, decide_eq_true hc]; rfl)

theorem State.ch_elapse (e : Nat) (s : State) (c : Nat) : (elapse e s).ch c = s.ch c := by
  rw [State.ch, elapse_dmc, ← State.ch]

/-- Settles O51: each event of a channel changes that channel, its page and its lines, and the marks of errors keep the rest. -/
theorem dramChannelsRefreshMigrateAndTrain : Obligations.DramChannelsRefreshMigrateAndTrain := by
  unfold Obligations.DramChannelsRefreshMigrateAndTrain
  intro s c hc
  refine ⟨?drain, ?refresh, ?row, ?alert, ?deassert, ?window, ?train, ?overdue⟩
  case drain =>
    intro ha ht hal hw b hb
    have hk := s.readKept_drain c b .ok
    refine ⟨exec_writeBufferDrain hc ha ht hal hw hb .ok, (State.flowed_flow _).mem.trans hk.mem, fun ho => ?_, fun ho hp => ?_,
      fun ho hp => ?_⟩
    · exact (s.drain_eq c b .ok).trans (if_pos ho)
    · exact (s.drain_eq c b .ok).trans ((if_neg (by rw [ho]; exact Bool.false_ne_true)).trans (if_pos (by rw [hp]; rfl)))
    · have hd : s.drain c b .ok = (s.unbuffered c b).drainRead c b .ok :=
        (s.drain_eq c b .ok).trans ((if_neg (by rw [ho]; exact Bool.false_ne_true)).trans (if_neg (by rw [hp]; decide)))
      rw [hd]
      exact State.drainRead_spec (s.unbuffered c b) c b
  case refresh =>
    intro r ha hr hst hd
    exact ⟨_, exec_refreshDue hc hr ha hst hd, s.refresh_spec c r⟩
  case row =>
    intro r bad ha ht hret
    obtain ⟨hr, hst⟩ := State.retiring_spec hret
    obtain ⟨hm, hmem, hbad⟩ := State.rowMarked_spec hc hst bad
    have hx := exec_migrationRowDone hc ha ht hret bad
    have hnext := (s.rowMarked c r bad).rowNext_spec (w := s.fget (pgDMCch c) Reg.DMC_WMARK_ROWS) hc hr ((hm.rankSt hc r).trans hst)
    rw [hm.rankRows, ← State.rowDone_of_copying hc hst bad] at hnext
    obtain ⟨hnmem, hnpoison, hmore, hlast⟩ := hnext
    exact ⟨hx, hnmem.trans hmem, fun l hl hrow => hnpoison l (hbad l hl hrow), hmore, hlast⟩
  case alert =>
    intro e hl ha
    refine ⟨_, exec_ddrAlert hc hl ha e, ?_, ?_, fun k hk => ?_, elapse_mem e s⟩
    · rw [State.ch_setCh]
    · rw [State.ch_setCh, State.ch_elapse, elapse_now_of_live e hl]
    · rw [State.ch_setCh_other _ _ hk, State.ch_elapse]
  case deassert =>
    intro wcrc ranks hl ha
    obtain ⟨hal, hmem, hreplay, hstorm⟩ := s.alertDone_spec hc wcrc ranks
    exact ⟨exec_ddrAlertDeassert hc hl ha wcrc ranks, hal, hmem, hreplay, hstorm⟩
  case window =>
    intro e ha ht hs hd
    obtain ⟨hseen, hmem⟩ := (elapse e s).maintOpen_kept
    refine ⟨_, _, exec_maintWindowOpen ha ht hs hd, rfl, hseen, hmem.trans (elapse_mem e s), fun hroom hdue hn => ?_⟩
    have hfrm : (elapse e s).frm.maintStart = s.frm.maintStart ∧ (elapse e s).frm.maintLen = s.frm.maintLen := by simp
    rw [← hfrm.1, ← hfrm.2] at hroom
    rw [State.maintOpen_due hc hroom hdue hn]
    obtain ⟨htr, hreg, hother⟩ := (elapse e s).maintSeen.training_spec c
    exact ⟨htr, hreg, fun k hk => (hother k hk).trans (State.ch_elapse e s k)⟩
  case train =>
    intro e temp t0 hl ht hd
    obtain ⟨g1, g2, g3, g4, gmem⟩ := (elapse e s).retrained_good_spec c temp
    obtain ⟨h1, h2, hA, hB, hf, hmem⟩ := (elapse e s).retrained_poor_spec hc temp
    refine ⟨exec_retrainDone hc hl ht hd temp true, exec_retrainDone hc hl ht hd temp false, g1, ?_, g3, g4, h1, ?_, hA, hB, ?_,
      gmem.trans (elapse_mem e s), hmem.trans (elapse_mem e s)⟩
    · rw [g2, elapse_now_of_live e hl]
    · rw [h2, State.ch_elapse]
    · rw [hf, (calm_pgDMCch hc).fget e s (by decide)]
  case overdue =>
    intro e k ha ho hk hd
    have hch := (elapse e s).ch_setCh c { (elapse e s).ch c with overdue := true }
    have hmem : ((elapse e s).setCh c { (elapse e s).ch c with overdue := true }).mem = s.mem := elapse_mem e s
    have hx := exec_retrainOverdue hc ha ho hk hd
    generalize (elapse e s).setCh c { (elapse e s).ch c with overdue := true } = u at hch hmem hx
    obtain ⟨hA, hB⟩ := u.mem_lines_pulse (l := 209 + 4 * c) (by omega)
    refine ⟨_, hx, ?_, hA, hB, (State.ReadKept.refl u).pulse.mem.trans hmem⟩
    rw [State.ch, (u.marked_pulse (keep := fun _ _ => False) (209 + 4 * c)).dmc, ← State.ch, hch]

end Sys2Proof.Machine
end

section
/-!
PROOF. Die links: a ring segment of a number that no Lantern has shares its state with the guest port (15 R373, R375; 01 R21).
-/

namespace Sys2Proof.Machine

open Sys2Proof

-- One thread at a time: the stacks of threads that wait for each other count against the check's memory limit.
set_option Elab.async false

/-- The segment of the ring numbered 8, downward: no Lantern has that number, and the die it ends at is the Chimney's. -/
def ring8Down : Link := ⟨.ring 8, false⟩

/-- A read for the guest: its flit, with the LSEQ 0. -/
def guestRead : List Byte :=
  mkFlit { ty := 1, tc := 0, part := 0, dst := 160, src := 0, tag := 0, addr := 0, boff := 0, blast := 63, err := 0 } noPayload

/-- A link whose downward transmitter has four credits of each class. -/
def fourCredits : LinkSt := { LinkSt.zero with down := { LinkDir.zero with credits := List.replicate 8 4 } }

/-- The guest port's link, and with it the segment, whose key is the same; both are FULL. -/
def bothFull : State :=
  (({ State.reset with powered := true }.setLink .guest fourCredits).fset (pgLNK 8) (fldLnkState.at_ 0x40) 2).fset pgGST
    Reg.GST_STATE_STATE 2

/-- The flit may arrive: it is good, expected, within the window and against a credit. -/
theorem guestRead_arrives :
    bothFull.live = true ∧ bothFull.linkUp ring8Down.mod = true ∧ bothFull.linkMoves ring8Down.mod = true ∧
    bothFull.link ring8Down.mod = fourCredits ∧ guestRead.length = 80 ∧ flitGood guestRead = true ∧
    flitRefused (ring8Down.mod == .guest && ring8Down.up) guestRead = false ∧ hdrBits guestRead 2 0 = 1 ∧
    hdrBits guestRead 103 96 = fourCredits.down.expect ∧ hdrBits guestRead 5 3 = 0 ∧ fourCredits.down.mayArrive guestRead = true := by
  decide +kernel

/-- The Chimney passes it on to the guest over the same link, against a second credit. -/
theorem guestRead_takes_two_credits :
    ((((elapse 0 bothFull).flit ring8Down guestRead).link ring8Down.mod).dir ring8Down.up).credits = 2 :: List.replicate 7 4 := by
  decide +kernel

/-- Refutes O52: the statement speaks of links that do not exist too. The ring segment numbered 8 has the guest port's key, so a flit
for the guest that is accepted on it is passed on over the same direction, which uses a second credit. -/
theorem not_linksCarryFlitsAndRetireLanes : ¬ Obligations.LinksCarryFlitsAndRetireLanes := by
  unfold Obligations.LinksCarryFlitsAndRetireLanes
  rintro ⟨hlinks, -, -⟩
  obtain ⟨hlive, hup, hmoves, hlink, hlen, hgood, hok, htype, hseq, hclass, hmay⟩ := guestRead_arrives
  obtain ⟨hflit, -⟩ := hlinks bothFull ring8Down hlive hup
  obtain ⟨-, -, -, haccept⟩ := hflit guestRead 0 hmoves hlen
  rw [hlink] at haccept
  obtain ⟨-, -, -, -, -, hcredit⟩ := haccept hgood hok (by rw [htype]; decide) (by rw [htype]; decide) hseq (by decide) hmay rfl
  have hone := hcredit (by decide)
  rw [hclass, guestRead_takes_two_credits] at hone
  exact absurd hone (by decide)

end Sys2Proof.Machine
end
